-- ==== Sys2Proof/Word.lean ====
section
/-!
DEFINITION. The plain word types of the model and the finite maps it keeps its tables in.
Rules R8 to R12 of 01_conventions.md: bit 0 is the least significant bit, byte 0 lies lowest.
-/
namespace Sys2Proof

/-- A byte (R10). -/
abbrev Byte := BitVec 8
/-- A 32-bit register word or scalar register (R64, R236). -/
abbrev Word := BitVec 32
/-- A 24-bit element of a vector or block register (R240). -/
abbrev Elem := BitVec 24
/-- A 64-bit channel token or syntax word. -/
abbrev DWord := BitVec 64

/-- A finite map from numbers, kept as a list in strictly rising key order. -/
abbrev Map (α : Type) := List (Nat × α)

/-- The value at a key. -/
def mget {α : Type} : Map α → Nat → Option α
  | [], _ => none
  | (k', v) :: t, k => if k = k' then some v else mget t k

/-- The value at a key, or the default of an unlisted key. -/
def mgetD {α : Type} (m : Map α) (k : Nat) (d : α) : α := (mget m k).getD d

/-- Writes a key, keeping the rising order. -/
def mset {α : Type} : Map α → Nat → α → Map α
  | [], k, v => [(k, v)]
  | (k', v') :: t, k, v =>
    if k < k' then (k, v) :: (k', v') :: t
    else if k = k' then (k, v) :: t
    else (k', v') :: mset t k v

/-- Removes a key. -/
def mdel {α : Type} : Map α → Nat → Map α
  | [], _ => []
  | (k', v) :: t, k => if k = k' then t else (k', v) :: mdel t k

/-- Changes the value at a key, starting from the default of an unlisted key. -/
def mmod {α : Type} (m : Map α) (k : Nat) (d : α) (f : α → α) : Map α := mset m k (f (mgetD m k d))

/-- Changes the value at a key that is listed; does nothing at one that is not. -/
def mupd {α : Type} (m : Map α) (k : Nat) (f : α → α) : Map α :=
  match mget m k with
  | some v => mset m k (f v)
  | none => m

/-- The keys are strictly rising. -/
def msorted {α : Type} : Map α → Bool
  | [] => true
  | [_] => true
  | (a, _) :: (b, w) :: t => decide (a < b) && msorted ((b, w) :: t)

end Sys2Proof
end

