-- ==== Sys2Proof/Syntax.lean ====
section
/-!
DEFINITION. The commands the part takes from outside and the events it meets, one constructor per row of
spec/opcode_table.json, with their operands.
-/
namespace Sys2Proof

/-- The straps as they are sampled at a rise of PERST_N (24_startup_and_dormant.md, Straps). -/
structure Straps where
  bootSrc : Nat
  dormantForce : Bool
  smbAddrSel : Bool
  deriving DecidableEq, Repr

/-- The header of a service firmware package (R551), with the two verdicts of R552 that hashing and Ed25519 give. -/
structure Package where
  magic : Nat
  len : Nat
  format : Nat
  steppings : List Nat
  fwOffset : Nat
  fwLen : Nat
  bootsetOffset : Nat
  bootsetCount : Nat
  goldenOffset : Nat
  goldenLen : Nat
  version : Nat
  keyMatches : Bool
  sigValid : Bool
  deriving DecidableEq, Repr

/-- What stage 6 met when it read its source (R550). -/
inductive PackageRead
  | noFlash
  | badHeader
  | hostReadError
  | read (p : Package)
  deriving DecidableEq, Repr

/-- The AER errors of R101. -/
inductive AerError
  | receiverError | badTlp | badDllp | replayRollover | replayTimeout | advisory | correctedInternal
  | dllProtocol | surpriseDown | poisonedTlp | flowControl | completionTimeout | unexpectedCompletion
  | receiverOverflow | malformedTlp | uncorrectableInternal
  deriving DecidableEq, Repr

/-- What configuration space reports of the feature table of R93, of R105 and of R107. -/
inductive CfgFeature
  | functions | sriov | ari | maxPayload | maxReadRequest | tag10Requester | tag10Completer | noSnoop | idOrdering | msi | msix
  | interruptPin | aer | ecrc | timeoutRanges | timeoutDisable | aspmL0s | aspmL1 | l1Substates | d1 | d2 | pmeD0 | pmeD3hot
  | pmeD3cold | flr | resizableBar0 | resizableBar2 | resizableBar4 | atomicOps | ats | pasid | pri | tph | ltr | dpc | ptm
  | noSoftReset | l1ExitLatency | l1AcceptableLatency
  deriving DecidableEq, Repr

/-- A configuration request of system software (R93 to R95, R97, R101), apart from those with rows of their own. Base address
registers are numbered 0 to 5, the odd ones being upper halves. -/
inductive CfgReq
  | readId
  | readSubsystem
  | readClass
  | readFeature (f : CfgFeature)
  | readBar (i : Nat)
  | writeBar (i : Nat) (v : Word)
  | readAer
  | clearAer (e : AerError)
  | setAerMask (e : AerError) (b : Bool)
  | setAerFatal (e : AerError) (b : Bool)
  | setTimeoutRange (n : Nat)
  | setMse (b : Bool)
  | setPmeEn (b : Bool)
  | setMsixEnable (b : Bool)
  | setRelaxed (b : Bool)
  | setMps (n : Nat)
  | setMrrs (n : Nat)
  | setTag10 (b : Bool)
  | setAspmL1 (b : Bool)
  | resizeBar2 (size : Nat)
  | setTimeoutDisable (b : Bool)
  deriving DecidableEq, Repr

/-- What a device read of host memory was for (R100). -/
inductive HostRead
  | ownerWord (q : Nat)
  | entryBody (q : Nat)
  | jobInput (job : Nat)
  | descriptor (ch : Nat)
  | poolHeader (pool : Nat)
  deriving DecidableEq, Repr

/-- How a completion of such a read ends (R100), or arrives in a form that only AER reports (R101). -/
inductive ReadEnd | ok | unsupported | aborted | poisoned | unexpected | malformed | overflow
  deriving DecidableEq, Repr

/-- What the regulator answered in one loop period (R46 to R48). -/
structure AvsReply where
  writeOk : Bool
  statusOk : Bool
  readback : Nat
  deriving DecidableEq, Repr

/-- The writable words of an MSI-X table entry that carry address and data (R97, R478). -/
inductive MsixField | addrLo | addrHi | data
  deriving DecidableEq, Repr

/-- The result of a unit's self-test (R26, R541): for each core tested, its number, its healthy lanes and whether its
golden streams passed. `ok` is the test of the unit itself. -/
structure SelfTest where
  ok : Bool
  cores : List (Nat × Nat × Bool)
  deriving DecidableEq, Repr

/-- One source firing in an event (R531, R536), with the job it hit, if one is attached (R532). -/
structure FaultHit where
  source : Nat
  inst : Nat
  job : Option Nat
  info : Nat
  deriving DecidableEq, Repr

/-- A unit that fails at boot (R555). -/
inductive UnitFail
  | core (n : Nat)
  | quad (q : Nat)
  | dch (k : Nat)
  deriving DecidableEq, Repr

/-- The tile-column and bit figures that an image publishes for one CTU size (R314, R586). -/
structure CtuParams where
  ctu : Nat
  minCols : Nat
  maxCols : Nat
  maxCount : Nat
  minCtuBits : Nat
  tailBits : Nat
  guardBits : Nat
  hdrBase : Nat
  hdrPerCore : Nat
  deriving DecidableEq, Repr

/-- One per-core rate of an image at tempo 1.000, in pixels per second (R314, R326). `encode` with a preset, or decode. -/
structure RateRow where
  encode : Bool
  preset : Nat
  chroma : Nat
  depth : Nat
  rate : Nat
  deriving DecidableEq, Repr

/-- One row of an image's profile table (R587). -/
structure ProfileRow where
  code : Nat
  enc : Bool
  dec : Bool
  chromas : List Nat
  depths : List Nat
  deriving DecidableEq, Repr

/-- One row of an image's level table (R314): largest luma picture size and luma sample rate. -/
structure LevelRow where
  level : Nat
  tier : Nat
  maxPx : Nat
  maxRate : Nat
  dpb : Nat
  deriving DecidableEq, Repr

/-- Entry points that an image declares for an opcode and direction: one instruction index per sequencer (R269). -/
structure EntryRow where
  opcode : Nat
  encode : Bool
  pcs : List Nat
  deriving DecidableEq, Repr

/-- A span of a core context that an image declares live (R160, R314): part 0 is the bin engine's contexts, 1 its CDF entries,
2 + q the data memory of sequencer q, each from entry or byte `base` on. -/
structure LiveSpan where
  part : Nat
  base : Nat
  len : Nat
  deriving DecidableEq, Repr

/-- What an image publishes (R314). Lists by preset have eight entries. Channel maps list the sending and the receiving
endpoint of ch0 to ch7: 0 to 4 the stages, 5 the pilot, 6 the bin engine (R209). -/
structure PersParams where
  marginEnc : Nat
  marginDec : Nat
  vsr : List Nat
  ctuOf : List Nat
  defRefs : List Nat
  defLook : List Nat
  refLimit : Nat
  qpMax : Nat
  lag : Nat
  lookRate : Nat
  chEnc : List (Nat × Nat)
  chDec : List (Nat × Nat)
  entries : List EntryRow
  limitEntry : Nat
  ctus : List CtuParams
  rates : List RateRow
  profiles : List ProfileRow
  levels : List LevelRow
  live : List LiveSpan := []
  deriving DecidableEq, Repr

/-- What a RELOC entry names (R314): a field of the instruction at an index of PROGRAM, or the IMM field of the syntax
word at an index of TABLES. -/
inductive RelocKind | target | tbase | desc | imm32 | syn
  deriving DecidableEq, Repr

/-- One section table entry with the verdict of its CRC-32C. -/
structure PersSection where
  kind : Nat
  off : Nat
  len : Nat
  crcOk : Bool
  deriving DecidableEq, Repr

/-- A personality image as the device reads it (R314 to R316): its header, its sections, the verdicts of hashing and of
Ed25519, and the contents that reach the cores. -/
structure PersImage where
  magic : Nat
  id : Nat
  len : Nat
  format : Nat
  flags : Nat
  steppings : List Nat
  progWords : Nat
  tableWords : Nat
  sections : List PersSection
  keyMatches : Bool
  sigValid : Bool
  prog : List DWord
  tables : List Word
  relocs : List (RelocKind × Nat)
  params : PersParams
  deriving DecidableEq, Repr

/-- What one boot stage met (R549): a failure of the stage itself, the unit failures of R555, the lane counts that the
self-tests found (R26), the package read of stage 6, the boot-set images of stage 8, and the cores that passed every
golden stream in stage 9. -/
structure StageResult where
  fail : Option (Nat × Nat)
  units : List UnitFail
  lanes : List (Nat × Nat)
  pkg : PackageRead
  flashOk : Bool
  images : List PersImage
  golden : List Nat
  deriving DecidableEq, Repr


/-- The producers of Caldera packets (R424): a core's job, a depacketizer's flow, the slow path, the Placer, a QD channel. -/
inductive Producer
  | core (job : Nat)
  | depack (flow : Nat)
  | slowpath (port lane : Nat)
  | placer
  | qdma (ch : Nat)
  deriving DecidableEq, Repr

/-- The TYPE of a Caldera queue item (R422). -/
inductive PktType | idle | data | discont | bufref
  deriving DecidableEq, Repr

/-- The crust fields that a producer gives when it opens a packet (R421, R428). -/
structure Crust where
  typ : PktType
  lastRef : Bool
  key : Bool
  auEnd : Bool
  auStart : Bool
  tag : Nat
  deriving DecidableEq, Repr

/-- One request to a DRAM controller (R402, R403): its port and class, the unit that sent it (R30), whether it writes, its
device address, the bytes of its 64-byte line that a write covers (R398), whether it was promoted by age, and when it arrived
in ns. -/
structure DchReq where
  port : Nat
  cls : Nat
  src : Nat
  write : Bool
  addr : Nat
  mask : BitVec 64
  promoted : Bool
  arrival : Nat
  deriving DecidableEq, Repr

/-- What the error correction found in an access: nothing, a single-bit error of the memory (R399), or a single-bit error of
the link (R400). -/
inductive EccMet
  | clean
  | single
  | link
  deriving DecidableEq, Repr

/-- What a command slot met (R404, R399, R400): the banks that are not ready, and what error correction found in the access. -/
structure SlotMet where
  busy : List Nat
  ecc : EccMet := .clean
  deriving DecidableEq, Repr

/-- What the PCIe link met when it trained (R93, R101): its width, and the errors that its lower layers found since it trained
last, those among them that led to the loss of the link. -/
structure LinkMet where
  width : Nat
  errs : List AerError := []
  deriving DecidableEq, Repr

/-- What a patrol-scrub read found (R399, R401). -/
inductive ScrubFound
  | clean
  | corrected
  | uncorrectable (addr syndrome word : Nat)
  deriving DecidableEq, Repr

/-- The fields of a Lenong instruction word below its opcode (R239). -/
structure Ins where
  pn : Bool
  pg : Nat
  d : Nat
  a : Nat
  b : Nat
  c : Nat
  x : Word
  deriving DecidableEq, Repr

/-- The fields of a syntax word below its OP (R296). -/
structure SynWord where
  d : Nat
  a : Nat
  b : Nat
  imm : Nat
  deriving DecidableEq, Repr

/-- A picture that the syntax of a unit needs and the pool does not hold (R366): its picture order value, its place in
output order, and whether it was long-term. -/
structure MissingRef where
  picId : Int
  outKey : Int
  long : Bool
  deriving DecidableEq, Repr

/-- What the Placer knows of a coding job when it places it: the slots that the frame names as references (R169), those
that are missing, the size of a decoded picture, the luma pixels of its coded units (R591), whether it keeps a picture, and
the class of the header that names the references (R370). -/
structure PlacePlan where
  refs : List Nat
  missing : List MissingRef
  width : Nat
  height : Nat
  units : List Nat
  kept : Bool
  cls : Nat
  deriving DecidableEq, Repr

/-- The statistic of one 8×8 block of a lookahead copy (R350). -/
structure LookStat where
  intra : Nat
  inter : Nat
  mv : Nat
  deriving DecidableEq, Repr

/-- One lookahead pass that has ended (R225, R350): the core that ran it, the copy's samples, luma, Cb and Cr in raster order, and
the statistics of its blocks in raster order. -/
structure LookPass where
  core : Nat
  copy : List Byte
  stats : List LookStat
  deriving DecidableEq, Repr

/-- The pilot's frame start of an encode frame (R210): picture type (R173), temporal layer, picture order value, header
bits, type and layer of the frames of the window of R343, this one first, and, where lookahead is off, the statistics that LOAD
made of the frame before (R352). -/
structure FrameStart where
  picType : Nat
  tid : Nat
  picId : Int
  hdrBits : Nat
  window : List (Nat × Nat)
  stats : List LookStat := []
  borders : Bool := false
  deriving DecidableEq, Repr

/-- The pilot's frame close of an encode frame (R210, R224): the reference mark of the picture (0 not kept, 1 short, 2 long)
and its long-term index, the slots whose marks it drops, the headers of a tiled frame with entry points or tile sizes, and
the staged bytes of each tile where the
staging pool lies in host memory. -/
structure FrameClose where
  mark : Nat
  longIdx : Nat
  drop : List Nat
  head : List Byte
  staged : List (List Byte)
  deriving DecidableEq, Repr

/-- What the pilot reports of an encode frame. -/
inductive FrameReport
  | start (p : FrameStart)
  | close (p : FrameClose)
  deriving DecidableEq, Repr

/-- The headers of a decode unit as the pilot parsed them: the picture's order value, its place in output order, whether it
begins a coded video sequence, its reference mark, whether it waits for output, the slots whose marks drop, the held
picture that a frame without coded data shows, the pending pictures that the output process releases by the end of the unit
(0xFF its own), whether film grain parameters apply (R165, R174, R177), the CTU size with the raster index of each CTU in decoding
order where that is not raster order (R362), reference 0 and the fraction bits of its motion vectors (R363), and the output
area after cropping, width 0 for the whole picture (R365). -/
structure UnitPic where
  picId : Int
  outKey : Int
  newCvs : Bool
  mark : Nat
  longIdx : Nat
  pending : Bool
  drop : List Nat
  shows : Option Nat
  released : List Nat
  grain : Bool
  ctu : Nat := 16
  scan : List Nat := []
  ref0 : Option Nat := none
  mvFrac : Nat := 2
  crop : Nat × Nat × Nat × Nat := (0, 0, 0, 0)
  borders : Bool := false
  deriving DecidableEq, Repr

/-- The MOTION candidates that the personality holds for a CTU (R363): of the bottom-centre block above, of the right-centre block
to the left, and of the co-located block in reference 0's motion field. -/
structure ConcealMv where
  above : Option (Int × Int) := none
  left : Option (Int × Int) := none
  col : Option (Int × Int) := none
  deriving DecidableEq, Repr

/-- An error in a decode unit (R359, R370, R371), and whether the unit produces no picture because of it (R361). Inside an open
segment, `at'` is the failing CTU and `last` the segment's last, in decoding order, and `mvs` the candidates of the CTUs to be
concealed (R360). -/
structure UnitError where
  cls : Nat
  cause : Nat
  detector : Nat
  byte : Nat
  unit : Nat
  ctu : Nat
  lost : Bool
  at' : Nat := 0
  last : Nat := 0
  mvs : List (Nat × ConcealMv) := []
  deriving DecidableEq, Repr

/-- The end of a decode unit, with the candidates of the CTUs that no segment has covered (R362, R363). -/
structure UnitEnd where
  mvs : List (Nat × ConcealMv) := []
  deriving DecidableEq, Repr

/-- What the pilot reports of a decode unit. -/
inductive UnitReport
  | parsed (p : UnitPic)
  /-- An intact segment header: the segment starts at this CTU in decoding order (R362). -/
  | segment (first : Nat) (mvs : List (Nat × ConcealMv))
  /-- The next CTUs of the open segment are decoded. -/
  | decoded (count : Nat)
  | error (e : UnitError)
  | ended (e : UnitEnd)
  deriving DecidableEq, Repr

/-- A frame as a port's MAC receives it (R484, R487): its bytes from the destination address up to the FCS, whether the FCS
holds, the bytes that the link's receive buffer holds for each priority when it arrives, and the uncorrectable RS-FEC
codewords met since the frame before. -/
structure RxFrame where
  bytes : List Byte
  fcsOk : Bool
  held : List Nat
  fec : Nat
  deriving DecidableEq, Repr

/-- What comes with a register write: whether its data is poisoned (R101), and what host memory answers when it starts a
command that reads it: the header of a pool's first free buffer (R442), a raw descriptor (R495), a header template and the PSI
packets of an egress queue (R512), and a personality image (R314). None is a failed read. -/
structure HostAnswers where
  pool : Option (List Byte) := none
  desc : Option (List Byte) := none
  hdr : Option (List Byte) := none
  psi : Option (List Byte) := none
  img : Option PersImage := none
  poisoned : Bool := false
  deriving DecidableEq, Repr

/-- The commands and events, one constructor per row of the table. Each docstring names the row and its rule. -/
inductive Instr where
  /-- POWER_ON (R546). -/
  | powerOn
  /-- POWER_REMOVAL (R571). -/
  | powerRemoval
  /-- PERST_N_RISE (R547). -/
  | perstNRise (straps : Straps)
  /-- PERST_N_ASSERT (R108). -/
  | perstNAssert
  /-- HOT_RESET (R108). -/
  | hotReset
  /-- FLR (R109). -/
  | flr
  /-- THERMAL_TRIP (R53). -/
  | thermalTrip (mon : Nat)
  /-- CONFIG_REQUEST (R95). -/
  | configRequest (req : CfgReq) (retry : Bool)
  /-- BOOT_STAGE_END (R549). -/
  | bootStageEnd (r : StageResult)
  /-- STAGE_TIMEOUT (R549). -/
  | stageTimeout
  /-- HOST_GO (R550). -/
  | hostGo (v : Word)
  /-- DORMANT_RETRY_GO (R561). -/
  | dormantRetryGo (v : Word)
  /-- MONITOR_WINDOW (R41). -/
  | monitorWindow (mon count : Nat) (tj : Int)
  /-- TEMPO_LOOP_PERIOD (R46). -/
  | tempoLoopPeriod (a : AvsReply)
  /-- AVS_RETRY (R48). -/
  | avsRetry (a : AvsReply)
  /-- THERMAL_SAMPLE (R51). -/
  | thermalSample
  /-- TEMPO_UNDER (R57). -/
  | tempoUnder
  /-- COMPARATOR_FIRE (R61). -/
  | comparatorFire (q k : Nat)
  /-- COMPARATOR_ARM (R459). -/
  | comparatorArm (q k : Nat) (v : Word)
  /-- COMPARATOR_DISARM (R459). -/
  | comparatorDisarm (q k : Nat) (v : Word)
  /-- TIME_LO_READ (R62). -/
  | timeLoRead
  /-- REGISTER_WRITE (R85). -/
  | registerWrite (off len : Nat) (v : DWord) (h : HostAnswers)
  /-- WINDOW_ACCESS (R67). -/
  | windowAccess (off len : Nat) (wr : Option DWord)
  /-- GO (R75). -/
  | go (page : Nat) (mask : BitVec 16)
  /-- HAND_OVER (R76). -/
  | handOver (page group : Nat) (late : List (Nat × Word))
  /-- PAGE_UNLOCK (R80). -/
  | pageUnlock (page : Nat)
  /-- PAGE_RELOCK (R81). -/
  | pageRelock (page : Nat) (key : BitVec 16)
  /-- PAGE_LOCK_TIMEOUT (R81). -/
  | pageLockTimeout (page : Nat)
  /-- UNIT_RESET (R71). -/
  | unitReset (page : Nat)
  /-- UNIT_RESET_DONE (R71). -/
  | unitResetDone (page : Nat) (t : SelfTest)
  /-- UNIT_FENCE (R71). -/
  | unitFence (page : Nat)
  /-- UNIT_UNFENCE (R71). -/
  | unitUnfence (page : Nat)
  /-- UNIT_DISABLE (R71). -/
  | unitDisable (page : Nat)
  /-- UNIT_ENABLE (R71). -/
  | unitEnable (page : Nat)
  /-- UNIT_DRAINED (R71). -/
  | unitDrained (page : Nat)
  /-- SNAP_TAKE (R86). -/
  | snapTake (page : Nat)
  /-- SNAP_RELEASE (R86). -/
  | snapRelease (page : Nat)
  /-- EVT_SET_WRITE (R72). -/
  | evtSetWrite (page : Nat) (v : Word)
  /-- EVT_PEND_CLEAR (R72). -/
  | evtPendClear (page : Nat) (v : Word)
  /-- BAR2_READ (R97). -/
  | bar2Read (off len : Nat) (ue : Bool)
  /-- BAR2_WRITE (R97). -/
  | bar2Write (off : Nat) (bytes : List Byte) (poisoned : Bool)
  /-- HOST_READ_COMPLETE (R100). -/
  | hostReadComplete (what : HostRead) (result : ReadEnd)
  /-- D3HOT_ENTRY (R103). -/
  | d3hotEntry
  /-- D0_RETURN (R106). -/
  | d0Return
  /-- BME_CLEAR (R103). -/
  | bmeClear
  /-- BME_SET (R103). -/
  | bmeSet
  /-- PME_STATUS_CLEAR (R106). -/
  | pmeStatusClear
  /-- L1_ENTRY (R107). -/
  | l1Entry
  /-- VECTOR_MASK (R478). -/
  | vectorMask (vec : Option Nat)
  /-- VECTOR_UNMASK (R476). -/
  | vectorUnmask (vec : Option Nat)
  /-- WQ_ARM (R113). -/
  | wqArm (q : Nat)
  /-- WQ_PAUSE (R115). -/
  | wqPause (q : Nat)
  /-- WQ_RESUME (R114). -/
  | wqResume (q : Nat)
  /-- WQ_KICK (R124). -/
  | wqKick (q : Nat)
  /-- WQ_DISCARD (R116). -/
  | wqDiscard (q : Nat)
  /-- WQ_DISARM (R117). -/
  | wqDisarm (q : Nat)
  /-- QUEUE_POLL (R124). -/
  | queuePoll (q : Nat)
  /-- GEYSER_VISIT (R125). -/
  | geyserVisit
  /-- OWNER_WORD_READ (R120). -/
  | ownerWordRead (q : Nat) (w : Option DWord)
  /-- ENTRY_BODY_READ (R121). -/
  | entryBodyRead (q : Nat) (body : Option (List Byte))
  /-- JOB_PARSE (R139). -/
  | jobParse (job : Nat) (table param : Option (List Byte))
  /-- JOB_RETIRE (R35). -/
  | jobRetire (job : Nat)
  /-- COMPLETION_WRITE (R141). -/
  | completionWrite (q : Nat)
  /-- CQ_HEAD (R144). -/
  | cqHead (v : Word)
  /-- ABORT_REQ (R146). -/
  | abortReq (v : Word)
  /-- ABORT_ACK (R88). -/
  | abortAck (seq : BitVec 8)
  /-- POOL_RETRY (R442). -/
  | poolRetry (job : Nat) (host : Option (List Byte))
  /-- STREAM_OPEN (R155). -/
  | streamOpen (job : Nat) (block : Option (List Byte)) (verdict : Nat)
  /-- STREAM_PARAMS (R156). -/
  | streamParams (job : Nat) (block : Option (List Byte)) (verdict : Nat)
  /-- STREAM_CLOSE (R157). -/
  | streamClose (job : Nat)
  /-- ENCODE_FRAME (R173). -/
  | encodeFrame (job : Nat) (r : FrameReport)
  /-- ENCODE_LADDER (R328). -/
  | encodeLadder (job : Nat) (overs : List (Option (List Byte)))
  /-- DECODE_UNIT (R174). -/
  | decodeUnit (job : Nat) (r : UnitReport)
  /-- DECODE_DRAIN (R175). -/
  | decodeDrain (job : Nat)
  /-- COPY (R590). -/
  | copy (job : Nat) (host : Option (List Byte))
  /-- FILL (R590). -/
  | fill (job : Nat)
  /-- BARRIER (R132). -/
  | barrier (job : Nat)
  /-- MARK (R133). -/
  | mark (job : Nat)
  /-- QUERY (R177). -/
  | query (job : Nat)
  /-- INVALIDATE (R177). -/
  | invalidate (job : Nat)
  /-- MARK_LONG (R177). -/
  | markLong (job : Nat)
  /-- EXPORT (R177). -/
  | exportPic (job : Nat)
  /-- RELEASE_OUTPUT (R177). -/
  | releaseOutput (job : Nat)
  /-- JOB_PLACE (R183). -/
  | jobPlace (job : Nat) (p : PlacePlan)
  /-- PLACER_TEMPO_REFRESH (R180). -/
  | placerTempoRefresh (load : List Nat)
  /-- CORE_SLOW (R198). -/
  | coreSlow (n : Nat)
  /-- SLOW_CLEAR (R198). -/
  | slowClear (n : Nat)
  /-- REHOME_START (R194). -/
  | rehomeStart (n cause : Nat)
  /-- REHOME_ALLOCATE (R194). -/
  | rehomeAllocate (n : Nat)
  /-- REHOME_DONE (R194). -/
  | rehomeDone (n : Nat)
  /-- REHOME_RETRY (R194). -/
  | rehomeRetry (n : Nat)
  /-- REHOME_REQ (R206). -/
  | rehomeReq (v : Word)
  /-- QUADRANT_PARK (R196). -/
  | quadrantPark (q : Nat)
  /-- QUADRANT_POWER_UP (R197). -/
  | quadrantPowerUp (q : Nat) (t : SelfTest)
  /-- JOB_ENTER_CORE (R213). -/
  | jobEnterCore (job n : Nat)
  /-- CONTEXT_WRITEBACK_DONE (R161). -/
  | contextWritebackDone (n : Nat) (ok : Bool)
  /-- SCOREBOARD_WAIT_END (R216). -/
  | scoreboardWaitEnd (n q : Nat)
  /-- CHANNEL_WAIT_END (R208). -/
  | channelWaitEnd (n q : Nat)
  /-- SOURCE_ROW_POLL (R226). -/
  | sourceRowPoll (n : Nat)
  /-- SOURCE_TIMEOUT (R228). -/
  | sourceTimeout (n : Nat)
  /-- CORE_STALL (R232). -/
  | coreStall (n : Nat)
  /-- STEP_LIMIT_REACHED (R358). -/
  | stepLimitReached (n q : Nat)
  /-- GRACE_EXHAUSTED (R358). -/
  | graceExhausted (n : Nat)
  /-- LOOKAHEAD_PASS (R225). -/
  | lookaheadPass (n d : Nat) (pass : LookPass)
  /-- NOP (R244). -/
  | nop (n q : Nat) (i : Ins)
  /-- JMP (R268). -/
  | jmp (n q : Nat) (i : Ins)
  /-- CALL (R268). -/
  | call (n q : Nat) (i : Ins)
  /-- RET (R268). -/
  | ret (n q : Nat) (i : Ins)
  /-- LOOP (R268). -/
  | loop (n q : Nat) (i : Ins)
  /-- JEND (R269). -/
  | jend (n q : Nat) (i : Ins)
  /-- SADD (R266). -/
  | sadd (n q : Nat) (i : Ins)
  /-- SSUB (R266). -/
  | ssub (n q : Nat) (i : Ins)
  /-- SMUL (R266). -/
  | smul (n q : Nat) (i : Ins)
  /-- SMULH (R266). -/
  | smulh (n q : Nat) (i : Ins)
  /-- SDIV (R266). -/
  | sdiv (n q : Nat) (i : Ins)
  /-- SAND (R266). -/
  | sand (n q : Nat) (i : Ins)
  /-- SOR (R266). -/
  | sor (n q : Nat) (i : Ins)
  /-- SXOR (R266). -/
  | sxor (n q : Nat) (i : Ins)
  /-- SSHL (R266). -/
  | sshl (n q : Nat) (i : Ins)
  /-- SSHR (R266). -/
  | sshr (n q : Nat) (i : Ins)
  /-- SSRA (R266). -/
  | ssra (n q : Nat) (i : Ins)
  /-- SMIN (R266). -/
  | smin (n q : Nat) (i : Ins)
  /-- SMAX (R266). -/
  | smax (n q : Nat) (i : Ins)
  /-- SADDS (R266). -/
  | sadds (n q : Nat) (i : Ins)
  /-- SCLZ (R266). -/
  | sclz (n q : Nat) (i : Ins)
  /-- SLI (R266). -/
  | sli (n q : Nat) (i : Ins)
  /-- SCMP (R246). -/
  | scmp (n q : Nat) (i : Ins)
  /-- SSEL (R246). -/
  | ssel (n q : Nat) (i : Ins)
  /-- SLD (R267). -/
  | sld (n q : Nat) (i : Ins)
  /-- SST (R267). -/
  | sst (n q : Nat) (i : Ins)
  /-- TLD (R267). -/
  | tld (n q : Nat) (i : Ins)
  /-- VEXT (R267). -/
  | vext (n q : Nat) (i : Ins)
  /-- VINS (R267). -/
  | vins (n q : Nat) (i : Ins)
  /-- PAND (R247). -/
  | pand (n q : Nat) (i : Ins)
  /-- POR (R247). -/
  | por (n q : Nat) (i : Ins)
  /-- PXOR (R247). -/
  | pxor (n q : Nat) (i : Ins)
  /-- PNOT (R247). -/
  | pnot (n q : Nat) (i : Ins)
  /-- PANY (R247). -/
  | pany (n q : Nat) (i : Ins)
  /-- PALL (R247). -/
  | pall (n q : Nat) (i : Ins)
  /-- PPOP (R247). -/
  | ppop (n q : Nat) (i : Ins)
  /-- VADD (R245). -/
  | vadd (n q : Nat) (i : Ins)
  /-- VSUB (R245). -/
  | vsub (n q : Nat) (i : Ins)
  /-- VABS (R245). -/
  | vabs (n q : Nat) (i : Ins)
  /-- VMIN (R245). -/
  | vmin (n q : Nat) (i : Ins)
  /-- VMAX (R245). -/
  | vmax (n q : Nat) (i : Ins)
  /-- VAND (R245). -/
  | vand (n q : Nat) (i : Ins)
  /-- VOR (R245). -/
  | vor (n q : Nat) (i : Ins)
  /-- VXOR (R245). -/
  | vxor (n q : Nat) (i : Ins)
  /-- VSHL (R245). -/
  | vshl (n q : Nat) (i : Ins)
  /-- VSHR (R245). -/
  | vshr (n q : Nat) (i : Ins)
  /-- VMOV (R245). -/
  | vmov (n q : Nat) (i : Ins)
  /-- VSPLAT (R245). -/
  | vsplat (n q : Nat) (i : Ins)
  /-- VMUL (R245). -/
  | vmul (n q : Nat) (i : Ins)
  /-- VMAD (R245). -/
  | vmad (n q : Nat) (i : Ins)
  /-- VAVG (R245). -/
  | vavg (n q : Nat) (i : Ins)
  /-- VABSD (R245). -/
  | vabsd (n q : Nat) (i : Ins)
  /-- VCLIP (R245). -/
  | vclip (n q : Nat) (i : Ins)
  /-- VCLIPD (R245). -/
  | vclipd (n q : Nat) (i : Ins)
  /-- VSEL (R246). -/
  | vsel (n q : Nat) (i : Ins)
  /-- VCMP (R246). -/
  | vcmp (n q : Nat) (i : Ins)
  /-- VTRANS (R245). -/
  | vtrans (n q : Nat) (i : Ins)
  /-- VSGN (R245). -/
  | vsgn (n q : Nat) (i : Ins)
  /-- BLD (R249); `host` are the bytes of host memory that it reads, by host address. -/
  | bld (n q : Nat) (i : Ins) (host : List Host.Cell)
  /-- BST (R250). -/
  | bst (n q : Nat) (i : Ins)
  /-- BGET (R251). -/
  | bget (n q : Nat) (i : Ins)
  /-- BPUT (R251). -/
  | bput (n q : Nat) (i : Ins)
  /-- BFILL (R251). -/
  | bfill (n q : Nat) (i : Ins)
  /-- SBWAIT (R252). -/
  | sbwait (n q : Nat) (i : Ins)
  /-- ROWPOST (R253). -/
  | rowpost (n q : Nat) (i : Ins)
  /-- MFLD (R254). -/
  | mfld (n q : Nat) (i : Ins)
  /-- MFST (R254). -/
  | mfst (n q : Nat) (i : Ins)
  /-- BFIR (R255). -/
  | bfir (n q : Nat) (i : Ins)
  /-- BFLY (R256). -/
  | bfly (n q : Nat) (i : Ins)
  /-- BMAT (R257). -/
  | bmat (n q : Nat) (i : Ins)
  /-- BQUANT (R259). -/
  | bquant (n q : Nat) (i : Ins)
  /-- BQCAND (R259). -/
  | bqcand (n q : Nat) (i : Ins)
  /-- BDEQ (R259). -/
  | bdeq (n q : Nat) (i : Ins)
  /-- BLAST (R260). -/
  | blast (n q : Nat) (i : Ins)
  /-- RSAD (R261). -/
  | rsad (n q : Nat) (i : Ins)
  /-- RSATD (R262). -/
  | rsatd (n q : Nat) (i : Ins)
  /-- RSSE (R261). -/
  | rsse (n q : Nat) (i : Ins)
  /-- RSUM (R261). -/
  | rsum (n q : Nat) (i : Ins)
  /-- RMIN (R261). -/
  | rmin (n q : Nat) (i : Ins)
  /-- RARGMIN (R261). -/
  | rargmin (n q : Nat) (i : Ins)
  /-- MSWALK (R264). -/
  | mswalk (n q : Nat) (i : Ins) (host : List Host.Cell)
  /-- CHSEND (R270). -/
  | chsend (n q : Nat) (i : Ins)
  /-- CHRECV (R270). -/
  | chrecv (n q : Nat) (i : Ins)
  /-- CHPOLL (R270). -/
  | chpoll (n q : Nat) (i : Ins)
  /-- DMASTART (R271). -/
  | dmastart (n q : Nat) (i : Ins)
  /-- DMAWAIT (R271). -/
  | dmawait (n q : Nat) (i : Ins)
  /-- RCRD (R333). -/
  | rcrd (n q : Nat) (i : Ins)
  /-- RCWR (R333). -/
  | rcwr (n q : Nat) (i : Ins)
  /-- GRANT_READ (R334). -/
  | grantRead (n q : Nat) (i : Ins) (host : Option Byte × Option Byte)
  /-- FRAME_CLOSE (R340). -/
  | frameClose (n q : Nat) (i : Ins)
  /-- EVRAISE (R271). -/
  | evraise (n q : Nat) (i : Ins)
  /-- JGET (R272). -/
  | jget (n q : Nat) (i : Ins)
  /-- BECTL_CONFIG (R305). -/
  | bectlConfig (n q : Nat) (i : Ins)
  /-- CTX_INIT (R282). -/
  | ctxInit (n q : Nat) (i : Ins)
  /-- CTX_MOVE (R310). -/
  | ctxMove (n q : Nat) (i : Ins)
  /-- CDF_INIT (R303). -/
  | cdfInit (n q : Nat) (i : Ins)
  /-- CDF_MOVE (R310). -/
  | cdfMove (n q : Nat) (i : Ins)
  /-- READER_SET (R298). -/
  | readerSet (n q : Nat) (i : Ins) (host : Option (List Byte))
  /-- WRITER_SET (R299). -/
  | writerSet (n q : Nat) (i : Ins)
  /-- BECTL_RUN (R295). -/
  | bectlRun (n q : Nat) (i : Ins)
  /-- BECTL_WAIT (R304). -/
  | bectlWait (n q : Nat) (i : Ins)
  /-- BECTL_STATUS (R303). -/
  | bectlStatus (n q : Nat) (i : Ins)
  /-- BECTL_POS (R303). -/
  | bectlPos (n q : Nat) (i : Ins)
  /-- FIND_SYNC (R303). -/
  | findSync (n q : Nat) (i : Ins)
  /-- UNIT_CLOSE (R302). -/
  | unitClose (n q : Nat) (i : Ins)
  /-- JOB_END (R304). -/
  | jobEnd (n q : Nat) (i : Ins)
  /-- SYN_END (R296). -/
  | synEnd (n : Nat) (w : SynWord)
  /-- EL (R292). -/
  | el (n : Nat) (w : SynWord)
  /-- TERM (R287). -/
  | term (n : Nat) (w : SynWord)
  /-- SEGOPEN (R279). -/
  | segopen (n : Nat) (w : SynWord)
  /-- SEGCLOSE (R288). -/
  | segclose (n : Nat) (w : SynWord)
  /-- RAW (R289). -/
  | raw (n : Nat) (w : SynWord)
  /-- ALIGN (R296). -/
  | align (n : Nat) (w : SynWord)
  /-- NALB (R300). -/
  | nalb (n : Nat) (w : SynWord)
  /-- NALE (R300). -/
  | nale (n : Nat) (w : SynWord)
  /-- OBUB (R301). -/
  | obub (n : Nat) (w : SynWord)
  /-- OBUE (R301). -/
  | obue (n : Nat) (w : SynWord)
  /-- OBUN (R301). -/
  | obun (n : Nat) (w : SynWord)
  /-- SYN_RECV (R297). -/
  | synRecv (n : Nat) (w : SynWord)
  /-- SYN_SEND (R297). -/
  | synSend (n : Nat) (w : SynWord)
  /-- LI (R296). -/
  | li (n : Nat) (w : SynWord)
  /-- SYN_ADD (R296). -/
  | synAdd (n : Nat) (w : SynWord)
  /-- ANDI (R296). -/
  | andi (n : Nat) (w : SynWord)
  /-- SYN_SHL (R296). -/
  | synShl (n : Nat) (w : SynWord)
  /-- SYN_SHR (R296). -/
  | synShr (n : Nat) (w : SynWord)
  /-- SYN_MIN (R296). -/
  | synMin (n : Nat) (w : SynWord)
  /-- BZ (R296). -/
  | bz (n : Nat) (w : SynWord)
  /-- BNZ (R296). -/
  | bnz (n : Nat) (w : SynWord)
  /-- BLT (R296). -/
  | blt (n : Nat) (w : SynWord)
  /-- SYN_JMP (R296). -/
  | synJmp (n : Nat) (w : SynWord)
  /-- SYN_CALL (R296). -/
  | synCall (n : Nat) (w : SynWord)
  /-- SYN_RET (R296). -/
  | synRet (n : Nat) (w : SynWord)
  /-- SYN_CTU (R335). -/
  | synCtu (n : Nat) (w : SynWord)
  /-- CCOPY (R296). -/
  | ccopy (n : Nat) (w : SynWord)
  /-- BITS (R296). -/
  | bits (n : Nat) (w : SynWord)
  /-- MODE_COMMIT (R382). -/
  | modeCommit (v : Word)
  /-- MODE_VALIDATION_DONE (R383). -/
  | modeValidationDone (verdict : Nat)
  /-- EPOCH_APPLY (R385). -/
  | epochApply (n : Nat) (fault : Bool)
  /-- MODE_DETAIL_ACK (R88). -/
  | modeDetailAck (seq : BitVec 8)
  /-- VALIDATOR_TIMEOUT (R319). -/
  | validatorTimeout (job : Option Nat) (block : Option (List Byte))
  /-- SVC_WATCHDOG (R531). -/
  | svcWatchdog
  /-- PERS_LOAD (R316). -/
  | persLoad (img : Option PersImage)
  /-- PERS_UNLOAD (R321). -/
  | persUnload (slot : Nat)
  /-- DCH_COMMAND_SLOT (R404). -/
  | dchCommandSlot (k : Nat) (arrive : List DchReq) (met : SlotMet)
  /-- AGE_PROMOTE (R404). -/
  | agePromote (k : Nat)
  /-- REGULATOR_REFILL (R406). -/
  | regulatorRefill (k : Nat)
  /-- THROTTLE_END (R410). -/
  | throttleEnd (k port : Nat)
  /-- REFRESH_WINDOW (R408). -/
  | refreshWindow (k : Nat)
  /-- REFRESH (R411). -/
  | refresh (k key : Nat)
  /-- SELF_REFRESH_ENTRY (R412). -/
  | selfRefreshEntry (k : Nat)
  /-- SR_ENTER (R412). -/
  | srEnter (k : Nat) (v : Word)
  /-- SELF_REFRESH_EXIT (R413). -/
  | selfRefreshExit (k : Nat) (r : Option DchReq)
  /-- WCK_TRACKING (R415). -/
  | wckTracking (k sub : Nat) (temp : Int) (ok : Bool)
  /-- PATROL_SCRUB (R401). -/
  | patrolScrub (k : Nat) (found : ScrubFound)
  /-- CONTROLLER_FREEZE (R416). -/
  | controllerFreeze (k source port cls command syndrome addr word : Nat) (hits : List Nat)
  /-- FREEZE_ACK (R418). -/
  | freezeAck (k : Nat) (seq : BitVec 8)
  /-- DCH_RESET (R419). -/
  | dchReset (k : Nat) (v : Word)
  /-- REGION_INIT_DONE (R396). -/
  | regionInitDone (q i : Nat)
  /-- CLQ_ENABLE (R425). -/
  | clqEnable (q : Nat)
  /-- CLQ_DISABLE (R425). -/
  | clqDisable (q : Nat)
  /-- CLQ_FLUSH (R433). -/
  | clqFlush (q : Nat)
  /-- PACKET_OPEN (R426). -/
  | packetOpen (who : Producer) (q : Nat) (c : Crust) (bytes : List Byte) (times : Option (Nat × Nat))
  /-- CELL_GRANT (R427). -/
  | cellGrant (q : Nat)
  /-- PACKET_CLOSE (R429). -/
  | packetClose (who : Producer) (q : Nat) (bytes : List Byte)
  /-- SILENT_ABANDON (R429). -/
  | silentAbandon (who : Producer) (q : Nat)
  /-- DISCONTINUITY (R429). -/
  | discontinuity (who : Producer) (q tag : Nat)
  /-- CLQ_READ (R430). -/
  | clqRead (q n : Nat)
  /-- FULL_WAIT_EXPIRY (R428). -/
  | fullWaitExpiry (q : Nat)
  /-- POOL_ENABLE (R436). -/
  | poolEnable (pool : Nat)
  /-- POOL_DISABLE (R437). -/
  | poolDisable (pool : Nat)
  /-- POOL_REBUILD (R440). -/
  | poolRebuild (pool : Nat)
  /-- POOL_THREAD_DONE (R436). -/
  | poolThreadDone (pool : Nat)
  /-- POOL_ALLOCATE (R441). -/
  | poolAllocate (job : Nat) (byPool : Bool) (arg : Nat) (host : Option (List Byte))
  /-- BPM_ALLOC_REQ (R446). -/
  | bpmAllocReq (v : Word) (host : Option (List Byte))
  /-- BPM_ALLOC_ACK (R88). -/
  | bpmAllocAck (seq : BitVec 8)
  /-- BPM_RELEASE (R445). -/
  | bpmRelease (handle : Word)
  /-- BUFFER_RELEASE (R445). -/
  | bufferRelease (kind agent : Nat) (handle : Word)
  /-- DMA_START (R451). -/
  | dmaStart (c : Nat)
  /-- DMA_APPEND (R464). -/
  | dmaAppend (c : Nat)
  /-- DMA_STOP (R452). -/
  | dmaStop (c : Nat)
  /-- DMA_TRIGGER (R459). -/
  | dmaTrigger (c : Nat)
  /-- DESCRIPTOR_FETCH (R448). -/
  | descriptorFetch (c : Nat) (host : Option (List Byte))
  /-- DESCRIPTOR_DONE (R456). -/
  | descriptorDone (c : Nat)
  /-- DMA_BEAT (R462). -/
  | dmaBeat (page : Nat) (host : Option (List Byte))
  /-- INT_SOURCE_SET (R469). -/
  | intSourceSet (src : Nat)
  /-- INT_PENDING_CLEAR (R469). -/
  | intPendingClear (src : Nat)
  /-- INT_SOURCE_ENABLE (R474). -/
  | intSourceEnable (src : Nat) (b : Bool)
  /-- SOURCE_LEVEL_CHANGE (R467). -/
  | sourceLevelChange (src : Nat)
  /-- CLAIM (R471). -/
  | claim (g : Nat)
  /-- EOI (R472). -/
  | eoi (g src : Nat)
  /-- HOLDOFF_EXPIRY (R475). -/
  | holdoffExpiry (g : Nat)
  /-- FRAME_RECEIVE (R484). -/
  | frameReceive (port lane : Nat) (f : RxFrame)
  /-- PFC_FRAME_RECEIVE (R486). -/
  | pfcFrameReceive (port lane : Nat) (mask : BitVec 8) (quanta : List Nat)
  /-- PAUSE_FRAME_RECEIVE (R486). -/
  | pauseFrameReceive (port lane quanta : Nat)
  /-- PAUSE_EXPIRY (R486). -/
  | pauseExpiry (port lane cls : Nat)
  /-- PFC_XOFF_REPEAT (R487). -/
  | pfcXoffRepeat (port lane prio held : Nat)
  /-- LINK_UP (R483). -/
  | linkUp (port lane : Nat)
  /-- LINK_DOWN (R528). -/
  | linkDown (port lane : Nat)
  /-- FLOW_INSERT (R495). -/
  | flowInsert (host : Option (List Byte))
  /-- FLOW_DELETE (R494). -/
  | flowDelete
  /-- FLOW_MODIFY (R494). -/
  | flowModify (host : Option (List Byte))
  /-- FLOW_LOOKUP (R494). -/
  | flowLookup
  /-- METER_COMMIT (R501). -/
  | meterCommit (m : Nat)
  /-- MERGE_DEADLINE (R503). -/
  | mergeDeadline (g : Nat)
  /-- RAW_FRAME_TIMEOUT (R509). -/
  | rawFrameTimeout (d : Nat)
  /-- EQ_ENABLE (R512). -/
  | eqEnable (port q : Nat) (hdr psi : Option (List Byte))
  /-- EQ_DISABLE (R528). -/
  | eqDisable (port q : Nat)
  /-- PSI_UPDATE (R517). -/
  | psiUpdate (port q : Nat)
  /-- PSI_REPEAT (R517). -/
  | psiRepeat (q : Nat) (psi : Option (List Byte))
  /-- PCR_DUE (R518). -/
  | pcrDue (q : Nat)
  /-- DEPARTURE_DECISION (R526). -/
  | departureDecision (port lane delay : Nat)
  /-- TXSTAMP_ENABLE (R523). -/
  | txstampEnable (port : Nat) (v : Word)
  /-- EGRESS_PACKET_TAKE (R528). -/
  | egressPacketTake (q : Nat) (host : Option (List Byte))
  /-- FAULT_FIRE (R536). -/
  | faultFire (fires : List FaultHit)
  /-- REC_ACK (R534). -/
  | recAck (seq : Word)
  /-- REC_ACK_ALL (R534). -/
  | recAckAll (v : Word)
  /-- ERR_PIN_CTRL_WRITE (R535). -/
  | errPinCtrlWrite (v : Word)
  /-- ERR_PULSE_END (R535). -/
  | errPulseEnd
  /-- FEC_DEGRADED (R531). -/
  | fecDegraded (port : Nat)
  /-- SMB_TEMP (R580). -/
  | smbTemp
  /-- SMB_VDD_CORE (R580). -/
  | smbVddCore
  /-- SMB_THERM_STATE (R580). -/
  | smbThermState
  /-- SMB_FAULT_STATE (R545). -/
  | smbFaultState
  /-- SMB_FAULT_UNACKED (R545). -/
  | smbFaultUnacked
  /-- SMB_FAULT_NEWEST (R545). -/
  | smbFaultNewest
  /-- SMB_FAULT_RECORD (R545). -/
  | smbFaultRecord (slot : Nat)
  /-- SMB_ERR_PIN (R545). -/
  | smbErrPin
  /-- SMB_BOOT_STATE (R558). -/
  | smbBootState
  /-- SMB_BOOT_ATTEMPTS (R558). -/
  | smbBootAttempts
  /-- SMB_BOOT_CAUSE (R558). -/
  | smbBootCause
  /-- SMB_BOOT_HISTORY (R558). -/
  | smbBootHistory
  /-- SMB_TIMEOUT (R580). -/
  | smbTimeout
  /-- JTAG_BYPASS (R582). -/
  | jtagBypass
  /-- JTAG_IDCODE (R582). -/
  | jtagIdcode
  /-- JTAG_SAMPLE_PRELOAD (R582). -/
  | jtagSamplePreload
  /-- JTAG_EXTEST (R582). -/
  | jtagExtest
  /-- JTAG_HIGHZ (R582). -/
  | jtagHighz
  /-- JTAG_CLAMP (R582). -/
  | jtagClamp
  /-- JTAG_TEST_LOGIC_RESET (R582). -/
  | jtagTestLogicReset
  /-- COMPLETION_TIMEOUT (R100). -/
  | completionTimeout (what : HostRead)
  /-- PCIE_LINK_DOWN (R101). -/
  | pcieLinkDown
  /-- PCIE_LINK_TRAINED (R547). -/
  | pcieLinkTrained (speed : Nat) (met : LinkMet)
  /-- MSIX_TABLE_WRITE (R478). -/
  | msixTableWrite (vec : Nat) (field : MsixField) (v : Option Word)
  deriving DecidableEq, Repr

end Sys2Proof
end

