-- ==== Sys2Proof/Decode.lean ====
section
/-!
DEFINITION. The command that a word of the table spells. The table gives its rows no bits: commands reach the part as bus
requests, pin events and engine events, so no word spells one.
-/
namespace Sys2Proof

/-- The command that a word spells by the table's bits: none, for a table without bits. -/
def decodeTableWord (_nbits _w : Nat) : Option Instr := none

end Sys2Proof
end

