-- ==== Sys2Proof/Config.lean ====
section
/-!
DEFINITION. The values the spec leaves open. Each is a constant without a body, so that no proof can see a value of it.
-/
namespace Sys2Proof.Config

/-- An open value of any width, one for each draw of State.free: an undefined or unstated result (log entry 2). -/
opaque freeValue : Nat → Nat

/-- What a diagnostic read of the central slice returns outside Dormant mode (R33): the cells' places are not stated
(log entry 3). It may differ from one state to the next. -/
opaque centralByte : Nat → Nat → Nat

/-- Which of the cells that packets hold a cell number of the central slice names (R33, R421; log entry 3). -/
opaque centralCell : Nat → Nat → Nat

/-- A sample of a tile whose PACKED body only the device reads (R167, R168; log entry 4): by the tile's header and
body and the sample's index in it. -/
opaque packedSample : List Byte → Nat → Nat

/-- The eight check bits of an 8-byte word (R398): the code is not stated beyond SECDED (log entry 104). -/
opaque eccCheck : Nat → Nat

/-- Whether a byte of a Caldera slice lies in the areas given to a job (R211): the places of those areas are not stated (log entry
109). By job and device address. -/
opaque sliceArea : Nat → Nat → Bool

end Sys2Proof.Config
end

