-- ==== Sys2Proof/Machine/Regs.lean ====
section
/-!
DEFINITION. The page directory (R65), the register tables that software writes (R15, R73 to R75) and their reset values.
-/
namespace Sys2Proof.Machine

/-- The page types of R65. -/
inductive PageKind
  | device | boot | tempo | fault | intc | placer | mode | geyser | qmgr | bpm | netp | nete | flowwin | meter
  | pcie | mgmt | perf | timebase | dch | dormant | fuse | board | spi
  | quad | caldera | qdma | qroute | cdma | core | qcomp | qpower | qperf | qdiag
  deriving DecidableEq, Repr

/-- The type code of a page (R65). -/
def PageKind.code : PageKind → Nat
  | .device => 0x01 | .boot => 0x02 | .tempo => 0x03 | .fault => 0x04 | .intc => 0x05 | .placer => 0x06
  | .mode => 0x07 | .geyser => 0x08 | .qmgr => 0x09 | .bpm => 0x0A | .netp => 0x0B | .nete => 0x0C
  | .flowwin => 0x0D | .meter => 0x0E | .pcie => 0x0F | .mgmt => 0x10 | .perf => 0x11 | .timebase => 0x12
  | .dch => 0x13 | .dormant => 0x14 | .fuse => 0x15 | .board => 0x16 | .spi => 0x17
  | .quad => 0x20 | .caldera => 0x21 | .qdma => 0x22 | .qroute => 0x23 | .cdma => 0x24 | .core => 0x25
  | .qcomp => 0x26 | .qpower => 0x27 | .qperf => 0x28 | .qdiag => 0x29

/-- The device pages 0 to 35 of R65. -/
def deviceKind (p : Nat) : Option PageKind :=
  match p with
  | 0 => some .device | 1 => some .boot | 2 => some .tempo | 3 => some .fault | 4 => some .intc
  | 5 => some .placer | 6 => some .mode | 7 => some .geyser | 8 => some .qmgr | 9 => some .bpm
  | 10 => some .netp | 11 => some .netp | 12 => some .nete | 13 => some .nete | 14 => some .flowwin
  | 15 => some .meter | 16 => some .pcie | 17 => some .mgmt | 18 => some .perf | 19 => some .timebase
  | 32 => some .dormant | 33 => some .fuse | 34 => some .board | 35 => some .spi
  | _ => if 20 ≤ p ∧ p ≤ 31 then some .dch else none

/-- The page at offset k of a quadrant's 32 pages (R65). -/
def quadKind (k : Nat) : PageKind :=
  if k = 0 then .quad else if k = 1 then .caldera else if k = 2 then .qdma else if k = 3 then .qroute
  else if k < 16 then .cdma else if k < 28 then .core else if k = 28 then .qcomp else if k = 29 then .qpower
  else if k = 30 then .qperf else .qdiag

/-- The type of page p, or none for a reserved page (R65). -/
def pageKind (p : Nat) : Option PageKind :=
  if p < 36 then deviceKind p else if 64 ≤ p ∧ p < 192 then some (quadKind (p % 32)) else none

/-- The INSTANCE of page p (R65). -/
def pageInstance (p : Nat) : Nat :=
  match pageKind p with
  | some .netp => p - 10
  | some .nete => p - 12
  | some .dch => p - 20
  | some .cdma => 12 * ((p - 64) / 32) + (p % 32 - 4)
  | some .core => 12 * ((p - 64) / 32) + (p % 32 - 16)
  | some _ => if 64 ≤ p then (p - 64) / 32 else 0
  | none => 0

/-- The register page of core n (R25). -/
def corePage (n : Nat) : Nat := 80 + 32 * (n / 12) + n % 12
/-- The core DMA page of core n (R65). -/
def cdmaPage (n : Nat) : Nat := 68 + 32 * (n / 12) + n % 12
/-- The page of controller DCHk (R25). -/
def dchPage (k : Nat) : Nat := 20 + k
/-- The QUAD page of quadrant q (R65). -/
def quadPage (q : Nat) : Nat := 64 + 32 * q
/-- The QDMA page of quadrant q (R65). -/
def qdmaPage (q : Nat) : Nat := 66 + 32 * q
/-- The QCOMP page of quadrant q (R65). -/
def qcompPage (q : Nat) : Nat := 92 + 32 * q

/-- The quadrant of a quadrant page. -/
def pageQuad (p : Nat) : Nat := (p - 64) / 32

/-- The commit group of a register: direct, one fixed group, or the register's own index (R74, R75). -/
inductive Grp | direct | fixed (g : Nat) | index | mode
  deriving DecidableEq, Repr

/-- One row of the register tables: `count` registers `stride` apart from `off`, with the masks of their access codes. -/
structure RegDef where
  off : Nat
  stride : Nat := 4
  count : Nat := 1
  grp : Grp := .fixed 0
  rw : Nat
  prot : Nat := 0
  reset : Nat := 0
  deriving DecidableEq, Repr

/-- The register blocks of one DMA channel page with n channels (19_dma.md). USER is RSV on QDMA, and TRIGGER on CDMA. -/
def dmaRegs (n : Nat) : List RegDef :=
  [ { off := 0x040, stride := 0x40, count := n, grp := .index, rw := if n = 4 then 0x30F00F03 else 0x13F00F03, reset := 0x601 },
    { off := 0x044, stride := 0x40, count := n, grp := .index, rw := 0xFFFFFFFF },
    { off := 0x048, stride := 0x40, count := n, grp := .index, rw := 0xFFFFFFFF },
    { off := 0x04C, stride := 0x40, count := n, grp := .direct, rw := 0xFFFFFFFF },
    { off := 0x050, stride := 0x40, count := n, grp := .direct, rw := 0xFFFFFFFF },
    { off := 0x058, stride := 0x40, count := n, grp := .direct, rw := 0x1F } ]

/-- The registers of a page type that store what software writes to them, as the owning chapters' tables give them.
Registers that act when written have rows of their own in the table of commands and are not listed. -/
def regDefs : PageKind → List RegDef
  | .device => [ { off := 0x100, count := 8, grp := .direct, rw := 0xFFFFFFFF } ]
  | .boot =>
    [ { off := 0x040, grp := .direct, rw := 0x107, prot := 0x107, reset := 0x103 },
      { off := 0x044, count := 2, grp := .direct, rw := 0xFFFFFFFF },
      { off := 0x04C, grp := .direct, rw := 0x01FFFFFF } ]
  | .tempo =>
    [ { off := 0x040, rw := 0x00FF0F31, reset := 0x000A0501 },
      { off := 0x044, rw := 0xFFFF, reset := 0x0400 },
      { off := 0x048, rw := 0x03FF03FF, prot := 0x03FF0000, reset := 0x0370026C },
      { off := 0x04C, rw := 0xFFFF0FFF, prot := 0xFF, reset := 0x02D50264 } ]
  | .fault =>
    [ { off := 0x040, count := 104, rw := 0x00070007, prot := 0x00070007 },
      { off := 0x400, grp := .direct, rw := 0x83FF0007, reset := 0x80140003 } ]
  | .intc => [ { off := 0x700, count := 40, rw := 0xFFFF007F } ]
  | .placer =>
    [ { off := 0x040, count := 8, rw := 0xFFFF30FF, reset := 0x884200E6 },
      { off := 0x060, rw := 0x03FFFFFF, reset := 0x020A0333 },
      { off := 0x064, rw := 0x80000FFF },
      { off := 0x068, rw := 0xC3FFFFFF, reset := 0x41E60032 },
      { off := 0x06C, rw := 0xFF, reset := 0x14 },
      { off := 0x070, rw := 0xFFFFFFFF, reset := 0x10101010 } ]
  | .mode =>
    [ { off := 0x100, count := 19, grp := .mode, rw := 0xFFFF },
      { off := 0x080, grp := .direct, rw := 0xFFFF } ]
  | .geyser => [ { off := 0x040, rw := 0xFF00, reset := 0x8000 } ]
  | .qmgr => [ { off := 0x040, rw := 0x3FFFF, reset := 0x2000 } ]
  | .bpm =>
    [ { off := 0x040, stride := 0x20, count := 16, grp := .index, rw := 0xFFFFFFFF },
      { off := 0x044, stride := 0x20, count := 16, grp := .index, rw := 0xFFFFFFFF },
      { off := 0x048, stride := 0x20, count := 16, grp := .index, rw := 0xFFFFFFFF },
      { off := 0x04C, stride := 0x20, count := 16, grp := .index, rw := 0x00FFFFFF },
      { off := 0x050, stride := 0x20, count := 16, grp := .index, rw := 0x11F, reset := 0x108 } ]
  | .netp =>
    [ { off := 0x040, rw := 0xFFE03FFF, reset := 0x3C0005F2 },
      { off := 0x044, rw := 0xFF00FFFF, reset := 0x2010 } ]
  | .nete =>
    [ { off := 0x040, stride := 0x10, count := 15, grp := .index, rw := 0xFF000FFF, reset := 0x18000000 },
      { off := 0x044, stride := 0x10, count := 15, grp := .index, rw := 0x07FFFFFF, reset := 0x1 },
      { off := 0x048, stride := 0x10, count := 15, grp := .index, rw := 0x01FFFFFF, reset := 0x40 },
      { off := 0x140, count := 8, grp := .fixed 15, rw := 0xFFFFF, reset := 0x2400 },
      { off := 0x300, count := 2, grp := .direct, rw := 0xFFFFFFFF } ]
  | .flowwin =>
    [ { off := 0x100, count := 12, grp := .direct, rw := 0xFFFFFFFF },
      { off := 0x140, count := 8, grp := .direct, rw := 0xFFFFFFFF },
      { off := 0x200, count := 16, rw := 0x80000FFF },
      { off := 0x240, rw := 0xFFFF, reset := 0xFFFF } ]
  | .meter => []
  | .pcie => [ { off := 0x040, rw := 0xFFF }, { off := 0x044, rw := 0xFFFF, reset := 0xA } ]
  | .mgmt =>
    [ { off := 0x100, count := 2, grp := .direct, rw := 0xFFFFFFFF },
      { off := 0x108, grp := .direct, rw := 0x007FFFFF } ]
  | .perf => []
  | .timebase => [ { off := 0x040, rw := 0xFFFFFFFF }, { off := 0x048, count := 2, rw := 0xFFFFFFFF } ]
  | .dch =>
    [ { off := 0x040, rw := 0xFFFF, reset := 0x190 },
      { off := 0x044, rw := 0xFF, reset := 0x18 },
      { off := 0x048, grp := .fixed 2, rw := 0xFFFF, reset := 0x400 },
      { off := 0x04C, grp := .fixed 2, rw := 0xFFFF0FFF, reset := 0x00640014 },
      { off := 0x050, grp := .fixed 3, rw := 0x8FFFFFFF, reset := 0x82040064 },
      { off := 0x080, count := 16, grp := .fixed 1, rw := 0x0FFF0FFF, reset := 0x00400000 } ]
  | .dormant => [ { off := 0x040, grp := .direct, rw := 0x01FFFFFF } ]
  | .fuse => []
  | .board => []
  | .spi => []
  | .quad =>
    [ { off := 0x040, rw := 0xFFFFF },
      { off := 0x044, rw := 0xFFFF },
      { off := 0x100, stride := 8, count := 16, grp := .fixed 1, rw := 0xFC003FFF },
      { off := 0x104, stride := 8, count := 16, grp := .fixed 1, rw := 0x7FFF },
      { off := 0x180, count := 20, grp := .fixed 1, rw := 0xFFFFFFFF } ]
  | .caldera => []
  | .qdma => dmaRegs 16
  | .qroute => []
  | .cdma => dmaRegs 4
  | .core =>
    [ { off := 0x040, rw := 0xFFFF, reset := 0x64 }, { off := 0x044, rw := 0x00FFFFFF, reset := 0x00104000 } ]
  | .qcomp =>
    [ { off := 0x040, stride := 0x10, count := 8, grp := .direct, rw := 0xFFFFFFFF },
      { off := 0x044, stride := 0x10, count := 8, grp := .direct, rw := 0xFFFFFFFF } ]
  | .qpower => []
  | .qperf => []
  | .qdiag => []

/-- Whether an offset is one of a row's registers. -/
def RegDef.holds (d : RegDef) (off : Nat) : Bool :=
  decide (d.off ≤ off) && decide ((off - d.off) % d.stride = 0) && decide ((off - d.off) / d.stride < d.count)

/-- The index of an offset within a row's registers. -/
def RegDef.idx (d : RegDef) (off : Nat) : Nat := (off - d.off) / d.stride

/-- The row that holds an offset. -/
def findReg (k : PageKind) (off : Nat) : Option RegDef := (regDefs k).find? (fun d => d.holds off)

/-- The commit group of an offset, where it has one. -/
def RegDef.group (d : RegDef) (off : Nat) : Option Nat :=
  match d.grp with
  | .direct => none
  | .mode => none
  | .fixed g => some g
  | .index => some (d.idx off)

/-- The number of commit groups 0 to n - 1 that a page type has (R75). -/
def groupCount : PageKind → Nat
  | .tempo | .fault | .intc | .placer | .geyser | .qmgr | .netp | .flowwin | .pcie | .timebase | .core | .mode => 1
  | .bpm | .nete | .qdma => 16
  | .dch | .cdma => 4
  | .quad => 2
  | _ => 0

/-- Registers of a page type that act when written and belong to rows of their own, by offset (R74). -/
def actsWhenWritten (k : PageKind) (off : Nat) : Bool :=
  match k with
  | .boot => off == 0x050
  | .dormant => off == 0x044
  | .fault => off == 0x200 || off == 0x204 || off == 0x400
  | .intc => (decide (0x0E0 ≤ off) && decide (off < 0x180)) || (decide (0x200 ≤ off) && decide (off < 0x700))
  | .placer => off == 0x080
  | .mode => off == 0x084 || off == 0x0C8
  | .geyser => off == 0x080 || off == 0x084 || off == 0x088 || off == 0x0C8
  | .qmgr => off == 0x080
  | .bpm => off == 0x300 || off == 0x304 || off == 0x308 || off == 0x318
  | .nete => off == 0x200 || off == 0x308
  | .flowwin => off == 0x080
  | .meter => off == 0x080
  | .mgmt => off == 0x10C
  | .dch => off == 0x0C0 || off == 0x0C4 || off == 0x10C
  | .qdma => decide (0x040 ≤ off) && decide (off < 0x440) && off % 0x40 == 0x14
  | .cdma => decide (0x040 ≤ off) && decide (off < 0x140) && off % 0x40 == 0x14
  | .qcomp => decide (0x040 ≤ off) && decide (off < 0x0C0) && off % 0x10 == 8
  | _ => false

end Sys2Proof.Machine
end

