-- ==== Sys2Proof/Machine/TypesCore.lean ====
section
/-!
DEFINITION. The state of one core: its six sequencers, block registers, stage channels, bin engine and rate-control unit
(09 to 13).
-/
namespace Sys2Proof.Machine

/-- An active hardware loop (R268): its body from `start` to `last` inclusive, and the runs still to do. -/
structure LoopRec where
  start : Nat
  last : Nat
  left : Nat
  deriving DecidableEq, Repr

/-- PIPE_STATUS.WAIT (09_coding_pipeline.md). -/
inductive WaitKind | none | scoreboard | source | border | entropy | memory | staging | channel | block | busy
  deriving DecidableEq, Repr

/-- One sequencer (R233): 0 LOAD, 1 SEARCH, 2 DECIDE, 3 RESIDUAL, 4 FILTER, 5 the pilot. Unlisted registers and bytes read
0. `steps` counts the instructions of its job (R358), and `waiting` is the instruction that waits, with the reason. `memOf` is the
stream whose context the data memory holds (R161). -/
structure Seq where
  s : Map Word := []
  p : Map (BitVec 256) := []
  v : Map (List Elem) := []
  mem : Map Byte := []
  calls : List Nat := []
  loops : List LoopRec := []
  pc : Nat := 0
  job : Option Nat := none
  stopped : Bool := false
  steps : Nat := 0
  graced : Bool := false
  wait : WaitKind := .none
  waiting : Option Instr := none
  memOf : Option Nat := none
  deriving DecidableEq, Repr

/-- One block register (R233, R237): element (x, y) at key 64y + x, an unlisted one 0, and the owning stage, 7 while a
token carries it. -/
structure Block where
  owner : Nat := 0
  data : Map Elem := []
  deriving DecidableEq, Repr

/-- A token with the job that sent it and the block register it passes (R208, R238). -/
structure Token where
  val : DWord
  job : Nat
  pass : Option Nat := none
  deriving DecidableEq, Repr

/-- PROG_FAULT of a core (R273). -/
structure ProgFault where
  seq : Nat := 0
  cause : Nat := 0
  count : Nat := 0
  pc : Nat := 0
  deriving DecidableEq, Repr

/-- The arithmetic coder of an open segment (R278 to R288). TABLE6 and DUALRATE hold the ten-bit low of ITU-T H.265 with
its outstanding bits; MSYM and BOOL hold the exact low and the count of renormalization shifts. `off` is the decode offset. -/
structure Coder where
  kernel : Nat
  r : Nat
  low : Nat := 0
  off : Nat := 0
  outst : Nat := 0
  first : Bool := true
  shifts : Nat := 0
  term : Bool := false
  deriving DecidableEq, Repr

/-- The bit reader (R298): the data bytes after removal with the input offset of each, the bit position in them, the
bits consumed since the job start, and the end offset; for FIND_SYNC the input bytes from `start` on, and where the OBU
that was read last ends. -/
structure Reader where
  bytes : List (Byte × Nat) := []
  input : List Byte := []
  start : Nat := 0
  obuEnd : Option Nat := none
  pos : Nat := 0
  consumed : Nat := 0
  stop : Nat := 0
  deriving DecidableEq, Repr

/-- The bit writer (R299 to R302): where it writes, the bits of the byte in progress, the bytes since the last close, the
zero bytes at the end of a NAL payload, the open NAL unit and OBU, and the room that the output has. -/
structure Writer where
  staging : Bool := false
  insertion : Bool := false
  bits : List Bool := []
  bytes : List Byte := []
  zeros : Nat := 0
  nal : Bool := false
  obu : Option Nat := none
  total : Nat := 0
  cap : Option Nat := none
  full : Bool := false
  deriving DecidableEq, Repr

/-- CONFIG of the bin engine (R305). -/
structure BinConfig where
  descBase : Nat := 0
  ktBase : Nat := 0
  errEntry : Nat := 0
  maxBins : Nat := 1048576
  maxSteps : Nat := 4194304
  devBins : Nat := 1048576
  devSteps : Nat := 4194304
  sp : Nat := 6
  eps : Nat := 4
  strict : Bool := false
  deriving DecidableEq, Repr

/-- The bin engine (11_bin_engine.md). A context is one word; CDF j is entries 16j to 16j + 15. `status` is the program
status of R303, `cause` to `errPos` are the core's registers, and `memOf` the stream whose contexts and CDFs it holds (R311). -/
structure Bin where
  ctx : Map Word := []
  cdf : Map Nat := []
  x : Map Word := []
  calls : List Nat := []
  pc : Nat := 0
  job : Option Nat := none
  encode : Bool := true
  cfg : BinConfig := {}
  seg : Option Coder := none
  reader : Reader := {}
  writer : Writer := {}
  running : Bool := false
  inError : Bool := false
  status : Nat := 0
  ctuBins : Nat := 0
  ctuSteps : Nat := 0
  cause : Nat := 0
  cls : Nat := 0
  errCount : Nat := 0
  errPos : Nat := 0
  bins : Nat := 0
  waiting : Option Instr := none
  memOf : Option Nat := none
  deriving DecidableEq, Repr

/-- One frame set of the rate-control unit (R332 to R340): its registers by index, the latched BITS of each closed CTU
(oldest first), the row adjustments with the first CTU they apply to, the count at frame close, and its job. -/
structure RcSet where
  job : Option Nat := none
  regs : Map Word := []
  latched : List Nat := []
  adjust : List (Nat × Int) := []
  grants : Nat := 0
  qpSum : Nat := 0
  floorFrom : Option Nat := none
  overshoot : Bool := false
  final : Option Nat := none
  deriving DecidableEq, Repr

/-- One core. `lanes` are its healthy lanes, LANE_COUNT (R26). `prog` and `tab` list the words of its stores that differ from
the loaded images. -/
structure Core where
  seqs : Map Seq := []
  blocks : Map Block := []
  chans : Map (List Token) := []
  fault : ProgFault := {}
  lanes : Nat := 256
  bin : Bin := {}
  rc : Map RcSet := []
  prog : Map DWord := []
  tab : Map Word := []
  deriving DecidableEq, Repr

end Sys2Proof.Machine
end

