-- ==== Sys2Proof/Machine/TypesHost.lean ====
section
/-!
DEFINITION. The state of the units on the host's side of the part: power and pins, boot, tempo, timebase, register pages,
the PCIe function, the interrupt controller, the fault unit, the SMBus target and the JTAG port.
-/
namespace Sys2Proof.Machine

/-- PAGE_STATUS.STATE (R71). -/
inductive UnitState | offline | idle | running | fenced | frozen
  deriving DecidableEq, Repr

/-- PAGE_STATUS.FENCE_CAUSE (R71). -/
inductive FenceCause | none | software | selftest | fault | boot | monitor | placer
  deriving DecidableEq, Repr

/-- The header state of one register page (R69 to R81, R86). The configuration fields of a page are in `State.regs`.
`epoch` is a core's; every other page reads CURRENT_EPOCH. -/
structure Page where
  enable : Bool := true
  fence : Bool := false
  state : UnitState := .offline
  cause : FenceCause := .none
  draining : Bool := false
  resetting : Bool := false
  groups : BitVec 16 := 0
  epoch : Nat := 0
  rejectReason : Nat := 0
  rejectGroup : Nat := 0
  lateGroup : Nat := 0
  accessBad : Bool := false
  commitReject : Bool := false
  shadowLate : Bool := false
  evtRaw : Word := 0
  evtPend : Word := 0
  evtEnable : Word := 0
  snapSeq : Nat := 0
  snapHeld : Bool := false
  snap : Map Word := []
  scratch : Word := 0
  unlocked : Bool := false
  deriving DecidableEq, Repr

/-- Every header field at the reset value of R69 to R86. -/
def Page.reset : Page := {}

/-- Supplies, reset ball and the pin state (R546, R570 to R575). `gpioDrive` says which of GPIO[7:0] the part drives, and the last
four fields are what it drives on SPI_CS_N, SPI_CLK, AVS_CLK and AVS_MDATA; the spec names no register that sets them
(R573). -/
structure Power where
  powered : Bool := true
  perstHigh : Bool := false
  thermtrip : Bool := false
  gpioDrive : BitVec 8 := 0
  gpioOut : BitVec 8 := 0
  spiCsN : Bool := true
  spiClk : Bool := false
  avsClk : Bool := false
  avsMdata : Bool := false
  deriving DecidableEq, Repr

/-- The fused records (R5, R388, R94, R552): fixed for one part. -/
structure Fuses where
  grade : Nat := 1
  secureBoot : Bool := false
  boardCfg : Word := 0
  fwkeyHash : List Word := List.replicate 8 0
  monRef : Map Nat := []
  subsystem : Option (Nat × Nat) := none
  deriving DecidableEq, Repr

/-- BOOT_STATUS.STATE (R557). -/
inductive BootState | booting | ready | dormant
  deriving DecidableEq, Repr

/-- One BOOT_HISTORY entry (R557): OUTCOME 1 READY, 2 FAILED, 3 RESET. -/
structure BootHist where
  outcome : Nat
  stage : Nat
  sub : Nat
  source : Nat
  duration : Nat
  deriving DecidableEq, Repr

/-- BOOT_CAUSE (R557). -/
structure BootCause where
  stage : Nat := 0
  sub : Nat := 0
  inst : Nat := 0
  deriving DecidableEq, Repr

/-- The boot sequencer and Dormant mode (R546 to R561). `fences` and `lanes` are what the present attempt found of the
units: the pages it fences with their cause, and the healthy lanes of each core (R26, R555). -/
structure Boot where
  state : BootState := .booting
  stage : Nat := 0
  running : Bool := false
  fromReset : Bool := false
  fromPerst : Bool := false
  window : Bool := false
  attempts : Nat := 0
  straps : Straps := { bootSrc := 0, dormantForce := false, smbAddrSel := false }
  allowDegraded : Bool := true
  retryLimit : Nat := 3
  degraded : Bool := false
  unsigned : Bool := false
  hostWait : Bool := false
  hostGo : Bool := false
  hostSrc : Nat := 0
  hostLen : Nat := 0
  source : Nat := 0
  reached6 : Bool := false
  pkg : Option Package := none
  cause : BootCause := {}
  history : List BootHist := []
  started : Nat := 0
  capCores : BitVec 48 := 0
  capQuads : BitVec 4 := 0
  capDch : BitVec 12 := 0
  entry : Nat := 0
  windowOk : Bool := false
  busy : Bool := false
  lastResult : Nat := 0
  flash : Nat := 0
  flashed : List (Nat × Nat) := []
  fences : List (Nat × FenceCause) := []
  lanes : List (Nat × Nat) := []
  deriving DecidableEq, Repr

/-- One tempo monitor (R41): the counts of the last windows, newest first, and its sensor. -/
structure Monitor where
  windows : List Nat := []
  tj : Int := 0
  deriving DecidableEq, Repr

/-- The tempo loop, throttling and the regulator link (R45 to R57). -/
structure Tempo where
  mons : Map Monitor := []
  calibrated : Bool := false
  loopStarted : Bool := false
  vddReq : Nat := 0
  vddRead : Nat := 0
  avsBad : Nat := 0
  avsLost : Bool := false
  atVmax : Bool := false
  atVmin : Bool := false
  throttling : Bool := false
  ceiling : Nat := 0
  tjMax : Int := 0
  under : Bool := false
  deriving DecidableEq, Repr

/-- The timebase (R59 to R62): whole nanoseconds, a 40-bit fraction, and the fixed increment in units of 2^-40 ns. -/
structure Time where
  ns : Nat := 0
  frac : Nat := 0
  inc : Nat := 2 ^ 40
  hiLatch : Word := 0
  snapLo : Word := 0
  snapHi : Word := 0
  deriving DecidableEq, Repr

/-- One timebase comparator of a quadrant (R61, R459). -/
structure Comparator where
  value : Nat := 0
  armed : Bool := false
  period : Nat := 0
  deriving DecidableEq, Repr

/-- One MSI-X table entry (R97, R478). -/
structure MsixEntry where
  addr : Nat := 0
  data : Word := 0
  masked : Bool := true
  deriving DecidableEq, Repr

/-- A read of host memory that the Geyser or a DMA channel has issued and whose answer is a row of its own: the owner word of
a queue, the body of a job's entry, or the descriptor of a channel. -/
inductive HostReq
  | owner (q : Nat)
  | body (q j : Nat)
  | desc (c : Nat)
  deriving DecidableEq, Repr

/-- The PCIe function (R93 to R109). `waits` are the reads that wait for a tag or for the
host, with address and length (R99), and `heldWrites` the writes that the power state holds back, oldest first, each with its
address, bytes and kind (R98, R104). `aer` lists the errors met, newest first; `aerStatus`, `aerMask` and `aerFatal` hold the
errors whose AER status, mask and severity bits are 1 (R101, log entry 89). `bars` holds what software wrote to the base
address registers (R97). -/
structure Pcie where
  cfgAnswered : Bool := false
  mse : Bool := false
  bme : Bool := false
  d3hot : Bool := false
  pmeEn : Bool := false
  pmeStatus : Bool := false
  msixEnable : Bool := false
  funcMask : Bool := false
  relaxedEn : Bool := true
  mps : Nat := 128
  mrrs : Nat := 512
  tag10 : Bool := false
  aspmL1 : Bool := false
  bar2Size : Nat := 0
  linkUp : Bool := false
  speed : Nat := 0
  width : Nat := 0
  inL1 : Bool := false
  ctoDisable : Bool := false
  msix : Map MsixEntry := []
  pba : BitVec 128 := 0
  aer : List AerError := []
  aerStatus : List AerError := []
  aerMask : List AerError := [.advisory, .correctedInternal, .uncorrectableInternal]
  aerFatal : List AerError := [.dllProtocol, .surpriseDown, .flowControl, .receiverOverflow, .malformedTlp, .uncorrectableInternal]
  ctoRange : Nat := 0
  bars : Map Word := []
  waits : List (HostReq × Nat × Nat) := []
  heldWrites : List (Nat × List Byte × Bool) := []
  deriving DecidableEq, Repr

/-- One interrupt source (R468, R469). -/
structure IntSource where
  enable : Bool := false
  pending : Bool := false
  soft : Bool := false
  inService : Bool := false
  level : Bool := false
  deriving DecidableEq, Repr

/-- One interrupt group (R474, R475): the timer holds 2^-40 ns units left. -/
structure IntGroup where
  msgDue : Bool := false
  timerRun : Bool := false
  timerLeft : Nat := 0
  deriving DecidableEq, Repr

/-- The interrupt controller (R466 to R481). -/
structure Intc where
  srcs : Map IntSource := []
  grps : Map IntGroup := []
  deriving DecidableEq, Repr

/-- The REACTION of a fault record (R533). -/
inductive Reaction | logged | jobFailed | jobRetried | fenced | deviceStop | sealed
  deriving DecidableEq, Repr

/-- One fault record (R533). -/
structure FaultRec where
  time : Nat
  seq : Nat
  source : Nat
  acked : Bool
  sev : Nat
  inst : Nat
  stream : Nat
  queue : Nat
  jobSeq : Nat
  attempt : Nat
  reaction : Reaction
  info : Nat
  deriving DecidableEq, Repr

/-- FAULT_STATE.STATE (R542, R543). -/
inductive StopState | normal | stopped | sealed
  deriving DecidableEq, Repr

/-- The fault unit (R531 to R545). -/
structure FaultUnit where
  slots : Map FaultRec := []
  nextSeq : Nat := 1
  newestSlot : Nat := 0
  newestSeq : Nat := 0
  lost : Nat := 0
  pulsing : Bool := false
  pulseEnd : Nat := 0
  stop : StopState := .normal
  stopSource : Nat := 0xFF
  deriving DecidableEq, Repr

/-- The JTAG instruction held by the TAP (R582). -/
inductive TapInstr | reset | bypass | idcode | sample | extest | highz | clamp
  deriving DecidableEq, Repr

/-- The JTAG port (R582): the instruction, whether a boot attempt waits for it, and what the boundary-scan register last
sampled: PERST_N, WAKE_N, ERR_N, THERMTRIP_N, BOOT_SRC[1:0], the other two straps, SPI_CS_N, SPI_CLK, AVS_CLK, AVS_MDATA, GPIO[7:0],
SPI_IO[3:0], AVS_SDATA, SMB_SCL and SMB_SDA. -/
structure Jtag where
  instr : TapInstr := .reset
  held : Bool := false
  sampled : List Bool := []
  deriving DecidableEq, Repr

/-- What the part has sent out of itself, newest first: the only trace of it that no register holds. -/
inductive Out
  | msix (addr : Nat) (data : Word)
  | pmPme
  | avsWrite (mv : Nat)
  | cfgRetry
  | cfgDone (value : Nat)
  | hostWrite (addr : Nat) (bytes : List Byte) (relaxed : Bool)
  | hostRead (addr len : Nat) (relaxed : Bool)
  | errMessage (correctable fatal : Bool)
  | barRead (bytes : List Byte) (poisoned : Bool)
  | claimed (valid : Bool) (source : Nat)
  | timeLo (value : Word)
  | smb (bytes : List Byte)
  | jtag (value : Word)
  | unsupportedRequest
  | l1Request
  | eth (port : Nat) (bytes : List Byte)
  | pfc (port : Nat) (cls : Nat) (quanta : Nat)
  deriving DecidableEq, Repr

end Sys2Proof.Machine
end

