-- ==== Sys2Proof/Machine/TypesJob.lean ====
section
/-!
DEFINITION. The state of work queues, jobs, streams, the Placer, the mode unit and the personality directory.
-/
namespace Sys2Proof.Machine

/-- The STATE of a work queue (R112). -/
inductive WqState | disarmed | armed | paused | halted
  deriving DecidableEq, Repr

/-- One work queue (R112): bytes 0 to 47 of its WQ_TABLE entry as `cfg`, its read-only fields, and the Geyser's own
state of it: whether it is ready, its credit, the jobs of its reorder window in order, those whose body is being read,
whether an owner word is being read, whether a status word waits for a change of STATE, and the last job of each ended visit
whose status word waits (R122, R123). `cqFull` says that the completion ring has no free slot (R142). -/
structure Queue where
  cfg : List Byte := List.replicate 48 0
  sqNext : Nat := 0
  cqProd : Nat := 0
  cqHead : Nat := 0
  state : WqState := .disarmed
  haltReason : Nat := 0
  accepted : Nat := 0
  ready : Bool := false
  credit : Nat := 0
  window : List Nat := []
  bodies : List Nat := []
  statusDue : Bool := false
  visits : List Nat := []
  reading : Bool := false
  cqFull : Bool := false
  lastEpoch : Option Nat := none
  deriving DecidableEq, Repr

/-- A device-side submission source (R37 to R39, R497): a CLQ bound to a decode stream and its report queue, and bytes 64 to
79 of its flow entry. The access units are counted by the flow. -/
structure Source where
  clq : Nat
  stream : Nat
  queue : Nat
  flow : Nat
  ready : Bool := false
  out : List Byte := []
  deriving DecidableEq, Repr

/-- The reference state of a pool slot (R169). -/
inductive RefMark | unused | short | long
  deriving DecidableEq, Repr

/-- Where a job stands between acceptance and completion. -/
inductive Phase | body | parsing | waiting | ready | placed | running | retired
  deriving DecidableEq, Repr

/-- The frame record of a frame on several cores (R222): the header bits, the reference slots, the frame QP and the budget of each
tile. -/
structure FrameRecord where
  hdrBits : Nat := 0
  refs : List Nat := []
  qp : Nat := 0
  budgets : List Nat := []
  deriving DecidableEq, Repr

/-- One job. Its number in `State.jobs` grows by 16 from one acceptance to the next over the whole part, so an earlier job
has a smaller number; rendition r of a ladder job is the job at its number + 1 + r, with the ladder job as `parent` (R329).
`seq` is the submission index of a host entry and the access-unit count of a device-side one. `started` belongs to the present
attempt; `began` says that some attempt has started on a core or DMA channel (R116). `readyAt` is the job's place in the order in which
jobs became ready, 0 before (R184), `shares` the luma pixels or columns that each of its cores takes (R183), and `vec` the
validated mode of a STREAM_PARAMS that drains (R156). Of a decoded picture, `cover` says of each CTU in decoding order whether it
is decoded (1) or concealed (2), and `seg` holds the first and the next CTU of the open segment (R362). `staging` names with each
staging buffer its tile and `forStage` says that the pending request is for one (R224); `record` is the frame record (R222),
`borders` says that filters cross tile borders, `strips` holds the rows whose border samples each core has posted (R223), and
`engines` the cores whose bin engine has ended its part (R220). -/
structure Job where
  queue : Nat
  seq : Nat
  device : Bool := false
  indirect : Bool := false
  epoch : Nat
  body : List Byte := []
  phase : Phase := .body
  stream : Option Nat := none
  started : Bool := false
  began : Bool := false
  tag : Nat := 0
  status : Nat := 0
  detail : Nat := 0
  flags : Nat := 0
  core : Nat := 0xFF
  outBytes : Nat := 0
  handle0 : Nat := 0xFFFFFFFF
  handle1 : Nat := 0xFFFFFFFF
  tStart : Nat := 0
  attempt : Nat := 0
  replaced : Nat := 0
  discards : Nat := 0
  bufs : List Nat := []
  staging : List (Nat × Nat) := []
  forStage : Bool := false
  cores : List Nat := []
  widths : List Nat := []
  refs : List Nat := []
  slot : Option Nat := none
  held : Bool := false
  request : Option (Bool × Nat) := none
  ask : Option (Bool × Nat) := none
  tries : Nat := 0
  opened : Bool := false
  closedPkts : Nat := 0
  frags : List (Nat × Nat) := []
  overrides : List Byte := []
  ladder : List Byte := []
  keyPic : Bool := false
  spill : Bool := false
  drain : List Nat := []
  display : Nat := 0
  coding : Nat := 0
  overflow : Bool := false
  input : List Byte := []
  parent : Option Nat := none
  reported : Bool := false
  indexed : Bool := false
  tiles : Map Nat := []
  wins : List (Nat × Nat × Nat) := []
  budget : Nat := 0
  picType : Nat := 0
  posts : Map Nat := []
  framed : Bool := false
  reads : List Nat := []
  seeded : Bool := false
  plan : Nat := 0
  cost : Nat := 1
  qp : Nat := 0
  tid : Nat := 0
  outSlot : Option Nat := none
  readyAt : Nat := 0
  shares : List Nat := []
  vec : List Nat := []
  undo : List (Nat × Nat × RefMark × Nat) := []
  ctu : Nat := 16
  scan : List Nat := []
  ref0 : Option Nat := none
  mvFrac : Nat := 2
  crop : Nat × Nat × Nat × Nat := (0, 0, 0, 0)
  cover : Map Nat := []
  seg : Option (Nat × Nat) := none
  record : Option FrameRecord := none
  borders : Bool := false
  strips : Map Nat := []
  engines : List Nat := []
  deriving DecidableEq, Repr

/-- The life of a stream (R155 to R158). -/
inductive StreamState | closed | opened | stopped | closing
  deriving DecidableEq, Repr

/-- One pool slot (R169, R170, R174, R177). `cvs` and `outKey` order pictures for output across coded sequences. -/
structure Slot where
  mark : RefMark := .unused
  pending : Bool := false
  synthetic : Bool := false
  coding : Bool := false
  failed : Bool := false
  readers : Nat := 0
  gen : Nat := 0
  rowsDone : Nat := 0
  picId : Int := 0
  longIdx : Nat := 0xFF
  orderIndex : Nat := 0
  cvs : Nat := 0
  outKey : Int := 0
  released : Bool := false
  pts : Nat := 0
  concealed : Bool := false
  fraction : Nat := 0
  taint : Bool := false
  width : Nat := 0
  height : Nat := 0
  entropyEnd : Bool := false
  grain : Bool := false
  deriving DecidableEq, Repr

/-- The closing state of one frame (R341, R345, R346, R348): its coding index, DEBT, the CPB fullness after it, and for
each picture type the size, QP and complexity of the last frame of that type. -/
structure RateClose where
  idx : Nat
  debt : Int := 0
  full : Int := 0
  hist : List (Nat × Nat × Nat × Nat) := []
  deriving DecidableEq, Repr

/-- The rate-control state of a stream between frames (R341): the last three frames closed, newest first, the finally
failed frames whose close waits, and the HRD underflows counted (R349). -/
structure RateState where
  closes : List RateClose := []
  fails : List Nat := []
  underflows : Nat := 0
  deriving DecidableEq, Repr

/-- The working state that a core holds for a stream between frames (R160): the bin engine's contexts and CDF entries, and the
data memories of the sequencers, the pilot's at 5. `age` orders the copies of one stream. -/
structure Context where
  ctx : Map Word := []
  cdf : Map Nat := []
  mems : Map (Map Byte) := []
  age : Nat := 0
  deriving DecidableEq, Repr

/-- One context save slot in DRAM (R159, R161, R162). -/
structure SaveSlot where
  complete : Bool := false
  age : Nat := 0
  held : Context := {}
  deriving DecidableEq, Repr

/-- A re-home in progress (R194); target 15 while the Placer has not chosen one. -/
structure Rehome where
  cause : Nat
  target : Nat
  started : Bool := false
  rebuild : Bool := false
  base : Nat := 0
  deriving DecidableEq, Repr

/-- The home mirror of a stream (R193): the quadrant whose Caldera slice holds it, the mode vector, and the sequence-level state
of the personality with its parameter sets, as they were when it was written. -/
structure Mirror where
  quad : Nat := 0
  mode : List Nat := []
  seq : Context := {}
  deriving DecidableEq, Repr

/-- One stream (R153 to R178, R192 to R194). `slices` are the copies of its core context in the Caldera slices, by quadrant
(R161), and `record` the part of its stream record from which a lost context is rebuilt (R160, R162). -/
structure Stream where
  state : StreamState := .closed
  queue : Nat := 0
  encode : Bool := false
  pers : Nat := 0
  persId : Nat := 0
  mode : List Nat := []
  home : Nat := 0
  blockBase : Nat := 0
  blockMib : Nat := 0
  poolSlots : Nat := 0
  overlap : Nat := 0
  k : Nat := 1
  slots : Map Slot := []
  framesDone : Nat := 0
  droppedOutput : Nat := 0
  rebuilds : Nat := 0
  codingIndex : Nat := 0
  displayIndex : Nat := 0
  decodeIndex : Nat := 0
  cvs : Nat := 0
  lastFormat : Nat := 0
  lastPitch : Nat := 0
  nextKey : Bool := false
  migrate : Bool := false
  rehome : Option Rehome := none
  again : Option (Nat × Nat) := none
  lastCtu : Nat := 0
  homeless : Bool := false
  last64 : List Nat := []
  saveA : SaveSlot := {}
  saveB : SaveSlot := {}
  saves : Nat := 0
  ctxCore : Option Nat := none
  ctxLost : Bool := false
  slices : Map Context := []
  record : Context := {}
  rc : RateState := {}
  look : Map Nat := []
  passes : Map LookPass := []
  reserve : Option (Nat × Nat) := none
  before : StreamState := .opened
  lookCap : Nat := 0
  mirror : Mirror := {}
  openVec : List Nat := []
  deriving DecidableEq, Repr

/-- The Placer's state of one core (R180 to R183, R198, R201, R213): the jobs in the core, lead last, the placed jobs
that wait to enter, and the COPY, FILL and REF_OP jobs in order. `ran` says that it has run since READY, and `busyLog` at which
of the last 100 refreshes of PT(n) it was busy, newest first (CORE_STATUS.BUSY). -/
structure CorePlace where
  lastStream : Option Nat := none
  inside : List Nat := []
  queue : List Nat := []
  side : List Nat := []
  pt : Nat := 0
  ran : Bool := false
  slow : Bool := false
  retained : Option Nat := none
  busyLog : List Bool := []
  deriving DecidableEq, Repr

/-- One Caldera row window (R191): the picture it holds, the jobs that read it and its size. -/
structure Window where
  stream : Nat
  slot : Nat
  gen : Nat
  users : Nat
  bytes : Nat
  deriving DecidableEq, Repr

/-- The Placer's state of one quadrant (R195 to R197, R203). `liveAt` is when its cores' tempo follows the monitors again
after power-up (R180). -/
structure QuadPlace where
  parked : Bool := false
  waking : Bool := false
  liveAt : Nat := 0
  dramLoad : Nat := 0
  dramHigh : Bool := false
  windows : List Window := []
  deriving DecidableEq, Repr

/-- The Placer (R179 to R206), with the placement records lost since the last LOST record (R204) and the place in order of the
job that became ready last (R184). -/
structure Placer where
  cores : Map CorePlace := []
  quads : Map QuadPlace := []
  lost : Nat := 0
  readySeq : Nat := 0
  deriving DecidableEq, Repr

/-- A mailbox of R87: the result shown, those waiting, and the last sequence number given. -/
structure Mailbox where
  current : Option (Nat × Nat × Nat) := none
  waiting : List (Nat × Nat) := []
  seq : Nat := 0
  deriving DecidableEq, Repr

/-- The STATE underneath of the mode unit (R382). -/
inductive ModeState | applied | validating | mixed
  deriving DecidableEq, Repr

/-- The mode unit (R380 to R387). -/
structure Modes where
  current : Nat := 0
  vec : List Nat := []
  prev : List Nat := []
  state : ModeState := .applied
  busy : Nat := 0
  asked : Nat := 0
  candidate : List Nat := []
  laggards : BitVec 48 := 0
  box : Mailbox := {}
  deriving DecidableEq, Repr

/-- One directory entry of a loaded image (R313 to R321). -/
structure PersEntry where
  id : Nat
  flags : Nat
  unsigned : Bool
  progBase : Nat
  progWords : Nat
  tabBase : Nat
  tabWords : Nat
  params : PersParams
  deriving DecidableEq, Repr

/-- The personality directory and the command interface (R313 to R321). `busy` is a LOAD that waits for host memory: its source and
length. -/
structure Pers where
  dir : Map PersEntry := []
  result : Nat := 0
  cmdSeq : Nat := 0
  slot : Nat := 0
  busy : Option (Nat × Nat) := none
  prog : Map DWord := []
  tables : Map Word := []
  deriving DecidableEq, Repr

/-- The Geyser (R113 to R151): queues, device-side sources, where the round robin stands, the visit in progress with its
entries and the last job it accepted, the abort mailbox, and the abort requests (job, queue, index) that wait for the body of
their job (R146). -/
structure Geyser where
  queues : Map Queue := []
  sources : Map Source := []
  lastVisit : Nat := 0
  visit : Option (Nat × Nat × Option Nat) := none
  abort : Mailbox := {}
  asked : List (Nat × Nat × Nat) := []
  deriving DecidableEq, Repr

end Sys2Proof.Machine
end

