-- ==== Sys2Proof/Machine/TypesMem.lean ====
section
/-!
DEFINITION. The state of the memory controllers, the Caldera cell queues, the buffer pools and the DMA channels.
-/
namespace Sys2Proof.Machine

/-- SR_STATE of a controller (R412, R413). -/
inductive SrState | active | entering | selfRefresh | exiting
  deriving DecidableEq, Repr

/-- The capture of a freeze (R416, R418): the fields of FREEZE_HEAD, FREEZE_ADDR.LINE and the word of FREEZE_LOC. -/
structure Freeze where
  source : Nat
  port : Nat
  cls : Nat
  command : Nat
  syndrome : Nat
  line : Nat
  loc : Nat
  seq : Nat
  deriving DecidableEq, Repr

/-- A command that a controller gives to a sub-channel's memory (R398, R408, R409, R411): an activation of a row, a read or write
of a line by device address, and of an ECC line by number. -/
inductive DramOp
  | activate (bank row : Nat)
  | rfm (bank : Nat)
  | refresh (bank : Nat)
  | read (addr : Nat)
  | maskedWrite (addr : Nat)
  | readModifyWrite (addr : Nat)
  | eccRead (line : Nat)
  | eccWrite (line : Nat) (words : List Nat)
  deriving DecidableEq, Repr

/-- One DRAM controller (R388 to R419). `reqs` are the waiting requests in acceptance order. `rows` holds the open row of
each bank and `acts` its activation table as pairs of row and count, keyed by `bankKey`. Tokens are bytes. Scrub counts the
lines of the pass. `ops` are the memory commands of its latest row, in order. `ecc` is its cache of ECC lines, each with the
check bits that changed and are not yet written back, and `carve` the check bits in the carve-out, both by 8-byte word, device
address div 8; an unlisted word's are those of zero (R398). `tracked` holds, for each sub-channel, when it last tracked and
at what temperature. -/
structure Dch where
  reqs : List DchReq := []
  tokens : Map Int := []
  throttled : Nat := 0
  lastHammer : Nat := 0
  rows : Map Nat := []
  acts : Map (List (Nat × Nat)) := []
  sr : SrState := .active
  srAsked : Bool := false
  freeze : Option Freeze := none
  freezeSeq : Nat := 0
  freezeExtra : Nat := 0
  lastLine : Nat := 0
  rfm : Nat := 0
  ce : Nat := 0
  lastCe : Option Nat := none
  refreshed : Map Nat := []
  window : Nat := 0
  scrub : Nat := 0
  tracked : Map (Nat × Int) := []
  ops : List DramOp := []
  ecc : Map (Map Nat) := []
  carve : Map Nat := []
  deriving DecidableEq, Repr

/-- One packet of a Caldera queue (R421): its crust fields and its payload. `hold` marks a crust cell from the hold, and `frees`
lists the buffers of which a DISCONT packet is the last reference (R444). `times`
is the time record PTS and DTS that travels beside the packet (R514), and `unit` the access-unit count N of a depacketized
unit (R38, R428). -/
structure Packet where
  crust : Crust
  payload : List Byte := []
  hold : Bool := false
  frees : List Nat := []
  times : Option (Nat × Nat) := none
  unit : Nat := 0
  deriving DecidableEq, Repr

/-- The open packet of a queue (R426): who opened it, the bytes that still wait for a cell, whether the producer has
asked to close it, and the time in ns since which it waits for a cell. -/
structure OpenPkt where
  who : Producer
  pkt : Packet
  left : List Byte := []
  closing : Bool := false
  waitFrom : Option Nat := none
  deriving DecidableEq, Repr

/-- Bytes 0 to 15 of a queue's descriptor (R424). -/
structure ClqCfg where
  limit : Nat := 0
  producer : Nat := 0
  consumer : Nat := 0
  flags : Nat := 0
  fullWait : Nat := 0
  consumerId : Nat := 0
  rsv : Nat := 0
  deriving DecidableEq, Repr

/-- One Caldera queue (R420 to R434): its configuration, the open packet, the opens that wait, the complete packets in
delivery order, the packet being read with the bytes of crust and payload read so far, and the cells that jobs built from
its packets still hold (R497), and the cells that the merge charges to it (R503). -/
structure Clq where
  cfg : ClqCfg := {}
  enabled : Bool := false
  flushPending : Bool := false
  dropped : Nat := 0
  opened : Option OpenPkt := none
  waiting : List OpenPkt := []
  complete : List Packet := []
  reading : Option (Packet × Nat) := none
  held : List (Nat × Nat) := []
  merge : Nat := 0
  deriving DecidableEq, Repr

/-- The queue manager (R420 to R435): the queues, and the bytes that its latest read returned. -/
structure QMgr where
  queues : Map Clq := []
  item : List Byte := []
  deriving DecidableEq, Repr

/-- The state of a buffer pool (R436, R440). -/
inductive PoolState | disabled | enabling | enabled | broken | rebuilding
  deriving DecidableEq, Repr

/-- One buffer pool (R436 to R446). `head` is the tagged address of the first free buffer, 0 for an empty list. -/
structure Pool where
  state : PoolState := .disabled
  cause : Nat := 0
  head : Nat := 0
  free : Nat := 0
  owned : Nat := 0
  deriving DecidableEq, Repr

/-- One allocation result (R446). -/
structure AllocResult where
  pool : Nat
  outcome : Nat
  handle : Nat
  seq : Nat
  deriving DecidableEq, Repr

/-- The buffer pool manager (R436 to R446, R589). `box` holds the result shown and those that wait, oldest first. -/
structure Bpm where
  pools : Map Pool := []
  box : List AllocResult := []
  seq : Nat := 0
  lastHandle : Nat := 0
  refusals : Nat := 0
  lastKind : Nat := 0
  lastAgent : Nat := 0
  deriving DecidableEq, Repr

/-- What a quadrant holds of its region table beyond the registers: the ranges under initialisation, by region (R396). -/
structure QuadMem where
  init : List (Nat × Nat × Nat) := []
  deriving DecidableEq, Repr

/-- The state of a DMA channel (R449). -/
inductive ChState | idle | running | armed | held | ended
  deriving DecidableEq, Repr

/-- One descriptor as a channel read it (R447). -/
structure Desc where
  addr : Nat
  src : Nat
  dst : Nat
  len : Nat
  ctrl : Word
  next : Nat
  handle : Nat
  clq : Nat
  tag : Nat
  pitch : Nat
  status : Word
  deriving DecidableEq, Repr

/-- One DMA channel (R449 to R464). `fetching` is the address of a descriptor read in flight, `refetch` marks the reread
of R464, `ahead` is a descriptor fetched while another still runs. Of the running descriptor the channel keeps the bytes
read and written, their count, and the funnel buffer between them; for CLQ_IN the item it took. -/
structure Channel where
  state : ChState := .idle
  error : Nat := 0
  pendTrig : Nat := 0
  trigLost : Nat := 0
  descCount : Nat := 0
  curDesc : Nat := 0
  fetching : Option Nat := none
  refetch : Bool := false
  ahead : Option Desc := none
  desc : Option Desc := none
  endSeen : Bool := false
  appendMark : Bool := false
  stepNext : Option Nat := none
  waitCell : Bool := false
  evtPend : Nat := 0
  job : Option Nat := none
  rd : Nat := 0
  wr : Nat := 0
  total : Nat := 0
  buf : List Byte := []
  halfDone : Bool := false
  truncated : Bool := false
  owns : Bool := false
  item : List Byte := []
  stopAsked : Bool := false
  quiet : Bool := false
  deriving DecidableEq, Repr

/-- The DMA channels, core channel 4n + c and QD channel 192 + m, and the last channel served by each engine. -/
structure Dma where
  chans : Map Channel := []
  lastServed : Map Nat := []
  deriving DecidableEq, Repr

end Sys2Proof.Machine
end

