-- ==== Sys2Proof/Machine/TypesNet.lean ====
section
/-!
DEFINITION. The state of the network ports: links, the flow table, meters, merges, depacketizers and egress queues.
-/
namespace Sys2Proof.Machine

/-- One link, a port or a lane of a split port, at key 4·port + lane (R482, R486, R487): whether it is up, the paused egress
classes with the instant each pause ends, the priorities that the device holds paused, and the receive buffer's bytes by
priority. -/
structure NetLink where
  up : Bool := false
  paused : Map Nat := []
  xoff : List Nat := []
  held : List Nat := []
  deriving DecidableEq, Repr

/-- The transmit stamps of a port (R523): EN, the ring it took, and the last SEQ. -/
structure TxStamps where
  en : Bool := false
  base : Nat := 0
  log2 : Nat := 8
  seq : Nat := 0
  deriving DecidableEq, Repr

/-- One port: RX_DROP (R484, R489, R498), transmit stamps and EQ_STATUS. -/
structure NetPort where
  drops : Map Nat := []
  stamps : TxStamps := {}
  result : Nat := 0
  cmdSeq : Nat := 0
  queue : Nat := 0
  deriving DecidableEq, Repr

/-- One flow entry (R493): bytes 0 to 47 and 48 to 79, and its counters. -/
structure Flow where
  key : List Byte
  data : List Byte
  packets : Nat := 0
  bytes : Nat := 0
  meterDrops : Nat := 0
  meterMarked : Nat := 0
  dups : Nat := 0
  gaps : Nat := 0
  delivered : Nat := 0
  dropped : Nat := 0
  errors : Nat := 0
  last : Nat := 0
  deriving DecidableEq, Repr

/-- One meter (R499): bytes 0 to 15 and 16 to 31, the buckets in units of 2^-16 byte, LAST in ns and the counters. -/
structure Meter where
  cfg : List Byte := List.replicate 16 0
  act : List Byte := List.replicate 16 0
  tc : Nat := 0
  te : Nat := 0
  last : Nat := 0
  green : Nat := 0
  yellow : Nat := 0
  red : Nat := 0
  dropped : Nat := 0
  deriving DecidableEq, Repr

/-- A frame that a merge holds or passes on (R503): its flow, port, sequence number and UDP payload. -/
structure MergeFrame where
  flow : Nat
  port : Nat
  seq : Nat
  pay : List Byte
  deriving DecidableEq, Repr

/-- The merge of a pair group (R502 to R504): S, the held frames in sequence order, whether the gap deadline runs, the
frames discarded as behind in a row, and for RAW the extended sequence numbers passed, the highest first. -/
structure Merge where
  next : Option Nat := none
  held : List MergeFrame := []
  waiting : Bool := false
  behind : Nat := 0
  passed : List Nat := []
  deriving DecidableEq, Repr

/-- The compressed depacketizer that fills one Caldera queue (R505 to R507): N, the timestamp or PES packet being assembled,
the whole NAL units or PES bytes so far, a fragmented NAL unit in progress, the offsets at which a transport stream lost
packets, and what the next frame is compared with. -/
structure Depack where
  count : Nat := 0
  active : Bool := false
  ts : Option Nat := none
  pts : Int := 0
  unit : List Byte := []
  frag : Option (List Byte) := none
  marks : List Nat := []
  next : Option Nat := none
  cc : Option Nat := none
  tooLong : Bool := false
  deriving DecidableEq, Repr

/-- One open frame of a raw depacketizer (R509): its number, timestamp and first instant, the runs of samples received in
each line, and whether a later timestamp has arrived. -/
structure RawFrame where
  k : Nat
  ts : Nat
  first : Nat
  cover : Map (List (Nat × Nat)) := []
  late : Bool := false
  deriving DecidableEq, Repr

/-- One raw depacketizer in use (R508 to R510): its descriptor, its open frames oldest first, and the frames started. -/
structure RawDepack where
  base : Nat
  stride : Nat
  count : Nat
  pitch : Nat
  width : Nat
  height : Nat
  rowAddr : Nat
  frames : List RawFrame := []
  started : Nat := 0
  lastTs : Option Nat := none
  deriving DecidableEq, Repr

/-- One piece of an egress queue's output: a TS packet, an RTP payload or a whole host frame. `pcr` marks a TS packet whose
PCR is stamped at departure, `auEnd` the last piece of an access unit, `stamp` the TAG of a host frame that asks for a
transmit stamp, and `frees` the handles whose last bytes it carries. -/
structure Piece where
  bytes : List Byte
  pcr : Bool := false
  auEnd : Bool := false
  ts : Nat := 0
  stamp : Option Nat := none
  frees : List Nat := []
  deriving DecidableEq, Repr

/-- One egress queue (R511 to R529): bytes 0 to 49 of its entry, the shaper values in force, the template and PSI packets
that ENABLE read, tokens in units of 2^-16 byte with the instant they stand for, and its packetizer: the PES bytes that wait
with the access unit's end, the datagram in build, the frames ready and the twin's copies. -/
structure EgressQ where
  cfg : List Byte := List.replicate 50 0
  enabled : Bool := false
  rate : Nat := 0
  burst : Nat := 0
  overhead : Int := 0
  hdr : List Byte := []
  psi : List (List Byte) := []
  psiAsked : Bool := false
  psiDue : Bool := false
  pcrDue : Bool := false
  tokens : Int := 0
  filled : Nat := 0
  sent : Nat := 0
  discarded : Nat := 0
  ipId : Nat := 0
  rtpSeq : Nat := 0
  stc : Option (Nat × Nat) := none
  cc : Map Nat := []
  es : List Byte := []
  esStart : Bool := false
  esEnd : Bool := false
  esFrees : List (Nat × Nat) := []
  inUnit : Bool := false
  pts : Nat := 0
  dts : Nat := 0
  discont : Bool := false
  build : List Piece := []
  ready : List Piece := []
  copies : List (List Byte) := []
  deriving DecidableEq, Repr

/-- A member of a scheduler list (R526), with the quantum it joined with. -/
structure Member where
  id : Nat
  deficit : Nat := 0
  fresh : Bool := true
  quantum : Nat
  deriving DecidableEq, Repr

/-- The scheduler of one link (R526): its class list, and the queue list of each class. -/
structure Sched where
  classes : List Member := []
  queues : Map (List Member) := []
  deriving DecidableEq, Repr

/-- The network units. -/
structure Net where
  links : Map NetLink := []
  ports : Map NetPort := []
  flows : Map Flow := []
  flowResult : Nat := 0
  flowSeq : Nat := 0
  flowIndex : Nat := 0
  meters : Map Meter := []
  merges : Map Merge := []
  depacks : Map Depack := []
  raws : Map RawDepack := []
  egress : Map EgressQ := []
  scheds : Map Sched := []
  deriving DecidableEq, Repr

end Sys2Proof.Machine
end

