-- ==== Sys2Proof/Machine/State.lean ====
section
/-!
DEFINITION. The state of the part, the reasons a command can stop, and the state after power-on.
-/
namespace Sys2Proof.Machine

/-- Why the part stops with a fault. -/
inductive Fault
  /-- Raised by nobody: the spec gives every failing access of this part an effect. -/
  | unused
  deriving DecidableEq, Repr

/-- Why a command has no meaning. -/
inductive Refusal
  /-- The row has no meaning yet. -/
  | notModelled (mnemonic : String)
  deriving DecidableEq, Repr

/-- The state of the part. -/
structure State where
  power : Power := {}
  fuse : Fuses := {}
  boot : Boot := {}
  tempo : Tempo := {}
  time : Time := {}
  comps : Map Comparator := []
  pages : Map Page := []
  regs : Map Word := []
  pcie : Pcie := {}
  intc : Intc := {}
  faults : FaultUnit := {}
  due : List FaultHit := []
  jtag : Jtag := {}
  geyser : Geyser := {}
  jobs : Map Job := []
  nextJob : Nat := 0
  streams : Map Stream := []
  placer : Placer := {}
  modes : Modes := {}
  pers : Pers := {}
  cores : Map Core := []
  quads : Map QuadMem := []
  dchs : Map Dch := []
  qm : QMgr := {}
  bpm : Bpm := {}
  dma : Dma := {}
  net : Net := {}
  mem : List Host.Cell := []
  free : Nat := 0
  out : List Out := []
  pending : List Instr := []
  deriving DecidableEq, Repr

/-- The part right after power-on (R546). -/
def State.reset : State := {}

end Sys2Proof.Machine
end

