-- ==== Sys2Proof/Machine/Ops.lean ====
section
/-!
DEFINITION. The named operations that every meaning is built from: register and page access, events, device memory,
the output trace and the fault unit's record keeping.
-/
namespace Sys2Proof.Machine

/-! ### Bit fields (R9) -/

/-- The field [hi:lo] of a number. -/
def bits (n hi lo : Nat) : Nat := (n / 2 ^ lo) % 2 ^ (hi + 1 - lo)

/-- The field [hi:lo] of a register word. -/
def fld (w : Word) (hi lo : Nat) : Nat := bits w.toNat hi lo

/-- One bit of a number. -/
def bit (n i : Nat) : Bool := (n / 2 ^ i) % 2 == 1

/-- The two's complement reading of a w-bit number. -/
def signed (w n : Nat) : Int := if n % 2 ^ w < 2 ^ (w - 1) then (n % 2 ^ w : Nat) else (n % 2 ^ w : Nat) - (2 ^ w : Nat)

/-- An integer narrowed to w bits. -/
def narrow (w : Nat) (i : Int) : Nat := (i % (2 ^ w : Nat)).toNat

/-- The little-endian bytes of a number (R10). -/
def leBytes : Nat → Nat → List Byte
  | 0, _ => []
  | k + 1, n => BitVec.ofNat 8 n :: leBytes k (n / 256)

/-- The number that bytes spell, lowest first (R10). -/
def leNat : List Byte → Nat
  | [] => 0
  | b :: t => b.toNat + 256 * leNat t

/-- One bit as a number. -/
def b2n (b : Bool) : Nat := if b then 1 else 0

/-- Puts a number into a rising list. -/
def insNat (x : Nat) : List Nat → List Nat
  | [] => [x]
  | y :: t => if x ≤ y then x :: y :: t else y :: insNat x t

/-- The numbers in rising order. -/
def sortNat (l : List Nat) : List Nat := l.foldr insNat []

/-- The lower of the two middle values (R46, R181); 0 for none. -/
def medianNat (l : List Nat) : Nat := (sortNat l).getD ((l.length - 1) / 2) 0

/-- The first item with the least key; none for no item. -/
def leastBy {α : Type} (key : α → Nat) : List α → Option α
  | [] => none
  | x :: t =>
    match leastBy key t with
    | none => some x
    | some y => if key x ≤ key y then some x else some y

/-- LANE_COUNT of a core whose self-test found n healthy lanes: a multiple of 32, at most 256 (R26). -/
def laneCount (n : Nat) : Nat := min 256 (n / 32 * 32)

/-! ### Outcomes -/

/-- What every meaning answers. -/
abbrev Result := Host.Outcome State Fault Refusal

/-- The part is powered and not sealed: outside that state nothing but the readers of R543 acts. -/
def State.live (s : State) : Bool := s.power.powered && decide (s.faults.stop ≠ .sealed)

/-- Appends to the trace of what the part sends. -/
def State.emit (s : State) (o : Out) : State := { s with out := o :: s.out }

/-- Draws the next open value (log entry 2). -/
def State.draw (s : State) : Nat × State := (Config.freeValue s.free, { s with free := s.free + 1 })

/-! ### Pages and registers -/

/-- The header state of page p. -/
def State.page (s : State) (p : Nat) : Page := mgetD s.pages p Page.reset

/-- Changes the header state of page p. -/
def State.modPage (s : State) (p : Nat) (f : Page → Page) : State :=
  { s with pages := mset s.pages p (f (s.page p)) }

/-- Sets PAGE_ERR.ACCESS_BAD of page p (R69). -/
def State.accessBad (s : State) (p : Nat) : State := s.modPage p (fun g => { g with accessBad := true })

/-- A write of 1 to an RSV bit is discarded and sets ACCESS_BAD (R15). `mask` holds the bits that are not RSV. -/
def State.rsv (s : State) (p : Nat) (mask v : Word) : State := if v &&& ~~~mask = 0 then s else s.accessBad p

/-- A rejected commit or command (R69): the first reason and group since COMMIT_REJECT was cleared stay. -/
def State.reject (s : State) (p reason group : Nat) : State :=
  s.modPage p (fun g =>
    if g.commitReject then g else { g with commitReject := true, rejectReason := reason, rejectGroup := group })

/-- A unit that enters FENCED or FROZEN rejects every group that is still pending, with reason STATE (R79). -/
def Page.leaves (g : Page) : Page :=
  if g.groups = 0 then g
  else if g.commitReject then { g with groups := 0 }
  else { g with
    groups := 0, commitReject := true, rejectReason := 3
    rejectGroup := ((List.range 16).find? (fun i => g.groups.getLsbD i)).getD 0 }

/-- The sequence number of the next mailbox result: 1 to 255, skipping 0 (R87). -/
def nextSeq (n : Nat) : Nat := if 255 ≤ n then 1 else n + 1

/-- The lowest, highest and default severity of a fault source, and whether its hit job is retried (R531); none for a
reserved source. -/
structure SourceInfo where
  lo : Nat
  hi : Nat
  dflt : Nat
  retry : Bool
  deriving DecidableEq, Repr

/-- The fault source table of R531. -/
def sourceInfo (n : Nat) : Option SourceInfo :=
  let mk (lo hi d : Nat) (r : Bool) : Option SourceInfo := some { lo := lo, hi := hi, dflt := d, retry := r }
  if n < 32 then
    match n with
    | 0 | 1 | 2 => mk 5 5 5 false
    | 3 => mk 4 5 4 false
    | 4 => mk 0 1 1 false
    | 5 => mk 4 5 4 false
    | 6 | 7 => mk 1 4 1 false
    | 8 => mk 2 4 2 false
    | 9 => mk 0 2 1 false
    | 10 | 11 | 12 => mk 4 5 4 false
    | 13 => mk 1 4 1 false
    | 14 => mk 0 2 0 false
    | 15 => mk 0 2 1 false
    | 16 => mk 0 1 0 false
    | 17 => mk 4 5 4 false
    | _ => none
  else if n < 64 then
    match n % 8 with
    | 0 => mk 0 1 1 false
    | 1 => mk 3 4 3 true
    | 2 => mk 3 4 3 true
    | 3 => mk 0 1 1 false
    | 4 => mk 3 4 3 false
    | 5 => mk 3 4 3 true
    | _ => none
  else if n < 96 then
    match n with
    | 64 => mk 2 3 2 false
    | 65 => mk 2 3 2 true
    | 66 | 67 => mk 2 3 2 false
    | 68 => mk 3 3 3 true
    | 69 => mk 0 1 1 false
    | 70 | 71 | 72 => mk 3 4 3 true
    | 73 => mk 1 3 1 false
    | 74 => mk 2 2 2 false
    | 75 => mk 2 3 2 false
    | _ => none
  else if n < 192 then
    match n % 8 with
    | 0 => mk 0 1 1 false
    | 1 | 2 => mk 3 4 3 true
    | 3 => mk 0 2 1 false
    | 4 => mk 1 3 1 false
    | _ => none
  else if n < 208 then
    match n % 8 with
    | 0 | 1 => mk 3 4 3 false
    | 2 => mk 0 1 0 false
    | _ => none
  else none

/-- One half of a SEV_CFG register at reset (R532). -/
def sevHalf (n : Nat) : Nat :=
  match sourceInfo n with
  | some i => i.hi * 0x1000 + i.lo * 0x100 + i.dflt
  | none => 0

/-- The reset values of the device mode fields DEV_MODE[d] (R381). -/
def devModeReset (d : Nat) : Nat := [2, 100, 20, 3, 0, 60, 12, 0, 0, 0, 0, 16, 1024, 4096, 1000, 1, 1, 1, 1].getD d 0

/-- The reset value of the register at a shadow or direct offset of page p, for the registers whose table gives a rule
of the index or instance rather than a number. -/
def regReset (p off : Nat) : Word :=
  match pageKind p with
  | none => 0
  | some k =>
    match findReg k off with
    | none => 0
    | some d =>
      match k with
      | .fault => BitVec.ofNat 32 (sevHalf (2 * d.idx off + 1) * 0x10000 + sevHalf (2 * d.idx off))
      | .intc => BitVec.ofNat 32 (d.idx off)
      | .mode => if off < 0x100 then 0 else BitVec.ofNat 32 (devModeReset (d.idx off))
      | .quad => if off = 0x040 then BitVec.ofNat 32 (pageQuad p * 0x8000) else BitVec.ofNat 32 d.reset
      | _ => BitVec.ofNat 32 d.reset

/-- The number of a register in `State.regs`. -/
def regKey (p off : Nat) : Nat := p * 4096 + off

/-- A stored register: the shadow view or a direct register below 0x800, the active view from 0x800 (R73). -/
def State.reg (s : State) (p off : Nat) : Word :=
  mgetD s.regs (regKey p off) (regReset p (if off < 0x800 then off else off - 0x800))

/-- Stores a register. -/
def State.setReg (s : State) (p off : Nat) (w : Word) : State :=
  { s with regs := mset s.regs (regKey p off) w }

/-- The active value of the shadowed register at shadow offset `off` (R73). -/
def State.active (s : State) (p off : Nat) : Word := s.reg p (off + 0x800)

/-- An occurrence event: its EVT_PEND bit sets (R72). EVT_RAW shows it for one refresh only, which no command sees. -/
def State.raiseEvt (s : State) (p b : Nat) : State :=
  s.modPage p (fun g => { g with evtPend := g.evtPend ||| BitVec.ofNat 32 (2 ^ b) })

/-- A condition event: EVT_RAW follows it, and a rise sets EVT_PEND (R72). -/
def State.setCond (s : State) (p b : Nat) (v : Bool) : State :=
  s.modPage p (fun g =>
    let m := BitVec.ofNat 32 (2 ^ b)
    if v then
      { g with evtRaw := g.evtRaw ||| m, evtPend := if g.evtRaw &&& m = 0 then g.evtPend ||| m else g.evtPend }
    else { g with evtRaw := g.evtRaw &&& ~~~ m })

/-- How a page answers in the present device state (R90). -/
inductive Serving | served | resetValues | zero | readOnly
  deriving DecidableEq, Repr

/-- R90: how page p answers. -/
def State.serving (s : State) (p : Nat) : Serving :=
  let always := p = 0 ∨ p = 3
  let early := always ∨ p = 1 ∨ p = 17
  if s.faults.stop = .sealed then (if always then .readOnly else .zero)
  else
    match s.boot.state with
    | .ready => if p = 32 then .resetValues else .served
    | .booting => if early then .served else .resetValues
    | .dormant => if early ∨ p = 32 then .served else .resetValues

/-- PAGE_STATUS.STATE as the page reports it: OFFLINE until READY (R90). -/
def State.pageState (s : State) (p : Nat) : UnitState :=
  if s.serving p = .served then (s.page p).state else .offline

/-- The unit of page p takes new work: it is in service, enabled, not fenced and not draining (R71). -/
def State.takes (s : State) (p : Nat) : Bool :=
  let g := s.page p
  g.enable && !g.fence && !g.draining && (g.state == .idle || g.state == .running)

/-- The host can reach the part: it is powered, PERST_N is high and the data link layer is active (R101, R108, R546). -/
def State.linked (s : State) : Bool := s.power.powered && s.power.perstHigh && s.pcie.linkUp

/-- Traffic brings the link out of L1 (R107). -/
def State.toL0 (s : State) : State :=
  if s.pcie.inL1 then { s with pcie := { s.pcie with inL1 := false } } else s

/-- The part sends a request of its own; it brings the link out of L1 first (R107). -/
def State.send (s : State) (o : Out) : State := s.toL0.emit o

/-- A request of n bytes at host address a, cut so that no piece is longer than `lim` or crosses a 4 KiB boundary (R99). The
first argument bounds the number of pieces. -/
def requestCuts : Nat → Nat → Nat → Nat → List (Nat × Nat)
  | 0, _, _, _ => []
  | k + 1, lim, a, n =>
    if n = 0 then []
    else
      let m := min n (min (max lim 1) (4096 - a % 4096))
      (a, m) :: requestCuts k lim (a + m) (n - m)

/-- The device may issue requests to host memory (R103). -/
def State.hostReach (s : State) : Bool := s.linked && s.pcie.bme && !s.pcie.d3hot

/-- The requests of one write of host memory, in pieces of at most Max Payload Size (R98, R99). -/
def State.putOut (s : State) (a : Nat) (bs : List Byte) (content : Bool) : State :=
  (requestCuts bs.length s.pcie.mps a bs.length).foldl
    (fun t r => t.send (.hostWrite r.1 ((bs.drop (r.1 - a)).take r.2) (content && s.pcie.relaxedEn))) s

/-- A write of host memory. `content` marks the data for which R98 allows Relaxed Ordering: source frames, output pictures,
bitstream, pool buffer contents and fragment tables. While the host cannot be reached the write is held, in order (R104). -/
def State.hostPut (s : State) (a : Nat) (bs : List Byte) (content : Bool) : State :=
  if s.hostReach then s.putOut a bs content
  else { s with pcie := { s.pcie with heldWrites := s.pcie.heldWrites ++ [(a, bs, content)] } }

/-- The writes that the power state held back go out, in order (R104). -/
def State.putHeld (s : State) : State :=
  if s.hostReach then
    s.pcie.heldWrites.foldl (fun t w => t.putOut w.1 w.2.1 w.2.2) { s with pcie := { s.pcie with heldWrites := [] } }
  else s

/-- A read of host memory, in requests of at most Max Read Request Size (R98, R99). -/
def State.hostAsk (s : State) (a n : Nat) (content : Bool) : State :=
  (requestCuts n s.pcie.mrrs a n).foldl (fun t r => t.send (.hostRead r.1 r.2 (content && s.pcie.relaxedEn))) s

/-- An error of R101 is a correctable one. -/
def aerCorrectable : AerError → Bool
  | .receiverError | .badTlp | .badDllp | .replayRollover | .replayTimeout | .advisory | .correctedInternal => true
  | _ => false

/-- An AER error (R101): its status bit sets, and an error message leaves for one that is not masked while the link is up. -/
def State.report (s : State) (e : AerError) : State :=
  let x := s.pcie
  let s1 := { s with pcie := { x with
    aer := e :: x.aer, aerStatus := if x.aerStatus.contains e then x.aerStatus else x.aerStatus ++ [e] } }
  if s.linked && !x.aerMask.contains e then s1.send (.errMessage (aerCorrectable e) (x.aerFatal.contains e)) else s1

/-- A memory request decodes to a BAR: Memory Space Enable is 1 and the function is in D0 (R102). -/
def State.decodes (s : State) : Bool := s.pcie.mse && !s.pcie.d3hot

/-- A host write to page p through BAR0: nothing without a link, Unsupported Request outside R102, discarded as R90 and
R91 state, and otherwise its effect. -/
def hostWrite (p : Nat) (s : State) (f : State → State) : State :=
  let s := s.toL0
  if !s.linked then s
  else if !s.decodes then s.emit .unsupportedRequest
  else if (pageKind p).isNone then (if s.live then s.accessBad 0 else s)
  else
    match s.serving p with
    | .served => f s
    | .resetValues => s.accessBad 0
    | .zero => s
    | .readOnly => s

/-! ### Device memory -/

/-- Device memory in canonical form: addresses strictly rising below 2^40, no byte equal to the 0 an unlisted one reads. -/
def Memory.wf (m : List Host.Cell) : Bool :=
  msorted m && m.all (fun c => decide (c.1 < 2 ^ 40) && decide (c.2 ≠ 0))

/-- Reads one byte. -/
def memByte (m : List Host.Cell) (a : Nat) : Byte := mgetD m a 0

/-- Writes one byte, keeping the canonical form. Addresses outside 40 bits do not exist. -/
def memPut (m : List Host.Cell) (a : Nat) (b : Byte) : List Host.Cell :=
  if a < 2 ^ 40 then (if b = 0 then mdel m a else mset m a b) else m

/-- Writes bytes at rising addresses. -/
def memPutAll (m : List Host.Cell) (a : Nat) : List Byte → List Host.Cell
  | [] => m
  | b :: t => memPutAll (memPut m a b) (a + 1) t

/-- Reads n bytes at rising addresses. -/
def memGetAll (m : List Host.Cell) (a : Nat) : Nat → List Byte
  | 0 => []
  | n + 1 => memByte m a :: memGetAll m (a + 1) n

/-- Reads a little-endian number of n bytes. -/
def memNat (m : List Host.Cell) (a n : Nat) : Nat := leNat (memGetAll m a n)

/-- Zeros every byte of an address run. -/
def zeroRun (m : List Host.Cell) (a n : Nat) : List Host.Cell := m.filter (fun c => c.1 < a || a + n ≤ c.1)

/-- Writes device memory of the state. -/
def State.write (s : State) (a : Nat) (bs : List Byte) : State := { s with mem := memPutAll s.mem a bs }

/-! ### Tables of the state -/

/-- Job j. -/
def State.job (s : State) (j : Nat) : Option Job := mget s.jobs j

/-- Changes job j, if it exists. -/
def State.modJob (s : State) (j : Nat) (f : Job → Job) : State := { s with jobs := mupd s.jobs j f }

/-- Stream n; an unlisted one is CLOSED. -/
def State.stream (s : State) (n : Nat) : Stream := mgetD s.streams n {}

/-- Changes stream n. -/
def State.modStream (s : State) (n : Nat) (f : Stream → Stream) : State :=
  { s with streams := mset s.streams n (f (s.stream n)) }

/-- Work queue q; an unlisted one is as at READY. -/
def State.wq (s : State) (q : Nat) : Queue := mgetD s.geyser.queues q {}

/-- Changes work queue q. -/
def State.modWq (s : State) (q : Nat) (f : Queue → Queue) : State :=
  { s with geyser := { s.geyser with queues := mset s.geyser.queues q (f (s.wq q)) } }

/-- Pool p. -/
def State.pool (s : State) (p : Nat) : Pool := mgetD s.bpm.pools p {}

/-- Changes pool p. -/
def State.modPool (s : State) (p : Nat) (f : Pool → Pool) : State :=
  { s with bpm := { s.bpm with pools := mset s.bpm.pools p (f (s.pool p)) } }

/-- Caldera queue q. -/
def State.clq (s : State) (q : Nat) : Clq := mgetD s.qm.queues q {}

/-- Changes Caldera queue q. -/
def State.modClq (s : State) (q : Nat) (f : Clq → Clq) : State :=
  { s with qm := { s.qm with queues := mset s.qm.queues q (f (s.clq q)) } }

/-- Flow entry i. -/
def State.flow (s : State) (i : Nat) : Option Flow := mget s.net.flows i

/-- Changes flow entry i, if it is in use. -/
def State.modFlow (s : State) (i : Nat) (f : Flow → Flow) : State :=
  { s with net := { s.net with flows := mupd s.net.flows i f } }

/-- The depacketizer of a Caldera queue. -/
def State.depack (s : State) (q : Nat) : Depack := mgetD s.net.depacks q {}

/-- Changes the depacketizer of a Caldera queue. -/
def State.modDepack (s : State) (q : Nat) (f : Depack → Depack) : State :=
  { s with net := { s.net with depacks := mset s.net.depacks q (f (s.depack q)) } }

/-- Controller k. -/
def State.dch (s : State) (k : Nat) : Dch := mgetD s.dchs k {}

/-- Changes controller k. -/
def State.modDch (s : State) (k : Nat) (f : Dch → Dch) : State := { s with dchs := mset s.dchs k (f (s.dch k)) }

/-- DMA channel c: core channel 4n + g or QD channel 192 + m (R443). -/
def State.chan (s : State) (c : Nat) : Channel := mgetD s.dma.chans c {}

/-- Changes DMA channel c. -/
def State.modChan (s : State) (c : Nat) (f : Channel → Channel) : State :=
  { s with dma := { s.dma with chans := mset s.dma.chans c (f (s.chan c)) } }

/-- A fault source fires during the present command; the fault unit takes it up when the command's own effect ends. -/
def State.fault (s : State) (src inst : Nat) (job : Option Nat) (info : Nat) : State :=
  { s with due := s.due ++ [{ source := src, inst := inst, job := job, info := info }] }

/-! ### Outstanding reads of host memory (R99) -/

/-- A read that was asked for is still wanted. -/
def State.wants (s : State) : HostReq → Bool
  | .owner q => (s.wq q).reading
  | .body q j => (s.wq q).bodies.contains j
  | .desc c => ((s.chan c).fetching.map (fun a => !bit a 63)).getD false

/-- The reads that wait for a tag. -/
def State.waitingReads (s : State) : List (HostReq × Nat × Nat) := s.pcie.waits.filter (fun r => s.wants r.1)

/-- The owner-word, body and descriptor reads that the link carries: those asked for, but for the waiting ones. -/
def State.readsOut (s : State) : Nat :=
  (s.geyser.queues.map (fun q => b2n q.2.reading + q.2.bodies.length)).sum +
    (s.dma.chans.filter (fun c => s.wants (.desc c.1))).length - s.waitingReads.length

/-- R99: a tag is free for one more read. -/
def State.tagFree (s : State) : Bool := decide (s.readsOut < if s.pcie.tag10 then 768 else 256)

/-- Issues a read of n bytes at host address a, or lets it wait for a tag (R99) or for the host (R103). -/
def State.issueRead (s : State) (r : HostReq) (a n : Nat) : State :=
  if s.tagFree && s.hostReach then s.hostAsk a n false
  else { s with pcie := { s.pcie with waits := s.pcie.waits.filter (fun w => w.1 != r) ++ [(r, a, n)] } }

/-- The answer of this read can come: it does not wait for a tag. -/
def State.onLink (s : State) (r : HostReq) : Bool := !s.pcie.waits.any (fun w => w.1 == r)

/-- Tags have come free: the reads that wait go out, oldest first, while the host can be reached. -/
def State.pumpReads (s : State) : Nat → State
  | 0 => s
  | n + 1 =>
    match s.waitingReads with
    | [] => { s with pcie := { s.pcie with waits := [] } }
    | r :: t =>
      if s.tagFree && s.hostReach then
        (({ s with pcie := { s.pcie with waits := t } }).hostAsk r.2.1 r.2.2 false).pumpReads n
      else { s with pcie := { s.pcie with waits := r :: t } }

/-- The end of a command that took an answer: the next reads go out. -/
def State.readDone (s : State) : State := if s.pcie.waits = [] then s else s.pumpReads s.pcie.waits.length

/-! ### Device addresses (R31 to R33, R390, R395 to R397) -/

/-- GiB per sub-channel and inline ECC, from the board configuration record (R388, R389). -/
def State.density (s : State) : Nat := fld s.fuse.boardCfg 15 12

/-- Inline ECC is on (R389). -/
def State.inlineEcc (s : State) : Bool := fld s.fuse.boardCfg 25 25 == 0

/-- Addressable bytes of each home range (R32). -/
def State.addressable (s : State) : Nat :=
  let all := 6 * s.density * 2 ^ 30
  if s.inlineEcc then all / 8 * 7 else all

/-- The controller of a quadrant offset (R390). -/
def offsetDch (q o : Nat) : Nat := 3 * q + o / 256 % 3

/-- A controller answers: its page is neither fenced nor frozen (R397). -/
def State.dchUp (s : State) (k : Nat) : Bool :=
  let g := s.page (dchPage k)
  decide (g.state ≠ .fenced) && decide (g.state ≠ .frozen)

/-- A home-range address that reaches memory (R32, R396, R397); behind a fenced router none does (R536, log entry 62). -/
def State.homeOk (s : State) (a : Nat) : Bool :=
  let q := a / 2 ^ 35
  let o := a % 2 ^ 35
  decide (q < 4) && decide (o < s.addressable) && s.dchUp (offsetDch q o) && (s.page (quadPage q + 3)).state != .fenced &&
  (mgetD s.quads q {}).init.all (fun r => !(decide (r.2.1 ≤ o) && decide (o < r.2.1 + r.2.2)))

/-- An address in a quadrant's Caldera slice (R31). -/
def sliceAddr (a : Nat) : Bool :=
  decide (0xE000000000 ≤ a) && decide (a < 0xE008000000) && decide (a % 0x2000000 < 0x1800000)

/-- An address in the central slice (R31). -/
def centralAddr (a : Nat) : Bool := decide (0xE008000000 ≤ a) && decide (a < 0xE009000000)

/-- A device read of this address is answered (R31 to R33). -/
def State.readOk (s : State) (a : Nat) : Bool := s.homeOk a || sliceAddr a || centralAddr a

/-- A core or DMA write to this address lands (R31 to R33). -/
def State.writeOk (s : State) (a : Nat) : Bool := s.homeOk a || sliceAddr a

/-- The addresses at which the decision for a run of bytes can change: both ends and every 256-byte chunk between. -/
def chunkPoints (a n : Nat) : List Nat :=
  (a + n - 1) :: (List.range ((a % 256 + n + 255) / 256)).map (fun i => max a ((a / 256 + i) * 256))

/-- Every byte of a run is readable. -/
def State.readRun (s : State) (a n : Nat) : Bool := n == 0 || (chunkPoints a n).all s.readOk

/-- Every byte of a run is writable. -/
def State.writeRun (s : State) (a n : Nat) : Bool := n == 0 || (chunkPoints a n).all s.writeOk

/-- A tagged address names device memory (R128). -/
def isDev (t : Nat) : Bool := bit t 63

/-- The device address of a tagged address (R128). -/
def devOf (t : Nat) : Nat := t % 2 ^ 40

/-- A tagged address is well formed (R128). -/
def tagOk (t : Nat) : Bool := decide (t < 2 ^ 64) && (!isDev t || bits t 62 40 == 0)

/-- The bytes of a crust item (R421). -/
def crustBytes (c : Crust) (len q : Nat) : List Byte :=
  let t := match c.typ with
    | .idle => 0
    | .data => 1
    | .discont => 2
    | .bufref => 3
  leBytes 8 (t * 2 ^ 60 + b2n c.lastRef * 2 ^ 59 + b2n c.key * 2 ^ 58 + b2n c.auEnd * 2 ^ 57 + b2n c.auStart * 2 ^ 56 +
    len % 2 ^ 24 * 2 ^ 32 + c.tag % 2 ^ 16 * 2 ^ 16 + q)

/-- A packet as its consumer reads it: crust, then payload (R430). -/
def Packet.bytes (p : Packet) (q : Nat) : List Byte := crustBytes p.crust p.payload.length q ++ p.payload

/-- The packets of a queue that hold cells. -/
def Clq.packets (c : Clq) : List Packet :=
  (c.reading.map Prod.fst).toList ++ c.complete ++ (c.opened.map (fun o => o.pkt)).toList

/-- The cells that packets hold, 64 bytes each: crust and payload in order (R421). -/
def State.heldCells (s : State) : List (List Byte) :=
  s.qm.queues.flatMap (fun q => q.2.packets.flatMap (fun p =>
    (List.range ((p.payload.length + 71) / 64)).map (fun k => ((p.bytes q.1).drop (64 * k)).take 64)))

/-- A byte of the central slice (R33). Which cell of the pool a packet's part lies in is not stated: an open value names the cell
that a cell address shows, and one beyond those that packets hold shows open bytes (log entry 3). -/
def State.centralRead (s : State) (a : Nat) : Byte :=
  match s.heldCells[Config.centralCell s.free (a / 64)]? with
  | some l => l.getD (a % 64) (BitVec.ofNat 8 (Config.centralByte s.free a))
  | none => BitVec.ofNat 8 (Config.centralByte s.free a)

/-- n bytes of device memory as a read returns them: the central slice shows its cells outside Dormant mode (R33). -/
def State.devBytes (s : State) (a n : Nat) : List Byte :=
  if centralAddr a ∧ s.boot.state = .ready then (List.range n).map (fun i => s.centralRead (a + i))
  else memGetAll s.mem a n

/-- A write to a tagged address is accepted: the host refuses none that the device sees (R100). -/
def State.writeTagOk (s : State) (t n : Nat) : Bool := !isDev t || (tagOk t && s.writeRun (devOf t) n)

/-- A write to a tagged address: device memory changes, unless the address is refused (R32, R33), or the host sees a write. -/
def State.writeTagged (s : State) (t : Nat) (bs : List Byte) (content : Bool := false) : State :=
  if isDev t then (if s.writeTagOk t bs.length then s.write (devOf t) bs else s) else s.hostPut t bs content

/-- Asks host memory for what a tagged address names (R98, R99); device memory answers within the command. -/
def State.askTagged (s : State) (t n : Nat) (content : Bool) : State := if isDev t then s else s.hostAsk t n content

/-- Reads of a tagged address: device memory, or the bytes that the host answered with (none: the read failed, R100). -/
def State.readTagged (s : State) (t n : Nat) (host : Option (List Byte)) : Option (List Byte) :=
  if isDev t then (if tagOk t && s.readRun (devOf t) n then some (s.devBytes (devOf t) n) else none)
  else host.map (fun l => (l ++ List.replicate n 0).take n)

end Sys2Proof.Machine
end

