-- ==== Sys2Proof/Machine/BootOps.lean ====
section
/-!
DEFINITION. Boot attempts, their record, the resets of the whole part and the entry to Dormant mode (R108, R109, R546 to
R561).
-/
namespace Sys2Proof.Machine

/-- Milliseconds since the present attempt began, as BOOT_HISTORY.DURATION holds them (R557). -/
def State.attemptMs (s : State) : Nat := min ((s.time.ns - s.boot.started) / 1000000) 16383

/-- A new BOOT_HISTORY entry: OUTCOME 1 READY, 2 FAILED, 3 RESET (R557). -/
def State.pushHistory (s : State) (outcome sub : Nat) : State :=
  let b := s.boot
  let e : BootHist := { outcome := outcome, stage := b.stage, sub := sub,
                        source := if b.reached6 then b.source else 0, duration := s.attemptMs }
  { s with boot := { b with history := (e :: b.history).take 4 } }

/-- The tempo loop and throttling return to their values before stage 3; the monitors run on (R42, R45). Every condition of the
TEMPO page falls with them (R72). -/
def State.tempoReset (s : State) : State :=
  { s with tempo := { mons := s.tempo.mons }, pages := mupd s.pages 2 (fun g => { g with evtRaw := 0 }) }

/-- An attempt starts at stage 1 (R547, R557, R561). A change of BOOT_POLICY applies from here. -/
def State.startAttempt (s : State) (fromReset fromPerst window : Bool) : State :=
  let p := s.reg 1 0x040
  let b := s.boot
  { s.tempoReset with
      boot := { b with
      state := .booting, stage := 1, running := true, fromReset := fromReset, fromPerst := fromPerst,
      window := window, busy := window, degraded := false, unsigned := false, hostWait := false, hostGo := false,
      source := 0, reached6 := false, pkg := none, started := s.time.ns, fences := [], lanes := [],
      allowDegraded := p.getLsbD 8, retryLimit := fld p 2 0 }
      pers := {}
      cores := [] }

/-- The part enters, or returns to, Dormant mode (R559). The entry test of the central slice is still to end. -/
def State.enterDormant (s : State) (entry : Nat) : State :=
  { s.tempoReset with
      boot := { s.boot with
      state := .dormant, running := false, window := false, busy := false, entry := entry, windowOk := false,
      hostWait := false } }

/-- An attempt fails (R557, R561). -/
def State.failAttempt (s : State) (sub inst : Nat) : State :=
  let b := s.boot
  let s1 := s.pushHistory 2 sub
  let s2 := { s1 with
    boot := { s1.boot with
    attempts := min (b.attempts + 1) 15, cause := { stage := b.stage, sub := sub, inst := inst } } }
  if b.window then
    { s2.tempoReset with
        boot := { s2.boot with
        state := .dormant, running := false, window := false, busy := false,
        lastResult := if 2 ≤ b.lastResult then b.lastResult else 1 } }
  else if s2.boot.attempts < b.retryLimit then s2.startAttempt false false false
  else s2.enterDormant 1

/-- Everything that a reset of the whole part returns to its reset value (R92, R108), with what survives it: supplies,
fuses, device memory, the always-on part of BOOT, the monitors, the running timebase, the trace and the queue. -/
def State.cleared (s : State) : State :=
  { power := s.power
    fuse := s.fuse
    boot := { attempts := s.boot.attempts, cause := s.boot.cause, history := s.boot.history, straps := s.boot.straps,
              entry := s.boot.entry }
    tempo := { mons := s.tempo.mons }
    time := { ns := s.time.ns, frac := s.time.frac }
    regs := [(regKey 1 0x040, s.reg 1 0x040)]
    pcie := { linkUp := s.pcie.linkUp, speed := s.pcie.speed, width := s.pcie.width }
    mem := s.mem
    free := s.free
    out := s.out
    pending := s.pending }

/-- PERST_N, hot reset or FLR outside the sealed state: the attempt in progress is abandoned and recorded, and every field
returns to its reset value (R108, R548). -/
def State.resetAll (s : State) : State :=
  (if s.boot.running then s.pushHistory 3 0 else s).cleared

end Sys2Proof.Machine
end

