-- ==== Sys2Proof/Machine/PoolOps.lean ====
section
/-!
DEFINITION. Buffers, handles, owner records and free lists, shared by every unit that takes or returns a buffer
(R436 to R445).
-/
namespace Sys2Proof.Machine

/-- The active configuration word k of pool p: 0 BASE_LO, 1 BASE_HI, 2 OWNER_BASE, 3 COUNT, 4 CFG. -/
def State.poolWord (s : State) (p k : Nat) : Nat := (s.active 9 (0x040 + 0x20 * p + 4 * k)).toNat

/-- The tagged address of buffer 0. -/
def State.poolBase (s : State) (p : Nat) : Nat := s.poolWord p 1 * 2 ^ 32 + s.poolWord p 0
/-- The first byte of the owner table. -/
def State.poolOwner (s : State) (p : Nat) : Nat := s.poolWord p 2 * 256
/-- COUNT. -/
def State.poolCount (s : State) (p : Nat) : Nat := bits (s.poolWord p 3) 23 0
/-- SIZE_LOG2. -/
def State.poolLog2 (s : State) (p : Nat) : Nat := bits (s.poolWord p 4) 4 0
/-- SIZE_SELECT. -/
def State.poolBySize (s : State) (p : Nat) : Bool := bit (s.poolWord p 4) 8
/-- The tagged address of buffer i (R438). -/
def State.bufAddr (s : State) (p i : Nat) : Nat := s.poolBase p + i * 2 ^ s.poolLog2 p

/-- The agents that can own a buffer (R443), with the number the record keeps for each. -/
inductive Agent
  | host
  | egress (port : Nat)
  | dma (ch : Nat)
  | core (n : Nat)
  deriving DecidableEq, Repr

/-- The bit of OWNERS and the KIND code of an agent (R443, R445). -/
def Agent.kind : Agent → Nat
  | .host => 0
  | .egress _ => 1
  | .dma _ => 2
  | .core _ => 3

/-- The number that NOT_OWNER_INFO.AGENT names. -/
def Agent.number : Agent → Nat
  | .host => 0
  | .egress p => p
  | .dma c => c
  | .core n => n

/-- One owner record (R443). -/
structure Owner where
  owners : Nat
  gen : Nat
  port : Nat
  chan : Nat
  core : Nat
  deriving DecidableEq, Repr

/-- The record of a buffer nobody owns, with its generation. -/
def Owner.empty (gen : Nat) : Owner := { owners := 0, gen := gen, port := 0, chan := 0, core := 0 }

/-- The owner record of buffer i of pool p. -/
def State.owner (s : State) (p i : Nat) : Owner :=
  let a := s.poolOwner p + 8 * i
  let b := fun k => (memByte s.mem (a + k)).toNat
  { owners := b 0 % 16, gen := b 1 % 16, port := b 2, chan := b 3, core := b 4 }

/-- Writes an owner record. -/
def State.setOwner (s : State) (p i : Nat) (o : Owner) : State :=
  s.write (s.poolOwner p + 8 * i)
    ((leBytes 5 (o.owners + 256 * o.gen + 2 ^ 16 * o.port + 2 ^ 24 * o.chan + 2 ^ 32 * o.core)) ++ List.replicate 3 0)

/-- The record names this agent. -/
def Owner.names (o : Owner) : Agent → Bool
  | .host => bit o.owners 0
  | .egress p => bit o.owners 1 && o.port == p
  | .dma c => bit o.owners 2 && o.chan == c
  | .core n => bit o.owners 3 && o.core == n

/-- Adds an agent to a record. -/
def Owner.add (o : Owner) : Agent → Owner
  | .host => { o with owners := if bit o.owners 0 then o.owners else o.owners + 1 }
  | .egress p => { o with owners := if bit o.owners 1 then o.owners else o.owners + 2, port := p }
  | .dma c => { o with owners := if bit o.owners 2 then o.owners else o.owners + 4, chan := c }
  | .core n => { o with owners := if bit o.owners 3 then o.owners else o.owners + 8, core := n }

/-- Removes an agent kind from a record: an absent agent's number reads 0. -/
def Owner.drop (o : Owner) (kind : Nat) : Owner :=
  let o' := { o with owners := if bit o.owners kind then o.owners - 2 ^ kind else o.owners }
  match kind with
  | 1 => { o' with port := 0 }
  | 2 => { o' with chan := 0 }
  | 3 => { o' with core := 0 }
  | _ => o'

/-- The fields of a handle (R438). -/
def handlePool (h : Nat) : Nat := bits h 31 28
/-- GEN of a handle. -/
def handleGen (h : Nat) : Nat := bits h 27 24
/-- INDEX of a handle. -/
def handleIndex (h : Nat) : Nat := bits h 23 0
/-- The handle of a buffer. -/
def mkHandle (p gen i : Nat) : Nat := p * 2 ^ 28 + gen * 2 ^ 24 + i

/-- One step of a bitwise CRC-16 with polynomial 0x1021 over one byte, most significant bit first. -/
def crc16Bits : Nat → Nat → Nat
  | 0, c => c
  | k + 1, c => crc16Bits k (if bit c 15 then ((c * 2) % 65536) ^^^ 0x1021 else (c * 2) % 65536)

/-- CRC-16, polynomial 0x1021, initial value 0xFFFF (R167, R439). -/
def crc16 (l : List Byte) : Nat := l.foldl (fun c b => crc16Bits 8 (c ^^^ (b.toNat * 256))) 0xFFFF

/-- The 16-byte free-list header of a buffer (R439). -/
def poolHeader (addr next pool : Nat) : List Byte :=
  let head := leBytes 8 next ++ [BitVec.ofNat 8 pool, 0]
  head ++ leBytes 2 (crc16 (leBytes 8 addr ++ head)) ++ List.replicate 4 0

/-- The pool becomes BROKEN (R440). -/
def State.breakPool (s : State) (p cause : Nat) : State :=
  ((s.modPool p (fun g => { g with state := .broken, cause := cause })).setCond 9 0 true).fault 13 p none 0

/-- Every address of a header write is accepted (R32, R397); a host write is posted and never seen to fail (R100). -/
def State.headerOk (s : State) (t : Nat) : Bool := s.writeTagOk t 16

/-- Pushes buffer i onto its list (R439, R440): nothing is written while the pool is BROKEN, and a refused header write
breaks the pool and leaves the buffer off the list. -/
def State.pushBuffer (s : State) (p i : Nat) : State :=
  let t := s.bufAddr p i
  match (s.pool p).state with
  | .enabled =>
    if s.headerOk t then
      (s.writeTagged t (poolHeader t (s.pool p).head p)).modPool p
        (fun g => { g with head := t, free := g.free + 1 })
    else s.breakPool p 3
  | _ => s

/-- A handle names a present allocation of its buffer: the pool is in service, the index is in it, the record names an
owner and the generations agree (R438, R445, R589). -/
def State.handleOk (s : State) (h : Nat) : Bool :=
  let p := handlePool h
  let i := handleIndex h
  let o := s.owner p i
  decide ((s.pool p).state ≠ .disabled) && decide ((s.pool p).state ≠ .enabling) && decide (i < s.poolCount p) && decide (o.owners ≠ 0) &&
    o.gen == handleGen h

/-- Takes one owner kind off buffer i; the last one returns the buffer (R445). -/
def State.dropOwner (s : State) (p i kind : Nat) : State :=
  let o := (s.owner p i).drop kind
  let s' := s.setOwner p i o
  if o.owners = 0 then (s'.modPool p (fun g => { g with owned := g.owned - 1 })).pushBuffer p i else s'

/-- A refused release (R445). -/
def State.notOwner (s : State) (h : Nat) (a : Agent) : State :=
  let s' := { s with bpm := { s.bpm with lastHandle := h, refusals := min (s.bpm.refusals + 1) 255,
                                         lastKind := a.kind, lastAgent := a.number } }
  (s'.raiseEvt 9 1).fault 14 (256 * a.kind + a.number) none 0

/-- A release of handle h by an agent (R445). A job's CORE entry is never removed by a release (R444). -/
def State.release (s : State) (h : Nat) (a : Agent) : State :=
  if s.handleOk h && (s.owner (handlePool h) (handleIndex h)).names a && decide (a.kind ≠ 3)
  then s.dropOwner (handlePool h) (handleIndex h) a.kind
  else s.notOwner h a

/-- Removes the CORE entry of a job's buffer (R444). -/
def State.dropCore (s : State) (h : Nat) : State :=
  if s.handleOk h && bit (s.owner (handlePool h) (handleIndex h)).owners 3
  then s.dropOwner (handlePool h) (handleIndex h) 3 else s

/-- At the retire point HOST takes the place of CORE (R444). -/
def State.coreToHost (s : State) (h : Nat) : State :=
  if s.handleOk h then
    s.setOwner (handlePool h) (handleIndex h) (((s.owner (handlePool h) (handleIndex h)).drop 3).add .host)
  else s

/-- Placement writes the lead core into the record (R444). -/
def State.placeBuffer (s : State) (h core : Nat) : State :=
  if s.handleOk h then
    let o := s.owner (handlePool h) (handleIndex h)
    s.setOwner (handlePool h) (handleIndex h) { o with core := core }
  else s

/-- What an allocation request names (R441). -/
inductive AllocReq
  | bySize (n : Nat)
  | byPool (p : Nat)
  deriving DecidableEq, Repr

/-- How an allocation ends. `noFit` is the size rule's failure (R441). -/
inductive AllocEnd
  | granted (h : Nat)
  | empty (p : Nat)
  | broken (p : Nat)
  | noFit
  | notEnabled (p : Nat)
  deriving DecidableEq, Repr

/-- The pool that the size rule chooses (R441). -/
def State.sizePool (s : State) (n : Nat) : Option Nat :=
  (List.range 16).foldl (fun (o : Option Nat) p =>
    let st := (s.pool p).state
    if s.poolBySize p && (st == .enabled || st == .broken || st == .rebuilding) && decide (n ≤ 2 ^ s.poolLog2 p) then
      match o with
      | none => some p
      | some q => if s.poolLog2 p < s.poolLog2 q then some p else some q
    else o) none

/-- A popped header passes the checks of R440: its CHECK, its pool and its NEXT. -/
def State.headerGood (s : State) (p t : Nat) (hd : List Byte) : Bool :=
  let next := leNat (hd.take 8)
  let size := 2 ^ s.poolLog2 p
  leNat ((hd.drop 10).take 2) == crc16 (leBytes 8 t ++ hd.take 10) && leNat ((hd.drop 8).take 1) == p &&
  (next == 0 || (decide (s.poolBase p ≤ next) && (next - s.poolBase p) % size == 0 &&
    decide ((next - s.poolBase p) / size < s.poolCount p)))

/-- A free-list header could not be read: the pool is BROKEN (R100, R440). -/
def State.headerFail (s : State) (p : Nat) : State :=
  if isDev (s.poolBase p) then s.breakPool p 2 else (s.breakPool p 2).fault 8 0xFFFF none 0

/-- Pops the head of pool p for `who` (R439, R440). `host` is what a host pool's header read returned. -/
def State.popBuffer (s : State) (p : Nat) (who : Agent) (host : Option (List Byte)) : AllocEnd × State :=
  let t := (s.pool p).head
  let s := s.askTagged t 16 false
  match s.readTagged t 16 host with
  | none => (.broken p, s.headerFail p)
  | some hd =>
    if s.headerGood p t hd then
      let i := (t - s.poolBase p) / 2 ^ s.poolLog2 p
      let g := ((s.owner p i).gen + 1) % 16
      let s1 := s.setOwner p i ((Owner.empty g).add who)
      (.granted (mkHandle p g i),
        s1.modPool p (fun x => { x with head := leNat (hd.take 8), free := x.free - 1, owned := x.owned + 1 }))
    else (.broken p, s.breakPool p 1)

/-- The pool that a request names or that its size chooses (R441). -/
def State.chosenPool (s : State) : AllocReq → Option Nat
  | .bySize n => if n = 0 ∨ 16777216 < n then none else s.sizePool n
  | .byPool p => some p

/-- The request would read a free-list header in host memory, which the power state holds back (R103, R104). -/
def State.allocHeld (s : State) (r : AllocReq) : Bool :=
  match s.chosenPool r with
  | none => false
  | some p =>
    !s.hostReach && !(s.page 9).fence && (s.pool p).state == .enabled && decide ((s.pool p).head ≠ 0) && !isDev (s.pool p).head

/-- One allocation request (R441, R589): the chosen pool decides, and the manager never falls back to another. -/
def State.allocate (s : State) (r : AllocReq) (who : Agent) (host : Option (List Byte)) : AllocEnd × State :=
  match s.chosenPool r with
  | none => (.noFit, s)
  | some p =>
    if (s.page 9).fence then (.broken p, s)
    else
      match (s.pool p).state with
      | .disabled | .enabling => (.notEnabled p, s)
      | .broken | .rebuilding => (.broken p, s)
      | .enabled => if (s.pool p).head = 0 then (.empty p, s.raiseEvt 9 2) else s.popBuffer p who host

end Sys2Proof.Machine
end

