-- ==== Sys2Proof/Machine/ClqOps.lean ====
section
/-!
DEFINITION. Cells and packets of the Caldera queues, shared by every producer and consumer (R420 to R434).
-/
namespace Sys2Proof.Machine

/-- The cells that a payload of n bytes occupies with its crust (R423). -/
def cellsOf (n : Nat) : Nat := (n + 8 + 63) / 64

/-- The cells of a packet (R423). -/
def Packet.cells (p : Packet) : Nat := cellsOf p.payload.length

/-- The cells that a packet being read still holds (R430): those not yet read to their last byte. -/
def readingCells (p : Packet) (n : Nat) : Nat := p.cells - n / 64

/-- The cells a queue holds, open packet included (R424). -/
def Clq.cells (c : Clq) : Nat :=
  (c.opened.map (fun o => o.pkt.cells)).getD 0 + (c.complete.map Packet.cells).sum +
    (c.reading.map (fun r => readingCells r.1 r.2)).getD 0 + (c.held.map Prod.snd).sum + c.merge

/-- The cells of the hold that a queue's packets occupy (R427). -/
def Clq.holdCells (c : Clq) : Nat :=
  let one := fun (p : Packet) => b2n p.hold
  (c.opened.map (fun o => one o.pkt)).getD 0 + (c.complete.map one).sum + (c.reading.map (fun r => one r.1)).getD 0

/-- Free cells outside the hold (R427, POOL_STATUS). -/
def State.freeCells (s : State) : Nat :=
  262080 - ((s.qm.queues.map (fun q => q.2.cells)).sum - (s.qm.queues.map (fun q => q.2.holdCells)).sum)

/-- Free cells of the hold. -/
def State.holdFree (s : State) : Nat := 64 - (s.qm.queues.map (fun q => q.2.holdCells)).sum

/-- RESERVE, from the active view of POOL_CTRL. -/
def State.cellReserve (s : State) : Nat := fld (s.active 8 0x040) 17 0

/-- RESERVE_LOW follows the free cells. -/
def State.cellEvents (s : State) : State := s.setCond 8 0 (decide (s.freeCells ≤ s.cellReserve))

/-- R427: the queue manager grants a cell to queue q, while its page takes work (R71). -/
def State.grants (s : State) (q : Nat) : Bool :=
  let c := s.clq q
  s.takes 8 && decide (c.cells < c.cfg.limit) &&
    (decide (s.cellReserve < s.freeCells) || (bit c.cfg.flags 0 && decide (0 < s.freeCells)))

/-- The producer kind code of R424. -/
def producerKind : Producer → Nat
  | .core _ => 1
  | .depack _ => 2
  | .slowpath _ _ => 3
  | .placer => 4
  | .qdma _ => 5

/-- Counts a producer drop of queue q (R428). -/
def State.countDrop (s : State) (q : Nat) : State :=
  (s.modClq q (fun c => { c with dropped := (c.dropped + 1) % 2 ^ 32 })).raiseEvt 8 2

/-- Moves waiting bytes of the open packet into its cells, one cell grant at a time. -/
def State.fillCells (s : State) (q : Nat) : Nat → State
  | 0 => s
  | fuel + 1 =>
    match (s.clq q).opened with
    | none => s
    | some o =>
      if o.left = [] then s.modClq q (fun c => { c with opened := some { o with waitFrom := none } })
      else
        let room := o.pkt.cells * 64 - 8 - o.pkt.payload.length
        if 0 < room then
          (s.modClq q (fun c => { c with
            opened := some { o with
            pkt := { o.pkt with payload := o.pkt.payload ++ o.left.take room }, left := o.left.drop room } })).fillCells
            q fuel
        else if s.grants q then
          (s.modClq q (fun c => { c with
            opened := some { o with
            pkt := { o.pkt with payload := o.pkt.payload ++ o.left.take 1 }, left := o.left.drop 1 } })).fillCells
            q fuel
        else s.modClq q (fun c => { c with opened := some { o with waitFrom := some (o.waitFrom.getD s.time.ns) } })

/-- Steps enough to move n bytes. -/
def fillFuel (n : Nat) : Nat := 2 * (n / 64) + 6

/-- Frees the open packet of q and lets the next waiting open try (R426). -/
def State.clearOpen (s : State) (q : Nat) : State := s.modClq q (fun c => { c with opened := none })

/-- Silent abandon (R429): every cell of the open packet is freed and nothing becomes visible. -/
def State.abandon (s : State) (q : Nat) : State := (s.clearOpen q).cellEvents

/-- A notice to the consumer of q that a packet closed (R430, R432): a SOURCE becomes ready, a QDMA channel is triggered.
An EGRESS queue takes its packet when it departs. -/
def State.notice (s : State) (q : Nat) (trigger : State → Nat → State) : State :=
  let c := (s.clq q).cfg
  if c.consumer = 2 then
    { s with geyser := { s.geyser with sources := mupd s.geyser.sources q (fun x => { x with ready := true }) } }
  else if c.consumer = 3 then trigger s (192 + c.consumerId)
  else s

/-- Appends a packet to the complete ones (R429). -/
def State.linkPacket (s : State) (q : Nat) (p : Packet) : State :=
  s.modClq q (fun c => { c with complete := c.complete ++ [p] })

/-- The plain crust of a discontinuity (R422, R429): TYPE becomes DISCONT and LENGTH 0; the other fields stay. -/
def toDiscont (c : Crust) : Crust := { c with typ := .discont }

/-- The crust that a core opens a discontinuity with: no flag of a packet that was never opened (R429). -/
def discontCrust (tag : Nat) : Crust :=
  { typ := .discont, lastRef := false, key := false, auEnd := false, auStart := false, tag := tag }

/-- The buffer handle of a BUFREF payload (R422). -/
def bufrefHandle (p : Packet) : Nat := leNat (p.payload.take 4)

/-- Egress queue e. -/
def State.egressQ (s : State) (e : Nat) : EgressQ := mgetD s.net.egress e {}

/-- The port of an egress queue (R511). -/
def EgressQ.port (x : EgressQ) : Nat := b2n (bit ((x.cfg.getD 0 0).toNat) 3)

/-- The egress port that consumes Caldera queue q (R432, R444). -/
def State.clqPort (s : State) (q : Nat) : Nat := (s.egressQ (s.clq q).cfg.consumerId).port

/-- Discards one complete packet at a flush (R434): its BUFREF ownership is released and a DISCONT is kept for delivery. -/
def State.flushPacket (s : State) (port : Nat) (p : Packet) : State :=
  if p.crust.typ = .bufref ∧ p.crust.lastRef then s.release (bufrefHandle p) (.egress port) else s

/-- The flush point of queue q (R433, R434). One DISCONT item survives when any was discarded. -/
def State.flushPoint (s : State) (q : Nat) : State :=
  let port := s.clqPort q
  let c := s.clq q
  if c.flushPending ∧ c.reading = none then
    let gone := c.complete
    let disc := gone.filter (fun p => p.crust.typ == .discont)
    let kept := (disc.take 1).map (fun p => { p with frees := disc.flatMap Packet.frees })
    let s1 := gone.foldl (fun x p => x.flushPacket port p) s
    let s2 := s1.modClq q (fun c => { c with complete := kept, flushPending := false,
                                             dropped := (c.dropped + gone.length) % 2 ^ 32 })
    let s3 := s2.raiseEvt 8 1
    (if gone = [] then s3 else s3.raiseEvt 8 2).cellEvents
  else s

/-- The wafer of queue q (R431). -/
def waferBytes (q : Nat) : List Byte :=
  crustBytes { typ := .idle, lastRef := false, key := false, auEnd := false, auStart := false, tag := 0 } 0 q

/-- A consumer reads the next n bytes of queue q (R430, R431): the item's bytes stay in the link register, cells free as
they are read, and the last byte is a packet boundary. -/
def State.readClq (s : State) (q n : Nat) : State :=
  let c := s.clq q
  let start := match c.reading with
    | some r => some (r, c.complete)
    | none =>
      match c.complete with
      | p :: t => some ((p, 0), t)
      | [] => none
  match c.enabled, start with
  | true, some ((p, k), rest) =>
    let all := p.bytes q
    let got := (all.drop k).take n
    let k' := k + got.length
    let done := decide (all.length ≤ k')
    let s1 := s.modClq q (fun c => { c with complete := rest, reading := if done then none else some (p, k') })
    let s2 := { s1 with qm := { s1.qm with item := got } }
    if done then (s2.flushPoint q).cellEvents else s2.cellEvents
  | _, _ => { s with qm := { s.qm with item := waferBytes q } }

end Sys2Proof.Machine
end

