-- ==== Sys2Proof/Machine/Commits.lean ====
section
/-!
DEFINITION. The parts of a commit that the units share: the registers of a group and their copy (R75, R76, R79).
-/
namespace Sys2Proof.Machine

/-- A state in which commits are rejected (R79). -/
def UnitState.rejects : UnitState → Bool
  | .offline | .fenced | .frozen => true
  | _ => false

/-- The shadow offsets of group g of a page type. -/
def groupOffs (k : PageKind) (g : Nat) : List Nat :=
  (regDefs k).flatMap (fun d =>
    match d.grp with
    | .fixed h => if h = g then (List.range d.count).map (fun i => d.off + d.stride * i) else []
    | .index => if g < d.count then [d.off + d.stride * g] else []
    | _ => [])

/-- The shadow values of a group become the active ones (R76). -/
def State.copyGroup (s : State) (p g : Nat) : State :=
  match pageKind p with
  | some k => (groupOffs k g).foldl (fun t o => t.setReg p (o + 0x800) (t.reg p o)) s
  | none => s

end Sys2Proof.Machine
end

