-- ==== Sys2Proof/Machine/DmaOps.lean ====
section
/-!
DEFINITION. The DMA channels: descriptors, runs, triggers, errors and stops (R447 to R465).
-/
namespace Sys2Proof.Machine

/-- The page of channel c (19_dma.md). -/
def chanPage (c : Nat) : Nat := if c < 192 then cdmaPage (c / 4) else qdmaPage ((c - 192) / 16)
/-- The index of channel c in its page. -/
def chanIdx (c : Nat) : Nat := if c < 192 then c % 4 else (c - 192) % 16
/-- The offset of register k of channel c's block. -/
def chanReg (c k : Nat) : Nat := 0x040 + 0x40 * chanIdx c + k
/-- CH_CFG in force. -/
def State.chanCfg (s : State) (c : Nat) : Nat := (s.active (chanPage c) (chanReg c 0)).toNat
/-- USER is HOST; a QD channel has no other user. -/
def State.chanHost (s : State) (c : Nat) : Bool := decide (192 ≤ c) || bit (s.chanCfg c) 29
/-- RUN is STEP. -/
def State.chanStep (s : State) (c : Nat) : Bool := bit (s.chanCfg c) 28
/-- TRIGGER of a QD channel; a core channel has none. -/
def State.chanTrig (s : State) (c : Nat) : Nat := if c < 192 then 0 else bits (s.chanCfg c) 25 24
/-- CHAIN_HEAD in force. -/
def State.chainHead (s : State) (c : Nat) : Nat :=
  (s.active (chanPage c) (chanReg c 8)).toNat * 2 ^ 32 + (s.active (chanPage c) (chanReg c 4)).toNat

/-- Bit g of the page's EVT_RAW follows CH_EVT_PEND and CH_EVT_ENABLE (R449). -/
def State.chanCond (s : State) (c : Nat) : State :=
  s.setCond (chanPage c) (chanIdx c)
    (BitVec.ofNat 32 (s.chan c).evtPend &&& s.reg (chanPage c) (chanReg c 0x18) ≠ 0)

/-- Raises an event of the channel: 0 HALF, 1 FULL, 2 ERROR, 3 HELD, 4 TRIG_LOST. -/
def State.chanEvt (s : State) (c b : Nat) : State :=
  (s.modChan c (fun x => { x with evtPend := if bit x.evtPend b then x.evtPend else x.evtPend + 2 ^ b })).chanCond c

/-- A channel reads the descriptor at a tagged address (R448); one in host memory takes a read of the link (R99). -/
def State.fetchDesc (s : State) (c a : Nat) : State :=
  (if isDev a then s else s.issueRead (.desc c) a 64).modChan c (fun x => { x with fetching := some a })

/-- Starts a run at a descriptor address (R451, R459). -/
def State.chanRun (s : State) (c addr : Nat) : State :=
  (s.modChan c (fun x => { x with
    state := .running, error := 0, refetch := false, ahead := none,
    desc := none, endSeen := false, appendMark := false, stopAsked := false, quiet := false, curDesc := addr
    fetching := none })).fetchDesc c addr

/-- The start of a triggered run (R459). -/
def State.trigRun (s : State) (c : Nat) : State :=
  s.chanRun c (if s.chanStep c then ((s.chan c).stepNext).getD (s.chainHead c) else s.chainHead c)

/-- One trigger of a triggered channel (R459). A page that takes no work loses it, as R536 counts those of a fenced engine. -/
def State.trigger (s : State) (c : Nat) : State :=
  if s.chanTrig c = 0 then s
  else if !s.takes (chanPage c) then
    (s.modChan c (fun x => { x with trigLost := min (x.trigLost + 1) 255 })).chanEvt c 4
  else
    match (s.chan c).state with
    | .armed => s.trigRun c
    | _ =>
      if (s.chan c).pendTrig < 15 then s.modChan c (fun x => { x with pendTrig := x.pendTrig + 1 })
      else (s.modChan c (fun x => { x with trigLost := min (x.trigLost + 1) 255 })).chanEvt c 4

/-- The queue that names QD channel c as consumer holds a complete packet (R459). -/
def State.clqReady (s : State) (c : Nat) : Bool :=
  s.qm.queues.any (fun q => q.2.enabled && q.2.cfg.consumer == 3 && q.2.cfg.consumerId + 192 == c &&
    !q.2.complete.isEmpty)

/-- Triggers of the channels of the page that wait on this channel (R459). -/
def State.chainTriggers (s : State) (c : Nat) : State :=
  if c < 192 then s
  else
    (List.range 16).foldl (fun x g =>
      let d := 192 + (c - 192) / 16 * 16 + g
      if x.chanTrig d = 2 ∧ bits (x.chanCfg d) 23 20 = chanIdx c then x.trigger d else x) s

/-- A run ends with ERROR NONE: a triggered channel takes its next trigger or waits in ARMED (R451, R459). -/
def State.runEnd (s : State) (c : Nat) : State :=
  let s1 := s.modChan c (fun x => { x with fetching := none, ahead := none, desc := none })
  let s2 :=
    if s1.chanTrig c = 0 then s1.modChan c (fun x => { x with state := .ended, error := 0 })
    else if 0 < (s1.chan c).pendTrig then
      (s1.modChan c (fun x => { x with pendTrig := x.pendTrig - 1 })).trigRun c
    else if s1.chanTrig c = 3 ∧ s1.clqReady c then s1.trigRun c
    else s1.modChan c (fun x => { x with state := .armed, error := 0 })
  s2.chainTriggers c

/-- Releases the buffer that the running descriptor holds (R457). -/
def State.dropDma (s : State) (c : Nat) : State :=
  match (s.chan c).owns, (s.chan c).desc with
  | true, some d => (s.modChan c (fun x => { x with owns := false })).release d.handle (.dma c)
  | _, _ => s

/-- STATUS as the channel writes it (R456). -/
def statusWord (trunc : Bool) (err n : Nat) : Nat := 2 ^ 31 + b2n trunc * 2 ^ 30 + err * 2 ^ 24 + n % 2 ^ 24

/-- WRITEBACK of a control word. -/
def Desc.wb (d : Desc) : Bool := d.ctrl.getLsbD 28
/-- END. -/
def Desc.isEnd (d : Desc) : Bool := d.ctrl.getLsbD 31
/-- HALF_EVT. -/
def Desc.half (d : Desc) : Bool := d.ctrl.getLsbD 30
/-- FULL_EVT. -/
def Desc.full (d : Desc) : Bool := d.ctrl.getLsbD 29
/-- HOLD. -/
def Desc.holds (d : Desc) : Bool := d.ctrl.getLsbD 27
/-- OP. -/
def Desc.op (d : Desc) : Nat := fld d.ctrl 23 20

/-- The queue of a CLQ_OUT descriptor is left without an open packet of this channel (R429, R458). -/
def State.dropClqOut (s : State) (c : Nat) : State :=
  match (s.chan c).desc with
  | some d =>
    if d.op = 4 then
      match (s.clq d.clq).opened with
      | some o => if o.who = .qdma (c - 192) then s.abandon d.clq else s
      | none => s.modClq d.clq (fun q => { q with waiting := q.waiting.filter (fun o => o.who != .qdma (c - 192)) })
    else s
  | none => s

/-- The channel enters ENDED on an error (R453). A fetched descriptor is remembered by its address. -/
def State.chanError (s : State) (c err : Nat) : State :=
  let x := s.chan c
  let s1 := match x.desc with
    | some d => if d.wb ∧ err ≠ 1 ∧ err ≠ 7
        then s.writeTagged (d.addr + 48) (leBytes 4 (statusWord x.truncated err x.wr)) else s
    | none => s
  let s2 := (s1.dropClqOut c).dropDma c
  let s3 := s2.modChan c (fun y => { y with
    state := .ended, error := err, fetching := none, refetch := false,
    ahead := none, desc := none, buf := [], waitCell := false, appendMark := false, stopAsked := false })
  if err = 7 ∨ err = 0 then s3
  else
    let s4 := s3.chanEvt c 2
    if s4.chanHost c then s4.fault 15 c none 0 else s4

/-- STOP (R452). A descriptor whose last write has been issued completes first. -/
def State.chanStop (s : State) (c : Nat) : State :=
  let x := s.chan c
  match x.state with
  | .idle | .ended => s
  | .armed | .held => s.modChan c (fun y => { y with state := .ended, error := 7, pendTrig := 0, fetching := none })
  | .running =>
    match x.desc with
    | some d =>
      if x.wr = x.total ∧ d.op ≠ 4 ∧ !((d.op = 2 ∨ d.op = 3) ∧ x.item = []) then s.modChan c (fun y => { y with stopAsked :=
          true }) else s.chanError c 7
    | none => s.chanError c 7

/-- The size of the next access of one side (R460). -/
def pieceAux (x n room : Nat) : List Nat → Nat
  | [] => 1
  | z :: t => if x % z = 0 ∧ z ≤ n ∧ z ≤ room then z else pieceAux x n room t

/-- FUNNEL: a full beat, or the largest aligned power of two that fits (R460). -/
def funnelPiece (x n : Nat) : Nat :=
  if x % 64 = 0 ∧ 64 ≤ n then 64 else pieceAux x n (64 - x % 64) [32, 16, 8, 4, 2, 1]

/-- ROUND_OUT: the rest of the 64-byte unit (R461). -/
def roundPiece (x n : Nat) : Nat := min n (64 - x % 64)

/-- The descriptor that 64 bytes spell (R447). -/
def parseDesc (addr : Nat) (l : List Byte) : Desc :=
  let f := fun a n => leNat ((l.drop a).take n)
  { addr := addr, src := f 0 8, dst := f 8 8, len := f 16 4, ctrl := BitVec.ofNat 32 (f 20 4), next := f 24 8,
    handle := f 32 4, clq := f 36 2, tag := f 38 2, pitch := f 40 4, status := BitVec.ofNat 32 (f 48 4) }

/-- The checks of DESC_FORMAT that one descriptor meets on channel c (R453). `rsv` are its reserved bytes. -/
def State.descFormat (s : State) (c : Nat) (d : Desc) (l : List Byte) : Bool :=
  let zero := fun a n => leNat ((l.drop a).take n) == 0
  let opOk := match d.op with
    | 0 => decide (1 ≤ d.len)
    | 1 => decide (1 ≤ d.len) && bits d.src 63 32 == 0
    | 2 => decide (c < 192) && !s.chanHost c && bits d.src 63 16 == 0
    | 3 => decide (192 ≤ c) && decide (8 ≤ d.len) && d.src == 0 && decide (d.clq < 4096)
    | 4 => decide (192 ≤ c) && decide (1 ≤ d.len) && decide (d.len < 2 ^ 24) && d.dst == 0 && decide (d.clq < 4096)
    | _ => false
  let roundOk := !(bit (s.chanCfg c) 8 && d.op == 0) || d.src % 64 == d.dst % 64
  zero 44 4 && zero 52 12 && fld d.ctrl 15 0 == 0 && fld d.ctrl 19 19 == 0 && decide (fld d.ctrl 26 24 ≤ 5) && opOk &&
    (d.isEnd || d.next % 64 == 0) && (!d.holds || s.chanHost c) && roundOk

/-- The channel becomes owner of the descriptor's buffer (R457): none when it may not. -/
def State.takeDma (s : State) (c : Nat) (d : Desc) : Option State :=
  if d.handle = 0xFFFFFFFF then some s
  else
    let p := handlePool d.handle
    let i := handleIndex d.handle
    let o := s.owner p i
    if s.handleOk d.handle ∧ bit o.owners 0 ∧ !bit o.owners 2 then
      some ((s.setOwner p i (o.add (.dma c))).modChan c (fun x => { x with owns := true }))
    else none

/-- CLQ_REFUSED does not apply: the queue is enabled and names the channel (R453, R458). -/
def State.clqBound (s : State) (c : Nat) (d : Desc) : Bool :=
  let q := s.clq d.clq
  if d.op = 3 then q.enabled && q.cfg.consumer == 3 && q.cfg.consumerId + 192 == c
  else if d.op = 4 then q.enabled && q.cfg.producer == 5
  else true

/-- The channel takes up a fetched descriptor: it runs, holds, or ends on an error (R448, R453, R454, R457). -/
def State.beginDesc (s : State) (c : Nat) (d : Desc) (ok : Bool) : State :=
  let s1 := s.modChan c (fun x => { x with
    state := .running, curDesc := d.addr, desc := some d, endSeen := d.isEnd,
    rd := 0, wr := 0, total := if d.op = 3 ∨ d.op = 2 then 0 else d.len, buf := [], halfDone := false, truncated := false,
    owns := false, item := [], waitCell := false, appendMark := false })
  if !ok then s1.chanError c 2
  else if d.holds ∧ d.status.getLsbD 31 then
    (s1.modChan c (fun x => { x with state := .held, desc := none })).chanEvt c 3
  else
    match s1.takeDma c d with
    | none => s1.chanError c 5
    | some s2 => if s2.clqBound c d then s2 else s2.chanError c 6

/-- CH_CFG of channel c (R450). -/
def State.chanReject (s : State) (c : Nat) : Nat :=
  let n := (s.reg (chanPage c) (chanReg c 0)).toNat
  let old := s.chanCfg c
  let st := (s.chan c).state
  if 4 < bits n 11 9 then 1
  else if (bits n 25 24 = 2 ∧ bits n 23 20 = chanIdx c) ∨ (bits n 25 24 = 1 ∧ 7 < bits n 23 20) then 2
  else if (bits n 29 28 ≠ bits old 29 28 ∨ bits n 25 20 ≠ bits old 25 20) ∧ (st = .running ∨ st = .held) then 0x80
  else 0

/-- An accepted commit of a channel moves it between IDLE, ENDED and ARMED (R450); a trigger that waited for this starts its run
(R459). -/
def State.chanHanded (s : State) (c : Nat) : State :=
  if s.chanTrig c = 0 then s.modChan c (fun x => { x with state := if x.state = .armed then .idle else x.state })
  else
    match (s.chan c).state with
    | .idle | .ended =>
      let s1 := s.modChan c (fun x => { x with state := .armed })
      if 0 < (s1.chan c).pendTrig then (s1.modChan c (fun x => { x with pendTrig := x.pendTrig - 1 })).trigRun c
      else if s1.chanTrig c = 3 ∧ s1.clqReady c then s1.trigRun c else s1
    | _ => s

/-- The hand-over of a channel's group (R76, R79, R450). -/
def State.chanHandOver (s : State) (c : Nat) : State :=
  let p := chanPage c
  let g := chanIdx c
  let s1 := s.modPage p (fun x => { x with groups := x.groups &&& ~~~ (1#16 <<< g) })
  if (s.pageState p).rejects then s1.reject p 3 g
  else
    let r := s1.chanReject c
    if r ≠ 0 then s1.reject p r g else (s1.copyGroup p g).chanHanded c

/-- A descriptor boundary of the channel: a pending group hands over (R78). -/
def State.chanBoundary (s : State) (c : Nat) : State :=
  if (s.page (chanPage c)).groups.getLsbD (chanIdx c) then s.chanHandOver c else s

/-- A descriptor has ended without error; the channel goes on to the next one or ends its run, after the hand-over of a
pending group (R78, R448, R452, R459, R464). -/
def State.nextDesc (s : State) (c : Nat) (d : Desc) : State :=
  let s := s.chanBoundary c
  let x := s.chan c
  if x.stopAsked then
    s.modChan c (fun y => { y with
      state := .ended, error := if d.isEnd then 0 else 7, desc := none, fetching := none,
      ahead := none, stopAsked := false })
  else if x.appendMark then
    (s.modChan c (fun y => { y with desc := none, refetch := true, quiet := false, appendMark := false, fetching := none })).fetchDesc
      c d.addr
  else if s.chanStep c ∧ s.chanTrig c ≠ 0 then
    (s.modChan c (fun y => { y with stepNext := if d.isEnd then none else some d.next })).runEnd c
  else if d.isEnd then s.runEnd c
  else
    match x.ahead with
    | some e => (s.modChan c (fun y => { y with ahead := none, desc := none })).beginDesc c e true
    | none =>
      let s1 := s.modChan c (fun y => { y with desc := none })
      if x.fetching.isSome then s1 else s1.fetchDesc c d.next

end Sys2Proof.Machine
end

