-- ==== Sys2Proof/Machine/UnitOps.lean ====
section
/-!
DEFINITION. How a job enters and leaves the sequencers, the bin engine and the rate-control unit of a core (R213, R214,
R235, R238, R269, R305, R332).
-/
namespace Sys2Proof.Machine

/-- The reset values of the device mode fields (R380). -/
def devDefaults : List Nat := [2, 100, 20, 3, 0, 60, 12, 0, 0, 0, 0, 16, 1024, 4096, 1000, 1, 1, 1, 1]

/-- Device field d under an epoch (R381). -/
def State.devField (s : State) (epoch d : Nat) : Nat :=
  let v := if epoch = s.modes.current then s.modes.vec else s.modes.prev
  v.getD d (devDefaults.getD d 0)

/-- Field f of a stream's mode vector (R373). -/
def Stream.field (st : Stream) (f : Nat) : Nat := st.mode.getD f 0

/-- The side of a luma sample of the copy in luma samples of the picture: 2 for a quarter-area copy, 4 for a sixteenth (R351). -/
def Stream.copyScale (t : Stream) : Nat := if t.openVec.getD 15 0 ≤ 4 then 2 else 4

/-- Width and height of a stream's lookahead copy (R351). -/
def Stream.copySize (t : Stream) : Nat × Nat := (t.field 0 / t.copyScale, t.field 1 / t.copyScale)

/-- A numeric field of a work entry: n bytes from byte a (R127). -/
def Job.at (j : Job) (a n : Nat) : Nat := leNat ((j.body.drop a).take n)

/-- OPCODE of a job (R127); a device-side job is a DECODE_UNIT (R37). -/
def Job.opcode (j : Job) : Nat := if j.device then 0x20 else j.at 0 1

/-- The Placer's record of core n. -/
def State.core (s : State) (n : Nat) : CorePlace := mgetD s.placer.cores n {}

/-- Core n. -/
def State.unit (s : State) (n : Nat) : Core := mgetD s.cores n {}

/-- Changes core n. -/
def State.modUnit (s : State) (n : Nat) (f : Core → Core) : State := { s with cores := mset s.cores n (f (s.unit n)) }

/-- Sequencer q of core n. -/
def State.seq (s : State) (n q : Nat) : Seq := mgetD (s.unit n).seqs q {}

/-- Changes sequencer q of core n. -/
def State.modSeq (s : State) (n q : Nat) (f : Seq → Seq) : State :=
  s.modUnit n (fun u => { u with seqs := mset u.seqs q (f (mgetD u.seqs q {})) })

/-- Changes the bin engine of core n. -/
def State.modBin (s : State) (n : Nat) (f : Bin → Bin) : State := s.modUnit n (fun u => { u with bin := f u.bin })

/-- Block register b of core n. -/
def State.blk (s : State) (n b : Nat) : Block := mgetD (s.unit n).blocks b {}

/-- Changes block register b of core n. -/
def State.modBlk (s : State) (n b : Nat) (f : Block → Block) : State :=
  s.modUnit n (fun u => { u with blocks := mset u.blocks b (f (mgetD u.blocks b {})) })

/-- Channel c of core n, oldest token first. -/
def State.chq (s : State) (n c : Nat) : List Token := mgetD (s.unit n).chans c []

/-- Frame set k of core n. -/
def State.rcSet (s : State) (n k : Nat) : RcSet := mgetD (s.unit n).rc k {}

/-- Changes frame set k of core n. -/
def State.modRc (s : State) (n k : Nat) (f : RcSet → RcSet) : State :=
  s.modUnit n (fun u => { u with rc := mset u.rc k (f (mgetD u.rc k {})) })

/-- The loaded image of a job's stream. -/
def State.jobImage (s : State) (j : Nat) : Option PersEntry :=
  match s.job j with
  | some x => x.stream.bind (fun n => mget s.pers.dir (s.stream n).pers)
  | none => none

/-- The direction of a job's stream. -/
def State.jobEncode (s : State) (j : Nat) : Bool :=
  match (s.job j).bind Job.stream with
  | some n => (s.stream n).encode
  | none => false

/-- The entry point of sequencer q for a job (R269): the image's position for the opcode and direction. -/
def State.entryPc (s : State) (j q : Nat) : Nat :=
  match s.jobImage j, s.job j with
  | some e, some x =>
    let r := e.params.entries.find? (fun r => r.opcode == x.opcode && r.encode == s.jobEncode j)
    e.progBase + ((r.map EntryRow.pcs).getD []).getD q 0
  | _, _ => 0

/-! ### Core contexts (R159 to R162, R215, R311; log entry 52) -/

/-- The stream of a job. -/
def State.streamOf (s : State) (j : Nat) : Option Nat := (s.job j).bind Job.stream

/-- The spans that a stream's image declares live (R161). -/
def State.liveSpans (s : State) (m : Nat) : List LiveSpan :=
  ((mget s.pers.dir (s.stream m).pers).map (fun e => e.params.live)).getD []

/-- An index lies in a live span of a part. -/
def inSpans (l : List LiveSpan) (part i : Nat) : Bool :=
  l.any (fun r => r.part == part && decide (r.base ≤ i) && decide (i < r.base + r.len))

/-- What a save takes of a memory: its live spans. -/
def liveOf {α : Type} (l : List LiveSpan) (part : Nat) (m : Map α) : Map α := m.filter (fun e => inSpans l part e.1)

/-- A memory after a load: its live spans as they were saved, the rest as it was. -/
def loadSpans {α : Type} (l : List LiveSpan) (part : Nat) (m saved : Map α) : Map α :=
  saved.foldl (fun a e => mset a e.1 e.2) (m.filter (fun e => !inSpans l part e.1))

/-- The context of stream m as core n has it: what the core's memories hold of it, and for the rest the copy in the slice of
the core's quadrant. -/
def State.contextIn (s : State) (n m : Nat) : Context :=
  let t := s.stream m
  let old := mgetD t.slices (n / 12) {}
  let l := s.liveSpans m
  let b := (s.unit n).bin
  { ctx := if b.memOf = some m then liveOf l 0 b.ctx else old.ctx
    cdf := if b.memOf = some m then liveOf l 1 b.cdf else old.cdf
    mems := (List.range 6).map (fun q => (q, if (s.seq n q).memOf = some m then liveOf l (2 + q) (s.seq n q).mem
      else mgetD old.mems q []))
    age := t.saves + 1 }

/-- The context of stream m in core n goes to the slice of the core's quadrant (R161). -/
def State.saveContext (s : State) (n m : Nat) : State :=
  s.modStream m (fun t => if t.state = .closed then t else { t with slices := mset t.slices (n / 12) (s.contextIn n m) })

/-- The newest whole copy of a stream's context outside a core: in a slice, or in a save slot (R161, R162). -/
def Stream.newest (t : Stream) : Option Context :=
  let slot := fun (k : SaveSlot) => if k.complete then [k.held] else []
  (t.slices.map Prod.snd ++ slot t.saveA ++ slot t.saveB).foldl (fun (o : Option Context) c =>
    match o with
    | none => some c
    | some d => if d.age < c.age then some c else some d) none

/-- The context of stream m is staged into the slice of quadrant q (R161): a core that still holds it saves it first. -/
def State.stageContext (s : State) (m q : Nat) : State :=
  let s1 := match (s.stream m).ctxCore with
    | some n => if (s.core n).lastStream = some m then s.saveContext n m else s
    | none => s
  match (s1.stream m).newest with
  | some c => s1.modStream m (fun t => { t with slices := mset t.slices q c })
  | none => s1

/-- The live spans of one part over another context's. -/
def Context.over (new old : Context) : Context :=
  let put := fun {α : Type} (a b : Map α) => b.foldl (fun m e => mset m e.1 e.2) a
  { ctx := put old.ctx new.ctx, cdf := put old.cdf new.cdf
    mems := (List.range 6).map (fun q => (q, put (mgetD old.mems q []) (mgetD new.mems q []))), age := max old.age new.age }

/-- A lost context is rebuilt for quadrant q from the stream record and the newest complete save slot (R162). -/
def Stream.rebuilt (t : Stream) (q : Nat) : Stream :=
  { t with slices := mset [] q (t.record.over (({ t with slices := [] }).newest.getD {})) }

/-- The home mirror is written anew (R193). -/
def Stream.mirrored (t : Stream) : Stream :=
  { t with mirror := { quad := (t.home + 1) % 4, mode := t.mode, seq := t.record } }

/-- A sequencer turns from one stream to another (R161, R215): the outgoing stream's part of the memory is saved into the slice
of the core's quadrant, and the incoming one's loaded from it. Between jobs of one stream nothing moves. -/
def State.switchSeq (s : State) (n q j : Nat) : State :=
  match s.streamOf j with
  | none => s
  | some m =>
    let x := s.seq n q
    let s1 := match x.memOf with
      | some o => if o = m then s else s.saveContext n o
      | none => s
    match mget (s1.stream m).slices (n / 12), decide (x.memOf = some m) with
    | some c, false => s1.modSeq n q (fun x => { x with
        mem := loadSpans (s.liveSpans m) (2 + q) x.mem (mgetD c.mems q []), memOf := some m })
    | _, _ => s1.modSeq n q (fun x => { x with memOf := some m })

/-- The bin engine turns from one stream to another (R215, R311): after the tail's last operation its context memory and CDF
memory are saved, and the incoming stream's are loaded before the lead's first. -/
def State.switchBin (s : State) (n j : Nat) : State :=
  match s.streamOf j with
  | none => s
  | some m =>
    let b := (s.unit n).bin
    let s1 := match b.memOf with
      | some o => if o = m then s else s.saveContext n o
      | none => s
    match mget (s1.stream m).slices (n / 12), decide (b.memOf = some m) with
    | some c, false => s1.modBin n (fun b => { b with
        ctx := loadSpans (s.liveSpans m) 0 b.ctx c.ctx, cdf := loadSpans (s.liveSpans m) 1 b.cdf c.cdf, memOf := some m })
    | _, _ => s1.modBin n (fun b => { b with memOf := some m })

/-- Job j of stream m retires: the stream record takes the context that its lead core n has (R160). -/
def State.recordContext (s : State) (n m : Nat) : State :=
  if n < 48 then s.modStream m (fun t => { t with record := s.contextIn n m }) else s

/-- A sequencer starts a job (R235): registers read 0, and local memory carries over but for a switch between streams. -/
def State.startSeq (s : State) (n q j : Nat) : State :=
  (s.switchSeq n q j).modSeq n q (fun x => { mem := x.mem, pc := s.entryPc j q, job := some j, memOf := x.memOf })

/-- The bin engine starts a job (R295, R305). -/
def State.startBin (s : State) (n j : Nat) : State :=
  let s := s.switchBin n j
  let epoch := ((s.job j).map Job.epoch).getD 0
  let bins := s.devField epoch 12 * 1024
  let steps := s.devField epoch 13 * 1024
  s.modBin n (fun b => {
    ctx := b.ctx, cdf := b.cdf, job := some j, encode := s.jobEncode j
    cfg := { maxBins := bins, maxSteps := steps, devBins := bins, devSteps := steps }
    cause := b.cause, cls := b.cls, errCount := b.errCount, errPos := b.errPos, bins := b.bins, memOf := b.memOf })

/-- The job takes the free frame set: the registers marked "Job" read 0 and FLOOR_CTU 0xFFFF_FFFF (R332). -/
def State.startRc (s : State) (n j : Nat) : State :=
  match [0, 1].find? (fun k => (s.rcSet n k).job.isNone) with
  | some k => s.modRc n k (fun r => { job := some j, regs := r.regs })
  | none => s

/-- A job enters core n: the sequencers and the bin engine that are free start it at once, the others after their tail
job (R213, R214). -/
def State.enterUnit (s : State) (n j : Nat) : State :=
  let s1 := (List.range 6).foldl (fun t q => if (t.seq n q).job.isNone then t.startSeq n q j else t) s
  let s2 := if (s1.unit n).bin.job.isNone then s1.startBin n j else s1
  s2.startRc n j

/-- The job that follows job j in core n. -/
def State.following (s : State) (n j : Nat) : Option Nat :=
  ((s.core n).inside.dropWhile (· != j)).tail.head?

/-- Sequencer q has ended its part of job j: its stacks clear, a stage other than LOAD releases its block registers to
LOAD, and it starts the job that follows (R214, R238, R269). -/
def State.endSeq (s : State) (n q j : Nat) : State :=
  let s1 := s.modSeq n q (fun x => { x with
    job := none, calls := [], loops := [], stopped := false, wait := .none, waiting := none })
  let s2 := if q = 0 ∨ 5 ≤ q then s1
    else s1.modUnit n (fun u => { u with
      blocks := u.blocks.map (fun b => (b.1, if b.2.owner = q then { b.2 with owner := 0 } else b.2)) })
  match s2.following n j with
  | some k => s2.startSeq n q k
  | none => s2

/-- The bin engine has ended its part of job j. -/
def State.endBin (s : State) (n j : Nat) : State :=
  let s1 := s.modBin n (fun b => { b with
    job := none, running := false, inError := false, seg := none, waiting := none, calls := [] })
  match s1.following n j with
  | some k => s1.startBin n k
  | none => s1

/-- Core n ends job j in every part that still works on it, drops its tokens, returns what they pass to LOAD and frees its
frame set (R36, R332; log entry 8). -/
def State.clearUnit (s : State) (n j : Nat) : State :=
  let s1 := (List.range 6).foldl (fun t q => if (t.seq n q).job = some j then t.endSeq n q j else t) s
  let s2 := if (s1.unit n).bin.job = some j then s1.endBin n j else s1
  s2.modUnit n (fun u =>
    let lost := (u.chans.flatMap (fun c => c.2.filter (fun t => t.job == j))).filterMap Token.pass
    { u with
      chans := u.chans.map (fun c => (c.1, c.2.filter (fun t => t.job != j)))
      blocks := u.blocks.map (fun b => (b.1, if lost.contains b.1 then { b.2 with owner := 0 } else b.2))
      rc := u.rc.map (fun r => (r.1, if r.2.job = some j then { r.2 with job := none } else r.2)) })

/-- Every part of core n has ended job j (R269). -/
def State.unitEnded (s : State) (n j : Nat) : Bool :=
  (List.range 6).all (fun q => (s.seq n q).job != some j) && (s.unit n).bin.job != some j

end Sys2Proof.Machine
end

