-- ==== Sys2Proof/Machine/Formats.lean ====
section
/-!
DEFINITION. Frame formats, the T24 layout of pool slots, slot and block sizes, tile headers and the conversions of written
pictures (R163 to R168).
-/
namespace Sys2Proof.Machine

/-- SubWidthC and SubHeightC of CHROMA_FORMAT; 4:0:0 counts as 1 by 1 where no plane is stored. -/
def chromaDiv (c : Nat) : Nat × Nat :=
  match c with
  | 1 => (2, 2)
  | 2 => (2, 1)
  | _ => (1, 1)

/-- Rounds up to a multiple. -/
def roundUp (n m : Nat) : Nat := (n + m - 1) / m * m

/-- The quotient rounded up. -/
def ceilDiv (n m : Nat) : Nat := (n + m - 1) / m

/-- Where a picture in T24 lies and how it is shaped: luma size, CHROMA_FORMAT, sample depth and whether tiles carry
headers (R166, R167). -/
structure Geom where
  base : Nat
  w : Nat
  h : Nat
  chroma : Nat
  depth : Nat
  packed : Bool
  deriving DecidableEq, Repr

/-- Bytes of a tile: 8-bit samples at depth 8 and 12-bit slots otherwise (R163, R166). -/
def Geom.tileBytes (g : Geom) : Nat := if g.depth = 8 then 1024 else 1536

/-- Width of a plane in slots: luma 0, chroma 1 (R163). -/
def Geom.planeW (g : Geom) (pl : Nat) : Nat := if pl = 0 then g.w else ceilDiv (2 * g.w) (chromaDiv g.chroma).1
/-- Height of a plane in rows. -/
def Geom.planeH (g : Geom) (pl : Nat) : Nat := if pl = 0 then g.h else ceilDiv g.h (chromaDiv g.chroma).2
/-- Tiles of a plane. -/
def Geom.planeTiles (g : Geom) (pl : Nat) : Nat :=
  if pl = 1 ∧ g.chroma = 0 then 0 else ceilDiv (g.planeW pl) 64 * ceilDiv (g.planeH pl) 16
/-- Byte offset of a plane from the picture's base. -/
def Geom.planeOff (g : Geom) (pl : Nat) : Nat := if pl = 0 then 0 else g.planeTiles 0 * g.tileBytes
/-- Byte offset of the tile headers, after the last plane stored (R167). -/
def Geom.headerOff (g : Geom) : Nat := (g.planeTiles 0 + g.planeTiles 1) * g.tileBytes

/-- The byte of sample (x, y) within its plane, as the listing of R163 computes it. -/
def t24Off (tileBytes wp x y : Nat) : Nat :=
  let off := ((y / 16) * ceilDiv wp 64 + x / 64) * tileBytes + (y % 16) * (if tileBytes = 1024 then 64 else 96)
  if tileBytes = 1024 then off + x % 64 else off + 3 * (x % 64 / 2)

/-- SLOT_BYTES (R166). -/
def Geom.slotBytes (g : Geom) : Nat :=
  let tiles := g.planeTiles 0 + g.planeTiles 1
  let headers := if g.packed then 32 * tiles else 0
  let motion := ceilDiv g.w 16 * ceilDiv g.h 16 * 16
  roundUp (tiles * g.tileBytes + headers + motion + 65536) 65536

/-- The 32-byte header of a tile (R167). -/
def Geom.tileHeader (g : Geom) (m : List Host.Cell) (pl x y : Nat) : List Byte :=
  let t := (y / 16) * ceilDiv (g.planeW pl) 64 + x / 64
  memGetAll m (g.base + g.headerOff + 32 * ((if pl = 0 then 0 else g.planeTiles 0) + t)) 32

/-- A tile header passes its CHECK (R167, R168). -/
def headerCheck (hd : List Byte) : Bool := crc16 (hd.take 30) == leNat (hd.drop 30)

/-- Every tile header of the picture passes (R168). -/
def Geom.headersOk (g : Geom) (m : List Host.Cell) : Bool :=
  !g.packed || (List.range (g.planeTiles 0 + g.planeTiles 1)).all (fun t =>
    headerCheck (memGetAll m (g.base + g.headerOff + 32 * t) 32))

/-- The sample value in a word at a T24 position: 8 bits, or the 12-bit slot shifted down to the depth (R163). -/
def Geom.unslot (g : Geom) (m : List Host.Cell) (a x : Nat) : Nat :=
  if g.tileBytes = 1024 then (memByte m a).toNat
  else
    let v := memNat m a 3
    (if x % 2 = 0 then bits v 11 0 else bits v 23 12) / 2 ^ (12 - g.depth)

/-- Sample (x, y) of a plane of a stored picture (R163, R167). -/
def Geom.sample (g : Geom) (m : List Host.Cell) (pl x y : Nat) : Nat :=
  let a := g.base + g.planeOff pl + t24Off g.tileBytes (g.planeW pl) x y
  if !g.packed then g.unslot m a x
  else
    let hd := g.tileHeader m pl x y
    match ((hd.getD 0 0).toNat) with
    | 0 => g.unslot m a x
    | 1 =>
      let c := leNat ((hd.drop 4).take 4)
      let v := if x % 2 = 0 then bits c 11 0 else bits c 23 12
      if g.tileBytes = 1024 then v else v / 2 ^ (12 - g.depth)
    | _ =>
      let tileAt := g.base + g.planeOff pl + t24Off g.tileBytes (g.planeW pl) (x / 64 * 64) (y / 16 * 16)
      let body := memGetAll m tileAt (32 * leNat ((hd.drop 2).take 2))
      Config.packedSample (hd ++ body) (64 * (y % 16) + x % 64) % 2 ^ g.depth

/-- What a format code says (07_streams_frames_references.md): chroma, sample bits of the container's content, bytes of a
container, the shift of the sample in it, and whether it is T24. -/
structure Fmt where
  chroma : Nat
  depth : Nat
  bytes : Nat
  shift : Nat
  t24 : Bool
  planar : Bool
  decodeOnly : Bool
  deriving DecidableEq, Repr

/-- The frame formats. T24 with 12-bit slots takes any depth up to 12, given here as 12. -/
def fmtOf (code : Nat) : Option Fmt :=
  let lin := fun (c d b sh : Nat) (pl dec : Bool) =>
    some { chroma := c, depth := d, bytes := b, shift := sh, t24 := false, planar := pl, decodeOnly := dec : Fmt }
  let til := fun (c d : Nat) (dec : Bool) =>
    some { chroma := c, depth := d, bytes := 0, shift := 0, t24 := true, planar := false, decodeOnly := dec : Fmt }
  match code with
  | 0x01 => lin 1 8 1 0 false false
  | 0x02 => lin 1 10 2 6 false false
  | 0x03 => lin 1 12 2 4 false false
  | 0x04 => lin 2 8 1 0 false false
  | 0x05 => lin 2 10 2 6 false false
  | 0x06 => lin 3 8 1 0 true true
  | 0x07 => lin 3 10 2 0 true true
  | 0x10 => til 1 8 false
  | 0x11 => til 1 12 false
  | 0x12 => til 2 8 false
  | 0x13 => til 2 12 false
  | 0x14 => til 3 8 true
  | 0x15 => til 3 12 true
  | _ => none

/-- Depth conversion (R164): up by a shift, down by rounding and clipping. -/
def toDepth (v d e : Nat) : Nat :=
  if d ≤ e then v * 2 ^ (e - d) else min ((v + 2 ^ (d - e - 1)) / 2 ^ (d - e)) (2 ^ e - 1)

/-- The written format may carry a picture of this chroma format (R165). -/
def fmtFits (f : Fmt) (chroma : Nat) : Bool :=
  match chroma with
  | 0 => true
  | 2 => f.chroma == 2 || f.chroma == 1
  | c => f.chroma == c

/-- Chroma sample `comp` (0 Cb, 1 Cr) at the output's chroma position (x, y) (R164, R165). -/
def Geom.chromaOut (g : Geom) (m : List Host.Cell) (f : Fmt) (comp x y : Nat) : Nat :=
  if g.chroma = 0 then 2 ^ (g.depth - 1)
  else if g.chroma = 2 ∧ f.chroma = 1 then
    (g.sample m 1 (2 * x + comp) (2 * y) + g.sample m 1 (2 * x + comp) (min (2 * y + 1) (g.planeH 1 - 1)) + 1) / 2
  else g.sample m 1 (2 * x + comp) y

/-- The output's sample depth: that of the container, and the picture's own in a 12-bit T24 slot. -/
def Geom.outDepth (g : Geom) (f : Fmt) : Nat := if f.t24 ∧ f.depth = 12 then g.depth else f.depth

/-- One row of n samples as a linear format stores it (R163). -/
def packRow (f : Fmt) (v : Nat → Nat) (n : Nat) : List Byte :=
  (List.range n).flatMap (fun x => leBytes f.bytes (v x * 2 ^ f.shift))

/-- The size of a written picture's chroma samples. -/
def Geom.chromaSize (g : Geom) (f : Fmt) : Nat × Nat :=
  (ceilDiv g.w (chromaDiv f.chroma).1, ceilDiv g.h (chromaDiv f.chroma).2)

/-- The runs that a linear format writes: offset from the address and bytes (R163, R165). -/
def Geom.linearRuns (g : Geom) (m : List Host.Cell) (f : Fmt) (pitch : Nat) : List (Nat × List Byte) :=
  let e := g.outDepth f
  let hh := if f.chroma = 1 then roundUp g.h 2 else g.h
  let cs := g.chromaSize f
  let luma := (List.range g.h).map (fun y =>
    (pitch * y, packRow f (fun x => toDepth (g.sample m 0 x y) g.depth e) g.w))
  let row := fun (off n : Nat) (v : Nat → Nat) => (off, packRow f v n)
  let c := fun comp x y => toDepth (g.chromaOut m f comp x y) g.depth e
  let chroma :=
    if f.planar then
      (List.range cs.2).map (fun y => row (pitch * g.h + pitch * y) cs.1 (fun x => c 0 x y)) ++
      (List.range cs.2).map (fun y => row (2 * pitch * g.h + pitch * y) cs.1 (fun x => c 1 x y))
    else
      (List.range cs.2).map (fun y => row (pitch * hh + pitch * y) (2 * cs.1) (fun x => c (x % 2) (x / 2) y))
  luma ++ chroma

/-- One T24 plane as bytes, its edge samples replicated into the tiles past the picture (R163). -/
def t24Plane (tileBytes w h d : Nat) (v : Nat → Nat → Nat) : List Byte :=
  let at' := fun x y => v (min x (w - 1)) (min y (h - 1))
  (List.range (ceilDiv h 16)).flatMap (fun ty =>
    (List.range (ceilDiv w 64)).flatMap (fun tx =>
      (List.range 16).flatMap (fun y =>
        if tileBytes = 1024 then
          (List.range 64).map (fun x => BitVec.ofNat 8 (at' (64 * tx + x) (16 * ty + y)))
        else
          (List.range 32).flatMap (fun k =>
            leBytes 3 (at' (64 * tx + 2 * k) (16 * ty + y) * 2 ^ (12 - d) +
              4096 * (at' (64 * tx + 2 * k + 1) (16 * ty + y) * 2 ^ (12 - d)))))))

/-- The runs that a T24 format writes (R163, R165). -/
def Geom.t24Runs (g : Geom) (m : List Host.Cell) (f : Fmt) : List (Nat × List Byte) :=
  let tb := if f.depth = 8 then 1024 else 1536
  let e := g.outDepth f
  let cs := g.chromaSize f
  let luma := t24Plane tb g.w g.h e (fun x y => toDepth (g.sample m 0 x y) g.depth e)
  [(0, luma), (luma.length, t24Plane tb (2 * cs.1) cs.2 e
    (fun x y => toDepth (g.chromaOut m f (x % 2) (x / 2) y) g.depth e))]

/-- The runs of a written picture (R163 to R165). -/
def Geom.runs (g : Geom) (m : List Host.Cell) (f : Fmt) (pitch : Nat) : List (Nat × List Byte) :=
  if f.t24 then g.t24Runs m f else g.linearRuns m f pitch

/-- Bytes from the first byte of a written picture to the end of its last plane. -/
def runsEnd (l : List (Nat × List Byte)) : Nat := l.foldl (fun n r => max n (r.1 + r.2.length)) 0

/-- Writes runs behind a tagged address; `content` marks a kind of data for which R98 allows Relaxed Ordering. -/
def State.writeRuns (s : State) (t : Nat) (l : List (Nat × List Byte)) (content : Bool := true) : State :=
  l.foldl (fun x r => x.writeTagged (t + r.1) r.2 content) s

/-- Every run is accepted where it goes. -/
def State.runsOk (s : State) (t : Nat) (l : List (Nat × List Byte)) : Bool :=
  l.all (fun r => s.writeTagOk (t + r.1) r.2.length)

/-- The pitch and address rules of a format (R163). -/
def pitchOk (f : Fmt) (addr pitch w : Nat) : Bool :=
  if f.t24 then pitch == 0
  else addr % 64 == 0 && pitch % 64 == 0 && decide (w * f.bytes ≤ pitch)

/-- The mode's picture, as its pool slots hold it (R166): fields 0 to 3 and REF_COMPRESS. -/
def Stream.geom (st : Stream) (base w h : Nat) : Geom :=
  { base := base, w := w, h := h, chroma := st.field 2, depth := st.field 3, packed := st.field 17 == 1 }

/-- SLOT_BYTES of a stream. -/
def Stream.slotBytes (st : Stream) : Nat := (st.geom 0 (st.field 0) (st.field 1)).slotBytes

/-- The device address of pool slot k: after the context area and the slots before it (R159, R166). -/
def Stream.slotAddr (st : Stream) (k : Nat) : Nat := st.blockBase + 524288 + k * st.slotBytes

/-- The picture in slot k of a stream. -/
def Stream.slotGeom (st : Stream) (k : Nat) : Geom :=
  let x := mgetD st.slots k {}
  st.geom (st.slotAddr k) x.width x.height

end Sys2Proof.Machine
end

