-- ==== Sys2Proof/Machine/ModeVec.lean ====
section
/-!
DEFINITION. The stream mode vector: its block, ranges, forces, clamps, refusals and the figures derived from it (R166,
R187, R342, R351, R356, R372 to R379, R587).
-/
namespace Sys2Proof.Machine

/-- First byte and bytes of field f in the mode block (R373). -/
def fieldPlace (f : Nat) : Nat × Nat :=
  ([(16, 2), (18, 2), (20, 1), (21, 1), (22, 1), (23, 1), (24, 1), (28, 4), (32, 4), (36, 1), (37, 1), (38, 2),
    (40, 1), (41, 1), (42, 1), (43, 1), (44, 1), (45, 1), (46, 1)] ++
   [(48, 1), (49, 1), (52, 4), (56, 4), (60, 4), (64, 1), (65, 1), (66, 1), (67, 1), (68, 1), (69, 1), (70, 1),
    (71, 1), (72, 1), (73, 1), (74, 1), (75, 1), (76, 4)] ++
   [(80, 1), (81, 1), (82, 1), (83, 1), (84, 1), (88, 8), (96, 2), (98, 1), (99, 1), (100, 2), (104, 8), (112, 6),
    (118, 1), (119, 1), (120, 1), (121, 1), (122, 1), (123, 1), (124, 1), (125, 1), (126, 1), (127, 1), (128, 1),
    (129, 1), (130, 1)]).getD f (0, 0)

/-- The fields numbered 0 to 61 that a block spells (R373). -/
def modeOf (l : List Byte) : List Nat :=
  (List.range 62).map (fun f => leNat ((l.drop (fieldPlace f).1).take (fieldPlace f).2))

/-- A byte of the block that the field table and the header do not name (R372). -/
def modeRsv (i : Nat) : Bool :=
  (decide (2 ≤ i) && decide (i < 8)) ||
  (decide (16 ≤ i) && (List.range 62).all (fun f =>
    !(decide ((fieldPlace f).1 ≤ i) && decide (i < (fieldPlace f).1 + (fieldPlace f).2))))

/-- Every reserved byte of the block is 0 (R372). -/
def modeRsvOk (l : List Byte) : Bool := (List.range 256).all (fun i => !modeRsv i || l.getD i 0 == 0)

/-- The field counts in this direction (R373, R375): 9 to 13, 15, 16 and 18 to 37, 44 to 47 and 54 to 61 are encode
fields but for MAX_DPB; 13 and 38 to 43 are decode fields. -/
def fieldUsed (encode : Bool) (f : Nat) : Bool :=
  let dec := f == 13 || (decide (38 ≤ f) && decide (f ≤ 43))
  let enc := !dec && ((decide (9 ≤ f) && decide (f ≤ 12)) || f == 15 || f == 16 || (decide (18 ≤ f) && decide (f ≤ 37)) ||
    (decide (44 ≤ f) && decide (f ≤ 47)) || decide (54 ≤ f))
  if encode then !dec else !enc

/-- The change classes of R374. -/
inductive Change | frame | resize | place | look | fixed
  deriving DecidableEq, Repr

/-- The change class of field f (R373). -/
def fieldChange (f : Nat) : Change :=
  if f ≤ 4 ∨ f = 12 ∨ f = 13 ∨ f = 14 ∨ f = 17 then .resize
  else if f = 32 then .look
  else if 48 ≤ f ∧ f ≤ 53 then .place
  else if f = 55 then .fixed
  else .frame

/-- Field f of a vector. -/
def fv (v : List Nat) (f : Nat) : Nat := v.getD f 0

/-- Field f lies in its range (R342, R356, R373). -/
def fieldOk (v : List Nat) (f : Nat) : Bool :=
  let x := fv v f
  let within := fun a b => decide (a ≤ x) && decide (x ≤ b)
  match f with
  | 0 | 1 => within 16 8192 && x % 2 == 0
  | 2 => within 0 3
  | 3 => x == 8 || x == 10 || x == 12
  | 6 | 16 | 17 | 20 | 37 | 38 | 39 | 45 | 59 | 60 | 61 => within 0 1
  | 7 | 8 => within 1 1000000
  | 9 | 19 | 41 | 49 => if f = 41 then within 0 16 else within 0 3
  | 10 => within 1 4
  | 12 => within 0 8
  | 13 => within 0 16
  | 14 => within 0 3
  | 15 | 52 => within 0 7
  | 18 => within 1 64
  | 21 | 23 => within 1 4000000
  | 22 => within (fv v 21) 4000000
  | 24 => within 1 255
  | 25 => within 0 64
  | 26 | 27 => within 0 63
  | 28 => x == 0 || within 244 255
  | 29 => within 0 12
  | 30 | 31 => within 0 63 || x == 255
  | 32 => within 0 60 || x == 255
  | 33 => within 0 15
  | 34 => within 0 12
  | 35 => within 1 64
  | 36 => within 0 16777215
  | 40 => within 0 3
  | 42 => tagOk x && x % 32 == 0
  | 43 => within 16 1024 && x % 16 == 0
  | 44 => within 0 64
  | 46 => within 1 1000
  | 47 => tagOk x && x % 8 == 0
  | 50 | 55 => within 0 2
  | 53 => within 0 12
  | 54 => within 0 15
  | _ => true

/-- CODEC of a personality identifier (R313). -/
def codecOf (id : Nat) : Nat := bits id 31 24

/-- Replaces one field. -/
def setf (v : List Nat) (f x : Nat) : List Nat := v.set f x

/-- The largest QP of a codec (R342). -/
def qpTop (codec : Nat) : Nat := if codec = 1 ∨ codec = 2 then 51 else 63

/-- The encode limit of MAX_REFS (R378). -/
def refTop (codec : Nat) : Nat := if codec = 1 then 4 else if codec = 4 then 7 else 8

/-- CTU size of a preset (R314). -/
def PersParams_ctu (p : PersParams) (preset : Nat) : Nat := p.ctuOf.getD preset 64

/-- The published figures of a CTU size (R586). -/
def ctuRow (p : PersParams) (ctu : Nat) : CtuParams :=
  (p.ctus.find? (fun c => c.ctu == ctu)).getD
    { ctu := ctu, minCols := 1, maxCols := 1, maxCount := 1, minCtuBits := 0, tailBits := 0, guardBits := 0, hdrBase := 0,
      hdrPerCore := 0 }

/-- The per-core rate that the image publishes for a direction, preset and format, in pixels per second (R314, R326). -/
def rateOf (p : PersParams) (encode : Bool) (v : List Nat) : Nat :=
  ((p.rates.find? (fun r => r.encode == encode && (!encode || r.preset == fv v 15) && r.chroma == fv v 2 &&
    r.depth == fv v 3)).map RateRow.rate).getD 1

/-- The buffer count that a standard needs at a level and picture size, the current picture counted (R166). H.264 divides
its macroblock store by the picture's macroblocks; HEVC and VVC scale their picture buffers by the level's largest picture
(log entry 25). -/
def levelDpb (codec : Nat) (p : PersParams) (v : List Nat) : Nat :=
  let px := fv v 0 * fv v 1
  let row := p.levels.find? (fun r => r.level == fv v 5 && r.tier == fv v 6)
  match codec, row with
  | 1, some r => min (r.dpb / max 1 (ceilDiv (fv v 0) 16 * ceilDiv (fv v 1) 16)) 16 + 1
  | 2, some r => if px ≤ r.maxPx / 4 then 16 else if px ≤ r.maxPx / 2 then 12 else if px ≤ 3 * r.maxPx / 4 then 8 else 6
  | 5, some r => if 2 * px ≤ r.maxPx then 16 else if 3 * px ≤ 2 * r.maxPx then 12 else 8
  | 3, _ | 4, _ => 9
  | _, _ => 17

/-- POOL_SLOTS (R166). -/
def poolSlotsOf (encode : Bool) (v : List Nat) : Nat :=
  if encode then fv v 12 + fv v 14 else fv v 13 + fv v 14 - 1

/-- Stage 3 of R375: every force and clamp of R378, in table order. -/
def applyForces (codec : Nat) (p : PersParams) (encode : Bool) (v : List Nat) : List Nat :=
  let cond := fun (b : Bool) (f : Nat) (x : Nat) (v : List Nat) => if b then setf v f x else v
  let v := cond (fv v 14 == 0) 14 (if encode && fv v 16 == 1 then 3 else 2) v
  if !encode then
    let v := cond (fv v 13 == 0) 13 (min (levelDpb codec p v) 17) v
    (List.range 3).foldl (fun v _ => cond (decide (17 < poolSlotsOf false v) && decide (1 < fv v 14)) 14 (fv v 14 - 1) v) v
  else
    let v := cond (fv v 12 == 0) 12 (p.defRefs.getD (fv v 15) 1) v
    let v := cond (fv v 32 == 255) 32 (p.defLook.getD (fv v 15) 0) v
    let v := cond (fv v 30 == 255) 30 0 v
    let v := cond (fv v 31 == 255) 31 (qpTop codec) v
    let v := cond (fv v 9 == 3) 12 0 v
    let v := cond (fv v 32 == 0 && fv v 55 != 2) 60 0 v
    let v := cond (fv v 19 == 1) 22 (fv v 21) v
    let v := cond (fv v 19 == 0) 34 0 v
    let v := cond (decide (0 < fv v 44)) 18 (ceilDiv (ceilDiv (fv v 1) (PersParams_ctu p (fv v 15))) (max 1 (fv v 44))) v
    let v := cond (decide (refTop codec < fv v 12)) 12 (refTop codec) v
    let v := cond (fv v 9 == 2 && decide (fv v 12 < 2)) 12 2 v
    let v := cond (fv v 9 == 2 && decide (0 < fv v 11)) 11 (roundUp (fv v 11) (2 ^ fv v 10)) v
    let v := cond (decide (qpTop codec < fv v 30)) 30 (qpTop codec) v
    let v := cond (decide (qpTop codec < fv v 31)) 31 (qpTop codec) v
    let v := cond (decide (fv v 30 ≤ fv v 31)) 26 (min (max (fv v 26) (fv v 30)) (fv v 31)) v
    let v := cond (codec == 1 && decide (1 < fv v 53)) 53 1 v
    (List.range 3).foldl (fun v _ => cond (decide (17 < poolSlotsOf true v) && decide (1 < fv v 14)) 14 (fv v 14 - 1) v) v

/-- Luma width of the widest of k tile columns when they share `cols` CTU columns of this size as evenly as whole columns allow,
the picture's last column being cut at width w. -/
def widestTile (w ctu cols k : Nat) : Nat :=
  let m := ceilDiv cols (max 1 k)
  if cols + k = k * m + 1 then max (w - (cols - m) * ctu) ((m - 1) * ctu) else m * ctu

/-- K_SIZE (R187): the least number of tile columns, of whole CTU columns, that keeps every tile in one core's limits. -/
def kSize (p : PersParams) (encode : Bool) (v : List Nat) : Nat :=
  if encode then
    let ctu := PersParams_ctu p (fv v 15)
    let cols := ceilDiv (fv v 0) (max 1 ctu)
    let fits := fun (k : Nat) =>
      let t := widestTile (fv v 0) ctu cols k
      decide (t ≤ 4096) && decide (t * fv v 1 ≤ 9437184)
    (((List.range cols).map (· + 1)).find? fits).getD cols
  else 1

/-- K_RATE (R187). -/
def kRate (p : PersParams) (encode : Bool) (cap : Nat) (v : List Nat) : Nat :=
  if fv v 53 ≠ 0 then 1
  else max 1 (ceilDiv (fv v 0 * fv v 1 * fv v 7 * 256) (max 1 (fv v 8 * rateOf p encode v * cap)))

/-- CTU columns of the picture at the preset's CTU size. -/
def ctuCols (p : PersParams) (v : List Nat) : Nat := ceilDiv (fv v 0) (PersParams_ctu p (fv v 15))
/-- CTU rows. -/
def ctuRows (p : PersParams) (v : List Nat) : Nat := ceilDiv (fv v 1) (PersParams_ctu p (fv v 15))

/-- K, the cores of a frame (R187). -/
def coresOf (p : PersParams) (encode : Bool) (cap : Nat) (v : List Nat) : Nat :=
  let k := min 12 (max (kSize p encode v) (max (fv v 53) (kRate p encode cap v)))
  if encode then
    let c := ctuRow p (PersParams_ctu p (fv v 15))
    max 1 (min k (min c.maxCount (ctuCols p v / max 1 c.minCols)))
  else max 1 k

/-- The least frame size of R343: headers of a tiled frame, every CTU at its floor cost, and the ends. -/
def leastBits (p : PersParams) (k : Nat) (v : List Nat) : Nat :=
  let c := ctuRow p (PersParams_ctu p (fv v 15))
  (if 1 < k then c.hdrBase + c.hdrPerCore * k else 0) + ctuCols p v * ctuRows p v * c.minCtuBits + c.tailBits

/-- The cores of a quadrant in a pin mask (R179): a mask of 0 allows every core. -/
def pinQuad (mask q : Nat) : Nat := if mask = 0 then 4095 else bits mask (12 * q + 11) (12 * q)

/-- Stage 4 of R375: the first refusal of the matrix that holds, or 0. -/
def refusal (p : PersParams) (flags : Nat) (encode : Bool) (k : Nat) (v : List Nat) : Nat :=
  let sub := encode && decide (0 < fv v 44)
  let rate := rateOf p encode v
  let rowSlow := decide (rate < fv v 0 * PersParams_ctu p (fv v 15) * 1000)
  if 17 < poolSlotsOf encode v then 0x2001
  else if encode ∧ fv v 31 < fv v 30 then 0x2002
  else if encode ∧ fv v 19 = 0 ∧ fv v 20 = 1 then 0x2003
  else if encode ∧ fv v 20 = 1 ∧ fv v 23 * 1000 * (256 - fv v 25) / 256 < leastBits p k v then 0x2004
  else if sub ∧ 1 < k then 0x2005
  else if sub ∧ 0 < fv v 32 then 0x2006
  else if sub ∧ fv v 9 = 2 then 0x2007
  else if sub ∧ rowSlow then 0x2008
  else if encode ∧ fv v 45 = 1 ∧ !isDev (fv v 47) then 0x2009
  else if encode ∧ fv v 55 ≠ 0 ∧ (!bit flags 2 ∨ sub) then 0x200A
  else if fv v 50 = 2 ∧ pinQuad (fv v 48) (fv v 49) = 0 then 0x200B
  else 0

/-- The image's own checks that the spec states for every image: PROFILE and LEVEL (R322, R587). Sample rates are per
second. -/
def profileLevel (p : PersParams) (encode : Bool) (v : List Nat) : Nat :=
  match p.profiles.find? (fun r => r.code == fv v 4) with
  | none => 0x4001
  | some r =>
    if !(if encode then r.enc else r.dec) ∨ !r.chromas.contains (fv v 2) ∨ !r.depths.contains (fv v 3) then 0x4001
    else if !encode then 0
    else
      match p.levels.find? (fun x => x.level == fv v 5 && x.tier == fv v 6) with
      | none => 0x4002
      | some x =>
        if x.maxPx < fv v 0 * fv v 1 ∨ x.maxRate * fv v 8 < fv v 0 * fv v 1 * fv v 7 then 0x4003 else 0

/-- The first field out of its range, as a detail code, or 0 (stage 2 of R375). -/
def rangeCode (encode : Bool) (v : List Nat) : Nat :=
  match (List.range 62).find? (fun f => fieldUsed encode f && !fieldOk v f) with
  | some f => 0x1000 + f
  | none => 0

/-- The stages 2 to 6 of R375 on a vector: the vector that stage 3 leaves, or the detail code of the first failure.
`ladderAllow` is the device's LADDER_ALLOW and `verdict` what the image's own validator answered (0 = accepted). -/
def validate (id flags : Nat) (p : PersParams) (encode : Bool) (cap : Nat) (ladderAllow : Bool) (verdict : Nat)
    (v : List Nat) : List Nat × Nat :=
  let r := rangeCode encode v
  if r ≠ 0 then (v, r)
  else
    let w := applyForces (codecOf id) p encode v
    let k := coresOf p encode cap w
    let x := refusal p flags encode k w
    if x ≠ 0 then (w, x)
    else if encode ∧ fv w 55 ≠ 0 ∧ !ladderAllow then (w, 0x6080 + 17)
    else if profileLevel p encode w ≠ 0 then (w, profileLevel p encode w)
    else (w, verdict)

/-- The lookahead area of a stream block (R351): none without lookahead, and none for a lower rendition. -/
def lookArea (v : List Nat) : Nat :=
  let d := fv v 32
  if d = 0 ∨ fv v 55 = 2 then 0
  else
    let sc := if fv v 15 ≤ 4 then 2 else 4
    let w := fv v 0 / sc
    let h := fv v 1 / sc
    roundUp ((d + 2) * (w * h * 3 / 2) + (d + 1) * (((w + 7) / 8) * ((h + 7) / 8) * 8)) 65536

/-- SLOT_BYTES of a vector (R166). -/
def slotBytesOf (v : List Nat) : Nat :=
  ({ base := 0, w := fv v 0, h := fv v 1, chroma := fv v 2, depth := fv v 3, packed := fv v 17 == 1 } : Geom).slotBytes

/-- The block of a stream in MiB, a multiple of 2 (R153, R166). `look` is the lookahead area in bytes. -/
def blockMib (encode : Bool) (look : Nat) (v : List Nat) : Nat :=
  2 * ceilDiv (524288 + slotBytesOf v * poolSlotsOf encode v + look) (2 ^ 21)

/-- The effective mode of a job (R376): the stream's vector limited by the device fields of the job's epoch (R380). -/
def effective (dev : Nat → Nat) (v : List Nat) : List Nat :=
  let v := setf v 14 (min (fv v 14) (dev 3))
  let v := setf v 15 (max (fv v 15) (dev 4))
  let v := setf v 32 (min (fv v 32) (dev 5))
  let v := setf v 34 (min (fv v 34) (dev 6))
  let v := if dev 8 = 1 then setf v 38 1 else v
  let v := if dev 9 = 0 then v else setf v 39 (dev 9 - 1)
  let v := if dev 10 = 0 then v else setf v 40 (dev 10 - 1)
  let v := setf v 41 (min (fv v 41) (dev 11))
  let v := setf v 46 (min (fv v 46) (dev 14))
  if dev 16 = 0 then setf v 44 0 else v

end Sys2Proof.Machine
end

