-- ==== Sys2Proof/Machine/RateFrame.lean ====
section
/-!
DEFINITION. The closes of a stream's frames: debt, the CPB and the history of sizes, in coding order (R340, R341, R348,
R349).
-/
namespace Sys2Proof.Machine

/-- Bits of one mean frame at a rate in kb/s. -/
def frameBits (v : List Nat) (kbps : Nat) : Nat := kbps * 1000 * fv v 8 / max 1 (fv v 7)

/-- The CPB size in bits (R348). -/
def cpbSize (v : List Nat) : Nat := fv v 23 * 1000

/-- B(n + 1) of R348, without filler. -/
def cpbNext (v : List Nat) (b : Int) (size : Nat) : Int :=
  min (b - (size : Int) + (frameBits v (fv v 22) : Int)) (cpbSize v : Int)

/-- B(0) of R348. -/
def cpbInit (v : List Nat) : Int := (cpbSize v * fv v 24 / 256 : Nat)

/-- The closing state that a frame leaves (R340, R341, R346, R348, R349): size S, whether it underflowed, and the filler of
CBR at the CPB's brim. -/
def RateState.closeFrame (r : RateState) (v : List Nat) (idx size picType qp c : Nat) (plan : Nat) : RateState :=
  let last := r.closes.head?
  let b := (last.map RateClose.full).getD (cpbInit v)
  let under := fv v 20 == 1 && decide (b < (size : Int))
  let full := if under then (frameBits v (fv v 22) : Int) else cpbNext v b size
  let debt := (last.map RateClose.debt).getD 0 + (if fv v 19 = 0 then 0 else (size : Int) - plan)
  let hist := ((last.map RateClose.hist).getD []).filter (fun h => h.1 != picType)
  { closes := ({ idx := idx, debt := max (-2147483647) (min debt 2147483647), full := full,
                 hist := (picType, size, qp, c) :: hist } :: r.closes).take 3
    underflows := r.underflows + b2n under }

/-- A frame that finally fails charges nothing and counts at size 0 in the CPB model (R341). -/
def RateState.failFrame (r : RateState) (v : List Nat) (idx : Nat) : RateState :=
  let last := r.closes.head?
  let full := cpbNext v ((last.map RateClose.full).getD (cpbInit v)) 0
  { r with
    closes := ({ idx := idx, debt := (last.map RateClose.debt).getD 0, full := full,
                 hist := (last.map RateClose.hist).getD [] } :: r.closes).take 3 }

/-- The effective mode of a job of a stream (R376). -/
def State.effMode (s : State) (x : Job) (t : Stream) : List Nat := effective (s.devField x.epoch) t.mode

/-- A frame of stream n before coding index c has not closed yet (R341). -/
def State.earlierCoding (s : State) (n c : Nat) : Bool :=
  s.jobs.any (fun (y : Nat × Job) => y.2.phase != .retired && y.2.stream == some n && y.2.indexed && decide (y.2.coding < c))

/-- The closes of finally failed frames whose turn has come, in coding order (R341). -/
def State.settleFails (s : State) (n : Nat) (v : List Nat) : State :=
  let due := fun (c : Nat) => !s.earlierCoding n c
  s.modStream n (fun t => { t with
    rc := ((sortNat t.rc.fails).filter due).foldl (fun r c => r.failFrame v c) { t.rc with fails := t.rc.fails.filter (fun c => !due c) } })

/-- A frame that has its coding index finally fails: its close waits for those before it (R341). -/
def State.failClose (s : State) (n : Nat) (x : Job) : State :=
  (s.modStream n (fun t => { t with rc := { t.rc with fails := x.coding :: t.rc.fails } })).settleFails n
    (s.effMode x (s.stream n))

end Sys2Proof.Machine
end

