-- ==== Sys2Proof/Machine/JobOps.lean ====
section
/-!
DEFINITION. What becomes of a job: discarding an attempt, finishing, final failure and its effect on the stream
(R35, R36, R146 to R148, R230, R536 to R540).
-/
namespace Sys2Proof.Machine

/-- The job is before its retire point. -/
def Job.live (j : Job) : Bool := decide (j.phase ≠ .retired)

/-- Sets one completion flag (R136). -/
def Job.setFlag (j : Job) (b : Nat) : Job := if bit j.flags b then j else { j with flags := j.flags + 2 ^ b }

/-- ERROR_MODE STRICT holds for a decode job: the stream's field 38 or the device's STRICT_FORCE (R369, R380). -/
def State.strict (s : State) (j : Job) : Bool :=
  match j.stream with
  | some n =>
    let st := s.stream n
    !st.encode && (st.field 38 == 1 || s.devField j.epoch 8 == 1)
  | none => false

/-- Changes the Placer's record of core n. -/
def State.modPlace (s : State) (n : Nat) (f : CorePlace → CorePlace) : State :=
  { s with placer := { s.placer with cores := mset s.placer.cores n (f (s.core n)) } }

/-- A core is busy while it holds a job of any kind (R195). -/
def CorePlace.busy (c : CorePlace) : Bool := !(c.inside.isEmpty && c.queue.isEmpty && c.side.isEmpty)

/-- PAGE_STATUS.STATE of a core in service follows whether it holds a job (R71), and SPILL whether it holds one in spill
mode. -/
def State.coreState (s : State) (n : Nat) : State :=
  (s.modPage (corePage n) (fun g =>
    match g.state with
    | .idle | .running => { g with state := if (s.core n).busy then .running else .idle }
    | _ => g)).setCond (corePage n) 2 ((s.core n).inside.any (fun j => ((s.job j).map Job.spill).getD false))

/-- The job is ready to place: parsed, at its turn and with its output buffer. It takes its place in the order of readiness
(R184). -/
def State.markReady (s : State) (j : Nat) : State :=
  match s.job j with
  | some x =>
    if x.readyAt = 0 ∧ x.request = none ∧ (x.phase = .ready ∨ (x.phase = .waiting ∧ x.opcode = 0x50)) then
      { s.modJob j (fun y => { y with readyAt := s.placer.readySeq + 1 }) with
        placer := { s.placer with readySeq := s.placer.readySeq + 1 } }
    else s
  | none => s

/-- Takes a job off one core. -/
def State.offCore (s : State) (j n : Nat) : State :=
  ((s.clearUnit n j).modPlace n (fun c => { c with
    inside := c.inside.filter (· != j), queue := c.queue.filter (· != j), side := c.side.filter (· != j) })).coreState n

/-- Releases one reader of each reference slot (R169). -/
def State.dropReaders (s : State) (stream : Nat) (refs : List Nat) : State :=
  s.modStream stream (fun st => { st with
    slots := refs.foldl (fun m r => mupd m r (fun x => { x with readers := x.readers - 1 })) st.slots })

/-- One reader of a row window has gone: its last reader frees it (R191). `w` names the quadrant, slot and GEN. -/
def State.dropWindow (s : State) (stream : Nat) (w : Nat × Nat × Nat) : State :=
  let q := mgetD s.placer.quads w.1 {}
  let hit := fun (x : Window) => x.stream == stream && x.slot == w.2.1 && x.gen == w.2.2
  let l := (q.windows.map (fun x => if hit x then { x with users := x.users - 1 } else x)).filter (fun x => decide (0 < x.users))
  { s with placer := { s.placer with quads := mset s.placer.quads w.1 { q with windows := l } } }

/-- The job leaves its cores and releases the references it named (R169). -/
def State.unplace (s : State) (j : Nat) : State :=
  match s.job j with
  | none => s
  | some x =>
    let s1 := x.cores.foldl (fun t n => t.offCore j n) s
    let s2 := match x.stream with
      | some n => s1.dropReaders n x.refs
      | none => s1
    let s3 := x.wins.foldl (fun t w => t.dropWindow (x.stream.getD 1024) w) s2
    (s3.modJob j (fun y => { y with cores := [], widths := [], shares := [], refs := [], wins := [] }))

/-- Stops every DMA channel that the job started (R36, R452). -/
def State.stopChannels (s : State) (j : Nat) : State :=
  (s.dma.chans.filter (fun c => c.2.job == some j)).foldl
    (fun t c => (t.chanStop c.1).modChan c.1 (fun y => { y with job := none })) s

/-- The Caldera queue of an encode job (R129). -/
def Job.clq (j : Job) : Nat := j.at 36 2

/-- The queue's open packet belongs to this job. -/
def State.holdsOpen (s : State) (j q : Nat) : Bool :=
  match (s.clq q).opened with
  | some o => o.who == .core j
  | none => false

/-- Links a DISCONT packet into queue q, its crust cell granted under R427 or taken from the hold. -/
def State.linkDiscont (s : State) (q tag : Nat) (frees : List Nat) : State :=
  let hold := !s.grants q
  let s1 := s.linkPacket q { crust := discontCrust tag, hold := hold, frees := frees }
  let s2 := if hold then s1.raiseEvt 8 3 else s1
  (s2.notice q State.trigger).cellEvents

/-- A producer ends its packet as a discontinuity (R429): an open packet keeps its crust cell alone, and without one a
DISCONT packet is opened and closed. -/
def State.discontinuity (s : State) (q : Nat) (mine : Bool) (tag : Nat) (frees : List Nat) : State :=
  match mine, (s.clq q).opened with
  | true, some o =>
    let s1 := s.modClq q (fun c => { c with
      opened := none, complete := c.complete ++ [{ crust := toDiscont o.pkt.crust, hold := o.pkt.hold, frees := frees }] })
    (s1.notice q State.trigger).cellEvents
  | _, _ => s.linkDiscont q tag frees

/-- Forgets the packets of job j that wait to be opened in queue q (R36, R429). A discontinuity that ends its frame stays. -/
def State.dropWaiting (s : State) (j q : Nat) : State :=
  if (s.clq q).waiting.any (fun o => o.who == .core j && o.pkt.crust.typ != .discont) then
    s.modClq q (fun c => { c with waiting := c.waiting.filter (fun o => !(o.who == .core j && o.pkt.crust.typ != .discont)) })
  else s

/-- Marks the job's pool slot FAILED while it is being written (R170). -/
def State.failSlot (s : State) (x : Job) : State :=
  match x.stream, x.slot with
  | some n, some k => s.modStream n (fun st => { st with
      slots := mupd st.slots k (fun y => if y.coding then { y with failed := true } else y) })
  | _, _ => s

/-- The reference marks that the attempt dropped come back, and the picture that it was to write waits again (R160). -/
def State.undoMarks (s : State) (x : Job) : State :=
  match x.stream with
  | none => s
  | some n =>
    let back := fun (m : Map Slot) (u : Nat × Nat × RefMark × Nat) =>
      mupd m u.1 (fun y => if y.gen = u.2.1 ∧ y.mark = .unused then { y with mark := u.2.2.1, longIdx := u.2.2.2 } else y)
    s.modStream n (fun st =>
      let m := x.undo.foldl back st.slots
      { st with slots := match x.outSlot with
        | some k => mupd m k (fun y => if y.pending then { y with released := true } else y)
        | none => m })

/-- Discards the attempt of a job (R36, R444, R537): its channels stop, an unseen packet is abandoned silently, packets that
wait for a cell are forgotten, its buffers return, its slot is FAILED and it leaves its cores. CORE returns to 0xFF, which a job
that then fails for good keeps (DESIGN CHOICE, log entry 98), and of the flags only RETRIED, MIGRATED and EPOCH_CHANGED stay. -/
def State.discard (s : State) (j : Nat) : State :=
  match s.job j with
  | none => s
  | some x =>
    let s1 := s.stopChannels j
    let s1 := s1.dropWaiting j x.clq
    let s2 := if x.closedPkts = 0 ∧ s1.holdsOpen j x.clq then s1.abandon x.clq else s1
    let s3 := (x.bufs ++ x.staging.map Prod.snd).foldl (fun t h => t.dropCore h) s2
    let s4 := ((s3.undoMarks x).failSlot x).unplace j
    s4.modJob j (fun y => { y with
      bufs := [], staging := [], forStage := false, handle0 := 0xFFFFFFFF, handle1 := 0xFFFFFFFF, outBytes := 0, opened := false
      record := none, borders := false, strips := [], engines := []
      flags := y.flags &&& 0x58, started := false, reported := false, tiles := [], posts := [], overflow := false, request :=
          none, tries := 0, core := 0xFF, drain := [], framed := false, reads := [], seeded := false, outSlot := none,
          undo := [], cover := [], seg := none })

/-- The first job of a stream to retire after its re-home carries MIGRATED (R194). -/
def State.migrated (s : State) (j : Nat) : State :=
  match (s.job j).bind Job.stream with
  | some n =>
    if (s.stream n).migrate then (s.modJob j (fun y => y.setFlag 4)).modStream n (fun t => { t with migrate := false })
    else s
  | none => s

/-- A stream operation that fails: its reservation is released and a closing stream returns to the state it had (R156,
R157). -/
def State.opFailed (s : State) (x : Job) : State :=
  match x.stream with
  | some n =>
    if x.opcode = 0x02 ∨ x.opcode = 0x03 then
      s.modStream n (fun t => { t with
        reserve := none, state := if t.state = .closing ∧ x.opcode = 0x02 then t.before else t.state })
    else s
  | none => s

/-- The job reaches its retire point with a status that is not OK: it keeps its place in completion order (R141). -/
def State.finish (s : State) (j status detail : Nat) : State :=
  let s1 := (s.modJob j (fun y => { y with
    phase := .retired, status := status, detail := detail, outBytes := 0, handle0 := 0xFFFFFFFF, handle1 := 0xFFFFFFFF })).migrated j
  match s1.job j with
  | some x => s1.opFailed x
  | none => s1

/-- The stream of entry r of a ladder block (R327). -/
def Job.rendStream (x : Job) (r : Nat) : Nat := leNat ((x.ladder.drop (16 + 48 * r)).take 2)

/-- RENDITIONS of an ENCODE_LADDER (R129). -/
def Job.renditions (x : Job) : Nat := x.at 22 1

/-- The job waits for placement again, as its next attempt (R537). `counts` says whether it counts against RETRY_MAX. -/
def State.attemptAgain (s : State) (j : Nat) (counts : Bool) : State :=
  ((s.discard j).modJob j (fun y => { y.setFlag 3 with
    phase := .ready, readyAt := 0, request := y.ask, attempt := min (y.attempt + 1) 7, replaced := y.replaced + b2n counts,
    discards := y.discards + 1 })).markReady j

/-- The failed picture's slot gives up CODING once its job is final, so that R169 can give it to a new picture. -/
def State.freeFailed (s : State) (x : Job) : State :=
  match x.stream, x.slot with
  | some n, some k => s.modStream n (fun st => { st with
      slots := mupd st.slots k (fun y => if y.failed then { y with coding := false, mark := .unused, pending := false } else y) })
  | _, _ => s

/-- DETAIL of ERR_UNIT_FAULT and ERR_MEMORY (R540). -/
def faultDetail (src reason attempts info : Nat) : Nat := src * 65536 + reason * 4096 + attempts * 256 + info

/-- Attempts made, 1 to 8 (R540). -/
def Job.attempts (j : Job) : Nat := min (j.discards + 1) 8

/-- The streams whose next frame becomes a key picture when job x of stream n applies FORCE_KEY: all those of its ladder
(R331). -/
def State.keyStreams (s : State) (n : Nat) (x : Job) : List Nat :=
  match x.parent.bind s.job with
  | some p => (List.range (min p.renditions 8)).map p.rendStream
  | none => [n]

/-- The live jobs of a stream after job j that have an attempt running. -/
def State.laterRunning (s : State) (n j : Nat) : List (Nat × Job) :=
  s.jobs.filter (fun y => decide (j < y.1) && y.2.stream == some n && (y.2.phase == .running || y.2.phase == .placed))

/-- A frame that has reached a Caldera queue ends with a discontinuity in place of its rest (R230, R429, R539). -/
def State.endFrame (s : State) (j : Nat) (x : Job) : State :=
  if x.opened ∨ 0 < x.closedPkts then s.discontinuity x.clq (s.holdsOpen j x.clq) (x.coding % 65536) x.bufs else s

/-- The frame that a discarded picture takes with it has closed its first packet, so it ends for good (R230, R538): it fails as not
retryable, and the later frames that run are re-run where they have closed none (log entry 108). -/
def State.endClosed (s : State) (j : Nat) (x : Job) : State :=
  let s1 := ((s.endFrame j x).discard j).finish j 0x40 (faultDetail 0xFF 2 x.attempts 0)
  match x.stream with
  | none => s1
  | some n =>
    let s2 := s1.freeFailed x
    let s3 := if x.indexed then s2.failClose n x else s2
    if (s3.stream n).field 37 = 0 then
      (s3.keyStreams n x).foldl (fun t k =>
        (((t.laterRunning k j).filter (fun y => y.2.opcode == 0x10 && y.2.closedPkts == 0)).foldl (fun u y => u.attemptAgain y.1 false)
          t).modStream k (fun y => { y with nextKey := true })) s3
    else s3

/-- The job loses its attempt: it is placed again, unless it has closed a packet (R230, R537, R538). -/
def State.requeueOne (s : State) (j : Nat) (counts : Bool) : State :=
  match s.job j with
  | some x => if 0 < x.closedPkts ∧ x.opcode = 0x10 then s.endClosed j x else s.attemptAgain j counts
  | none => s

/-- The lower renditions that run beside top rendition j and have read its motion field (R331). -/
def State.lowerRunning (s : State) (j : Nat) (x : Job) : List Nat :=
  match x.parent with
  | some p =>
    if j = p + 1 then
      (s.jobs.filter (fun (y : Nat × Job) => y.2.parent == some p && y.1 != j && y.2.phase == .running && y.2.seeded)).map Prod.fst
    else []
  | none => []

/-- A job waits for placement again; with the top of a ladder go the lower renditions that have read its motion field
(R331, R537). -/
def State.requeue (s : State) (j : Nat) (counts : Bool) : State :=
  let low := match s.job j with
    | some x => s.lowerRunning j x
    | none => []
  low.foldl (fun t k => t.requeueOne k false) (s.requeueOne j counts)

/-- Later jobs of the stream that read a discarded picture are discarded with it (R537, R148). -/
def State.cascade (s : State) (n j : Nat) (slot : Option Nat) : State :=
  let step := fun (a : State × List Nat) (y : Nat × Job) =>
    if y.2.refs.any (fun r => a.2.contains r) then
      (a.1.requeue y.1 false, match y.2.slot with
        | some k => k :: a.2
        | none => a.2)
    else a
  ((s.laterRunning n j).foldl step (s, slot.toList)).1

/-- Later frames of stream k that already run are re-run against the key picture (R148, R539); the renditions beside a failed
one are no later frames. -/
def State.rerunLater (s : State) (k j : Nat) (x : Job) : State :=
  ((s.laterRunning k j).filter (fun y => y.2.opcode == 0x10 && !(x.parent.isSome && y.2.parent == x.parent))).foldl (fun u y =>
    if ((u.job y.1).map (fun z => z.phase == .running || z.phase == .placed)).getD false then u.requeue y.1 false else u) s

/-- The recovery policy of an encode stream after a failed frame (R148, R331, R539). -/
def State.recover (s : State) (n j : Nat) (x : Job) : State :=
  let st := s.stream n
  let slot := x.slot
  if !st.encode then s
  else if st.field 37 = 0 then
    (s.keyStreams n x).foldl (fun t k => (t.rerunLater k j x).modStream k (fun y => { y with nextKey := true })) s
  else s.modStream n (fun t => { t with
    slots := match slot with
      | some k => mupd t.slots k (fun y => { y with mark := .unused })
      | none => t.slots })

/-- The opcodes that code or decode a frame. -/
def Job.codes (j : Job) : Bool := j.opcode == 0x10 || j.opcode == 0x11 || j.opcode == 0x20

/-- One job ends for good without success (R147, R539): its attempt is discarded, a frame that has reached a Caldera queue
ends with a discontinuity, later jobs that read its picture run again, and the stream recovers. -/
def State.failOne (s : State) (j status detail : Nat) : State :=
  match s.job j with
  | none => s
  | some x =>
    let s2 := ((s.endFrame j x).discard j).finish j status detail
    match x.stream with
    | some n =>
      let s3 := (s2.cascade n j x.slot).freeFailed x
      if x.opcode = 0x10 then (if x.indexed then s3.failClose n x else s3).recover n j x else s3
    | none => s2

/-- A job ends for good without success; with a ladder job end its renditions (R147, R329). -/
def State.failFinal (s : State) (j status detail : Nat) : State :=
  let kids := (s.jobs.filter (fun (y : Nat × Job) => y.2.parent == some j && y.2.live)).map Prod.fst
  (kids ++ [j]).foldl (fun t k => t.failOne k status detail) s

/-- The completion status of a fault source: ERR_UNIT_FAULT, or ERR_MEMORY with its reason (R417, R536, R540). -/
def sourceStatus (src : Nat) : Nat × Nat :=
  if 96 ≤ src ∧ src < 192 then (0x42, 1)
  else if src = 8 then (0x42, 3)
  else if src = 66 then (0x42, 4)
  else if src = 74 then (0x42, 5)
  else if src = 75 then (0x42, 6)
  else (0x40, 0)

/-- A job fails finally because of a fault source (R536, R538, R540). `reason` is that of ERR_UNIT_FAULT. -/
def State.failFault (s : State) (j : Nat) (x : Job) (src reason info : Nat) : State :=
  let st := sourceStatus src
  let low := if st.1 = 0x40 then (if src = 64 then info % 256 else 0)
    else if st.2 = 1 then (src - 96) / 8 else 0xFF
  s.failFinal j st.1 (faultDetail src (if st.1 = 0x40 then reason else st.2) x.attempts low)

/-- The job may be retried after this source (R538). -/
def State.retryable (s : State) (x : Job) (retry : Bool) : Bool :=
  retry && x.closedPkts == 0 && !s.strict x

/-- A job loses its attempt to a fault (R537): it is re-placed, with its cascade, or fails finally. -/
def State.refault (s : State) (j src : Nat) (retry : Bool) (info : Nat) : State :=
  match s.job j with
  | none => s
  | some x =>
    if !x.live then s
    else if !s.retryable x retry then s.failFault j x src 2 info
    else if s.devField x.epoch 0 ≤ x.replaced then s.failFault j x src 1 info
    else
      let s1 := s.requeue j true
      match x.stream with
      | some n => s1.cascade n j x.slot
      | none => s1

/-- ERR_MEMORY of a refused address (R540). -/
def Job.refused (x : Job) : Nat := faultDetail 0xFF 2 x.attempts 0xFF

/-- The first refused address of a run. -/
def badPoint (ok : Nat → Bool) (a n : Nat) : Nat := ((chunkPoints a n).find? (fun p => !ok p)).getD a

/-- A job touches device address a, which is refused: a frozen controller hits it as its own fault would (R417), and any
other refusal ends it with ERR_MEMORY (R32, R397). -/
def State.memFail (s : State) (j : Nat) (x : Job) (a : Nat) : State :=
  let k := offsetDch (a / 2 ^ 35) (a % 2 ^ 35)
  if a / 2 ^ 35 < 4 ∧ (s.page (dchPage k)).state = .frozen then s.refault j (96 + 8 * k + 1) true 0
  else s.failFinal j 0x42 x.refused

/-- A read of host memory for job j failed: ERR_MEMORY, and PCIE_HOST_READ fires (R100). -/
def State.hostFail (s : State) (j : Nat) (x : Job) : State := (s.fault 8 0xFFFF (some j) 0).failFinal j 0x42 x.refused

end Sys2Proof.Machine
end

