-- ==== Sys2Proof/Machine/NetOps.lean ====
section
/-!
DEFINITION. What the ports' parser, flow hash, meters and RTP reader compute (R485 to R492, R499, R500), and the port
registers they read.
-/
namespace Sys2Proof.Machine

/-! ### Bytes in network order -/

/-- The number that bytes spell, highest first. -/
def beNat (l : List Byte) : Nat := l.foldl (fun n b => n * 256 + b.toNat) 0

/-- n bytes from byte a, as a number in network order. -/
def beAt (l : List Byte) (a n : Nat) : Nat := beNat ((l.drop a).take n)

/-- One byte as a number; 0 past the end. -/
def byteAt (l : List Byte) (a : Nat) : Nat := (l.getD a 0).toNat

/-- The n low bytes of a number, highest first. -/
def beBytes (n x : Nat) : List Byte := (leBytes n x).reverse

/-- The sum of 16-bit words in network order, an odd last byte padded with 0. -/
def sumWords : List Byte → Nat
  | a :: b :: t => a.toNat * 256 + b.toNat + sumWords t
  | [a] => a.toNat * 256
  | [] => 0

/-- A sum folded to 16 bits with end-around carry. -/
def foldSum (n : Nat) : Nat := if n = 0 then 0 else if n % 65535 = 0 then 65535 else n % 65535

/-- The Internet checksum of bytes. -/
def inetSum (l : List Byte) : Nat := 65535 - foldSum (sumWords l)

/-- One step of the reflected CRC-32C (R491). -/
def crc32cBits : Nat → Nat → Nat
  | 0, c => c
  | k + 1, c => crc32cBits k (if c % 2 = 1 then c / 2 ^^^ 0x82F63B78 else c / 2)

/-- The CRC-32C of bytes (R491). -/
def crc32c (l : List Byte) : Nat := (l.foldl (fun c b => crc32cBits 8 (c ^^^ b.toNat)) 0xFFFFFFFF) ^^^ 0xFFFFFFFF

/-! ### The parser (R488 to R490) -/

/-- One endpoint: its 16-byte address followed by its 2-byte port (R490). -/
def endpoint (addr : List Byte) (port : Nat) : List Byte := addr ++ beBytes 2 port

/-- An IPv4 address as ::ffff:a.b.c.d. -/
def mapped (a : List Byte) : List Byte := List.replicate 10 0 ++ [255, 255] ++ a

/-- The canonical key (R490) without SSRC. VIDs are stored as the other multi-byte fields of an entry, low byte first. -/
def canonKey (vids : List Nat) (proto : Nat) (v6 : Bool) (a b : List Byte) : List Byte :=
  let lo := if beNat a ≤ beNat b then a else b
  let hi := if beNat a ≤ beNat b then b else a
  leBytes 2 (vids.getD 0 0) ++ leBytes 2 (vids.getD 1 0) ++ leBytes 1 proto ++ leBytes 1 (b2n v6) ++ [0, 0] ++
    lo.take 16 ++ hi.take 16 ++ lo.drop 16 ++ hi.drop 16 ++ [0, 0, 0, 0]

/-- The key with an SSRC (R492). -/
def ssrcKey (k : List Byte) (ssrc : List Byte) : List Byte :=
  k.take 5 ++ leBytes 1 (byteAt k 5 + 2) ++ (k.drop 6).take 38 ++ ssrc

/-- What the parser makes of a frame: the slow path with a reason and the key where there is an IP header, a failed check
(3 BAD_L3, 4 BAD_L4), or a UDP datagram with its key, destination port and payload. -/
inductive Parsed
  | slow (reason : Nat) (key : Option (List Byte))
  | bad (drop : Nat)
  | udp (key : List Byte) (port : Nat) (pay : List Byte)
  deriving DecidableEq, Repr

/-- The ports of a transport header where the frame carries them (TCP and UDP). -/
def l4Ports (proto : Nat) (l4 : List Byte) : Nat × Nat :=
  if (proto = 6 ∨ proto = 17) ∧ 4 ≤ l4.length then (beAt l4 0 2, beAt l4 2 2) else (0, 0)

/-- The transport layer of an IP datagram (R488, R489). `v6` and the addresses enter the pseudo-header. -/
def parseL4 (vids : List Nat) (v6 : Bool) (src dst : List Byte) (proto : Nat) (l4 : List Byte) : Parsed :=
  let p := l4Ports proto l4
  let wide := fun a => if v6 then a else mapped a
  let key := canonKey vids proto v6 (endpoint (wide src) p.1) (endpoint (wide dst) p.2)
  if proto = 6 then .slow 0x0B (some key)
  else if proto ≠ 17 then .slow 0x0C (some key)
  else
    let len := beAt l4 4 2
    let sum := beAt l4 6 2
    let dat := l4.take len
    let pseudo := src ++ dst ++ beBytes 2 proto ++ beBytes 2 len
    if l4.length < 8 ∨ len < 8 ∨ l4.length < len then .bad 4
    else if sum = 0 then (if v6 then .bad 4 else .udp key p.2 (dat.drop 8))
    else if foldSum (sumWords (pseudo ++ dat)) ≠ 65535 then .bad 4
    else .udp key p.2 (dat.drop 8)

/-- The extension headers of IPv6 other than the fragment header. -/
def v6Extension (n : Nat) : Bool := [0, 43, 50, 51, 60, 135, 139, 140].contains n

/-- An IPv4 datagram (R488, R489). -/
def parseV4 (vids : List Nat) (l : List Byte) : Parsed :=
  let ihl := byteAt l 0 % 16 * 4
  let total := beAt l 2 2
  let frag := beAt l 6 2
  let proto := byteAt l 9
  let src := (l.drop 12).take 4
  let dst := (l.drop 16).take 4
  if byteAt l 0 / 16 ≠ 4 ∨ ihl < 20 ∨ l.length < ihl ∨ total < ihl ∨ l.length < total ∨
      foldSum (sumWords (l.take ihl)) ≠ 65535 then .bad 3
  else
    let l4 := (l.take total).drop ihl
    let p := if bits frag 12 0 = 0 then l4Ports proto l4 else (0, 0)
    let key := canonKey vids proto false (endpoint (mapped src) p.1) (endpoint (mapped dst) p.2)
    if 20 < ihl then .slow 0x07 (some key)
    else if bit frag 13 ∨ bits frag 12 0 ≠ 0 then .slow 0x06 (some key)
    else parseL4 vids false src dst proto l4

/-- An IPv6 datagram (R488, R489). -/
def parseV6 (vids : List Nat) (l : List Byte) : Parsed :=
  let len := beAt l 4 2
  let next := byteAt l 6
  let src := (l.drop 8).take 16
  let dst := (l.drop 24).take 16
  let key := canonKey vids next true (endpoint src 0) (endpoint dst 0)
  if l.length < 40 ∨ byteAt l 0 / 16 ≠ 6 ∨ l.length < 40 + len then .bad 3
  else if next = 44 then .slow 0x09 (some key)
  else if v6Extension next then .slow 0x08 (some key)
  else parseL4 vids true src dst next ((l.drop 40).take len)

/-- The tags of a frame, up to two: their TCI, and what follows (R488). -/
def parseTags (l : List Byte) : List Nat × Nat × List Byte :=
  let t0 := beAt l 12 2
  if t0 ≠ 0x8100 ∧ t0 ≠ 0x88A8 then ([], t0, l.drop 14)
  else
    let t1 := beAt l 16 2
    if t1 ≠ 0x8100 then ([beAt l 14 2], t1, l.drop 18)
    else ([beAt l 14 2, beAt l 18 2], beAt l 20 2, l.drop 22)

/-- The parser on a frame from its destination address (R485, R488, R489). -/
def parseFrame (l : List Byte) : Parsed :=
  let t := parseTags l
  let vids := t.1.map (fun x => x % 4096)
  let typ := t.2.1
  if t.1.length = 2 ∧ (typ = 0x8100 ∨ typ = 0x88A8) then .slow 0x0E none
  else if typ = 0x88F7 then .slow 0x05 none
  else if typ = 0x0800 then
    match parseV4 vids t.2.2 with
    | .udp key port pay => if port = 319 ∨ port = 320 then .slow 0x05 (some key) else .udp key port pay
    | r => r
  else if typ = 0x86DD then
    match parseV6 vids t.2.2 with
    | .udp key port pay => if port = 319 ∨ port = 320 then .slow 0x05 (some key) else .udp key port pay
    | r => r
  else .slow 0x0A none

/-- An RTP packet (R488): CSRCs are skipped and padding is removed. -/
structure Rtp where
  marker : Bool
  pt : Nat
  seq : Nat
  ts : Nat
  ext : Bool
  pay : List Byte
  deriving DecidableEq, Repr

/-- Reads an RTP packet of version 2; none where it does not hold together. -/
def parseRtp (l : List Byte) : Option Rtp :=
  let b0 := byteAt l 0
  let x := bit b0 4
  let h0 := 12 + 4 * (b0 % 16)
  let h := if x then h0 + 4 + 4 * beAt l (h0 + 2) 2 else h0
  let pad := if bit b0 5 then byteAt l (l.length - 1) else 0
  if l.length < h0 ∨ b0 / 64 ≠ 2 ∨ (x ∧ l.length < h0 + 4) ∨ l.length < h + pad ∨ (bit b0 5 ∧ pad = 0) then none
  else some { marker := bit (byteAt l 1) 7, pt := byteAt l 1 % 128, seq := beAt l 2 2, ts := beAt l 4 4, ext := x
              pay := (l.take (l.length - pad)).drop h }

/-! ### Meters (R499, R500) -/

/-- The colours of R500. -/
inductive Colour | green | yellow | red | dropped
  deriving DecidableEq, Repr

/-- MODE of an active meter. -/
def Meter.mode (m : Meter) : Nat := byteAt m.act 0 % 4

/-- n bytes from byte a of the active configuration. -/
def Meter.field (m : Meter) (a n : Nat) : Nat := leNat ((m.act.drop a).take n)

/-- The configuration bytes lie in their ranges (R499). -/
def meterOk (c : List Byte) : Bool :=
  let f := fun a n => leNat ((c.drop a).take n)
  let mode := f 0 1 % 4
  let cir := f 4 4
  let cbs := f 1 3
  let pir := f 8 4
  let ebs := f 12 3
  decide (f 0 1 < 8) && f 15 1 == 0 &&
  (mode == 0 || (decide (64 ≤ cbs) && decide (1 ≤ cir) && decide (cir ≤ 100000000) &&
    (if mode = 3 then decide (cir ≤ pir) && decide (pir ≤ 100000000) && decide (64 ≤ ebs)
     else pir == 0 && (mode == 2 || ebs == 0))))

/-- One frame of length l meets a meter at `now` (R500), with buckets in units of 2^-16 byte. The statements run in the order
in which R500 writes them (log entry 61). -/
def Meter.run (m : Meter) (now l : Nat) : Colour × Meter :=
  let one := 65536
  let dt := now - m.last
  let cbs := m.field 1 3 * one
  let ebs := m.field 12 3 * one
  let add := m.field 4 4 * dt * one / 8000000
  let l := l * one
  let m := { m with last := now }
  match m.mode with
  | 0 => (.green, m)
  | 1 =>
    let tc := min cbs (m.tc + add)
    let pass := decide (l ≤ tc)
    let tc := if pass then tc - l else tc
    (if tc < l then .dropped else .green, { m with tc := tc })
  | 2 =>
    let te := min ebs (m.te + (m.tc + add - cbs))
    let tc := min cbs (m.tc + add)
    if l ≤ tc then (.green, { m with tc := tc - l, te := te })
    else if l ≤ te then (.yellow, { m with tc := tc, te := te - l })
    else (.red, { m with tc := tc, te := te })
  | _ =>
    let tc := min cbs (m.tc + add)
    let tp := min ebs (m.te + m.field 8 4 * dt * one / 8000000)
    if l ≤ tp then
      (if l ≤ tc then (.green, { m with tc := tc - l, te := tp - l }) else (.yellow, { m with tc := tc, te := tp - l }))
    else (.red, { m with tc := tc, te := tp })

/-- The frame passes the meter (R500). -/
def Meter.passes (m : Meter) (c : Colour) : Bool :=
  match c with
  | .dropped => false
  | .red => !bit (byteAt m.act 0) 2
  | _ => true

/-- Counts a frame by its colour (R499). -/
def Meter.count (m : Meter) (c : Colour) : Meter :=
  match c with
  | .green => { m with green := (m.green + 1) % 2 ^ 32 }
  | .yellow => { m with yellow := (m.yellow + 1) % 2 ^ 32 }
  | .red => { m with red := (m.red + 1) % 2 ^ 32 }
  | .dropped => { m with dropped := (m.dropped + 1) % 2 ^ 32 }

/-- Colour in INFO (R498). -/
def Colour.code : Colour → Nat
  | .green => 0
  | .yellow => 1
  | _ => 2

/-! ### Ports and links (R482 to R487) -/

/-- PORT_CFG in force (R482). -/
def State.portCfg (s : State) (p : Nat) : Word := s.active (10 + p) 0x040

/-- MODE of port p. -/
def State.portMode (s : State) (p : Nat) : Nat := fld (s.portCfg p) 31 30

/-- MAX_FRAME of port p. -/
def State.maxFrame (s : State) (p : Nat) : Nat := fld (s.portCfg p) 13 0

/-- The link of a frame: port and, in SPLIT, lane (R482). -/
def State.linkOf (s : State) (port lane : Nat) : Nat := 4 * port + (if s.portMode port = 3 then lane % 4 else 0)

/-- Link k. -/
def State.link (s : State) (k : Nat) : NetLink := mgetD s.net.links k {}

/-- Changes link k. -/
def State.modLink (s : State) (k : Nat) (f : NetLink → NetLink) : State :=
  { s with net := { s.net with links := mset s.net.links k (f (s.link k)) } }

/-- Port p. -/
def State.port (s : State) (p : Nat) : NetPort := mgetD s.net.ports p {}

/-- Changes port p. -/
def State.modPort (s : State) (p : Nat) (f : NetPort → NetPort) : State :=
  { s with net := { s.net with ports := mset s.net.ports p (f (s.port p)) } }

/-- Counts n frames in RX_DROP[k] of port p. -/
def State.rxDrop (s : State) (p k n : Nat) : State :=
  s.modPort p (fun x => { x with drops := mset x.drops k ((mgetD x.drops k 0 + n) % 2 ^ 32) })

/-- The links that a port has in its mode (R482). -/
def State.portLinks (s : State) (p : Nat) : List Nat :=
  match s.portMode p with
  | 0 => []
  | 3 => [4 * p, 4 * p + 1, 4 * p + 2, 4 * p + 3]
  | _ => [4 * p]

/-- The LINK_DOWN and PFC_XOFF conditions of port p. -/
def State.portConds (s : State) (p : Nat) : State :=
  (s.setCond (10 + p) 0 ((s.portLinks p).any (fun k => !(s.link k).up))).setCond (10 + p) 3
    ((s.portLinks p).any (fun k => !(s.link k).xoff.isEmpty))

/-- The link sends a PFC frame for a priority (R487). -/
def State.sendPfc (s : State) (k prio quanta : Nat) : State := s.emit (.pfc k prio quanta)

/-- XOFF and XON of a link in bytes (R487): a quarter for a lane. -/
def State.xoffAt (s : State) (p : Nat) : Nat × Nat :=
  let c := s.active (10 + p) 0x044
  let d := if s.portMode p = 3 then 4 else 1
  (fld c 15 8 * 4096 / d, fld c 7 0 * 4096 / d)

/-- The receive buffer's count of a priority moves PFC (R487): XOFF above the threshold, quanta 0 at XON or below. -/
def State.pfcCheck (s : State) (p k prio : Nat) : State :=
  let h := (s.link k).held.getD prio 0
  let t := s.xoffAt p
  let on := bit (fld (s.active (10 + p) 0x044) 31 24) prio
  let s1 :=
    if (s.link k).xoff.contains prio then
      (if h ≤ t.2 then (s.modLink k (fun x => { x with xoff := x.xoff.filter (· != prio) })).sendPfc k prio 0 else s)
    else if on ∧ t.1 < h then (s.modLink k (fun x => { x with xoff := x.xoff ++ [prio] })).sendPfc k prio 0xFFFF
    else s
  s1.portConds p

/-- Bytes of the receive buffer that a link may fill: 1 MiB, or 256 KiB for a lane (R482, R487). -/
def State.rxRoom (s : State) (p : Nat) : Nat := if s.portMode p = 3 then 262144 else 1048576

/-- A commit that changes MODE or LANE_FEC and a fault that fences the port, take its links down (R483, R536). -/
def State.retrain (s : State) (port : Nat) : State :=
  let was := (List.range 4).any (fun l => (s.link (4 * port + l)).up)
  let s1 := (List.range 4).foldl (fun t l => t.modLink (4 * port + l) (fun _ => {})) s
  (if was then s1.raiseEvt (10 + port) 1 else s1).portConds port

/-- A link's own part of the machine is in service: the device is READY. -/
def State.netUp (s : State) : Bool := s.boot.state == .ready

end Sys2Proof.Machine
end

