-- ==== Sys2Proof/Machine/FaultOps.lean ====
section
/-!
DEFINITION. Writing fault records, driving ERR_N, and the reactions S0 to S5 (R531 to R543).
-/
namespace Sys2Proof.Machine

/-- The programmed severity of a source, from the active view of SEV_CFG (R532). -/
def State.severity (s : State) (src : Nat) : Nat :=
  let w := s.active 3 (0x040 + 4 * (src / 2))
  if src % 2 = 0 then fld w 2 0 else fld w 18 16

/-- The page whose FAULT_SUMMARY counts a source's records (R532). -/
def summaryPage (src inst : Nat) : Nat :=
  if src < 32 then 3
  else if src < 64 then quadPage ((src - 32) / 8)
  else if src < 96 then corePage inst
  else if src < 192 then dchPage ((src - 96) / 8)
  else if src % 8 = 1 then 12 + (src - 192) / 8
  else 10 + (src - 192) / 8

/-- The unacknowledged records. -/
def FaultUnit.unacked (f : FaultUnit) : List FaultRec := (f.slots.map Prod.snd).filter (fun r => !r.acked)

/-- FAULT_SUMMARY of a page: the source of its oldest unacknowledged record, their count and their highest severity. -/
def State.faultSummary (s : State) (p : Nat) : Option Nat × Nat × Nat :=
  let rs := s.faults.unacked.filter (fun r => summaryPage r.source r.inst == p)
  let oldest := rs.foldl (fun (o : Option FaultRec) r =>
    match o with
    | none => some r
    | some x => if r.seq < x.seq then some r else some x) none
  (oldest.map FaultRec.source, min rs.length 255, rs.foldl (fun m r => max m r.sev) 0)

/-- Of a list of slots, the one whose record is lowest under a strict order; the first on a tie. -/
def leastSlot (lt : FaultRec → FaultRec → Bool) (l : List (Nat × FaultRec)) : Option Nat :=
  (l.foldl (fun (o : Option (Nat × FaultRec)) x =>
    match o with
    | none => some x
    | some y => if lt x.2 y.2 then some x else some y) none).map Prod.fst

/-- The slot of a new record of severity `sev`, and whether taking it loses a record (R534). An empty slot counts as the
lowest REC_SEQ. -/
def FaultUnit.chooseSlot (f : FaultUnit) (sev : Nat) : Option (Nat × Bool) :=
  match (List.range 48).find? (fun i => (mget f.slots i).isNone) with
  | some i => some (i, false)
  | none =>
    match leastSlot (fun a b => a.seq < b.seq) (f.slots.filter (fun x => x.2.acked)) with
    | some i => some (i, false)
    | none =>
      (leastSlot (fun a b => a.sev < b.sev || (a.sev == b.sev && a.seq < b.seq))
        (f.slots.filter (fun x => x.2.sev < sev))).map (fun i => (i, true))

/-- REC_SEQ after n: it wraps past 0 to 1 (R533). -/
def nextRecSeq (n : Nat) : Nat := if n + 1 = 2 ^ 32 then 1 else n + 1

/-- Stores a record under R534, taking the next REC_SEQ whether it is stored or dropped. -/
def State.record (s : State) (r : FaultRec) : State :=
  let f := s.faults
  let r := { r with seq := f.nextSeq, time := s.time.ns }
  match f.chooseSlot r.sev with
  | some (i, lost) =>
    let f' := { f with slots := mset f.slots i r, nextSeq := nextRecSeq f.nextSeq, newestSlot := i,
                       newestSeq := r.seq, lost := if lost then min (f.lost + 1) 65535 else f.lost }
    let s' := { s with faults := f' }
    let s' := if lost then s'.raiseEvt 3 2 else s'
    if 1 ≤ r.sev then s'.raiseEvt 3 0 else s'
  | none =>
    let s' := { s with faults := { f with nextSeq := nextRecSeq f.nextSeq, lost := min (f.lost + 1) 65535 } }
    s'.raiseEvt 3 2

/-- A fault at or above MIN_SEV drives ERR_N low for PULSE_US, extending a running pulse (R535). A pulse never ends before
the end that it had. -/
def State.pulse (s : State) (sev : Nat) : State :=
  let w := s.reg 3 0x400
  if fld w 2 0 ≤ sev then
    { s with faults := { s.faults with
        pulsing := true
        pulseEnd := max (if s.faults.pulsing then s.faults.pulseEnd else 0) (s.time.ns + 1000 * fld w 25 16) } }
  else s

/-! ### Reactions (R536 to R543) -/

/-- The severity that a hit takes: the programmed one, with S2 treated as S1 when no job is attached (R532). -/
def State.hitSeverity (s : State) (h : FaultHit) : Nat :=
  let v := s.severity h.source
  if v = 2 ∧ h.job = none then 1 else v

/-- The page of the unit that a source fences at S3 (R536), or none. -/
def fencePage (src inst : Nat) : Option Nat :=
  if src < 32 then none
  else if src < 64 then
    (if src % 8 = 4 then some (qdmaPage ((src - 32) / 8)) else some (quadPage ((src - 32) / 8)))
  else if src < 96 then some (corePage inst)
  else some (summaryPage src inst)

/-- Fences a page with cause FAULT. -/
def State.fenceFault (s : State) (p : Nat) : State :=
  s.modPage p (fun g => { g.leaves with
    state := if g.state = .frozen then .frozen else .fenced, cause := .fault, draining := false })

/-- A job with an attempt on a core that is lost: entered attempts count one re-placement, queued ones none. -/
def State.loseCore (s : State) (src : Nat) (retry : Bool) (info n : Nat) : State :=
  let c := s.core n
  let s1 := (c.inside ++ c.side).foldl (fun t j => t.refault j src retry info) s
  c.queue.foldl (fun t j => t.requeue j false) s1

/-- LAGGARDS changes. When its last bit clears, the commit is APPLIED everywhere and EPOCH_DONE is raised (R387). -/
def State.setLaggards (s : State) (l : BitVec 48) : State :=
  let s1 := { s with modes := { s.modes with laggards := l } }
  if s.modes.state = .mixed ∧ l = 0 then
    (({ s1 with modes := { s1.modes with state := .applied } }).setCond 6 1 false).raiseEvt 6 0
  else s1

/-- A core drops out of the mode unit's count of laggards (R385). -/
def State.dropLaggard (s : State) (n : Nat) : State := s.setLaggards (s.modes.laggards &&& ~~~ (1#48 <<< n))

/-- The copies of contexts in the slice of quadrant q are gone. -/
def State.dropSlices (s : State) (q : Nat) : State :=
  { s with streams := s.streams.map (fun (y : Nat × Stream) => (y.1, { y.2 with slices := mdel y.2.slices q })) }

/-- The contexts that `p` picks by the core that held them last are lost (R162). -/
def State.loseContexts (s : State) (p : Nat → Nat → Bool) : State :=
  { s with streams := s.streams.map (fun (y : Nat × Stream) =>
      (y.1, match y.2.ctxCore with
        | some n => if p y.1 n then { y.2 with ctxLost := true, ctxCore := none } else y.2
        | none => y.2)) }

/-- Fences core n after a fault (R536): the context in it is lost. -/
def State.fenceCore (s : State) (src : Nat) (retry : Bool) (info n : Nat) : State :=
  (((s.fenceFault (corePage n)).loseCore src retry info n).dropLaggard n).loseContexts
    (fun m k => k == n && (s.core n).lastStream == some m)

/-- A QD channel stops with its engine and its waiting triggers are lost (R536). -/
def State.loseChannel (s : State) (c : Nat) : State :=
  let k := (s.chan c).pendTrig
  let s1 := (s.chanError c 7).modChan c (fun x => { x with pendTrig := 0, trigLost := min (x.trigLost + k) 255 })
  if k = 0 then s1 else s1.chanEvt c 4

/-- What S3 does to the unit of a source (R536). ROUTER_PARITY fences the quadrant's router page with it, so that R194 finds
the home range unreachable (log entry 62). -/
def State.fenceUnit (s : State) (h : FaultHit) : State :=
  let src := h.source
  let retry := ((sourceInfo src).map SourceInfo.retry).getD false
  match fencePage src h.inst with
  | none => s
  | some p =>
    let s1 :=
      if src < 64 then
        let q := (src - 32) / 8
        if src % 8 = 4 then (List.range 16).foldl (fun t g => t.loseChannel (192 + 16 * q + g)) (s.fenceFault p)
        else (((List.range 12).foldl (fun t g => t.fenceCore src retry h.info (12 * q + g))
            (if src % 8 = 2 then (s.fenceFault p).fenceFault (p + 3) else s.fenceFault p)).loseContexts
          (fun _ k => k / 12 == q)).dropSlices q
      else if src < 96 then s.fenceCore src retry h.info h.inst
      else if src < 192 ∧ (src % 8 = 1 ∨ src % 8 = 2) then
        (s.modPage p (fun g => { g.leaves with state := .frozen, cause := .fault, draining := false })).setCond p 2 true
      else if 192 ≤ src then (s.fenceFault p).retrain ((src - 192) / 8)
      else s.fenceFault p
    s1.raiseEvt 3 1

/-- The unit of a source is already fenced, frozen or offline: the record stands alone (R536). A controller's own freeze
is not such a case. -/
def State.unitGone (s : State) (h : FaultHit) : Bool :=
  match fencePage h.source h.inst with
  | none => false
  | some p =>
    match (s.page p).state with
    | .fenced => true
    | .offline => s.boot.state == .ready
    | .frozen => !(decide (96 ≤ h.source) && decide (h.source < 192) && (h.source % 8 == 1 || h.source % 8 == 2))
    | _ => false

/-- Every Caldera queue that holds a packet opened by a core receives a discontinuity (R542). -/
def State.stopQueues (s : State) : State :=
  s.qm.queues.foldl (fun t q =>
    match q.2.opened with
    | some o =>
      match o.who with
      | .core _ => t.discontinuity q.1 true o.pkt.crust.tag []
      | _ => t
    | none => t) s

/-- The device stop (R542): a frame that has closed packets ends with a discontinuity, in its open packet or in one of its
own (R230). Before READY an S4 fault fails the attempt instead (R548). -/
def State.deviceStop (s : State) (src rec : Nat) : State :=
  if s.boot.running then s.failAttempt 0x02 src
  else
    let s1 := { s with faults := { s.faults with stop := .stopped, stopSource := src } }
    let s2 := s1.stopQueues
    let s3 := s2.jobs.foldl (fun t j =>
      if j.2.live then
        ((if 0 < j.2.closedPkts ∧ !s1.holdsOpen j.1 j.2.clq then t.endFrame j.1 j.2 else t).discard j.1).finish j.1 0x41
          (src * 65536 + rec % 65536)
      else t) s2
    (s3.setCond 3 3 true).report .uncorrectableInternal

/-- The sealed state (R543): device memory is lost, THERMTRIP_N follows the source, and nothing acts any more. -/
def State.seal (s : State) (src : Nat) : State :=
  { s.report .uncorrectableInternal with
    faults := { s.faults with stop := .sealed, stopSource := src, pulsing := false }
    power := { s.power with thermtrip := s.power.thermtrip || src == 0 }
    mem := [] }

/-- The REACTION that one hit gets when its own severity is the highest of the event (R533, R536). While the device is
stopped a fault is recorded, and an S5 fault seals it (R542); a unit that is out changes nothing more at S0 to S3 (R536). -/
def State.reactionOf (s : State) (h : FaultHit) (sev : Nat) : Reaction :=
  let job := match h.job with
    | some j => (s.job j).bind (fun x => if x.live then some x else none)
    | none => none
  let retry := ((sourceInfo h.source).map SourceInfo.retry).getD false
  let onJob := match job with
    | none => Reaction.logged
    | some x =>
      if s.retryable x retry && decide (x.replaced < s.devField x.epoch 0) then .jobRetried else .jobFailed
  if sev = 5 then .sealed
  else if s.faults.stop = .stopped then .logged
  else if sev = 4 then .deviceStop
  else if s.unitGone h then .logged
  else if sev = 3 then (if (fencePage h.source h.inst).isSome then .fenced else onJob)
  else if sev = 2 then onJob
  else .logged

/-- The record of a hit (R533). -/
def State.hitRecord (s : State) (h : FaultHit) (sev : Nat) (r : Reaction) : FaultRec :=
  let j := h.job.bind s.job
  { time := s.time.ns, seq := 0, source := h.source, acked := false, sev := sev, inst := h.inst
    stream := (j.bind Job.stream).getD 0xFFFF
    queue := (j.map Job.queue).getD 0xFFFF
    jobSeq := (j.map Job.seq).getD 0 % 65536
    attempt := (j.map Job.attempt).getD 0
    reaction := r, info := h.info }

/-- The effect of a reaction. -/
def State.react (s : State) (h : FaultHit) (r : Reaction) (rec : Nat) : State :=
  let retry := ((sourceInfo h.source).map SourceInfo.retry).getD false
  let onJob := match h.job with
    | some j => s.refault j h.source retry h.info
    | none => s
  match r with
  | .logged => s
  | .jobFailed | .jobRetried => onJob
  | .fenced => onJob.fenceUnit h
  | .deviceStop => s.deviceStop h.source rec
  | .sealed => s.seal h.source

/-- A record of severity S1 of the PCIe interface is one Corrected Internal Error (R101). -/
def State.correctedAer (s : State) (h : FaultHit) : State :=
  if 8 ≤ h.source ∧ h.source ≤ 10 ∧ s.hitSeverity h = 1 then
    s.report .correctedInternal
  else s

/-- One event fires several sources (R536): each writes its record, and the reaction of the highest severity applies, the
first of them on a tie. The other records say LOGGED. -/
def State.fireAll (s : State) (hits : List FaultHit) : State :=
  let hits := hits.filter (fun h => (sourceInfo h.source).isSome)
  let top := hits.foldl (fun (o : Option FaultHit) h =>
    match o with
    | none => some h
    | some x => if s.hitSeverity x < s.hitSeverity h then some h else some x) none
  match top with
  | none => s
  | some t =>
    let r := s.reactionOf t (s.hitSeverity t)
    let s1 := hits.foldl (fun x h => ((x.record (s.hitRecord h (s.hitSeverity h) (if h = t then r else .logged))).pulse
      (s.hitSeverity h)).correctedAer h) s
    s1.react t r ((List.range (hits.idxOf t)).foldl (fun n _ => nextRecSeq n) s.faults.nextSeq)

/-- The faults raised during a command are taken up one event after another, with those that their reactions raise. -/
def settleFaults : Nat → State → State
  | 0, s => s
  | n + 1, s =>
    match s.due with
    | [] => s
    | h :: t =>
      if s.faults.stop = .sealed then { s with due := [] } else settleFaults n (({ s with due := t }).fireAll [h])

/-- Settling at the end of a command's own effect. Each reaction raises at most a few further faults. -/
def State.settle (s : State) : State := settleFaults 64 s

/-- An event inside the part: it happens only while the part is live (R543). -/
def act (s : State) (f : State → State) : Result := .next (if s.live then (f s).settle else s)

/-- The outcome of a command that is a host write to page p. -/
def hostCmd (p : Nat) (s : State) (f : State → State) : Result := .next (hostWrite p s (fun x => (f x).settle))

end Sys2Proof.Machine
end

