-- ==== Sys2Proof/Machine/Operands.lean ====
section
/-!
DEFINITION. The operand forms of Lenong: the extension formats, shapes, guards and the arithmetic of elements and scalars
(R239 to R243).
-/
namespace Sys2Proof.Machine

/-- The E fields of an extension word (R240). -/
def xSh (x : Word) : Nat := fld x 31 26
/-- E: WRAP. -/
def xWrap (x : Word) : Bool := x.getLsbD 25
/-- E: IMMB. -/
def xImmb (x : Word) : Bool := x.getLsbD 24
/-- E: BLK. -/
def xBlk (x : Word) : Bool := x.getLsbD 23
/-- E: the code of BW. -/
def eBw (x : Word) : Nat := fld x 22 20
/-- E: the code of BH. -/
def eBh (x : Word) : Nat := fld x 19 17
/-- E: IMM. -/
def xImm (x : Word) : Int := signed 16 (fld x 15 0)
/-- K, M and W: the code of BW. -/
def kBw (x : Word) : Nat := fld x 31 29
/-- K, M and W: the code of BH. -/
def kBh (x : Word) : Nat := fld x 28 26
/-- K: DIR. -/
def kDir (x : Word) : Bool := x.getLsbD 25
/-- K: NT. -/
def kNt (x : Word) : Nat := fld x 24 22
/-- K: SH. -/
def kSh (x : Word) : Nat := fld x 21 16
/-- K: MODE. -/
def kMode (x : Word) : Nat := fld x 15 13
/-- K: the first table word, TBASE × 4. -/
def kTab (x : Word) : Nat := 4 * fld x 12 0
/-- M: PLANE. -/
def mPlane (x : Word) : Nat := fld x 25 24
/-- M: OX. -/
def mOx (x : Word) : Nat := fld x 23 18
/-- M: OY. -/
def mOy (x : Word) : Nat := fld x 17 12
/-- J: IMM16. -/
def jImm (x : Word) : Nat := fld x 31 16
/-- J: CNT_IMM. -/
def jCnt (x : Word) : Bool := x.getLsbD 15
/-- J: TARGET. -/
def jTarget (x : Word) : Nat := fld x 14 0
/-- W: METRIC. -/
def wMetric (x : Word) : Nat := fld x 25 24
/-- W: DESC. -/
def wDesc (x : Word) : Nat := fld x 11 0

/-- The size that a shape code names; the codes 5 to 7 are illegal (R241). -/
def shapeOf (c : Nat) : Option Nat := if c < 5 then some (4 * 2 ^ c) else none

/-- sat of R243: the 24-bit range. -/
def sat24 (x : Int) : Int := max (-8388608) (min x 8388607)
/-- wrap of R243. -/
def wrap24 (x : Int) : Int := (BitVec.ofInt 24 x).toInt
/-- narrow of R243. -/
def narrow24 (wrap : Bool) (x : Int) : Int := if wrap then wrap24 x else sat24 x
/-- rnd of R243. -/
def rnd (sh : Nat) : Int := if sh = 0 then 0 else 2 ^ (sh - 1)
/-- x >> sh of R243: the floor of the exact quotient. -/
def asr (x : Int) (sh : Nat) : Int := x / 2 ^ sh
/-- sat32 of R243. -/
def sat32 (x : Int) : Int := max (-2147483648) (min x 2147483647)
/-- An element from an exact value that lies in the range. -/
def elem (x : Int) : Elem := BitVec.ofInt 24 x
/-- A scalar from an exact value, modulo 2^32. -/
def word (x : Int) : Word := BitVec.ofInt 32 x

end Sys2Proof.Machine
end

