-- ==== Sys2Proof/Machine/Flags.lean ====
section
/-!
DEFINITION. Conditions, predicates and guards: what Lenong has in place of flags (R242, R246, R247).
-/
namespace Sys2Proof.Machine

/-- A condition of R246 on two values that `w` bits hold: the signed readings, and the unsigned ones for LTU and GEU. -/
def cond (w code : Nat) (a b : Int) : Bool :=
  match code with
  | 0 => a == b
  | 1 => a != b
  | 2 => decide (a < b)
  | 3 => decide (a ≤ b)
  | 4 => decide (b < a)
  | 5 => decide (b ≤ a)
  | 6 => decide (narrow w a < narrow w b)
  | _ => decide (narrow w b ≤ narrow w a)

/-- How VCMP combines its result with the old predicate bit (R246). -/
def combine (code : Nat) (old r : Bool) : Bool :=
  match code with
  | 0 => r
  | 1 => old && r
  | 2 => old || r
  | _ => old && !r

/-- A predicate with every bit set to one value. -/
def allBits (b : Bool) : BitVec 256 := if b then BitVec.allOnes 256 else 0

/-- A predicate from its bits. -/
def packBits (f : Nat → Bool) : BitVec 256 :=
  (List.range 256).foldl (fun v e => if f e then v ||| (1#256 <<< e) else v) 0

/-- The count of set bits. -/
def popCount (p : BitVec 256) : Nat := ((List.range 256).filter (fun e => p.getLsbD e)).length

end Sys2Proof.Machine
end

