-- ==== Sys2Proof/Machine/CoreOps.lean ====
section
/-!
DEFINITION. How a sequencer issues an instruction: registers, guards, program faults, waits and the program counter
(R233 to R244, R268, R273, R358).
-/
namespace Sys2Proof.Machine

/-- What the body of an instruction answers. -/
inductive SeqRes
  /-- It completes; the program goes on to the next instruction. -/
  | done (s : State)
  /-- It completes and sets the program counter itself. -/
  | jump (s : State) (pc : Nat)
  /-- A program fault of this cause (R273). -/
  | bad (cause : Nat)
  /-- It waits. -/
  | hold (k : WaitKind)
  /-- It has done a part of its work and waits to go on. -/
  | pause (s : State) (k : WaitKind)
  /-- It ends the sequencer's part of the job. -/
  | ended (s : State)

/-- Scalar register r of a sequencer; s0 reads 0 (R234). -/
def Seq.sreg (x : Seq) (r : Nat) : Word := if r = 0 then 0 else mgetD x.s r 0
/-- Predicate p of a sequencer; p0 reads all ones (R234). -/
def Seq.preg (x : Seq) (r : Nat) : BitVec 256 := if r = 0 then BitVec.allOnes 256 else mgetD x.p r 0
/-- Element e of vector register v. -/
def Seq.velem (x : Seq) (v e : Nat) : Int := ((mgetD x.v v []).getD e 0).toInt
/-- The guard predicate of an instruction (R242). -/
def Seq.guard (x : Seq) (i : Ins) : BitVec 256 := if i.pn then ~~~ (x.preg i.pg) else x.preg i.pg

/-- Scalar register r as a signed value. -/
def State.sint (s : State) (n q r : Nat) : Int := ((s.seq n q).sreg r).toInt
/-- Writes a scalar register; a write of s0 is discarded (R234). -/
def State.setS (s : State) (n q r : Nat) (w : Word) : State :=
  if r = 0 then s else s.modSeq n q (fun x => { x with s := mset x.s r w })
/-- Writes a predicate; a write of p0 is discarded (R234). -/
def State.setP (s : State) (n q r : Nat) (p : BitVec 256) : State :=
  if r = 0 then s else s.modSeq n q (fun x => { x with p := mset x.p r p })
/-- Writes vector register v: each element whose guard bit is 0 keeps its value (R242). -/
def State.setV (s : State) (n q v : Nat) (g : BitVec 256) (f : Nat → Int) : State :=
  s.modSeq n q (fun x => { x with
    v := mset x.v v ((List.range 256).map (fun e => if g.getLsbD e then elem (f e) else (mgetD x.v v []).getD e 0)) })

/-- Element (x, y) of block register b. -/
def State.belem (s : State) (n b x y : Nat) : Int := (mgetD (s.blk n b).data (64 * y + x) 0).toInt
/-- Writes the top-left w by h elements of block register b (R241). -/
def State.setB (s : State) (n b w h : Nat) (f : Nat → Nat → Int) : State :=
  s.modBlk n b (fun k => { k with
    data := (List.range (w * h)).foldl (fun m e => mset m (64 * (e / w) + e % w) (elem (f (e % w) (e / w)))) k.data })

/-- The core is in service and the sequencer has a job to work on (R233, R273). -/
def State.seqReady (s : State) (n q : Nat) : Bool :=
  let g := s.page (corePage n)
  let x := s.seq n q
  let lim := (if x.graced then fld (s.active (corePage n) 0x044) 23 16 else fld (s.active (corePage n) 0x044) 15 0) * 4096
  decide (n < 48) && decide (q < 6) && (decide (g.state = .idle) || decide (g.state = .running)) && x.job.isSome &&
  !x.stopped && decide (x.steps < lim)

/-- A program fault (R273): the sequencer stops, PROG_FAULT records it, and CORE_ILLEGAL fires on the job. -/
def State.progFault (s : State) (n q cause : Nat) : State :=
  let x := s.seq n q
  let s1 := s.modSeq n q (fun y => { y with stopped := true, wait := .none, waiting := none })
  let s2 := s1.modUnit n (fun u => { u with
    fault := { seq := q, cause := cause, count := min (u.fault.count + 1) 255, pc := x.pc } })
  s2.fault 64 n x.job cause

/-- The program counter after the instruction at `pc`, with the loops that remain (R268): a loop whose last instruction
this is runs its body again or ends, and an enclosing loop may end at the same instruction. -/
def loopNext (pc : Nat) : List LoopRec → Nat × List LoopRec
  | [] => ((pc + 1) % 32768, [])
  | l :: t =>
    if l.last = pc then
      (if 1 < l.left then (l.start, { l with left := l.left - 1 } :: t) else loopNext pc t)
    else ((pc + 1) % 32768, l :: t)

/-- The sequencer goes on to the next instruction. -/
def State.advance (s : State) (n q : Nat) : State :=
  s.modSeq n q (fun x =>
    let r := loopNext x.pc x.loops
    { x with pc := r.1, loops := r.2, wait := .none, waiting := none })

/-- How an instruction meets its guard (R242): bit 0 decides a scalar one, elements decide a vector one, and a block one
takes only p0. -/
inductive GuardForm | scalar | vector | block
  deriving DecidableEq, Repr

/-- One instruction of sequencer q of core n. `ins` names it for a wait, and `sta` and `pil` say where it is allowed. -/
def runSeq (s : State) (n q : Nat) (ins : Instr) (i : Ins) (sta pil : Bool) (form : GuardForm)
    (body : State → SeqRes) : State :=
  if !s.seqReady n q then s
  else
    let g := (s.seq n q).guard i
    let s0 := if (s.seq n q).waiting = some ins then s else s.modSeq n q (fun x => { x with steps := x.steps + 1 })
    if form = .scalar ∧ g.getLsbD 0 = false then s0.advance n q
    else if form = .block ∧ i.pg = 0 ∧ i.pn = true then s0.advance n q
    else if (if q < 5 then !sta else !pil) then s0.progFault n q 3
    else if form = .block ∧ i.pg ≠ 0 then s0.progFault n q 2
    else
      match body s0 with
      | .done t => t.advance n q
      | .jump t pc => t.modSeq n q (fun x => { x with pc := pc % 32768, wait := .none, waiting := none })
      | .bad c => s0.progFault n q c
      | .hold k => s0.modSeq n q (fun x => { x with wait := k, waiting := some ins })
      | .pause t k => t.modSeq n q (fun x => { x with wait := k, waiting := some ins })
      | .ended t => t

/-- Table store word k of core n: the core's own word, or the word that the loaded images put there (R207, R317). -/
def State.tabWord (s : State) (n k : Nat) : Word := (mget (s.unit n).tab k).getD (mgetD s.pers.tables k 0)

/-- Half-word entry e from table word k on: entry 2j in the low half of its word. -/
def State.tabHalf (s : State) (n k e : Nat) : Nat :=
  let w := s.tabWord n (k + e / 2)
  if e % 2 = 0 then fld w 15 0 else fld w 31 16

/-- A signed half-word entry. -/
def State.tabInt (s : State) (n k e : Nat) : Int := signed 16 (s.tabHalf n k e)

/-- A table of this many words from word k lies inside the table store (R258). -/
def tabFits (k words : Nat) : Bool := decide (k + words ≤ 32768)

/-- Checks the ownership of the block registers that an instruction names (R237): none when all are owned, a wait of LOAD,
or a fault. -/
def State.owned (s : State) (n q : Nat) (bs : List Nat) : Option SeqRes :=
  if bs.any (fun b => decide (7 < b)) then some (.bad 2)
  else if bs.all (fun b => (s.blk n b).owner == q) then none
  else if q = 0 then some (.hold .block)
  else some (.bad 7)

/-- A write outside every window of the job (R212): it is dropped, BOUND_BLOCK is raised and CORE_ADDR_BOUND fires. -/
def State.boundBlock (s : State) (n j : Nat) : State := (s.raiseEvt (corePage n) 1).fault 66 n (some j) 0

end Sys2Proof.Machine
end

