-- ==== Sys2Proof/Machine/BinOps.lean ====
section
/-!
DEFINITION. The coders, the bit reader and the bit writer of the bin engine, as functions of the engine alone
(R275 to R301, R306).
-/
namespace Sys2Proof.Machine

/-- Why a syntax word does not complete: a parse error with the CLASS of its descriptor and the engine at the point where it
stops (R306), a syntax fault, or a wait. -/
inductive BinStop
  | parse (cause : Nat) (cls : Option Nat) (b : Bin)
  | syn (cause : Nat)
  | wait
  deriving DecidableEq, Repr

/-- A register; x0 reads 0 (R295). -/
def Bin.x_ (b : Bin) (r : Nat) : Word := if r = 0 then 0 else mgetD b.x r 0
/-- Writes a register; x0 stays 0. -/
def Bin.setX (b : Bin) (r : Nat) (w : Word) : Bin := if r = 0 then b else { b with x := mset b.x r w }

/-! ### The writer (R299 to R301) -/

/-- One byte to the output: the last byte that fits sets WRITER_FULL, and later ones are discarded. -/
def Writer.raw (w : Writer) (v : Byte) : Writer :=
  if w.full then w
  else { w with bytes := w.bytes ++ [v], total := w.total + 1, full := w.cap == some (w.total + 1) }

/-- One byte of the stream: inside a NAL payload, insertion puts 0x03 after two zero bytes (R299). -/
def Writer.byte (w : Writer) (v : Byte) : Writer :=
  if !(w.insertion && w.nal) then w.raw v
  else
    let w1 := if 2 ≤ w.zeros ∧ v.toNat ≤ 3 then { w.raw 3 with zeros := 0 } else w
    { w1.raw v with zeros := if v = 0 then w1.zeros + 1 else 0 }

/-- The byte that eight bits spell, first bit highest. -/
def bitsByte (l : List Bool) : Byte := BitVec.ofNat 8 (l.foldl (fun a b => 2 * a + b2n b) 0)

/-- One bit. -/
def Writer.bit (w : Writer) (v : Bool) : Writer :=
  if w.bits.length = 7 then { w with bits := [] }.byte (bitsByte (w.bits ++ [v])) else { w with bits := w.bits ++ [v] }

/-- Bits in order. -/
def Writer.putBits (w : Writer) (l : List Bool) : Writer := l.foldl Writer.bit w

/-- The n bits of a value, most significant first. -/
def msbBits (n v : Nat) : List Bool := (List.range n).map (fun k => Machine.bit v (n - 1 - k))

/-- Zero bits up to the byte boundary. -/
def Writer.pad (w : Writer) : Writer :=
  if w.bits = [] then w else w.putBits (List.replicate (8 - w.bits.length) false)

/-- Bits written since the job start. -/
def Writer.count (w : Writer) : Nat := 8 * w.total + w.bits.length

/-- Whole bytes, in bit order behind the bits of a byte in progress. -/
def Writer.octets (w : Writer) (l : List Byte) : Writer := l.foldl (fun w v => w.putBits (msbBits 8 v.toNat)) w

/-- Writes bits of the engine. -/
def Bin.put (b : Bin) (l : List Bool) : Bin := { b with writer := b.writer.putBits l }

/-! ### The reader (R298) -/

/-- The data bytes of an input with the input offset of each: removal drops a 0x03 after two 0x00, and a start code ends
the data. -/
def readerBytes (removal : Bool) : Nat → Nat → List Byte → List (Byte × Nat)
  | _, _, [] => []
  | off, z, v :: t =>
    if removal ∧ 2 ≤ z ∧ v = 3 then readerBytes removal (off + 1) 0 t
    else if removal ∧ v = 0 ∧ t.head? = some 0 ∧
        (t.tail.head?.map (fun c => decide (c.toNat ≤ 2))).getD false then []
    else (v, off) :: readerBytes removal (off + 1) (if v = 0 then z + 1 else 0) t

/-- The next bit, if the data has one. -/
def Reader.next (r : Reader) : Option (Bool × Reader) :=
  match r.bytes[r.pos / 8]? with
  | some p => some (p.1.getLsbD (7 - r.pos % 8), { r with pos := r.pos + 1, consumed := r.consumed + 1 })
  | none => none

/-- The next bit; past the data it is a parse error (R298). -/
def Bin.readBit (b : Bin) : Except BinStop (Bool × Bin) :=
  match b.reader.next with
  | some (v, r) => .ok (v, { b with reader := r })
  | none => .error (.parse 5 none b)

/-- The next bit of an MSYM or BOOL segment, 0 past its data (log entry 12). -/
def Bin.readZ (b : Bin) : Bool × Bin :=
  match b.reader.next with
  | some (v, r) => (v, { b with reader := r })
  | none => (false, b)

/-- n bits, most significant first. -/
def Bin.readBits : Nat → Nat → Bin → Except BinStop (Nat × Bin)
  | 0, a, b => .ok (a, b)
  | n + 1, a, b => do
    let (v, b) ← b.readBit
    Bin.readBits n (2 * a + b2n v) b

/-- n bits of an MSYM or BOOL segment. -/
def Bin.readZs : Nat → Nat → Bin → Nat × Bin
  | 0, a, b => (a, b)
  | n + 1, a, b => Bin.readZs n (2 * a + b2n b.readZ.1) b.readZ.2

/-- Skips to the byte boundary (ALIGN). -/
def Bin.alignRead (b : Bin) : Bin :=
  let n := (8 - b.reader.pos % 8) % 8
  { b with reader := { b.reader with pos := b.reader.pos + n, consumed := b.reader.consumed + n } }

/-- The input offset of the next byte, the end offset past the data. -/
def Reader.offset (r : Reader) : Nat := ((r.bytes[r.pos / 8]?).map Prod.snd).getD r.stop

/-! ### The binary arithmetic coder (R279, R286, R287) -/

/-- One resolved bit of the encoder, with the outstanding bits behind it; the first one is not written (ITU-T H.265). -/
def Bin.carry (b : Bin) (c : Coder) (v : Bool) : Bin :=
  let b1 := if c.first then b else b.put [v]
  { b1.put (List.replicate c.outst (!v)) with seg := some { c with first := false, outst := 0 } }

/-- Renormalization while the range is below 256, one doubling for each unit of fuel. -/
def Bin.renormEnc : Nat → Bin → Bin
  | 0, b => b
  | n + 1, b =>
    match b.seg with
    | none => b
    | some c =>
      if 256 ≤ c.r then b
      else
        let b1 :=
          if c.low < 256 then b.carry c false
          else if 512 ≤ c.low then b.carry { c with low := c.low - 512 } true
          else { b with seg := some { c with low := c.low - 256, outst := c.outst + 1 } }
        Bin.renormEnc n { b1 with seg := b1.seg.map (fun d => { d with r := 2 * d.r, low := 2 * d.low }) }

/-- Renormalization of the decoder. -/
def Bin.renormDec : Nat → Bin → Except BinStop (Unit × Bin)
  | 0, b => .ok ((), b)
  | n + 1, b =>
    match b.seg with
    | none => .ok ((), b)
    | some c =>
      if 256 ≤ c.r then .ok ((), b)
      else do
        let (v, b) ← b.readBit
        Bin.renormDec n { b with seg := some { c with r := 2 * c.r, off := 2 * c.off + b2n v } }

/-- A context-coded bin of TABLE6 or DUALRATE with this LPS range and MPS (R279). -/
def Bin.arith (b : Bin) (c : Coder) (rlps : Nat) (mps v : Bool) : Except BinStop (Bool × Bin) :=
  let r := c.r - rlps
  if b.encode then
    let d := if v = mps then { c with r := r } else { c with r := rlps, low := c.low + r }
    .ok (v, Bin.renormEnc 9 { b with seg := some d })
  else
    let lps := decide (r ≤ c.off)
    let d := if lps then { c with r := rlps, off := c.off - r } else { c with r := r }
    do
      let (_, b) ← Bin.renormDec 9 { b with seg := some d }
      .ok (mps != lps, b)

/-- A bypass bin of TABLE6 or DUALRATE (R286). -/
def Bin.arithBypass (b : Bin) (c : Coder) (v : Bool) : Except BinStop (Bool × Bin) :=
  if b.encode then
    let low := 2 * c.low + b2n v * c.r
    .ok (v,
      if 1024 ≤ low then b.carry { c with low := low - 1024 } true
      else if low < 512 then b.carry { c with low := low } false
      else { b with seg := some { c with low := low - 512, outst := c.outst + 1 } })
  else do
    let (n, b) ← b.readBit
    let off := 2 * c.off + b2n n
    if c.r ≤ off then .ok (true, { b with seg := some { c with off := off - c.r } })
    else .ok (false, { b with seg := some { c with off := off } })

/-- The flush after a terminate bin of 1 (R287). -/
def Bin.flushArith (b : Bin) (c : Coder) : Bin :=
  let b1 := Bin.renormEnc 9 { b with seg := some { c with r := 2 } }
  match b1.seg with
  | some d => (b1.carry d (Machine.bit d.low 9)).put (msbBits 2 (bits d.low 8 7 ||| 1))
  | none => b1

/-! ### The multi-symbol and boolean coders (R283 to R286) -/

/-- Renormalization of MSYM and BOOL: the range doubles up to `top`. -/
def Bin.renormWide (top : Nat) : Nat → Bin → Bin
  | 0, b => b
  | n + 1, b =>
    match b.seg with
    | none => b
    | some c =>
      if top ≤ c.r then b
      else if b.encode then
        Bin.renormWide top n { b with seg := some { c with r := 2 * c.r, low := 2 * c.low, shifts := c.shifts + 1 } }
      else
        let v := b.readZ
        Bin.renormWide top n { v.2 with seg := some { c with r := 2 * c.r, off := 2 * c.off + b2n v.1 } }

/-- Entry k of CDF j (R276). -/
def Bin.cdfAt (b : Bin) (j k : Nat) : Nat := mgetD b.cdf (16 * j + k) 0

/-- The split points v(0) to v(n - 2) of a range over thresholds t, and v(n - 1) = 0 (R283). -/
def splits (sp eps r : Nat) (t : List Nat) : List Nat :=
  (t.zipIdx.map (fun p => ((r / 256) * (p.1 / 2 ^ sp)) / 2 ^ (7 - sp) + eps * (t.length - p.2))) ++ [0]

/-- Codes symbol s over thresholds t (R283). -/
def Bin.wide (b : Bin) (c : Coder) (t : List Nat) (s : Nat) : Nat × Bin :=
  let v := splits b.cfg.sp b.cfg.eps c.r t
  let hi := fun k => if k = 0 then c.r else v.getD (k - 1) 0
  let k := if b.encode then s else (v.takeWhile (fun x => decide (c.r - c.off ≤ x))).length
  let k := min k t.length
  let d := { c with
    low := c.low + (c.r - hi k), off := c.off - (c.r - hi k), r := hi k - v.getD k 0 }
  (k, Bin.renormWide 32768 16 { b with seg := some d })

/-- floor_log2 for a positive number below 2^16. -/
def log2Below (n : Nat) : Nat := ((List.range 16).filter (fun k => decide (2 ^ (k + 1) ≤ n))).length

/-- The adaptation of CDF j after symbol s (R284). -/
def Bin.adapt (b : Bin) (j s : Nat) : Bin :=
  let ctl := b.cdfAt j 15
  let n := bits ctl 15 12 + 1
  let count := bits ctl 5 0
  if bit ctl 8 then b
  else
    let rate := bits ctl 11 9 + b2n (decide (15 < count)) + b2n (decide (31 < count)) + min (log2Below n) 2
    let m := (List.range (n - 1)).foldl (fun m k =>
      let t := b.cdfAt j k
      mset m (16 * j + k) (if k < s then t + (32768 - t) / 2 ^ rate else t - t / 2 ^ rate)) b.cdf
    { b with cdf := mset m (16 * j + 15) (if count < 32 then ctl + 1 else ctl) }

/-- One MSYM symbol of CDF j (R283, R284, R291). -/
def Bin.symbol (b : Bin) (c : Coder) (j s : Nat) : Except BinStop (Nat × Bin) :=
  let n := bits (b.cdfAt j 15) 15 12 + 1
  if n = 1 then .error (.syn 0x10)
  else if b.encode ∧ n ≤ s then .error (.syn 0x13)
  else
    let (k, b) := b.wide c ((List.range (n - 1)).map (b.cdfAt j)) s
    .ok (k, b.adapt j k)

/-- A BOOL bin of probability p (R285). -/
def Bin.boolBin (b : Bin) (c : Coder) (p : Nat) (v : Bool) : Bool × Bin :=
  let split := 1 + ((c.r - 1) * p) / 256
  let one := if b.encode then v else decide (split ≤ c.off)
  let d := if one then { c with low := c.low + split, off := c.off - split, r := c.r - split } else { c with r := split }
  (one, Bin.renormWide 128 8 { b with seg := some d })

/-- The bits of the shortest string whose value lies in an interval of `len` bits, and its length (R288). -/
def tailAux (low r len : Nat) : Nat → Nat → Nat × Nat
  | 0, k => (k, low)
  | n + 1, k =>
    let u := 2 ^ (len - k)
    let x := (low + u - 1) / u
    if x * u < low + r then (k, x) else tailAux low r len n (k + 1)

/-- The tail of an MSYM or BOOL segment: its length and value. -/
def Coder.tail (c : Coder) : Nat × Nat :=
  let len := c.shifts + (if c.kernel = 2 then 15 else 8)
  tailAux c.low c.r len len 0

/-- Bits that the open segment would add if it were flushed (R335). -/
def Bin.flushBits (b : Bin) : Nat :=
  match b.seg with
  | none => 0
  | some c =>
    if c.kernel < 2 then (b.flushArith { c with r := c.r - 2, low := c.low + (c.r - 2) }).writer.count - b.writer.count
    else c.tail.1

/-- The count that the rate-control unit latches (R335). -/
def Bin.counted (b : Bin) : Nat := b.writer.count + b.flushBits

/-! ### Contexts (R275, R280, R281) -/

/-- Context i. -/
def Bin.ctxAt (b : Bin) (i : Nat) : Nat := (mgetD b.ctx i 0).toNat

/-- Writes context i. -/
def Bin.setCtx (b : Bin) (i v : Nat) : Bin := { b with ctx := mset b.ctx i (BitVec.ofNat 32 v) }

/-- Entry `e` of a byte table at a table store word, lowest byte first. -/
def tabByte (tab : Nat → Word) (k e : Nat) : Nat := bits (tab (k + e / 4)).toNat (8 * (e % 4) + 7) (8 * (e % 4))

/-- TABLE6: the LPS range and MPS of a context (R280). -/
def table6Range (tab : Nat → Word) (kt w r : Nat) : Nat × Bool := (tabByte tab (kt + bits w 5 0) (r / 64 % 4), bit w 6)

/-- TABLE6: the context after a bin (R280). -/
def table6Next (tab : Nat → Word) (kt w : Nat) (v : Bool) : Nat :=
  let st := bits w 5 0
  let mps := bit w 6
  if v = mps then b2n mps * 64 + tabByte tab (kt + 64) st % 64
  else b2n (if st = 0 then !mps else mps) * 64 + tabByte tab (kt + 80) st % 64

/-- DUALRATE: the LPS range and MPS of a context (R281). -/
def dualRange (w r : Nat) : Nat × Bool :=
  let p := bits w 31 18 + 16 * bits w 17 8
  let mps := decide (16384 ≤ p)
  let plps := if mps then 32767 - p else p
  ((r / 32 * (plps / 512)) / 2 + 4, mps)

/-- DUALRATE: the context after a bin (R281). -/
def dualNext (w : Nat) (v : Bool) : Nat :=
  let go := fun (p n sh : Nat) => if sh = 0 then (p : Int) else (p : Int) + asr ((b2n v * 2 ^ n : Nat) - (p : Int)) sh
  let pb := go (bits w 31 18) 14 (bits w 3 0)
  let pa := go (bits w 17 8) 10 (bits w 7 4)
  narrow 14 pb * 2 ^ 18 + narrow 10 pa * 2 ^ 8 + w % 256

/-- A context-coded bin with context i of the open segment's kernel (R279 to R281, R285). -/
def Bin.ctxBin (tab : Nat → Word) (b : Bin) (c : Coder) (i : Nat) (v : Bool) : Except BinStop (Bool × Bin) :=
  if 8192 ≤ i then .error (.syn 0x11)
  else
    let w := b.ctxAt i
    match c.kernel with
    | 0 => do
      let q := table6Range tab b.cfg.ktBase w c.r
      let (v, b) ← b.arith c q.1 q.2 v
      .ok (v, b.setCtx i (table6Next tab b.cfg.ktBase w v))
    | 1 => do
      let q := dualRange w c.r
      let (v, b) ← b.arith c q.1 q.2 v
      .ok (v, b.setCtx i (dualNext w v))
    | _ =>
      if bit w 8 ∧ 8190 ≤ i then .error (.syn 0x11)
      else
        let (v, b1) := b.boolBin c (max 1 (bits w 7 0)) v
        let k := i + 1 + b2n v
        .ok (v, if bit w 8 then b1.setCtx k (min (b1.ctxAt k + 1) (2 ^ 32 - 1)) else b1)

/-- A bypass bin of the open segment (R286). -/
def Bin.bypass (b : Bin) (c : Coder) (v : Bool) : Except BinStop (Bool × Bin) :=
  if c.kernel < 2 then b.arithBypass c v
  else if c.kernel = 2 then
    let (k, b) := b.wide c [16384] (b2n v)
    .ok (k == 1, b)
  else .ok (b.boolBin c 128 v)

/-- A raw bit outside a segment (R289). -/
def Bin.rawBit (b : Bin) (v : Bool) : Except BinStop (Bool × Bin) := if b.encode then .ok (v, b.put [v]) else b.readBit

/-- A parse error inside an element has the CLASS of its descriptor (R290, R306). -/
def BinStop.ofClass (cls : Nat) : BinStop → BinStop
  | .parse c none b => .parse c (some cls) b
  | .parse c (some k) b => .parse c (some k) b
  | .syn c => .syn c
  | .wait => .wait

/-- Counts a bin against the limit of R306, and a context-coded or bypass bin of a segment in BIN_COUNT (log entry 110). -/
def Bin.countBin (b : Bin) (coded : Bool) : Except BinStop (Unit × Bin) :=
  if !b.encode ∧ b.cfg.maxBins ≤ b.ctuBins then .error (.parse 3 none b)
  else .ok ((), { b with ctuBins := b.ctuBins + 1, bins := (b.bins + b2n coded) % 2 ^ 32 })

end Sys2Proof.Machine
end

