-- ==== Sys2Proof/Machine/BinElem.lean ====
section
/-!
DEFINITION. Element descriptors and binarizations of the bin engine (R290 to R294, R306).
-/
namespace Sys2Proof.Machine

/-- One element descriptor (R290). -/
structure Elt where
  bin : Nat
  kernel : Nat
  sign : Bool
  p1 : Nat
  ctxBase : Nat
  cmax : Nat
  ctxBins : Nat
  ctxLast : Nat
  pol : Bool
  suffix : Nat
  maxBins : Nat
  tableBase : Nat
  cls : Nat
  maxValue : Nat
  deriving DecidableEq, Repr

/-- Descriptor d of a descriptor table (R290). -/
def readElt (tab : Nat → Word) (base d : Nat) : Elt :=
  let w := fun k => (tab (base + 4 * d + k)).toNat
  { bin := bits (w 0) 31 28, kernel := bits (w 0) 27 26, sign := bit (w 0) 24, p1 := bits (w 0) 23 16,
    ctxBase := bits (w 0) 15 0, cmax := bits (w 1) 31 16, ctxBins := bits (w 1) 15 10, ctxLast := bits (w 1) 9 2,
    pol := bit (w 1) 1, suffix := bits (w 2) 31 22,
    maxBins := if bits (w 2) 21 16 = 0 then 64 else bits (w 2) 21 16,
    tableBase := bits (w 2) 15 0, cls := bits (w 3) 31 24, maxValue := bits (w 3) 23 0 }

/-- The bins of one element in progress: its descriptor, the two parameters, and how many bins it has coded. -/
structure EltRun where
  e : Elt
  xa : Nat
  xb : Nat
  extra : Nat
  i : Nat
  deriving DecidableEq, Repr

/-- One bin of an element at context step `step` (R289, R292, R306): raw outside a segment, else context-coded for the
leading bins and bypass after them. -/
def EltRun.bin (u : EltRun) (tab : Nat → Word) (step : Nat) (v : Bool) (b : Bin) :
    Except BinStop ((Bool × EltRun) × Bin) := Except.mapError (BinStop.ofClass u.e.cls) do
  if !b.encode ∧ u.e.maxBins ≤ u.i then .error (.parse 1 none b)
  else
    let (_, b) ← b.countBin b.seg.isSome
    let w := { u with i := u.i + 1 }
    let (v, b) ← match b.seg with
      | none => b.rawBit v
      | some c =>
        if c.kernel ≠ 2 ∧ u.i < u.e.ctxBins then b.ctxBin tab c (u.e.ctxBase + u.xa + min step u.e.ctxLast) v
        else b.bypass c v
    .ok ((v, w), b)

/-- n bins of a value, most significant first. -/
def EltRun.fixed (tab : Nat → Word) (val : Nat) : Nat → Nat → EltRun → Bin → Except BinStop ((Nat × EltRun) × Bin)
  | 0, a, u, b => .ok ((a, u), b)
  | n + 1, a, u, b => do
    let ((v, u), b) ← u.bin tab u.i (bit val n) b
    EltRun.fixed tab val n (2 * a + b2n v) u b

/-- Prefix bins up to the cap, then a terminating bin below it (R291): `want` is the count on encode. -/
def EltRun.unary (tab : Nat → Word) (cap : Option Nat) (want : Nat) :
    Nat → Nat → EltRun → Bin → Except BinStop ((Nat × EltRun) × Bin)
  | 0, k, u, b => .ok ((k, u), b)
  | n + 1, k, u, b =>
    if cap = some k then .ok ((k, u), b)
    else do
      let ((v, u), b) ← u.bin tab u.i (if k < want then !u.e.pol else u.e.pol) b
      if v = !u.e.pol then EltRun.unary tab cap want n (k + 1) u b else .ok ((k, u), b)

/-- The exp-Golomb prefix: the order reached, and what the prefix stands for (R291). -/
def EltRun.golomb (tab : Nat → Word) : Nat → Nat → Nat → Nat → EltRun → Bin →
    Except BinStop ((Nat × Nat × EltRun) × Bin)
  | 0, _, k, acc, u, b => .ok ((k, acc, u), b)
  | n + 1, val, k, acc, u, b => do
    let ((v, u), b) ← u.bin tab u.i (if 2 ^ k ≤ val then !u.e.pol else u.e.pol) b
    if v = !u.e.pol then EltRun.golomb tab n (val - 2 ^ k) (k + 1) (acc + 2 ^ k) u b else .ok ((k, acc, u), b)

/-- The codewords of a TMAP table: value, length and code (R291). -/
def tmapRows (tab : Nat → Word) (e : Elt) : List (Nat × Nat × Nat) :=
  (List.range (e.cmax + 1)).map (fun v =>
    let w := (tab (e.tableBase + v)).toNat
    (v, bits w 31 27, bits w 26 0 % 2 ^ bits w 31 27))

/-- TMAP on encode: the codeword, with its heap position as the context step (R291, R292). -/
def EltRun.tmapEnc (tab : Nat → Word) (code : Nat) : Nat → Nat → EltRun → Bin → Except BinStop (EltRun × Bin)
  | 0, _, u, b => .ok (u, b)
  | n + 1, pos, u, b => do
    let ((v, u), b) ← u.bin tab pos (bit code n) b
    EltRun.tmapEnc tab code n (2 * pos + 1 + b2n v) u b

/-- TMAP on decode: bins until a codeword matches; when none can, or 27 bins match none, the code is invalid (R306). -/
def EltRun.tmapDec (tab : Nat → Word) (rows : List (Nat × Nat × Nat)) : Nat → Nat → Nat → Nat → EltRun → Bin →
    Except BinStop ((Nat × EltRun) × Bin)
  | 0, _, _, _, u, b => .error (.parse 6 (some u.e.cls) b)
  | n + 1, pos, len, code, u, b => do
    let ((v, u), b) ← u.bin tab pos false b
    let code := 2 * code + b2n v
    let len := len + 1
    match rows.find? (fun r => r.2.1 == len && r.2.2 == code) with
    | some r => .ok ((r.1, u), b)
    | none =>
      if rows.any (fun r => decide (len < r.2.1) && r.2.2 / 2 ^ (r.2.1 - len) == code) then
        EltRun.tmapDec tab rows n (2 * pos + 1 + b2n v) len code u b
      else .error (.parse 6 (some u.e.cls) b)

/-- A cap of 0xFFFF is none (R290). -/
def Elt.cap (e : Elt) : Option Nat := if e.cmax = 0xFFFF then none else some e.cmax

/-- Fuel for a unary prefix: its length on encode, the bin limit on decode. -/
def Bin.unaryFuel (b : Bin) (want : Nat) : Nat := if b.encode then want + 1 else 66

/-- What an element codes before its suffix: the value so far, and what the suffix carries with its extra order. -/
structure Part where
  val : Nat
  rest : Option (Nat × Nat)
  deriving DecidableEq, Repr

/-- One element of a descriptor, without its suffix (R291 to R294). `v` is the magnitude on encode. -/
def EltRun.part (u : EltRun) (tab : Nat → Word) (v : Nat) (b : Bin) : Except BinStop (Part × Bin) := do
  let e := u.e
  let has := e.suffix ≠ 0x3FF
  match e.bin with
  | 0 =>
    if e.p1 = 0 ∨ 32 < e.p1 then .error (.syn 0x10)
    else if b.encode ∧ 2 ^ e.p1 ≤ v then .error (.syn 0x13)
    else
      let ((x, _), b) ← EltRun.fixed tab v e.p1 0 u b
      .ok ({ val := x, rest := none }, b)
  | 1 =>
    if b.encode ∧ e.cap.isSome ∧ e.cmax < v ∧ !has then .error (.syn 0x13)
    else
      let want := if e.cap.isSome then min v e.cmax else v
      let ((x, _), b) ← EltRun.unary tab e.cap want (b.unaryFuel want) 0 u b
      .ok ({ val := x, rest := if has ∧ e.cap = some x then some (v - x, 0) else none }, b)
  | 2 =>
    let k := e.p1 + u.extra
    if 31 < e.p1 then .error (.syn 0x10)
    else
      let ((k, acc, u), b) ← EltRun.golomb tab 66 v k 0 u b
      let ((x, _), b) ← EltRun.fixed tab (v - acc) k 0 u b
      .ok ({ val := acc + x, rest := none }, b)
  | 3 =>
    let r := tabByte tab e.tableBase u.xb
    let want := if e.cap.isSome then min (v / 2 ^ r) e.cmax else v / 2 ^ r
    if b.encode ∧ e.cap = some want ∧ !has then .error (.syn 0x13)
    else
      let ((q, u), b) ← EltRun.unary tab e.cap want (b.unaryFuel want) 0 u b
      if e.cap = some q then .ok ({ val := q * 2 ^ r, rest := if has then some (v - q * 2 ^ r, r) else none }, b)
      else
        let ((x, _), b) ← EltRun.fixed tab v r 0 u b
        .ok ({ val := q * 2 ^ r + x, rest := none }, b)
  | 4 =>
    let rows := tmapRows tab e
    if b.encode then
      match rows.find? (fun r => r.1 == v && r.2.1 != 0) with
      | none => .error (.syn 0x13)
      | some r =>
        if 27 < r.2.1 then .error (.syn 0x10)
        else
          let (_, b) ← EltRun.tmapEnc tab r.2.2 r.2.1 0 u b
          .ok ({ val := v, rest := none }, b)
    else
      let ((x, _), b) ← EltRun.tmapDec tab rows 27 0 0 0 u b
      .ok ({ val := x, rest := none }, b)
  | 5 =>
    match b.seg with
    | some c =>
      if c.kernel ≠ 2 then .error (.syn 0x12)
      else if 2048 ≤ e.ctxBase + u.xa then .error (.syn 0x11)
      else
        let (_, b) ← (b.countBin true).mapError (BinStop.ofClass e.cls)
        let (x, b) ← b.symbol c (e.ctxBase + u.xa) v
        .ok ({ val := x, rest := none }, b)
    | none => .error (.syn 0x12)
  | _ => .error (.syn 0x10)

/-- The check of MAX_VALUE and of 2^32 (R290, R294, R306). -/
def Elt.check (e : Elt) (v : Nat) (b : Bin) : Except BinStop Unit :=
  let bad := (e.maxValue ≠ 0xFFFFFF ∧ e.maxValue < v) ∨ 2 ^ 32 ≤ v
  if bad ∧ b.encode then .error (.syn 0x13)
  else if bad then .error (.parse 2 (some e.cls) b)
  else .ok ()

/-- The magnitude of descriptor d with its suffixes, one of them for each unit of fuel (R293). -/
def codeMagnitude (tab : Nat → Word) (xa xb : Nat) : Nat → Nat → Nat → Nat → Bin → Except BinStop (Nat × Bin)
  | 0, _, _, _, _ => .error (.syn 0x10)
  | fuel + 1, d, extra, v, b =>
    if 0x3FE < d ∨ 32768 < b.cfg.descBase + 4 * d + 4 then .error (.syn 0x10)
    else do
      let e := readElt tab b.cfg.descBase d
      match b.seg with
      | some c => if c.kernel ≠ e.kernel then .error (.syn 0x12)
      | none => pure ()
      if b.encode then e.check v b
      let (p, b) ← EltRun.part { e := e, xa := xa, xb := xb, extra := extra, i := 0 } tab v b
      let (total, b) ← match p.rest with
        | none => pure (p.val, b)
        | some r => do
          let (x, b) ← codeMagnitude tab xa xb fuel e.suffix r.2 r.1 b
          pure (p.val + x, b)
      if !b.encode then e.check total b
      .ok (total, b)

/-- One element of descriptor d, with its sign (R290 to R294): the value that the word names, as a 32-bit pattern. -/
def codeElement (tab : Nat → Word) (d xa xb : Nat) (v : Word) (b : Bin) : Except BinStop (Word × Bin) := do
  let e := readElt tab b.cfg.descBase d
  let mag := if e.sign then v.toInt.natAbs else v.toNat
  let (m, b) ← codeMagnitude tab xa xb 1024 d 0 mag b
  if e.sign ∧ m ≠ 0 then
    let (neg, b) ← Except.mapError (BinStop.ofClass e.cls) do
      let (_, b) ← b.countBin b.seg.isSome
      match b.seg with
      | none => b.rawBit v.msb
      | some c => b.bypass c v.msb
    .ok (word (if neg then -(m : Int) else m), b)
  else .ok (BitVec.ofNat 32 m, b)

end Sys2Proof.Machine
end

