-- ==== Sys2Proof/Machine/RateOps.lean ====
section
/-!
DEFINITION. The rate-control unit of a core: its registers, grants, counting and frame close (R332 to R340).
-/
namespace Sys2Proof.Machine

/-- Register k of a frame set as stored. -/
def RcSet.at (r : RcSet) (k : Nat) : Nat := (mgetD r.regs k 0).toNat

/-- The frame set has a budget (R336). -/
def RcSet.budgeted (r : RcSet) : Bool := r.at 0 != 0xFFFFFFFF

/-- BITS latched at the close of CTU k (R335): HDR_BITS plus what was counted. -/
def RcSet.bitsAt (r : RcSet) (k : Nat) : Nat := r.at 2 + r.latched.getD k 0

/-- BITS: HDR_BITS and the latest latched count, or the count at frame close (R333, R340). -/
def RcSet.total (r : RcSet) : Nat := r.at 2 + r.final.getD (r.latched.getLast?.getD 0)

/-- The row adjustment in force for the grant of CTU k (R336). -/
def RcSet.rowDqp (r : RcSet) (k : Nat) : Int :=
  ((r.adjust.filter (fun a => decide (a.1 ≤ k))).getLast?.map Prod.snd).getD 0

/-- The bits that a grant of CTU k uses (R334). -/
def RcSet.seen (r : RcSet) (k : Nat) : Nat := if k < r.at 8 then r.at 2 else r.bitsAt (k - r.at 8)

/-- The grant of CTU k is floor-coded (R337). -/
def RcSet.floors (r : RcSet) (k : Nat) : Bool :=
  r.floorFrom.isSome ||
  (r.budgeted && decide ((r.at 0 : Int) - r.seen k ≤ ((r.at 4 - k) * r.at 6 + r.at 3 + r.at 7 : Nat)))

/-- The QP of CTU k, with the bytes of the two maps (R336, R338). -/
def RcSet.qp (r : RcSet) (k : Nat) (m0 m1 : Int) : Nat :=
  let lim := r.at 10
  if r.floors k then bits lim 15 8
  else
    let q := (r.at 9 : Int) + r.rowDqp k + m0 + m1
    (min (max q (bits lim 7 0 : Nat)) (bits lim 15 8 : Nat)).toNat

/-- Counts one grant (R334, R336, R337). -/
def RcSet.grant (r : RcSet) (k qp : Nat) : RcSet :=
  { r with
    grants := k + 1, qpSum := r.qpSum + qp,
    floorFrom := if r.floorFrom.isSome then r.floorFrom else if r.floors k then some k else none }

/-- The bin engine closes a CTU with this count of writer and coder bits, and the row adjustment follows (R335, R336). -/
def RcSet.closeCtu (r : RcSet) (counted : Nat) : RcSet :=
  let j := r.latched.length
  let r1 := { r with latched := r.latched ++ [counted] }
  let cols := r.at 5
  let total := r.at 4
  let lim := bits (r.at 11) 7 0
  if !r.budgeted ∨ lim = 0 ∨ !(decide (0 < cols) && (decide ((j + 1) % cols = 0) || decide (j + 1 = total))) then r1
  else
    let b : Int := r.at 0
    let hdr : Int := r.at 2
    let plan := hdr + ((b - hdr - (r.at 3 : Int)) * ((j + 1 : Nat) : Int)).tdiv total
    let sz : Int := r1.bitsAt j
    let old := r.rowDqp (r.at 4 + 65536)
    let up := if plan + b.tdiv 32 < sz then min (old + 1) lim else old
    let dn := if sz < plan - b.tdiv 32 ∧ !bit (r.at 11) 8 then max (up - 1) (-(lim : Int)) else up
    if dn = old then r1 else { r1 with adjust := r1.adjust ++ [(j + r.at 8, dn)] }

/-- FRAME_CLOSE ends the count at S bits, moves DEBT and sets OVERSHOOT (R340). -/
def RcSet.close (r : RcSet) (counted : Nat) : RcSet :=
  let size : Int := r.at 2 + counted
  let debt := max (-2147483647) (min ((mgetD r.regs 0x16 0).toInt + size - r.at 1) 2147483647)
  { r with
    final := some counted
    regs := mset r.regs 0x16 (BitVec.ofInt 32 debt), overshoot := r.overshoot || decide ((r.at 0 : Int) < size) }

/-- RC.STATE (R333). -/
def RcSet.stateWord (r : RcSet) : Nat :=
  b2n r.floorFrom.isSome * 2 ^ 31 + b2n (r.overshoot || decide (r.at 0 < r.total)) * 2 ^ 30 +
  narrow 8 (r.rowDqp (r.at 4 + 65536)) * 256 + r.grants % 256

/-- A rate-control register as RCRD reads it, apart from GRANT and FRAME_CLOSE (R333). -/
def RcSet.read (r : RcSet) (k : Nat) : Option Word :=
  if k ≤ 0x0F ∨ k = 0x16 ∨ k = 0x18 then some (mgetD r.regs k 0)
  else
    match k with
    | 0x11 => some (BitVec.ofNat 32 r.stateWord)
    | 0x12 => some (BitVec.ofNat 32 r.total)
    | 0x13 => some (BitVec.ofNat 32 r.latched.length)
    | 0x14 => some (BitVec.ofNat 32 (r.floorFrom.getD 0xFFFFFFFF))
    | 0x15 => some (BitVec.ofNat 32 r.qpSum)
    | _ => none

/-- The index of the frame set that a job holds in core n (R332). -/
def State.ownSet (s : State) (n j : Nat) : Option Nat := [0, 1].find? (fun k => (s.rcSet n k).job == some j)

/-- The tagged address in two neighbouring registers. -/
def RcSet.mapBase (r : RcSet) (lo : Nat) : Nat := r.at (lo + 1) * 2 ^ 32 + r.at lo

/-- The byte of CTU k in a QP map whose registers are `lo` and the next one (R339): 0 for no map, and none when the read
fails. -/
def State.mapByte (s : State) (r : RcSet) (lo k : Nat) (host : Option Byte) : Option Int :=
  let base := r.mapBase lo
  if base = 0 then some 0
  else
    let a := base + k / r.at 5 * r.at 0x18 + k % r.at 5
    ((s.readTagged a 1 (host.map (fun b => [b]))).map (fun l => signed 8 (leNat l)))

end Sys2Proof.Machine
end

