-- ==== Sys2Proof/Machine/BinRun.lean ====
section
/-!
DEFINITION. How the bin engine runs syntax words, and its parse errors, syntax faults and channel endpoints (R208, R209,
R295 to R297, R306 to R309).
-/
namespace Sys2Proof.Machine

/-- The channel map in force for a job: sender and receiver of each channel (R209). -/
def State.chanMap (s : State) (j : Nat) : List (Nat × Nat) :=
  match s.jobImage j with
  | some e => if s.jobEncode j then e.params.chEnc else e.params.chDec
  | none => []

/-- The endpoints of channel c for a job. -/
def State.ends (s : State) (j c : Nat) : Option (Nat × Nat) := (s.chanMap j)[c]?

/-- The endpoint of core n still works on job k: a sequencer, or the bin engine as 6. -/
def State.worksOn (s : State) (n k : Nat) (e : Nat) : Bool :=
  if e < 6 then (s.seq n e).job == some k else (s.unit n).bin.job == some k

/-- The channel has not drained of a job before job j on core n whose map gives it other endpoints (R209): it holds tokens of that
job, or its sender may still send some. A job never waits on one behind it (R214, R218). -/
def State.undrained (s : State) (n c j : Nat) : Bool :=
  let ahead := fun (k : Nat) => k != j && !((s.core n).inside.dropWhile (· != j)).contains k && s.ends k c != s.ends j c
  (s.chq n c).any (fun t => ahead t.job) ||
  (s.core n).inside.any (fun k => ahead k && ((s.ends k c).map (fun e => s.worksOn n k e.1)).getD false)

/-- Channel c of core n takes no further token (R208). -/
def State.chanFull (s : State) (n c : Nat) : Bool := decide (16 ≤ (s.chq n c).length)

/-- Puts a token at the end of a channel. -/
def State.pushToken (s : State) (n c : Nat) (t : Token) : State :=
  s.modUnit n (fun u => { u with chans := mset u.chans c (mgetD u.chans c [] ++ [t]) })

/-- Takes the first token of a channel away. -/
def State.popToken (s : State) (n c : Nat) : State :=
  s.modUnit n (fun u => { u with chans := mset u.chans c (mgetD u.chans c []).tail })

/-- A syntax fault (R309): the program stops, CAUSE latches, and CORE_ILLEGAL fires on the job. -/
def State.synFault (s : State) (n cause : Nat) : State :=
  let b := (s.unit n).bin
  (s.modBin n (fun b => { b with
    running := false, cause := cause, errCount := min (b.errCount + 1) 255, status := cause * 2 ^ 24, waiting := none })).fault
    64 n b.job cause

/-- A parse error (R306 to R308): the segment closes and the latches take it; the program restarts at ERR_ENTRY, or stops
under STRICT and in the error entry itself. A parse error without a descriptor has an open CLASS. -/
def State.parseError (s : State) (n cause : Nat) (cls : Option Nat) : State :=
  let k := cls.getD (Config.freeValue s.free % 256)
  let s1 := if cls.isNone then { s with free := s.free + 1 } else s
  s1.modBin n (fun b =>
    let go := !b.cfg.strict && !b.inError
    let b1 := { b with
      seg := none, cause := cause, cls := k, errCount := min (b.errCount + 1) 255, errPos := b.reader.offset,
      status := cause * 2 ^ 24 + k * 2 ^ 16 + b2n (go || b.inError) * 2, waiting := none, ctuBins := 0, ctuSteps := 0 }
    if go then
      ((({ b1 with inError := true, pc := b.cfg.errEntry }).setX 1 (BitVec.ofNat 32 cause)).setX 2 (BitVec.ofNat 32 k))
    else { b1 with running := false })

/-- The bin engine of core n works on a program in a core that is in service (R295). -/
def State.binReady (s : State) (n : Nat) : Bool :=
  let g := s.page (corePage n)
  decide (n < 48) && (decide (g.state = .idle) || decide (g.state = .running)) && (s.unit n).bin.job.isSome &&
  (s.unit n).bin.running

/-- OUT_MODE of a job (R129); a device-side job writes to a pool buffer (R497). -/
def Job.outMode (x : Job) : Nat := if x.device then 1 else x.at 22 1

/-- Room in the areas that the writer may fill in all: a pool output may continue in a second buffer (R140). -/
def State.outCap (s : State) (x : Job) (staging : Bool) : Option Nat :=
  if staging then
    match x.staging with
    | h :: _ => some (2 * 2 ^ s.poolLog2 (handlePool h.2))
    | [] => none
  else
    match x.outMode with
    | 0 => some (x.at 32 4)
    | 2 => none
    | _ => (x.bufs.head?).map (fun h => 2 * 2 ^ s.poolLog2 (handlePool h))

/-- The engine with the room that its job's output now has. -/
def State.capped (s : State) (b : Bin) : Bin :=
  { b with writer := { b.writer with cap := (b.job.bind s.job).bind (fun x => s.outCap x b.writer.staging) } }

/-- What the word's body answers: the state and engine after it, and where it jumps. -/
abbrev WordEnd := Except BinStop (State × Bin × Option Nat)

/-- One syntax word of core n. `fits` says that its fields are in range, `codes` that it codes or reads bits, which the
error entry may not do (R296, R306, R307). -/
def runWord (s : State) (n : Nat) (ins : Instr) (fits codes : Bool) (body : State → Bin → WordEnd) : State :=
  if !s.binReady n then s
  else
    let b := (s.unit n).bin
    let again := b.waiting = some ins
    if !again ∧ !b.encode ∧ b.cfg.maxSteps ≤ b.ctuSteps then s.parseError n 4 none
    else
      let s0 := if again then s else s.modBin n (fun b => { b with ctuSteps := b.ctuSteps + 1 })
      if !fits then s0.synFault n 0x10
      else if codes ∧ b.inError then s0.synFault n 0x12
      else
        match body s0 (s0.capped (s0.unit n).bin) with
        | .ok (t, b, pc) => t.modBin n (fun _ => { b with pc := pc.getD ((b.pc + 1) % 32768), waiting := none })
        | .error (.syn c) => s0.synFault n c
        | .error (.parse c cls b) => (s0.modBin n (fun _ => b)).parseError n c cls
        | .error .wait => s0.modBin n (fun b => { b with waiting := some ins })

/-- A word on the engine alone that goes on to the next word. -/
def plainWord (s : State) (n : Nat) (ins : Instr) (fits codes : Bool) (f : Bin → Except BinStop Bin) : Result :=
  act s fun s => runWord s n ins fits codes fun s b => (f b).map (fun b => (s, b, none))

/-- A word that goes on to `some` target or to the next word. -/
def jumpWord (s : State) (n : Nat) (ins : Instr) (fits : Bool) (f : Bin → Except BinStop (Bin × Option Nat)) : Result :=
  act s fun s => runWord s n ins fits false fun s b => (f b).map (fun r => (s, r.1, r.2))

/-- sext(IMM) (R296). -/
def sext (w : SynWord) : Word := word (signed 15 w.imm)

/-- The fields that a word does not use read 0 (R296). -/
def fields (w : SynWord) (d a b imm : Bool) : Bool :=
  (d || w.d == 0) && (a || w.a == 0) && (b || w.b == 0) && (imm || w.imm == 0)

end Sys2Proof.Machine
end

