-- ==== Sys2Proof/Machine/Caldera.lean ====
section
/-!
DEFINITION. The commands of the queue manager and the producers' and consumers' packet events (R424 to R435).
-/
namespace Sys2Proof.Machine

/-- The checks of ENABLE (R425): every field of bytes 0 to 15 in range, both ends bound. -/
def ClqCfg.ok (c : ClqCfg) : Bool :=
  decide (1 ≤ c.limit) && decide (c.limit ≤ 262144) && decide (1 ≤ c.producer) && decide (c.producer ≤ 5) &&
  decide (c.flags ≤ 1) && decide (1 ≤ c.fullWait) && decide (c.fullWait ≤ 255) && c.rsv == 0 &&
  (match c.consumer with
   | 1 => decide (c.consumerId < 4096)
   | 2 => decide (c.consumerId < 1024)
   | 3 => decide (c.consumerId < 64)
   | _ => false)

/-- CLQ_ENABLE (R425). -/
def execClqEnable (q : Nat) (s : State) : Result :=
  hostCmd 8 s fun s =>
    let q := q % 4096
    let c := s.clq q
    if c.enabled then s.accessBad 8
    else if c.cfg.ok then s.modClq q (fun c => { c with enabled := true, dropped := 0 })
    else s.reject 8 1 0

/-- CLQ_DISABLE (R425): only an empty queue without an open packet or a pending flush. -/
def execClqDisable (q : Nat) (s : State) : Result :=
  hostCmd 8 s fun s =>
    let q := q % 4096
    let c := s.clq q
    if c.enabled ∧ c.cells = 0 ∧ c.opened = none ∧ !c.flushPending then s.modClq q (fun c => { c with enabled := false })
    else s.accessBad 8

/-- CLQ_FLUSH (R425, R433): the flush point is the consumer's next packet boundary, at once while it reads nothing. -/
def execClqFlush (q : Nat) (s : State) : Result :=
  hostCmd 8 s fun s =>
    let q := q % 4096
    if (s.clq q).enabled then (s.modClq q (fun c => { c with flushPending := true })).flushPoint q
    else s.accessBad 8

/-- The packet of a producer that never waits is lost to queue q: DROPPED counts it, and a depacketized unit also counts in
its flow's drop counter (R39, R428). -/
def State.lose (s : State) (q : Nat) (who : Producer) : State :=
  match who with
  | .depack i => (s.countDrop q).modFlow i (fun f => { f with dropped := (f.dropped + 1) % 2 ^ 32 })
  | _ => s.countDrop q

/-- A refused cell abandons the packet of a producer that never waits (R428). -/
def State.dropStalled (s : State) (q : Nat) : State :=
  match (s.clq q).opened with
  | some o =>
    match o.who with
    | .core _ | .qdma _ => s
    | _ => if o.waitFrom.isSome then (s.abandon q).lose q o.who else s
  | none => s

/-- The BUFREF of a first packet makes the egress port an owner of the buffer (R444). -/
def State.bufrefOwner (s : State) (q : Nat) (p : Packet) : State :=
  let h := bufrefHandle p
  if p.crust.typ = .bufref ∧ s.handleOk h then
    s.setOwner (handlePool h) (handleIndex h) ((s.owner (handlePool h) (handleIndex h)).add (.egress (s.clqPort q)))
  else s

/-- The packet that closes: a depacketized unit takes the flow's count N (R38), with its low 16 bits as TAG (R428). -/
def State.stamped (s : State) (q : Nat) (o : OpenPkt) : Packet :=
  match o.who with
  | .depack _ =>
    let n := (s.depack q).count
    { o.pkt with unit := n, crust := { o.pkt.crust with tag := n % 65536 } }
  | _ => o.pkt

/-- What a closed packet means to its producer: a core counts it, a QD channel has ended its descriptor's write, and a
depacketized unit is delivered. -/
def State.packetClosed (s : State) (q : Nat) (who : Producer) : State :=
  match who with
  | .depack i => (s.modDepack q (fun d => { d with count := d.count + 1 })).modFlow i
      (fun f => { f with delivered := (f.delivered + 1) % 2 ^ 32 })
  | .core j => s.modJob j (fun y => { y with closedPkts := y.closedPkts + 1, opened := false })
  | .qdma m => s.modChan (192 + m) (fun x => { x with wr := x.total, waitCell := false })
  | _ => s

/-- Closes the open packet when its producer has asked for it and every byte has its cell (R429). -/
def State.closeIfDone (s : State) (q : Nat) : State :=
  match (s.clq q).opened with
  | some o =>
    if o.closing ∧ o.left = [] then
      let s1 := (s.clearOpen q).linkPacket q (s.stamped q o)
      (((s1.bufrefOwner q o.pkt).packetClosed q o.who).notice q State.trigger).cellEvents
    else s
  | none => s

/-- The open packet takes the cells it is granted, and closes or is dropped as its producer's kind says. -/
def State.pump (s : State) (q : Nat) : State :=
  let n := match (s.clq q).opened with
    | some o => o.left.length
    | none => 0
  ((s.fillCells q (fillFuel n)).dropStalled q).closeIfDone q

/-- Puts an open at the end of those that wait for the queue or for a cell (R426, R428). -/
def State.waitOpen (s : State) (q : Nat) (o : OpenPkt) : State :=
  s.modClq q (fun c => { c with waiting := c.waiting ++ [{ o with waitFrom := some (o.waitFrom.getD s.time.ns) }] })

/-- A core's job has an open packet in its queue. -/
def State.markOpen (s : State) (who : Producer) : State :=
  match who with
  | .core j => s.modJob j (fun y => { y with opened := true })
  | _ => s

/-- Reserves the crust of a packet that nothing holds back (R426, R427). -/
def State.reserve (s : State) (q : Nat) (o : OpenPkt) : State :=
  let open' := fun (t : State) (hold : Bool) =>
    ((t.modClq q (fun c => { c with opened := some { o with pkt := { o.pkt with hold := hold }, waitFrom := none } })).markOpen
      o.who).pump q
  if s.grants q then open' s false
  else if o.pkt.crust.typ = .discont then
    (if 0 < s.holdFree then open' (s.raiseEvt 8 3) true else s.waitOpen q o)
  else
    match o.who with
    | .core _ => s.waitOpen q o
    | .qdma m => (s.waitOpen q o).modChan (192 + m) (fun x => { x with waitCell := true })
    | _ => s.lose q o.who

/-- An open that the queue's binding allows: it waits behind an open packet or earlier opens, or reserves at once (R426). -/
def State.openTry (s : State) (q : Nat) (o : OpenPkt) : State :=
  if (s.clq q).opened.isSome ∨ (s.clq q).waiting ≠ [] then s.waitOpen q o else s.reserve q o

/-- Lets the opens that wait for the queue try again, oldest first. -/
def State.retryOpens (s : State) (q : Nat) : Nat → State
  | 0 => s
  | n + 1 =>
    match (s.clq q).opened, (s.clq q).waiting with
    | none, o :: t =>
      let s1 := (s.modClq q (fun c => { c with waiting := t })).reserve q o
      if (s1.clq q).waiting.length ≤ t.length then s1.retryOpens q n else s1
    | _, _ => s

/-- PACKET_OPEN (R426 to R428): a producer reserves a crust and gives its first payload bytes. -/
def execPacketOpen (who : Producer) (q : Nat) (c : Crust) (bytes : List Byte) (times : Option (Nat × Nat)) (s : State) :
    Result :=
  act s fun s =>
    let q := q % 4096
    let o : OpenPkt := { who := who, pkt := { crust := c, times := times }, left := bytes }
    if !(s.clq q).enabled ∨ (s.clq q).cfg.producer ≠ producerKind who then
      match who with
      | .core j => s.failFinal j 0x50 0x07
      | .qdma m => s.chanError (192 + m) 6
      | _ => if (s.clq q).enabled then s.lose q who else s
    else s.openTry q o

/-- CELL_GRANT (R427): a cell has freed; the queue's open packet and its waiting opens take what they are granted. -/
def execCellGrant (q : Nat) (s : State) : Result :=
  act s fun s =>
    let q := q % 4096
    (s.pump q).retryOpens q (s.clq q).waiting.length

/-- PACKET_CLOSE (R429): the producer gives its last bytes; the packet becomes visible once they are in cells. -/
def execPacketClose (who : Producer) (q : Nat) (bytes : List Byte) (s : State) : Result :=
  act s fun s =>
    let q := q % 4096
    match (s.clq q).opened with
    | some o =>
      if o.who = who then
        let s1 := (s.modClq q (fun c => { c with
          opened := some { o with left := o.left ++ bytes, closing := true } })).pump q
        s1.retryOpens q (s1.clq q).waiting.length
      else s
    | none => s

/-- SILENT_ABANDON (R429): the producer's packet disappears with its cells. -/
def execSilentAbandon (who : Producer) (q : Nat) (s : State) : Result :=
  act s fun s =>
    let q := q % 4096
    match (s.clq q).opened with
    | some o =>
      if o.who = who then
        let s1 := s.abandon q
        let s2 := match who with
          | .core j => s1.modJob j (fun y => { y with opened := false })
          | .depack _ | .slowpath _ _ => s1.lose q who
          | _ => s1
        s2.retryOpens q (s2.clq q).waiting.length
      else s
    | none => s

/-- DISCONTINUITY (R429): the producer's packet ends as DISCONT, or one is opened and closed. -/
def execDiscontinuity (who : Producer) (q tag : Nat) (s : State) : Result :=
  act s fun s =>
    let q := q % 4096
    if !(s.clq q).enabled ∨ (s.clq q).cfg.producer ≠ producerKind who then s
    else
      let mine := match (s.clq q).opened with
        | some o => o.who == who
        | none => false
      let frees := match who with
        | .core j => ((s.job j).map Job.bufs).getD []
        | _ => []
      if !mine ∧ (s.clq q).opened.isSome then
        s.waitOpen q { who := who, pkt := { crust := discontCrust tag, frees := frees }, closing := true }
      else if !mine ∧ !s.grants q ∧ s.holdFree = 0 then
        s.waitOpen q { who := who, pkt := { crust := discontCrust tag, frees := frees }, closing := true }
      else
        let s1 := s.discontinuity q mine tag frees
        let s2 := match who with
          | .core j => s1.modJob j (fun y => { y with opened := false, closedPkts := y.closedPkts + 1 })
          | _ => s1
        s2.retryOpens q (s2.clq q).waiting.length

/-- CLQ_READ (R430, R431): the consumer reads the next n bytes of its packet, or the wafer. -/
def execClqRead (q n : Nat) (s : State) : Result :=
  act s fun s => s.readClq (q % 4096) n

/-- FULL_WAIT_EXPIRY (R428): a core has waited FULL_WAIT for a cell; its frame fails with OUT_OVERFLOW. -/
def execFullWaitExpiry (q : Nat) (s : State) : Result :=
  act s fun s =>
    let q := q % 4096
    let c := s.clq q
    let due := fun (o : OpenPkt) => o.waitFrom.isSome
    let first := match c.opened with
      | some o => if due o then some (o, true) else none
      | none => none
    match first.orElse (fun _ => (c.waiting.find? due).map (fun o => (o, false))) with
    | some (o, isOpen) =>
      match o.who with
      | .core j =>
        let s1 := if isOpen then s else s.modClq q (fun c => { c with waiting := c.waiting.filter (· != o) })
        (s1.modJob j (fun y => { y with opened := true })).failFinal j 0x30 0x020000
      | _ => s
    | none => s

end Sys2Proof.Machine
end

