-- ==== Sys2Proof/Machine/OutOps.lean ====
section
/-!
DEFINITION. The output of a job: its areas, the bytes that reach them and the packets of its Caldera queue (R129, R140,
R224, R229, R299, R302, R428).
-/
namespace Sys2Proof.Machine

/-- The areas of buffers: address and size of each. -/
def State.bufAreas (s : State) (hs : List Nat) : List (Nat × Nat) :=
  hs.map (fun h => (s.bufAddr (handlePool h) (handleIndex h), 2 ^ s.poolLog2 (handlePool h)))

/-- Where the output goes: OUT_ADDR, or the pool buffers in order (R129, R140). -/
def State.areas (s : State) (x : Job) : List (Nat × Nat) :=
  if x.outMode = 0 then [(x.at 24 8, x.at 32 4)] else s.bufAreas x.bufs

/-- Cuts bytes at output offset `off` over areas: the pieces with their addresses, and what no area holds. -/
def splitInto : List (Nat × Nat) → Nat → List Byte → List (Nat × List Byte) × List Byte
  | [], _, l => ([], l)
  | (a, z) :: t, off, l =>
    if z ≤ off then splitInto t (off - z) l
    else
      let r := splitInto t 0 (l.drop (z - off))
      (if l = [] then r.1 else (a + off, l.take (z - off)) :: r.1, r.2)

/-- An output of `n` more bytes needs a second pool buffer that the job does not have (R140). -/
def State.needsSecond (s : State) (x : Job) (n : Nat) : Bool :=
  (x.outMode == 1 || x.outMode == 3) && x.bufs.length == 1 &&
  decide (((s.bufAreas x.bufs).map Prod.snd).sum < x.outBytes + n)

/-- Writes pieces of a job: a refused one ends the job with ERR_MEMORY (R32, R397). -/
def State.writePieces (s : State) (j : Nat) (x : Job) (l : List (Nat × List Byte)) : State :=
  match l.find? (fun p => !s.writeTagOk p.1 p.2.length) with
  | none => l.foldl (fun t p => t.writeTagged p.1 p.2) s
  | some p => s.memFail j x (badPoint s.writeOk (devOf p.1) p.2.length)

/-- Appends bytes to the output of a job (R136, R140): what exceeds its areas is dropped and marks OUT_OVERFLOW. -/
def State.outWrite (s : State) (j : Nat) (bytes : List Byte) : State :=
  match s.job j with
  | none => s
  | some x =>
    if x.outMode = 2 then s.modJob j (fun y => { y with outBytes := y.outBytes + bytes.length })
    else
      let r := splitInto (s.areas x) x.outBytes bytes
      (s.modJob j (fun y => { y with
        outBytes := y.outBytes + (bytes.length - r.2.length), overflow := y.overflow || r.2 != [] })).writePieces j x r.1

/-- Bytes of the job would have to go to host memory, which the device may not reach now (R103). -/
def State.unreachable (s : State) (l : List (Nat × Nat)) : Bool := !s.hostReach && l.any (fun a => !isDev a.1)

/-- The job has a packet open or waiting in its queue. -/
def State.packetHeld (s : State) (j : Nat) (x : Job) : Bool :=
  s.holdsOpen j x.clq || (s.clq x.clq).waiting.any (fun o => o.who == .core j)

/-- Bytes of the job may not reach its Caldera queue yet: an earlier frame of the stream in coding order has not retired
(O3). -/
def State.outHeld (s : State) (x : Job) : Bool :=
  decide (2 ≤ x.outMode) && (match x.stream with
    | some n => s.earlierCoding n x.coding
    | none => false)

/-- Gives one closed packet to the job's Caldera queue (R229, R428). -/
def State.sendPacket (s : State) (j : Nat) (typ : PktType) (lastRef auEnd : Bool) (bytes : List Byte) : State :=
  match s.job j with
  | none => s
  | some x =>
    let q := x.clq % 4096
    if !(s.clq q).enabled ∨ (s.clq q).cfg.producer ≠ 1 then s.failFinal j 0x50 0x07
    else
      let c : Crust := { typ := typ, lastRef := lastRef, key := x.keyPic, auEnd := auEnd, tag := x.coding % 65536,
                         auStart := x.closedPkts == 0 && !s.packetHeld j x }
      s.openTry q { who := .core j, pkt := { crust := c }, left := bytes, closing := true }

/-- The BUFREF payload of a range of a buffer (R422). -/
def bufref (h off len : Nat) : List Byte := leBytes 4 h ++ leBytes 4 off ++ leBytes 4 len ++ leBytes 4 0

/-- One output unit (R302): bytes of the output, and under CLQ and POOL_AND_CLQ one packet for each run of them, the last
one carrying AU_END when `last`. -/
def State.outUnit (s : State) (j : Nat) (bytes : List Byte) (last : Bool) : State :=
  match s.job j with
  | none => s
  | some x =>
    let s1 := s.outWrite j bytes
    match x.outMode with
    | 2 => if bytes = [] then s1 else s1.sendPacket j .data false last bytes
    | 3 =>
      let cut := (splitInto (s.areas x) x.outBytes bytes).1
      (cut.zipIdx).foldl (fun t p =>
        let a := p.1.1
        match x.bufs.find? (fun h => let b := s.bufAddr (handlePool h) (handleIndex h); decide (b ≤ a) &&
            decide (a < b + 2 ^ s.poolLog2 (handlePool h))) with
        | some h =>
          let b := s.bufAddr (handlePool h) (handleIndex h)
          let done := decide (a + p.1.2.length = b + 2 ^ s.poolLog2 (handlePool h))
          let fin := last && p.2 + 1 == cut.length
          t.sendPacket j .bufref (fin || done) fin (bufref h (a - b) p.1.2.length)
        | none => t) s1
    | _ => s1

/-- The unit that closes now holds the last CTU of the frame (R229): the rate-control unit has counted all of them. -/
def State.lastUnit (s : State) (n j : Nat) : Bool :=
  match s.ownSet n j with
  | some k => let r := s.rcSet n k; decide (0 < r.at 4) && decide (r.at 4 ≤ r.latched.length)
  | none => false

/-- The staging buffers of tile i of a frame, at most two (R224). -/
def Job.stageBufs (x : Job) (i : Nat) : List Nat := (x.staging.filter (fun h => h.1 == i)).map Prod.snd

/-- The staging areas of the tile of core n (R224). -/
def State.stageAreas (s : State) (x : Job) (n : Nat) : List (Nat × Nat) := s.bufAreas (x.stageBufs (x.cores.idxOf n))

/-- The tile for which a running frame of several tiles takes its next staging buffer (R224): the first tile without one, then one
whose pilot waits at JOB_END for its second. -/
def State.stageFor (s : State) (x : Job) : Option Nat :=
  let l := List.range x.cores.length
  match l.find? (fun i => x.stageBufs i == []) with
  | some i => some i
  | none => l.find? (fun i => (x.stageBufs i).length == 1 && (s.seq (x.cores.getD i 0) 5).wait == .staging)

/-- The bytes that the engine's writer holds since the last close, out of it. -/
def State.takeBytes (s : State) (n : Nat) : State × List Byte :=
  (s.modBin n (fun b => { b with writer := { b.writer with bytes := [] } }), (s.unit n).bin.writer.bytes)

/-! ### The windows of a job (R211, R212) -/

/-- The windows of job x with a range of their own: output, staging, slot, context, and the destination of a COPY or FILL. -/
def State.windows (s : State) (x : Job) : List (Nat × Nat) :=
  s.areas x ++ s.bufAreas (x.staging.map Prod.snd) ++
  (match x.stream with
  | some n =>
    let st := s.stream n
    (2 ^ 63 + st.blockBase, 524288) ::
      (match x.slot with
      | some k => [(2 ^ 63 + st.slotAddr k, st.slotBytes)]
      | none => [])
  | none => []) ++
  (if x.opcode = 0x30 ∨ x.opcode = 0x31 then [(x.at 16 8, x.at 24 4)] else [])

/-- An access of n bytes at a tagged address lies in a window of job j. The areas of the slice of the job's quadrant are those that
an open value names (log entry 109). -/
def State.inWindows (s : State) (j : Nat) (x : Job) (t n : Nat) : Bool :=
  (s.windows x).any (fun w => decide (w.1 ≤ t) && decide (t + n ≤ w.1 + w.2)) ||
  (isDev t && sliceAddr (devOf t) && decide ((devOf t - 0xE000000000) / 0x2000000 = x.core / 12) &&
    (List.range n).all (fun i => Config.sliceArea j (devOf t + i)))

end Sys2Proof.Machine
end

