-- ==== Sys2Proof/Machine/Surfaces.lean ====
section
/-!
DEFINITION. The surfaces that stage sequencers read and write: pool slots, the source frame and the lookahead copy, with
their waits (R163, R164, R166, R212, R216, R226, R248 to R254).
-/
namespace Sys2Proof.Machine

/-- What a surface code names (R248). -/
inductive Surf
  | slot (k : Nat) (own : Bool)
  | source
  | lookahead
  deriving DecidableEq, Repr

/-- The job and the stream number of a sequencer. -/
def State.seqJob (s : State) (n q : Nat) : Option (Nat × Job × Nat) :=
  match (s.seq n q).job with
  | some j =>
    match s.job j with
    | some x => x.stream.map (fun k => (j, x, k))
    | none => none
  | none => none

/-- The surface of a code: a slot below POOL_SLOTS, SOURCE, LOOKAHEAD, or OWN where the job keeps a picture (R248). -/
def State.surf (s : State) (x : Job) (st : Nat) (code : Word) : Option Surf :=
  let c := code.toNat
  if c = 0x20 then some .source
  else if c = 0x21 then some .lookahead
  else if c = 0x22 then x.slot.map (fun k => .slot k true)
  else if c ≤ 0x10 ∧ c < (s.stream st).poolSlots then some (.slot c (x.slot == some c))
  else none

/-- FILTER_MARGIN of the job's image (R216). -/
def State.margin (s : State) (j : Nat) : Nat :=
  match s.jobImage j with
  | some e => if s.jobEncode j then e.params.marginEnc else e.params.marginDec
  | none => 0

/-- The picture in the slot is complete (R170). -/
def Slot.complete (k : Slot) : Bool := !k.coding && !k.failed

/-- The wait of R216 is over for luma rows up to b of a slot: ROWS_DONE covers them, or the picture is complete. -/
def Slot.covers (k : Slot) (b : Int) (margin : Nat) : Bool :=
  let need := (max 0 (min (b + margin) ((k.height : Int) - 1))).toNat
  k.complete || decide (need / 16 + 1 ≤ k.rowsDone)

/-- Rows to b of the source are announced (R226): its completion at acceptance under NONE, the row word under ROW_WORD. A row
word whose address memory refuses ends the wait: the access fails (R32). -/
def State.sourceReady (s : State) (x : Job) (st : Stream) (b : Int) : Bool :=
  if st.field 45 = 0 then true
  else if !s.readRun (devOf (st.field 47)) 8 then true
  else
    let w := leNat (s.devBytes (devOf (st.field 47)) 8)
    let frame := w / 2 ^ 32
    let rows : Int := (w % 65536 : Nat)
    let idx := x.display % 2 ^ 32
    let ahead := (frame + 2 ^ 32 - idx) % 2 ^ 32
    (frame == idx && decide (b < rows)) || (decide (1 ≤ ahead) && decide (ahead < 2 ^ 31))

/-- The tagged address of byte o of the source, through the fragments (R135). -/
def Job.srcByte (x : Job) (o : Nat) : Option Nat :=
  if x.indirect then
    (x.frags.foldl (fun (a : Nat × Option Nat) f =>
      if a.2.isSome then a
      else if o < a.1 + f.2 then (a.1, some (f.1 + (o - a.1)))
      else (a.1 + f.2, none)) (0, none)).2
  else some (x.at 8 8 + o)

/-- The source lies in device memory, so that the model reads it itself. -/
def Job.srcDevice (x : Job) : Bool := if x.indirect then x.frags.all (fun f => isDev f.1) else isDev (x.at 8 8)

/-- n bytes of the source as a number. `host` holds the bytes of host memory that the command reads, by host address. -/
def State.srcNat (s : State) (x : Job) (host : List Host.Cell) (o n : Nat) : Nat :=
  leNat ((List.range n).flatMap (fun i =>
    match x.srcByte (o + i) with
    | some t => if isDev t then s.devBytes (devOf t) 1 else [mgetD host t 0]
    | none => [0]))

/-- The byte offset of a stored source sample: component 0 luma, 1 Cb, 2 Cr, at its own plane's coordinates (R163). -/
def Job.srcOff (x : Job) (f : Fmt) (w h comp px py : Nat) : Nat :=
  let pitch := x.at 16 4
  if f.t24 then
    let tb := if f.depth = 8 then 1024 else 1536
    let g : Geom := { base := 0, w := w, h := h, chroma := f.chroma, depth := f.depth, packed := false }
    let pl := if comp = 0 then 0 else 1
    (if pl = 0 then 0 else g.planeTiles 0 * tb) +
      t24Off tb (g.planeW pl) (if comp = 0 then px else 2 * px + (comp - 1)) py
  else
    let hh := if f.chroma = 1 then roundUp h 2 else h
    if comp = 0 then pitch * py + f.bytes * px else pitch * hh + pitch * py + f.bytes * (2 * px + (comp - 1))

/-- One stored source sample: component 0 luma, 1 Cb, 2 Cr, at its own plane's coordinates (R163). -/
def State.srcStored (s : State) (x : Job) (host : List Host.Cell) (f : Fmt) (w h comp px py : Nat) : Nat :=
  let o := x.srcOff f w h comp px py
  if f.t24 then
    if f.depth = 8 then s.srcNat x host o 1
    else
      let v := s.srcNat x host o 3
      if (if comp = 0 then px else 2 * px + (comp - 1)) % 2 = 0 then bits v 11 0 else bits v 23 12
  else s.srcNat x host o f.bytes / 2 ^ f.shift

/-- Bytes of one stored source sample, with those that share its word (R163). -/
def Fmt.span (f : Fmt) : Nat := if f.t24 then (if f.depth = 8 then 1 else 3) else f.bytes

/-- A source sample in the stream's format (R164). -/
def State.srcSample (s : State) (x : Job) (host : List Host.Cell) (st : Stream) (comp px py : Nat) : Nat :=
  match fmtOf (x.at 20 1) with
  | none => 0
  | some f =>
    let w := st.field 0
    let h := st.field 1
    let v := if comp ≠ 0 ∧ f.chroma = 2 ∧ st.field 2 = 1 then
        (s.srcStored x host f w h comp px (2 * py) + s.srcStored x host f w h comp px (2 * py + 1) + 1) / 2
      else s.srcStored x host f w h comp px py
    toDepth v f.depth (st.field 3)

/-- Width and height of a plane in samples of that plane. -/
def planeSize (w h chroma pl : Nat) : Nat × Nat :=
  if pl = 0 then (w, h) else (ceilDiv w (chromaDiv chroma).1, ceilDiv h (chromaDiv chroma).2)

/-- A coordinate clamped to the picture (R212, R249). -/
def clampTo (v : Int) (size : Nat) : Nat := (max 0 (min v ((size : Int) - 1))).toNat

/-- Sample (px, py) of a plane of a slot, luma 0, Cb 1 and Cr 2. -/
def State.slotSample (s : State) (st : Stream) (k pl px py : Nat) : Nat :=
  let g := st.slotGeom k
  if pl = 0 then g.sample s.mem 0 px py else g.sample s.mem 1 (2 * px + (pl - 1)) py

/-- The source comes through the ladder scaler: a lower rendition of another size than the top (R327, R331). What the image's
scaler computes is not the spec's. -/
def State.scaled (s : State) (x : Job) (st : Stream) : Bool :=
  match x.parent.bind s.job with
  | some p =>
    match p.stream with
    | some t => (s.stream t).field 0 != st.field 0 || (s.stream t).field 1 != st.field 1
    | none => false
  | none => false

/-- The samples of a surface at a block position, clamped to the picture (R249). A lookahead copy that no pass made and a chroma
plane that the format lacks are open (log entry 10); the bytes of a host source come with the command. -/
def State.surfSample (s : State) (x : Job) (stn : Nat) (f : Surf) (pl : Nat) (host : List Host.Cell) (ox oy : Int)
    (dx dy : Nat) : Nat :=
  let st := s.stream stn
  let d := st.field 3
  let free := Config.freeValue (s.free + 64 * dy + dx) % 2 ^ d
  if pl ≠ 0 ∧ st.field 2 = 0 then free
  else
    match f with
    | .lookahead =>
      let z := planeSize st.copySize.1 st.copySize.2 1 pl
      match mget st.passes x.display with
      | some p =>
        let at' := if pl = 0 then 0 else st.copySize.1 * st.copySize.2 + (pl - 1) * (z.1 * z.2)
        ((p.copy[at' + clampTo (oy + dy) z.2 * z.1 + clampTo (ox + dx) z.1]?).map BitVec.toNat).getD free
      | none => free
    | .source =>
      let z := planeSize (st.field 0) (st.field 1) (st.field 2) pl
      if s.scaled x st then free
      else s.srcSample x host st pl (clampTo (ox + dx) z.1) (clampTo (oy + dy) z.2)
    | .slot k _ =>
      let g := st.slotGeom k
      let z := planeSize g.w g.h g.chroma pl
      s.slotSample st k pl (clampTo (ox + dx) z.1) (clampTo (oy + dy) z.2)

/-- The tagged addresses of the bytes that a sample of a surface is read from. -/
def State.surfBytes (s : State) (x : Job) (stn : Nat) (f : Surf) (pl px py : Nat) : List Nat :=
  let st := s.stream stn
  match f with
  | .lookahead => []
  | .source =>
    match fmtOf (x.at 20 1) with
    | some m =>
      let ys := if pl ≠ 0 ∧ m.chroma = 2 ∧ st.field 2 = 1 then [2 * py, 2 * py + 1] else [py]
      ys.flatMap (fun y =>
        let o := x.srcOff m (st.field 0) (st.field 1) pl px y
        (List.range m.span).filterMap (fun k => x.srcByte (o + k)))
    | none => []
  | .slot k _ =>
    let g := st.slotGeom k
    let pt := if pl = 0 then 0 else 1
    let a := g.base + g.planeOff pt + t24Off g.tileBytes (g.planeW pt) (if pl = 0 then px else 2 * px + (pl - 1)) py
    (List.range (if g.tileBytes = 1024 then 1 else 3)).map (fun k => 2 ^ 63 + a + k)

/-- The row word of a sub-frame source, where memory refuses its address (R32, R226). -/
def State.rowWordBad (s : State) (stn : Nat) (f : Surf) : Option Nat :=
  let st := s.stream stn
  if f = .source ∧ st.field 45 ≠ 0 ∧ !s.readRun (devOf (st.field 47)) 8 then some (st.field 47) else none

/-- The samples of a block, clamped to the picture (R249). -/
def State.blockAt (s : State) (stn : Nat) (f : Surf) (pl : Nat) (ox oy : Int) (w h : Nat) : List (Nat × Nat) :=
  let st := s.stream stn
  let z := match f with
    | .slot k _ => let g := st.slotGeom k; planeSize g.w g.h g.chroma pl
    | _ => planeSize (st.field 0) (st.field 1) (st.field 2) pl
  (List.range (w * h)).map (fun (e : Nat) => (clampTo (ox + (e % w : Nat)) z.1, clampTo (oy + (e / w : Nat)) z.2))

/-- The first tagged address of a block at which the access fails: device memory refuses it (R32, R397), or host memory did not
answer with that byte (R100). -/
def State.surfBad (s : State) (x : Job) (stn : Nat) (f : Surf) (ok : Nat → Bool) (host : List Host.Cell) (pl : Nat)
    (ox oy : Int) (w h : Nat) : Option Nat :=
  (s.rowWordBad stn f).orElse fun _ =>
    ((s.blockAt stn f pl ox oy w h).flatMap (fun c => s.surfBytes x stn f pl c.1 c.2)).find? (fun t =>
      if isDev t then !ok (devOf t) else (mget host t).isNone)

/-- The tile headers that a read of the block meets pass their CHECK (R168). -/
def State.surfHeaders (s : State) (stn : Nat) (f : Surf) (pl : Nat) (ox oy : Int) (w h : Nat) : Bool :=
  match f with
  | .slot k _ =>
    let g := (s.stream stn).slotGeom k
    !g.packed || (s.blockAt stn f pl ox oy w h).all (fun c =>
      headerCheck (g.tileHeader s.mem (if pl = 0 then 0 else 1) (if pl = 0 then c.1 else 2 * c.1 + (pl - 1)) c.2))
  | _ => true

/-- The top rendition of job x's ladder, where x is a lower one (R329). -/
def State.topOf (s : State) (x : Job) : Option Job :=
  match x.parent with
  | some p =>
    match s.job (p + 1) with
    | some t => if t.stream = x.stream then none else some t
    | none => none
  | none => none

/-- A lower rendition that reads source rows up to `row` waits for the co-located rows of the top's own motion field, under R216 with
FILTER_MARGIN 0, while the top is not final (R329, R331; log entry 55). -/
def State.topHeld (s : State) (x : Job) (st : Stream) (row : Int) : Bool :=
  match s.topOf x with
  | some top =>
    top.live &&
      match top.slot, top.stream with
      | some k, some m =>
        let y := mgetD (s.stream m).slots k {}
        !y.covers (row * (y.height : Int) / (max 1 (st.field 1) : Nat)) 0
      | _, _ => !top.framed
  | none => false

/-- The wait that a read of rows up to b of a plane meets (R216, R226, R249, R252). -/
def State.surfWait (s : State) (j : Nat) (x : Job) (stn : Nat) (f : Surf) (pl : Nat) (b : Int) (margin : Nat) :
    Option WaitKind :=
  let st := s.stream stn
  let sub := if pl = 0 then 1 else (chromaDiv (st.field 2)).2
  let row := if pl = 0 then b else b * sub + (sub - 1)
  match f with
  | .lookahead => none
  | .source =>
    if !s.sourceReady x st row then some .source
    else if s.topHeld x st row then some .scoreboard
    else if !x.srcDevice ∧ !s.hostReach then some .memory
    else none
  | .slot k own =>
    if own then none
    else if (mgetD st.slots k {}).covers row (if margin = 0 then 0 else s.margin j) then none
    else some .scoreboard

/-- What keeps a block's read from completing: a wait, a refused address, or a tile header whose CHECK fails. -/
inductive ReadStop
  | wait (k : WaitKind)
  | refused (t : Nat)
  | header
  deriving DecidableEq, Repr

/-- What a read of a block of W by H samples meets, if anything (R32, R100, R168, R216, R226, R249). -/
def State.blockStop (s : State) (j : Nat) (x : Job) (stn : Nat) (f : Surf) (host : List Host.Cell) (pl : Nat) (ox oy : Int)
    (w h : Nat) : Option ReadStop :=
  match s.surfWait j x stn f pl (oy + h - 1) 1 with
  | some k => some (.wait k)
  | none =>
    match s.surfBad x stn f s.readOk host pl ox oy w h with
    | some t => some (.refused t)
    | none => if s.surfHeaders stn f pl ox oy w h then none else some .header

/-- A job's access to a tagged address fails: in device memory (R32, R397) or in host memory (R100). -/
def State.accessFail (s : State) (j : Nat) (x : Job) (t : Nat) : State :=
  if isDev t then s.memFail j x (devOf t) else s.hostFail j x

/-- How a sequencer of core n takes it; a failed CHECK is an uncorrectable memory error of the job (R168). -/
def State.stopRes (s : State) (n j : Nat) (x : Job) : ReadStop → SeqRes
  | .wait k => .hold k
  | .refused t => .done (s.accessFail j x t)
  | .header => .done (s.fault 75 n (some j) 0)

/-- LOAD records a read of another picture, and its taint reaches the own one (R368); a lower rendition that reads its source has
read the top's motion field for those rows (R331). -/
def State.noteRead (s : State) (j : Nat) (x : Job) (stn : Nat) (f : Surf) : State :=
  match f with
  | .slot k false =>
    let st := s.stream stn
    let s1 := s.modJob j (fun y => { y with reads := if y.reads.contains k then y.reads else k :: y.reads })
    if (mgetD st.slots k {}).taint then
      match x.slot with
      | some o => s1.modStream stn (fun t => { t with slots := mupd t.slots o (fun y => { y with taint := true }) })
      | none => s1
    else s1
  | .source => if x.parent.isSome then s.modJob j (fun y => { y with seeded := true }) else s
  | .slot _ true | .lookahead => s

/-- Writes one 12-bit slot or byte of a tile (R163). -/
def Geom.put (g : Geom) (m : List Host.Cell) (pl x y v : Nat) : List Host.Cell :=
  let a := g.base + g.planeOff pl + t24Off g.tileBytes (g.planeW pl) x y
  if g.tileBytes = 1024 then memPut m a (BitVec.ofNat 8 v)
  else
    let old := memNat m a 3
    let z := v * 2 ^ (12 - g.depth) % 4096
    memPutAll m a (leBytes 3 (if x % 2 = 0 then old / 4096 * 4096 + z else z * 4096 + old % 4096))

/-- The header of a tile that holds its samples uncompressed (R167; log entry 11). -/
def Geom.rawHeader (g : Geom) : List Byte :=
  let l := leBytes 2 0 ++ leBytes 2 (g.tileBytes / 32) ++ List.replicate 26 0
  l ++ leBytes 2 (crc16 l)

/-- Writes one sample of a stored picture, and the RAW header of its tile where the slot carries headers (R250). -/
def Geom.store (g : Geom) (m : List Host.Cell) (pl x y v : Nat) : List Host.Cell :=
  let m1 := g.put m pl x y v
  if !g.packed then m1
  else
    let t := (y / 16) * ceilDiv (g.planeW pl) 64 + x / 64
    memPutAll m1 (g.base + g.headerOff + 32 * ((if pl = 0 then 0 else g.planeTiles 0) + t)) g.rawHeader

/-- Fills the tile samples past the picture's edge from the nearest edge sample (R163, R250). -/
def Geom.replicate (g : Geom) (m : List Host.Cell) (pl : Nat) : List Host.Cell :=
  let w := g.planeW pl
  let h := g.planeH pl
  (List.range (roundUp h 16)).foldl (fun m y =>
    (List.range (roundUp w 64)).foldl (fun m x =>
      if x < w ∧ y < h then m
      else g.put m pl x y (g.unslot m (g.base + g.planeOff pl + t24Off g.tileBytes w (min x (w - 1)) (min y (h - 1))) (min x (w - 1)))) m) m

/-- The motion field entry of the 16 by 16 block that holds luma sample (px, py), after the planes and the tile headers
(R166, R254). -/
def Geom.motionAddr (g : Geom) (px py : Nat) : Nat :=
  let tiles := g.planeTiles 0 + g.planeTiles 1
  g.base + tiles * g.tileBytes + (if g.packed then 32 * tiles else 0) + 16 * (py / 16 * ceilDiv g.w 16 + px / 16)

/-- The side-data area of a slot, after the motion field (R166). -/
def Geom.sideAddr (g : Geom) : Nat :=
  let tiles := g.planeTiles 0 + g.planeTiles 1
  g.base + tiles * g.tileBytes + (if g.packed then 32 * tiles else 0) + 16 * (ceilDiv g.w 16 * ceilDiv g.h 16)

end Sys2Proof.Machine
end

