-- ==== Sys2Proof/Machine/Bectl.lean ====
section
/-!
DEFINITION. BECTL: how the pilot controls the bin engine (R282, R298, R299, R302 to R305, R310).
-/
namespace Sys2Proof.Machine

/-- ARG of a BECTL instruction, IMM32[23:0] (R303). IMM32[31:24] is the code of the row. -/
def barg (i : Ins) : Nat := fld i.x 23 0

/-- sA and sB of the pilot. -/
def State.bopA (s : State) (n : Nat) (i : Ins) : Nat := ((s.seq n 5).sreg i.a).toNat
/-- sB of the pilot. -/
def State.bopB (s : State) (n : Nat) (i : Ins) : Nat := ((s.seq n 5).sreg i.b).toNat

/-- A syntax fault that a BECTL operation raises (R303, R309). -/
def badOp (s : State) (n cause : Nat) : SeqRes := .done (s.synFault n cause)

/-- One BECTL operation of the pilot of core n on job j (R303, R304): it waits for the engine to reach the job, and, unless
it `mayRun`, until no program runs. -/
def bectl (s : State) (n q : Nat) (ins : Instr) (i : Ins) (mayRun : Bool) (body : State → Nat → Job → SeqRes) : Result :=
  act s fun s => runSeq s n q ins i false true .scalar fun s =>
    let b := (s.unit n).bin
    match b.job with
    | some j =>
      if (s.seq n q).job ≠ some j then .hold .busy
      else if b.running ∧ !mayRun then .hold .busy
      else
        match s.job j with
        | some x => body s j x
        | none => .hold .busy
    | none => .hold .busy

/-- BECTL_CONFIG (R305): a parse limit above the job's device value is clamped to it. -/
def execBectlConfig (n q : Nat) (i : Ins) (s : State) : Result :=
  bectl s n q (.bectlConfig n q i) i false fun s _ _ =>
    let v := s.bopA n i
    let put := fun (ok : Bool) (f : BinConfig → BinConfig) =>
      if ok then .done (s.modBin n (fun b => { b with cfg := f b.cfg })) else badOp s n 0x17
    match bits (barg i) 7 0 with
    | 0 => put (decide (v < 32768)) (fun c => { c with descBase := v })
    | 1 => put (decide (v ≤ 32671)) (fun c => { c with ktBase := v })
    | 2 => put (decide (v < 32768)) (fun c => { c with errEntry := v })
    | 3 => put (decide (1 ≤ v) && decide (v < 2 ^ 24)) (fun c => { c with maxBins := min v c.devBins })
    | 4 => put (decide (1 ≤ v) && decide (v < 2 ^ 24)) (fun c => { c with maxSteps := min v c.devSteps })
    | 5 => put (decide (v < 128)) (fun c => { c with sp := bits v 6 4, eps := bits v 3 0 })
    | 6 => put (decide (v < 2)) (fun c => { c with strict := v == 1 })
    | _ => badOp s n 0x17

/-- clip of R282. -/
def clip (lo hi v : Int) : Int := max lo (min v hi)

/-- The context word that an init word gives (R282). -/
def initCtx (kernel qp w : Nat) : Nat :=
  let m := signed 8 (bits w 31 24)
  let k := signed 8 (bits w 23 16)
  match kernel with
  | 0 =>
    let pre := (clip 1 126 (asr (m * clip 0 51 qp) 4 + k)).toNat
    if pre ≤ 63 then 63 - pre else 64 + (pre - 64)
  | 1 =>
    let pre := (clip 1 127 (asr (m * (clip 0 63 qp - 16)) 1 + k)).toNat
    pre * 2 ^ 7 * 2 ^ 18 + pre * 8 * 2 ^ 8 + bits w 11 8 * 16 + bits w 3 0
  | _ => bits w 8 0

/-- CTX_INIT (R282). -/
def execCtxInit (n q : Nat) (i : Ins) (s : State) : Result :=
  bectl s n q (.ctxInit n q i) i false fun s _ _ =>
    let a := s.bopA n i
    let v := s.bopB n i
    let count := bits a 29 16
    let first := bits a 12 0
    let kernel := barg i % 4
    if count = 0 ∨ 8192 < count ∨ kernel = 2 ∨ 32768 < bits v 30 16 + count then badOp s n 0x17
    else if 8192 < first + count then badOp s n 0x11
    else .done (s.modBin n (fun b => (List.range count).foldl (fun b k =>
      let w := (s.tabWord n (bits v 30 16 + k)).toNat
      let c := initCtx kernel (bits v 7 0) w
      let b1 := b.setCtx (first + k) c
      if kernel = 3 ∧ bit c 8 ∧ first + k + 2 < 8192 then (b1.setCtx (first + k + 1) 0).setCtx (first + k + 2) 0 else b1) b))

/-- CDF_INIT (R303): eight table words for each CDF. -/
def execCdfInit (n q : Nat) (i : Ins) (s : State) : Result :=
  bectl s n q (.cdfInit n q i) i false fun s _ _ =>
    let a := s.bopA n i
    let count := bits a 27 16
    let first := bits a 10 0
    let base := bits (s.bopB n i) 14 0
    if count = 0 ∨ 2048 < count ∨ bits a 31 28 ≠ 0 ∨ bits a 15 11 ≠ 0 ∨ 32768 < base + 8 * count then badOp s n 0x17
    else if 2048 < first + count then badOp s n 0x11
    else .done (s.modBin n (fun b => { b with
      cdf := (List.range (16 * count)).foldl (fun m k => mset m (16 * first + k) (s.tabHalf n base k)) b.cdf }))

/-- The picture of a slot lets a state load go on (R220, R310). -/
def Slot.entropyReady (k : Slot) : Bool := k.entropyEnd || k.complete || k.failed

/-- The engine of core n has posted the entropy end of its part of job j; with the last tile of the frame the picture's is posted
(R220, R310). -/
def State.postEntropy (s : State) (j : Nat) (x : Job) (n : Nat) : State :=
  let s1 := s.modJob j (fun y => { y with engines := n :: y.engines })
  match x.stream, x.slot with
  | some stn, some k =>
    if x.cores.all (fun m => m == n || x.engines.contains m) then
      s1.modStream stn (fun t => { t with slots := mupd t.slots k (fun y => { y with entropyEnd := true }) })
    else s1
  | _, _ => s1

/-- A move between the engine and the side data of a slot (R310): `size` bytes an entry, `get` and `put` the entries. -/
def moveState (s : State) (n j : Nat) (x : Job) (i : Ins) (limit size count first : Nat) (get : Bin → Nat → List Byte)
    (put : Nat → List Byte → Bin → Bin) : SeqRes :=
  let off := s.bopB n i
  let slot := bits (barg i) 20 16
  match x.stream with
  | none => badOp s n 0x17
  | some stn =>
    let st := s.stream stn
    let a := (st.slotGeom slot).sideAddr + off
    if count = 0 ∨ limit < count ∨ off % 4 ≠ 0 ∨ 65536 < off + size * count ∨ st.poolSlots ≤ slot then badOp s n 0x17
    else if limit < first + count then badOp s n 0x11
    else if bit (barg i) 23 then
      if x.slot ≠ some slot ∧ !(mgetD st.slots slot {}).entropyReady then .hold .entropy
      else .done (s.modBin n (fun b => (List.range count).foldl (fun b k =>
        put (first + k) (memGetAll s.mem (a + size * k) size) b) b))
    else if x.slot ≠ some slot ∨ (mgetD st.slots slot {}).entropyEnd then badOp s n 0x17
    else
      let bs := (List.range count).flatMap (fun k => get (s.unit n).bin (first + k))
      let s1 := s.writePieces j x [(2 ^ 63 + a, bs)]
      .done (if bit (barg i) 22 then s1.postEntropy j x n else s1)

/-- CTX_MOVE (R310). -/
def execCtxMove (n q : Nat) (i : Ins) (s : State) : Result :=
  bectl s n q (.ctxMove n q i) i false fun s j x =>
    let a := s.bopA n i
    moveState s n j x i 8192 4 (bits a 29 16) (bits a 12 0) (fun b k => leBytes 4 (b.ctxAt k))
      (fun k l b => b.setCtx k (leNat l))

/-- CDF_MOVE (R310): CDFs of 32 bytes. -/
def execCdfMove (n q : Nat) (i : Ins) (s : State) : Result :=
  bectl s n q (.cdfMove n q i) i false fun s j x =>
    let a := s.bopA n i
    moveState s n j x i 2048 32 (bits a 27 16) (bits a 10 0)
      (fun b k => (List.range 16).flatMap (fun e => leBytes 2 (b.cdfAt k e)))
      (fun k l b => { b with cdf := (List.range 16).foldl (fun m e => mset m (16 * k + e) (leNat ((l.drop (2 * e)).take 2))) b.cdf })

/-- The length of a decode job's input: IN_LEN, or the fragments (R129, R135). -/
def Job.inLen (x : Job) : Nat := if x.device then x.input.length else if x.indirect then (x.frags.map Prod.snd).sum else x.at 16 4

/-- READER_SET (R298): the reader takes the input bytes from sA to sB. `host` are those bytes where the input is in host
memory. -/
def execReaderSet (n q : Nat) (i : Ins) (host : Option (List Byte)) (s : State) : Result :=
  bectl s n q (.readerSet n q i host) i false fun s j x =>
    let a := s.bopA n i
    let e := s.bopB n i
    if (s.unit n).bin.encode ∨ e < a ∨ x.inLen < e then badOp s n 0x17
    else
      let got := if x.device then some ((x.input.drop a).take (e - a))
        else if x.srcDevice then
          (if x.indirect ∨ s.readRun (devOf (x.at 8 8) + a) (e - a) then
            some ((List.range (e - a)).map (fun k => BitVec.ofNat 8 (s.srcNat x [] (a + k) 1))) else none)
        else host.map (fun l => (l ++ List.replicate (e - a) 0).take (e - a))
      match got with
      | some l =>
        let rm := bit (barg i) 0
        .done (s.modBin n (fun b => { b with
          reader := { bytes := readerBytes rm a 0 l, input := l, start := a, stop := e, 
                      consumed := b.reader.consumed } }))
      | none => .done (s.failFinal j 0x42 x.refused)

/-- WRITER_SET (R299). -/
def execWriterSet (n q : Nat) (i : Ins) (s : State) : Result :=
  bectl s n q (.writerSet n q i) i false fun s _ _ =>
    .done (s.modBin n (fun b => { b with
      writer := { b.writer with staging := bit (barg i) 1, insertion := bit (barg i) 0 } }))

/-- BECTL_RUN (R295): a program starts at sA with x1 = sB. -/
def execBectlRun (n q : Nat) (i : Ins) (s : State) : Result :=
  bectl s n q (.bectlRun n q i) i false fun s _ _ =>
    if 32768 ≤ s.bopA n i then badOp s n 0x17
    else .done (s.modBin n (fun b =>
      { b with running := true, inError := false, status := 0, pc := s.bopA n i }.setX 1 (BitVec.ofNat 32 (s.bopB n i))))

/-- BECTL_WAIT (R304). -/
def execBectlWait (n q : Nat) (i : Ins) (s : State) : Result :=
  bectl s n q (.bectlWait n q i) i true fun s _ _ =>
    let b := (s.unit n).bin
    if b.running then .hold .busy else .done (s.setS n q i.d (BitVec.ofNat 32 b.status))

/-- BECTL_STATUS (R303). -/
def execBectlStatus (n q : Nat) (i : Ins) (s : State) : Result :=
  bectl s n q (.bectlStatus n q i) i true fun s _ _ => .done (s.setS n q i.d (BitVec.ofNat 32 (s.unit n).bin.status))

/-- BECTL_POS (R303). -/
def execBectlPos (n q : Nat) (i : Ins) (s : State) : Result :=
  bectl s n q (.bectlPos n q i) i true fun s _ _ =>
    let b := (s.unit n).bin
    .done (s.setS n q i.d (BitVec.ofNat 32 (if bit (barg i) 0 then b.writer.count else b.reader.consumed)))

/-- The offset behind the next start code 0x00 0x00 0x01 from an offset on (R303; log entry 13). -/
def nextStart : Nat → List Byte → Option Nat
  | off, a :: b :: c :: t => if a = 0 ∧ b = 0 ∧ c = 1 then some (off + 3) else nextStart (off + 1) (b :: c :: t)
  | _, _ => none

/-- FIND_SYNC (R303): the unit that starts next after the reader position, or -1. -/
def execFindSync (n q : Nat) (i : Ins) (s : State) : Result :=
  bectl s n q (.findSync n q i) i false fun s _ _ =>
    let r := (s.unit n).bin.reader
    let at' := r.offset
    let found := if bit (barg i) 0 then r.obuEnd.filter (fun e => decide (at' ≤ e) && decide (e < r.stop))
      else nextStart at' (r.input.drop (at' - r.start))
    .done (s.setS n q i.d (match found with
      | some o => BitVec.ofNat 32 o
      | none => BitVec.allOnes 32))

/-- The core asks for the second buffer of a split output, from the pool of the first (R442). -/
def State.askSecond (s : State) (j : Nat) (x : Job) : State :=
  s.modJob j (fun y => { y with request := some (true, handlePool (x.bufs.headD 0)) })

/-- UNIT_CLOSE (R302): under CLQ and POOL_AND_CLQ the bytes since the last close become one packet. -/
def execUnitClose (n q : Nat) (i : Ins) (s : State) : Result :=
  bectl s n q (.unitClose n q i) i true fun s j x =>
    let b := (s.unit n).bin
    if b.writer.staging ∨ x.outMode < 2 then .done s
    else if s.needsSecond x b.writer.bytes.length then .pause (s.askSecond j x) .memory
    else if s.outHeld x ∨ s.unreachable (s.areas x) then .hold .memory
    else
      let r := s.takeBytes n
      .done (r.1.outUnit j r.2 (s.lastUnit n j))

/-- JOB_END (R304): the engine's part of the job ends once its output has left; with the last tile of the frame the picture's
entropy end is posted (R220, R310). A second buffer or a staging buffer that is still missing, and a packet that waits for
cells, hold it. -/
def execJobEnd (n q : Nat) (i : Ins) (s : State) : Result :=
  bectl s n q (.jobEnd n q i) i false fun s j x =>
    let b := (s.unit n).bin
    if b.seg.isSome ∧ b.encode then badOp s n 0x15
    else
      let s0 := s.modBin n (fun b => { b with seg := none, writer := b.writer.pad })
      let l := (s0.unit n).bin.writer.bytes
      let full := (s0.unit n).bin.writer.full
      if b.writer.staging ∧ (x.stageBufs (x.cores.idxOf n)).length < 2 ∧
          ((s.stageAreas x n).map Prod.snd).sum < l.length then .hold .staging
      else if !b.writer.staging ∧ s.needsSecond x l.length then .pause (s.askSecond j x) .memory
      else if s.packetHeld j x ∨ (!b.writer.staging ∧ s.outHeld x) ∨
          s.unreachable (if b.writer.staging then s.stageAreas x n else s.areas x) then .hold .memory
      else
        let r := s0.takeBytes n
        let s1 := if b.writer.staging then
            let c := splitInto (s.stageAreas x n) 0 l
            (r.1.modJob j (fun y => { y with
              overflow := y.overflow || c.2 != [], tiles := mset y.tiles n l.length })).writePieces j x c.1
          else r.1.outUnit j r.2 true
        let s2 := s1.modJob j (fun y => { y with overflow := y.overflow || full })
        if s2.packetHeld j x then .pause s2 .memory
        else
          .done ((s2.postEntropy j x n).endBin n j)

end Sys2Proof.Machine
end

