-- ==== Sys2Proof/Machine/BinWords.lean ====
section
/-!
DEFINITION. The syntax words of the bin engine (R287 to R301).
-/
namespace Sys2Proof.Machine

/-- The table store as the engine of core n reads it. -/
def State.tab (s : State) (n : Nat) : Nat → Word := fun k => s.tabWord n k

/-- SYN_END (R296): stops the program; after an error entry the status keeps the parse error. -/
def execSynEnd (n : Nat) (w : SynWord) (s : State) : Result :=
  plainWord s n (.synEnd n w) (fields w false false false false) false fun b => .ok { b with running := false }

/-- EL (R292): one element with descriptor IMM[9:0], offset x(A) and parameter x(B). -/
def execEl (n : Nat) (w : SynWord) (s : State) : Result :=
  act s fun s => runWord s n (.el n w) (decide (w.imm < 1024)) true fun s b =>
    match codeElement (s.tab n) w.imm (b.x_ w.a).toNat (b.x_ w.b).toNat (b.x_ w.d) b with
    | .ok (v, b) => .ok (s, if b.encode then b else b.setX w.d v, none)
    | .error e => .error e

/-- The open segment has coded a terminate bin of 1: a decoder has then read the stop bit, and no bit after it (R287). -/
def Bin.terminated (b : Bin) : Bin :=
  match b.seg with
  | some c => { b with seg := some { c with term := true } }
  | none => b

/-- TERM (R287): a terminate bin of a TABLE6 or DUALRATE segment. -/
def execTerm (n : Nat) (w : SynWord) (s : State) : Result :=
  plainWord s n (.term n w) (fields w true true false false) true fun b =>
    match b.seg with
    | some c =>
      if 2 ≤ c.kernel then .error (.syn 0x12)
      else do
        let (_, b) ← b.countBin false
        let r := c.r - 2
        if b.encode then
          if (b.x_ w.a).getLsbD 0 then
            .ok (b.flushArith { c with low := c.low + r, r := r }).terminated
          else .ok (Bin.renormEnc 9 { b with seg := some { c with r := r } })
        else if r ≤ c.off then .ok (b.terminated.setX w.d 1)
        else do
          let (_, b) ← Bin.renormDec 9 { b with seg := some { c with r := r } }
          .ok (b.setX w.d 0)
    | none => .error (.syn 0x12)

/-- SEGOPEN (R278, R279, R283, R285): opens a segment and resets the per-CTU counters (R306). -/
def execSegopen (n : Nat) (w : SynWord) (s : State) : Result :=
  plainWord s n (.segopen n w) (fields w false false false true && decide (w.imm < 4)) false fun b =>
    if b.seg.isSome then .error (.syn 0x12)
    else
      let r := match w.imm with
        | 2 => 32768
        | 3 => 255
        | _ => 510
      let c : Coder := { kernel := w.imm, r := r }
      let b := { b with ctuBins := 0, ctuSteps := 0 }
      if b.encode ∨ b.inError then .ok { b with seg := some c }
      else if w.imm < 2 then do
        let (v, b) ← Bin.readBits 9 0 b
        .ok { b with seg := some { c with off := v } }
      else
        let v := Bin.readZs (if w.imm = 2 then 15 else 8) 0 b
        .ok { v.2 with seg := some { c with off := v.1 } }

/-- SEGCLOSE (R288). -/
def execSegclose (n : Nat) (w : SynWord) (s : State) : Result :=
  plainWord s n (.segclose n w) (fields w false false false false) false fun b =>
    match b.seg with
    | none => .error (.syn 0x12)
    | some c =>
      let b1 := { b with seg := none }
      if c.kernel < 2 then (if c.term then .ok b1 else .error (.syn 0x12))
      else if b.encode then
        let t := c.tail
        let b2 := b1.put (msbBits t.1 t.2)
        .ok { b2 with writer := b2.writer.pad }
      else
        let p := 8 * b.reader.bytes.length
        .ok { b1 with reader := { b.reader with consumed := b.reader.consumed + (p - b.reader.pos), pos := p } }

/-- RAW (R289): IMM[5:0] raw bits outside a segment. -/
def execRaw (n : Nat) (w : SynWord) (s : State) : Result :=
  plainWord s n (.raw n w) (fields w true true false true && decide (1 ≤ w.imm) && decide (w.imm ≤ 32)) true fun b =>
    if b.seg.isSome then .error (.syn 0x12)
    else if b.encode then .ok (b.put (msbBits w.imm (b.x_ w.a).toNat))
    else do
      let (v, b) ← Bin.readBits w.imm 0 b
      .ok (b.setX w.d (BitVec.ofNat 32 v))

/-- ALIGN (R296). -/
def execAlign (n : Nat) (w : SynWord) (s : State) : Result :=
  plainWord s n (.align n w) (fields w false false false false) false fun b =>
    .ok (if b.encode then { b with writer := b.writer.pad } else b.alignRead)

/-- NALB (R300): a start code and the header bytes without insertion, then the payload. -/
def execNalb (n : Nat) (w : SynWord) (s : State) : Result :=
  act s fun s => runWord s n (.nalb n w)
    (fields w false true false true && decide (w.imm < 4) && (s.unit n).bin.encode) false fun s b =>
      if b.writer.nal then .error (.syn 0x15)
      else
        let h := (b.x_ w.a).toNat
        let start : List Byte := if bit w.imm 0 then [0, 0, 0, 1] else [0, 0, 1]
        let hdr : List Byte := BitVec.ofNat 8 h :: (if bit w.imm 1 then [BitVec.ofNat 8 (h / 256)] else [])
        let wr := b.writer.octets (start ++ hdr)
        .ok (s, { b with writer := { wr with nal := true, zeros := 0 } }, none)

/-- NALE (R300). -/
def execNale (n : Nat) (w : SynWord) (s : State) : Result :=
  act s fun s => runWord s n (.nale n w)
    (fields w false false false true && decide (w.imm < 2) && (s.unit n).bin.encode) false fun s b =>
      if !b.writer.nal then .error (.syn 0x15)
      else
        let w1 := (if w.imm = 1 then b.writer.putBits [true] else b.writer).pad
        let w2 := if w1.insertion ∧ 0 < w1.zeros then w1.raw 3 else w1
        .ok (s, { b with writer := { w2 with nal := false, zeros := 0 } }, none)

/-- OBUB (R301): the header bytes and a reserved size field of 4 bytes. -/
def execObub (n : Nat) (w : SynWord) (s : State) : Result :=
  act s fun s => runWord s n (.obub n w)
    (fields w false true false true && decide (w.imm < 2) && (s.unit n).bin.encode) false fun s b =>
      if b.writer.obu.isSome then .error (.syn 0x15)
      else
        let h := (b.x_ w.a).toNat
        let hdr : List Byte := BitVec.ofNat 8 h :: (if bit w.imm 0 then [BitVec.ofNat 8 (h / 256)] else [])
        let w1 := b.writer.octets hdr
        let w2 := w1.octets (List.replicate 4 0)
        .ok (s, { b with writer := { w2 with obu := some w1.total } }, none)

/-- The size field of OBUE: 28 bits as four LEB128 bytes (R301). -/
def obuSize (z : Nat) : List Byte :=
  (List.range 4).map (fun k => BitVec.ofNat 8 (z / 2 ^ (7 * k) % 128 + (if k < 3 then 128 else 0)))

/-- OBUE (R301): fills the size field. `bytes` holds the bytes since the last close, the first of them number `from`. -/
def execObue (n : Nat) (w : SynWord) (s : State) : Result :=
  act s fun s => runWord s n (.obue n w) (fields w false false false false && (s.unit n).bin.encode) false fun s b =>
    match b.writer.obu with
    | none => .error (.syn 0x15)
    | some p =>
      let z := b.writer.total - (p + 4)
      if 2 ^ 28 ≤ z then .error (.syn 0x15)
      else
        let first := b.writer.total - b.writer.bytes.length
        let bs := b.writer.bytes.zipIdx.map (fun v =>
          if p ≤ first + v.2 ∧ first + v.2 < p + 4 then (obuSize z).getD (first + v.2 - p) 0 else v.1)
        .ok (s, { b with writer := { b.writer with bytes := bs, obu := none } }, none)

/-- A LEB128 number of at most eight bytes, with the bytes it took (R301). -/
def Bin.leb128 : Nat → Nat → Nat → Bin → Except BinStop (Nat × Bin)
  | 0, _, _, b => .error (.parse 7 none b)
  | k + 1, sh, acc, b => do
    let (v, b) ← Bin.readBits 8 0 b
    let acc := acc + v % 128 * 2 ^ sh
    if v < 128 then .ok (acc, b) else Bin.leb128 k (sh + 7) acc b

/-- OBUN (R301): the next OBU header to x(D) and its size to x(D + 1). -/
def execObun (n : Nat) (w : SynWord) (s : State) : Result :=
  act s fun s => runWord s n (.obun n w)
    (fields w true false false false && decide (w.d ≤ 14) && !(s.unit n).bin.encode) true fun s b => do
      let (h, b) ← Bin.readBits 8 0 b
      let (h, b) ← if bit h 2 then do
          let (e, b) ← Bin.readBits 8 0 b
          pure (h + 256 * e, b)
        else pure (h, b)
      let (z, b) ← if bit h 1 then Bin.leb128 8 0 0 b else pure (b.reader.bytes.length - b.reader.pos / 8, b)
      if 2 ^ 32 ≤ z ∨ b.reader.bytes.length - b.reader.pos / 8 < z then .error (.parse 7 none b)
      else
        let b := { b with reader := { b.reader with obuEnd := some (b.reader.offset + z) } }
        .ok (s, (b.setX w.d (BitVec.ofNat 32 h)).setX (w.d + 1) (BitVec.ofNat 32 z), none)

/-- SYN_RECV (R296, R297): a token of the channel to x(D) and x(D + 1). -/
def execSynRecv (n : Nat) (w : SynWord) (s : State) : Result :=
  act s fun s => runWord s n (.synRecv n w) (fields w true false false true && decide (w.imm < 8) && decide (w.d ≤ 14)) false
    fun s b =>
      match b.job with
      | none => .error .wait
      | some j =>
        if (s.ends j w.imm).map Prod.snd ≠ some 6 then .error (.syn 0x16)
        else
          match s.undrained n w.imm j, s.chq n w.imm with
          | false, t :: _ =>
            .ok (s.popToken n w.imm, (b.setX w.d (t.val.setWidth 32)).setX (w.d + 1) ((t.val >>> 32).setWidth 32), none)
          | _, _ => .error .wait

/-- SYN_SEND (R296, R297): x(A) and x(A + 1) as one token. -/
def execSynSend (n : Nat) (w : SynWord) (s : State) : Result :=
  act s fun s => runWord s n (.synSend n w) (fields w false true false true && decide (w.imm < 8) && decide (w.a ≤ 14)) false
    fun s b =>
      match b.job with
      | none => .error .wait
      | some j =>
        if (s.ends j w.imm).map Prod.fst ≠ some 6 then .error (.syn 0x16)
        else if s.undrained n w.imm j ∨ s.chanFull n w.imm then .error .wait
        else .ok (s.pushToken n w.imm { val := (b.x_ (w.a + 1)) ++ (b.x_ w.a), job := j }, b, none)

/-- LI (R296). -/
def execLi (n : Nat) (w : SynWord) (s : State) : Result :=
  plainWord s n (.li n w) (fields w true false false true) false fun b => .ok (b.setX w.d (sext w))

/-- SYN_ADD (R296). -/
def execSynAdd (n : Nat) (w : SynWord) (s : State) : Result :=
  plainWord s n (.synAdd n w) true false fun b => .ok (b.setX w.d (b.x_ w.a + b.x_ w.b + sext w))

/-- ANDI (R296). -/
def execAndi (n : Nat) (w : SynWord) (s : State) : Result :=
  plainWord s n (.andi n w) (fields w true true false true) false fun b =>
    .ok (b.setX w.d (b.x_ w.a &&& BitVec.ofNat 32 w.imm))

/-- SYN_SHL (R296). -/
def execSynShl (n : Nat) (w : SynWord) (s : State) : Result :=
  plainWord s n (.synShl n w) (fields w true true false true && decide (w.imm < 32)) false fun b =>
    .ok (b.setX w.d (b.x_ w.a <<< w.imm))

/-- SYN_SHR (R296): arithmetic. -/
def execSynShr (n : Nat) (w : SynWord) (s : State) : Result :=
  plainWord s n (.synShr n w) (fields w true true false true && decide (w.imm < 32)) false fun b =>
    .ok (b.setX w.d ((b.x_ w.a).sshiftRight w.imm))

/-- SYN_MIN (R296). -/
def execSynMin (n : Nat) (w : SynWord) (s : State) : Result :=
  plainWord s n (.synMin n w) (fields w true true true false) false fun b =>
    .ok (b.setX w.d (word (min (b.x_ w.a).toInt (b.x_ w.b).toInt)))

/-- BZ (R296). -/
def execBz (n : Nat) (w : SynWord) (s : State) : Result :=
  jumpWord s n (.bz n w) (fields w false true false true) fun b => .ok (b, if b.x_ w.a = 0 then some w.imm else none)

/-- BNZ (R296). -/
def execBnz (n : Nat) (w : SynWord) (s : State) : Result :=
  jumpWord s n (.bnz n w) (fields w false true false true) fun b => .ok (b, if b.x_ w.a ≠ 0 then some w.imm else none)

/-- BLT (R296): signed. -/
def execBlt (n : Nat) (w : SynWord) (s : State) : Result :=
  jumpWord s n (.blt n w) (fields w false true true true) fun b =>
    .ok (b, if (b.x_ w.a).toInt < (b.x_ w.b).toInt then some w.imm else none)

/-- SYN_JMP (R296). -/
def execSynJmp (n : Nat) (w : SynWord) (s : State) : Result :=
  jumpWord s n (.synJmp n w) (fields w false false false true) fun b => .ok (b, some w.imm)

/-- SYN_CALL (R296). -/
def execSynCall (n : Nat) (w : SynWord) (s : State) : Result :=
  jumpWord s n (.synCall n w) (fields w false false false true) fun b =>
    if 8 ≤ b.calls.length then .error (.syn 0x14)
    else .ok ({ b with calls := (b.pc + 1) % 32768 :: b.calls }, some w.imm)

/-- SYN_RET (R296). -/
def execSynRet (n : Nat) (w : SynWord) (s : State) : Result :=
  jumpWord s n (.synRet n w) (fields w false false false false) fun b =>
    match b.calls with
    | [] => .error (.syn 0x14)
    | r :: t => .ok ({ b with calls := t }, some r)

/-- SYN_CTU (R296, R335): closes a CTU for the rate-control unit and resets the per-CTU counters. -/
def execSynCtu (n : Nat) (w : SynWord) (s : State) : Result :=
  act s fun s => runWord s n (.synCtu n w) (fields w false false false false) false fun s b =>
    let s1 := match b.job.bind (s.ownSet n) with
      | some k => s.modRc n k (fun r => r.closeCtu b.counted)
      | none => s
    .ok (s1, { b with ctuBins := 0, ctuSteps := 0 }, none)

/-- CCOPY (R296): copies IMM contexts as though through a buffer. -/
def execCcopy (n : Nat) (w : SynWord) (s : State) : Result :=
  plainWord s n (.ccopy n w) (fields w false true true true && decide (1 ≤ w.imm) && decide (w.imm ≤ 8192)) false fun b =>
    let f := (b.x_ w.a).toNat
    let t := (b.x_ w.b).toNat
    if 8192 < f + w.imm ∨ 8192 < t + w.imm then .error (.syn 0x11)
    else .ok { b with ctx := (List.range w.imm).foldl (fun m k => mset m (t + k) (mgetD b.ctx (f + k) 0)) b.ctx }

/-- BITS (R296): bits consumed, or written, since the job start. -/
def execBits (n : Nat) (w : SynWord) (s : State) : Result :=
  plainWord s n (.bits n w) (fields w true false false false) false fun b =>
    .ok (b.setX w.d (BitVec.ofNat 32 (if b.encode then b.writer.count else b.reader.consumed)))

end Sys2Proof.Machine
end

