-- ==== Sys2Proof/Machine/Faults.lean ====
section
/-!
DEFINITION. The fault unit's commands and the faults that the parts themselves find (R531 to R545).
-/
namespace Sys2Proof.Machine

/-- FAULT_FIRE (R536): one event fires one or more sources. -/
def execFaultFire (fires : List FaultHit) (s : State) : Result := act s fun s => s.fireAll fires

/-- Acknowledges the unacknowledged records that a test picks (R534). -/
def State.ackRecs (s : State) (p : FaultRec → Bool) : State :=
  { s with
    faults := { s.faults with
      slots := s.faults.slots.map (fun x => (x.1, if p x.2 then { x.2 with acked := true } else x.2)) } }

/-- REC_ACK (R534): acknowledges the unacknowledged record with this REC_SEQ. -/
def execRecAck (seq : Word) (s : State) : Result :=
  hostCmd 3 s fun s =>
    if s.faults.unacked.any (fun r => r.seq == seq.toNat) then s.ackRecs (fun r => r.seq == seq.toNat) else s.accessBad 3

/-- REC_ACK_ALL (R534): acknowledges every record present. -/
def execRecAckAll (v : Word) (s : State) : Result :=
  hostCmd 3 s fun s =>
    let s := s.rsv 3 1 v
    if v.getLsbD 0 then s.ackRecs (fun _ => true) else s

/-- ERR_PIN_CTRL_WRITE (R535): a pulse length outside 20 to 1,000 µs or a MIN_SEV above 5 discards the write. -/
def execErrPinCtrlWrite (v : Word) (s : State) : Result :=
  hostCmd 3 s fun s =>
    let s := s.rsv 3 0x83FF0007 v
    if fld v 25 16 < 20 ∨ 1000 < fld v 25 16 ∨ 5 < fld v 2 0 then s.accessBad 3
    else s.setReg 3 0x400 (v &&& 0x83FF0007)

/-- ERR_PULSE_END (R535): ERR_N follows LEVEL again. -/
def execErrPulseEnd (s : State) : Result :=
  act s fun s => { s with faults := { s.faults with pulsing := false } }

/-- ERR_N is low (R535): in a pulse, in the sealed state, or because LEVEL says so. -/
def State.errLow (s : State) : Bool :=
  decide (s.faults.stop = .sealed) || s.faults.pulsing || !(s.reg 3 0x400).getLsbD 31

/-- FEC_DEGRADED (R531): uncorrectable RS-FEC codewords on a port exceed 1 per second. -/
def execFecDegraded (port : Nat) (s : State) : Result :=
  act s fun s => if port < 2 then s.fault (194 + 8 * port) port none 0 else s

/-- SVC_WATCHDOG (R531): the service pilot misses its watchdog for 100 ms. -/
def execSvcWatchdog (s : State) : Result := act s fun s => s.fault 3 0xFFFF none 0

end Sys2Proof.Machine
end

