-- ==== Sys2Proof/Machine/Tempo.lean ====
section
/-!
DEFINITION. Tempo monitors, the tempo loop, throttling and thermal trip (R40 to R57).
-/
namespace Sys2Proof.Machine

/-- Monitor m. -/
def State.mon (s : State) (m : Nat) : Monitor := mgetD s.tempo.mons m {}

/-- The tempo a monitor reports: the mean completion count of its last 100 windows, scaled by the fused reference count
to 1.000 = 0x0400 (R41). R41 does not say how the scaled mean is rounded, nor what fewer than 100 windows report: the model
truncates to a whole 1/1,024, divides by the number of windows present, and keeps windows from before a quadrant was parked
(DESIGN CHOICE, log entry 90). -/
def State.monTempo (s : State) (m : Nat) : Nat :=
  let w := (s.mon m).windows
  min (w.sum * 1024 / (w.length * mgetD s.fuse.monRef m 1000)) 65535

/-- The enabled, unfenced and powered cores, whose monitors the loop reads (R46). R46 does not say whether a core counts that
drains towards a fence or reads OFFLINE during UNIT_RESET: the model counts both (DESIGN CHOICE, log entry 91). -/
def State.loopCores (s : State) : List Nat :=
  (List.range 48).filter (fun n =>
    let g := s.page (corePage n)
    g.enable && !(mgetD s.placer.quads (n / 12) {}).parked && decide (g.state ≠ .fenced) &&
        !(s.boot.fences.any (fun f => f.1 == corePage n)))

/-- DEVICE_TEMPO: the device tempo as LOOP_SOURCE selects it (R46). -/
def State.deviceTempo (s : State) : Nat :=
  let l := s.loopCores.map s.monTempo
  match fld (s.active 2 0x040) 5 4 with
  | 1 => (leastBy id l).getD 0
  | 2 => l.sum / l.length
  | _ => medianNat l

/-- EFFECTIVE_TARGET: the lower of TARGET and the throttle ceiling. -/
def State.goal (s : State) : Nat :=
  let t := fld (s.active 2 0x044) 15 0
  if s.tempo.throttling then min t s.tempo.ceiling else t

/-- TJ_MAX: the highest of the 57 monitors' temperatures. -/
def State.tjMax (s : State) : Int :=
  ((List.range 57).map (fun m => (s.mon m).tj)).foldl max ((s.mon 0).tj)

/-- A 1 µs window of a monitor ends: it joins the last 100 (R41). -/
def State.monitorWindow (s : State) (mon count : Nat) (tj : Int) : State :=
  if 57 ≤ mon then s
  else { s with tempo := { s.tempo with
    mons := mset s.tempo.mons mon { windows := (count :: (s.mon mon).windows).take 100, tj := tj } } }

/-- The device tempo is no longer below 0x02CD: TEMPO_UNDER falls (R57, R72). -/
def State.underEnds (s : State) : State :=
  if s.tempo.under ∧ 0x02CD ≤ s.deviceTempo then
    { s with tempo := { s.tempo with under := false } }.setCond 2 4 false
  else s

/-- MONITOR_WINDOW (R41, R42): the monitors run in every state of a powered part. In the sealed state only the sensors' values
move, which the SMBus target still reports (R543, R580). -/
def execMonitorWindow (mon count : Nat) (tj : Int) (s : State) : Result :=
  if s.power.powered ∧ s.faults.stop = .sealed then .next (s.monitorWindow mon count tj)
  else act s fun s => (s.monitorWindow mon count tj).underEnds

/-- The voltage that the loop requests next (R46). -/
def loopStep (t goal step vmin vmax req : Nat) : Nat :=
  let r := min (max req vmin) vmax
  if t + 8 < goal then (if r < vmax then min (r + step) vmax else r)
  else if goal + 8 < t then (if vmin < r then max (r - step) vmin else r)
  else r

/-- AVS_LOST sets or clears (R48). -/
def State.setLost (s : State) (lost : Bool) : State :=
  let s1 := { s with tempo := { s.tempo with avsLost := lost, avsBad := 0 } }.setCond 2 3 lost
  if lost then s1.fault 6 0xFFFF none 0 else s1

/-- One pass of the loop body with the regulator's answer (R46 to R48). A loop that has requested nothing since stage 3
starts from the voltage it reads back (log entry 5). R46 does not say what the loop does when no enabled, unfenced core is
left: the model only moves the requested voltage between the limits and holds it, and DEVICE_TEMPO reads 0 (DESIGN CHOICE, log
entry 91). AT_VMAX and AT_VMIN are set in the very period whose step lands on the limit, from the tempo measured before that
step; R47 says that the tempo still lies beyond the deadband (DESIGN CHOICE, log entry 92). -/
def State.loopPass (s : State) (a : AvsReply) : State :=
  let lim := s.active 2 0x048
  let vmax := fld lim 25 16
  let vmin := fld lim 9 0
  let from' := if s.tempo.vddReq = 0 then a.readback else s.tempo.vddReq
  let t := s.deviceTempo
  let goal := s.goal
  let req := if s.loopCores.isEmpty then min (max from' vmin) vmax
    else loopStep t goal (fld (s.active 2 0x040) 11 8) vmin vmax from'
  let moved := req ≠ s.tempo.vddReq
  let hi := (req = vmax ∧ t + 8 < goal) ∨ (¬moved ∧ s.tempo.atVmax)
  let lo := (req = vmin ∧ goal + 8 < t) ∨ (¬moved ∧ s.tempo.atVmin)
  let ok := a.writeOk && a.statusOk
  let s1 := { s with
    tempo := { s.tempo with
      vddReq := req, atVmax := decide hi, atVmin := decide lo,
      vddRead := if ok then a.readback else s.tempo.vddRead,
      avsBad := if ok then 0 else s.tempo.avsBad + 1 } }
  let s2 := (s1.emit (.avsWrite req)).setCond 2 2 (decide hi)
  if 3 ≤ s2.tempo.avsBad then s2.setLost true else s2

/-- The retry of a lost regulator writes the voltage that the loop holds; while LOOP_EN is 0 it only reads the status (R48,
R49). -/
def State.avsAsk (s : State) : State :=
  if fld (s.active 2 0x040) 0 0 = 1 then s.emit (.avsWrite s.tempo.vddReq) else s

/-- A retry got a valid response: to its write, or to its status read (R48, R49). -/
def State.avsAnswered (s : State) (a : AvsReply) : Bool := a.statusOk || (a.writeOk && fld (s.active 2 0x040) 0 0 == 1)

/-- AVS_RETRY (R48): the first valid response clears AVS_LOST, and the loop resumes from the voltage it reads back. -/
def execAvsRetry (a : AvsReply) (s : State) : Result :=
  act s fun s =>
    if !s.tempo.avsLost then s
    else if s.avsAnswered a then
      { s.avsAsk.setLost false with
        tempo := { (s.avsAsk.setLost false).tempo with vddReq := a.readback, vddRead := a.readback } }
    else s.avsAsk

/-- THERMAL_SAMPLE (R51, R52), every 1 ms once stage 3 has calibrated the monitors. -/
def execThermalSample (s : State) : Result :=
  act s fun s =>
    if !s.tempo.calibrated then s
    else
      let th := s.active 2 0x04C
      let thr : Int := (fld th 7 0 : Nat)
      let hyst : Int := (fld th 11 8 : Nat)
      let floor := fld th 31 16
      let target := fld (s.active 2 0x044) 15 0
      let tj := s.tjMax
      let s0 := { s with tempo := { s.tempo with tjMax := tj } }
      let t := s0.tempo
      if thr ≤ tj then
        if t.throttling then
          { s0 with tempo := { t with ceiling := max floor (min t.ceiling target - 0x10) } }
        else
          { s0 with tempo := { t with throttling := true, ceiling := max floor (target - 0x10) } }.raiseEvt 2 0
      else if !t.throttling then s0
      else
        let c := max floor (if tj ≤ thr - hyst then t.ceiling + 0x10 else t.ceiling)
        if target ≤ c then { s0 with tempo := { t with throttling := false, ceiling := 0 } }.raiseEvt 2 1
        else { s0 with tempo := { t with ceiling := c } }

/-- TEMPO_UNDER (R57): the device tempo has stayed below 0x02CD for more than 1 ms. -/
def execTempoUnder (s : State) : Result :=
  act s fun s =>
    if s.tempo.calibrated ∧ s.deviceTempo < 0x02CD ∧ ¬s.tempo.under ∧ s.loopCores ≠ [] then
      ({ s with tempo := { s.tempo with under := true } }.setCond 2 4 true).fault 7 0xFFFF none 0
    else s

/-- THERMAL_TRIP (R53): a sensor reaches 115 °C. The comparator is independent of every register, so THERMTRIP_N asserts
in the sealed state too. -/
def execThermalTrip (mon : Nat) (s : State) : Result :=
  if s.power.powered ∧ s.faults.stop = .sealed then .next { s with power := { s.power with thermtrip := true } }
  else act s fun s => s.fault 0 mon none 0

end Sys2Proof.Machine
end

