-- ==== Sys2Proof/Machine/Board.lean ====
section
/-!
DEFINITION. The board's side: the SMBus target and the JTAG port (R545, R558, R580, R582).
-/
namespace Sys2Proof.Machine

/-- The SMBus target answers in every device state while the part is powered (R580). -/
def smbReply (s : State) (bs : List Byte) : Result := .next (if s.power.powered then s.emit (.smb bs) else s)

/-- One byte as an answer. -/
def byteOf (n : Nat) : List Byte := [BitVec.ofNat 8 n]

/-- FAULT_STATE.STATE (R542). -/
def StopState.code : StopState → Nat
  | .normal => 0
  | .stopped => 4
  | .sealed => 5

/-- BOOT_STATUS.STATE (R557). -/
def BootState.code : BootState → Nat
  | .booting => 0
  | .ready => 1
  | .dormant => 2

/-- REACTION of a record (R533). -/
def Reaction.code : Reaction → Nat
  | .logged => 0
  | .jobFailed => 1
  | .jobRetried => 2
  | .fenced => 3
  | .deviceStop => 4
  | .sealed => 5

/-- The 32 bytes of a record (R533). -/
def FaultRec.bytes (r : FaultRec) : List Byte :=
  leBytes 8 r.time ++ leBytes 4 r.seq ++ byteOf r.source ++ byteOf (128 + 64 * b2n r.acked + r.sev) ++ leBytes 2 r.inst ++
  leBytes 2 r.stream ++ leBytes 2 r.queue ++ leBytes 2 r.jobSeq ++ byteOf r.attempt ++ byteOf r.reaction.code ++
  leBytes 4 r.info ++ leBytes 4 0

/-- The 32 bytes of a slot: zeros when it is empty. -/
def State.slotBytes32 (s : State) (i : Nat) : List Byte :=
  match mget s.faults.slots i with
  | some r => r.bytes
  | none => List.replicate 32 0

/-- BOOT_CAUSE as its register holds it (R557). -/
def BootCause.word (c : BootCause) : Nat := c.stage * 2 ^ 28 + c.sub * 2 ^ 20 + c.inst

/-- One BOOT_HISTORY entry as its register holds it (R557). -/
def BootHist.word (h : BootHist) : Nat :=
  h.outcome * 2 ^ 28 + h.stage * 2 ^ 24 + h.sub * 2 ^ 16 + h.source * 2 ^ 14 + h.duration

/-- SMB_TEMP (R580): TJ_MAX in °C, signed. -/
def execSmbTemp (s : State) : Result := smbReply s (byteOf (narrow 8 s.tjMax))

/-- SMB_VDD_CORE (R580): VDD_READ in mV; 0 before boot stage 3 and in Dormant mode. -/
def execSmbVddCore (s : State) : Result :=
  smbReply s (leBytes 2 (if s.tempo.loopStarted then s.tempo.vddRead else 0))

/-- SMB_THERM_STATE (R580). -/
def execSmbThermState (s : State) : Result :=
  smbReply s (byteOf (128 * b2n s.power.thermtrip + 64 * b2n s.tempo.throttling))

/-- SMB_FAULT_STATE (R545). -/
def execSmbFaultState (s : State) : Result :=
  let u := s.faults.unacked
  smbReply s (byteOf (128 * b2n (!u.isEmpty) + 16 * u.foldl (fun m r => max m r.sev) 0 + s.faults.stop.code))

/-- SMB_FAULT_UNACKED (R545). -/
def execSmbFaultUnacked (s : State) : Result := smbReply s (byteOf s.faults.unacked.length)

/-- SMB_FAULT_NEWEST (R545). -/
def execSmbFaultNewest (s : State) : Result := smbReply s (s.slotBytes32 s.faults.newestSlot)

/-- SMB_FAULT_RECORD (R545). The table of slots ends at 47; what a higher number returns is open (log entry 6). -/
def execSmbFaultRecord (slot : Nat) (s : State) : Result :=
  if slot < 48 then smbReply s (s.slotBytes32 slot)
  else if s.power.powered then .next (s.draw.2.emit (.smb (leBytes 32 s.draw.1)))
  else .next s

/-- SMB_ERR_PIN (R545): ERR_PIN_STATUS bits [2:0]. -/
def execSmbErrPin (s : State) : Result :=
  smbReply s (byteOf (4 * b2n (decide (s.faults.stop = .sealed)) + 2 * b2n s.faults.pulsing + b2n s.errLow))

/-- SMB_BOOT_STATE (R558). -/
def execSmbBootState (s : State) : Result := smbReply s (byteOf (64 * s.boot.state.code + s.boot.stage))

/-- SMB_BOOT_ATTEMPTS (R558): BOOT_RETRY_LIMIT and BOOT_ATTEMPTS. -/
def execSmbBootAttempts (s : State) : Result :=
  smbReply s (byteOf (16 * fld (s.reg 1 0x040) 2 0 + s.boot.attempts))

/-- SMB_BOOT_CAUSE (R558). -/
def execSmbBootCause (s : State) : Result := smbReply s (leBytes 4 s.boot.cause.word)

/-- SMB_BOOT_HISTORY (R558): entries 0 to 3. -/
def execSmbBootHistory (s : State) : Result :=
  smbReply s ((List.range 4).flatMap (fun i => leBytes 4 ((s.boot.history[i]?.map BootHist.word).getD 0)))

/-- SMB_TIMEOUT (R580): SMB_SCL stays low for 25 ms. The target abandons the transaction and releases both lines. A
transaction that has not ended is no command yet, so nothing else of the part changes. -/
def execSmbTimeout (s : State) : Result := .next s

/-- The TAP holds an instruction that keeps a boot attempt back (R582). -/
def TapInstr.holds : TapInstr → Bool
  | .extest | .highz | .clamp => true
  | _ => false

/-- The held attempt starts once the TAP leaves EXTEST, HIGHZ and CLAMP (R582). -/
def State.tapTo (s : State) (i : TapInstr) : State :=
  let s1 := { s with jtag := { s.jtag with instr := i } }
  if s1.jtag.held && !i.holds then
    { s1 with jtag := { s1.jtag with held := false } }.startAttempt true true false
  else s1

/-- EXTEST, HIGHZ and CLAMP are accepted only while PERST_N is low when SECURE_BOOT is fused (R582). -/
def State.tapTest (s : State) (i : TapInstr) : State :=
  if s.fuse.secureBoot && s.power.perstHigh then s else s.tapTo i

/-- The levels of the 15 balls that the board or another device drives, GPIO[7:0] where the part does not: open values. -/
def State.boardLevels (s : State) : List Bool :=
  (List.range 8).map (fun i => if s.power.gpioDrive.getLsbD (7 - i) then s.power.gpioOut.getLsbD (7 - i)
    else bit (Config.freeValue s.free) (7 - i)) ++
  (List.range 7).map (fun i => bit (Config.freeValue s.free) (8 + i))

/-- What the boundary-scan register captures of the balls of R573 to R575 (log entry 7). -/
def State.balls (s : State) : List Bool :=
  [s.power.perstHigh, !s.pcie.pmeStatus, !s.errLow, !s.power.thermtrip,
   bit s.boot.straps.bootSrc 1, bit s.boot.straps.bootSrc 0, s.boot.straps.dormantForce, s.boot.straps.smbAddrSel,
   s.power.spiCsN, s.power.spiClk, s.power.avsClk, s.power.avsMdata] ++ s.boardLevels

/-- JTAG_BYPASS (R582). -/
def execJtagBypass (s : State) : Result := act s fun s => s.tapTo .bypass

/-- JTAG_IDCODE (R582): version 2, part 0x4824, and bit 0 at 1. -/
def execJtagIdcode (s : State) : Result := act s fun s => (s.tapTo .idcode).emit (.jtag 0x24824A1F)

/-- JTAG_SAMPLE_PRELOAD (R582). -/
def execJtagSamplePreload (s : State) : Result :=
  act s fun s => ({ s with jtag := { s.jtag with sampled := s.balls }, free := s.free + 1 }).tapTo .sample

/-- JTAG_EXTEST (R582). -/
def execJtagExtest (s : State) : Result := act s fun s => s.tapTest .extest

/-- JTAG_HIGHZ (R582). -/
def execJtagHighz (s : State) : Result := act s fun s => s.tapTest .highz

/-- JTAG_CLAMP (R582). -/
def execJtagClamp (s : State) : Result := act s fun s => s.tapTest .clamp

/-- JTAG_TEST_LOGIC_RESET (R582). -/
def execJtagTestLogicReset (s : State) : Result := act s fun s => s.tapTo .reset

end Sys2Proof.Machine
end

