-- ==== Sys2Proof/Machine/StreamOps.lean ====
section
/-!
DEFINITION. What streams share: the order of their jobs, their blocks, pool slots, written pictures, the strict-mode latch
and the retire point (R129 to R133, R150 to R178, R356 to R371).
-/
namespace Sys2Proof.Machine

/-! ### The order of jobs (R131, R132, R150, R177) -/

/-- The job names stream n, itself or through its ladder block (R327). -/
def Job.names (x : Job) (n : Nat) : Bool :=
  x.stream == some n ||
  (x.opcode == 0x11 && x.ladder != [] && (List.range (min x.renditions 8)).any (fun r => x.rendStream r == n))

/-- The opcodes that run alone on their stream (R150, R177). -/
def Job.streamOp (x : Job) : Bool := x.opcode == 0x01 || x.opcode == 0x02 || x.opcode == 0x03 || x.opcode == 0x50

/-- What the job names is not known yet: its entry, or its ladder block, is still to be read. -/
def Job.unread (y : Job) : Bool := y.phase == .body || (y.opcode == 0x11 && y.phase == .parsing && y.ladder == [])

/-- The live jobs before job j that name stream n, or that may name it: entries of the same queue that are not read yet (R130,
R131, R150). A rendition does not wait for its own ladder job. -/
def State.before (s : State) (j n : Nat) : List (Nat × Job) :=
  s.jobs.filter (fun (y : Nat × Job) =>
    decide (y.1 < j) && y.2.live && ((s.job j).bind Job.parent) != some y.1 &&
    (y.2.names n || (some y.2.queue == (s.job j).map Job.queue && y.2.unread)))

/-- An earlier BARRIER of the queue has not retired, or an earlier entry that may be one is still to be read (R132). -/
def State.barred (s : State) (j q : Nat) : Bool :=
  s.jobs.any (fun (y : Nat × Job) => decide (y.1 < j) && y.2.queue == q && y.2.live && (y.2.opcode == 0x40 || y.2.phase == .body))

/-- Field of a per-frame override block: n bytes from byte a. -/
def Job.over (x : Job) (a n : Nat) : Nat := leNat ((x.overrides.drop a).take n)

/-- Bit b of PRESENT (R176). -/
def Job.present (x : Job) (b : Nat) : Bool := x.overrides != [] && bit (x.over 0 4) b

/-- The checks of R176: 0, or the detail code of the first failure. -/
def overrideCode (x : Job) (codec maxRefs slots : Nat) : Nat :=
  let top := qpTop codec
  let bad := fun (b : Nat) =>
    match b with
    | 0 => x.over 4 4 == 0
    | 1 => decide (top < x.over 8 1)
    | 2 => decide (top < x.over 9 1) || decide (top < x.over 10 1) || decide (x.over 10 1 < x.over 9 1) ||
        (x.present 1 && (decide (x.over 8 1 < x.over 9 1) || decide (x.over 10 1 < x.over 8 1)))
    | 3 => decide (maxRefs ≤ x.over 11 1)
    | 4 => !tagOk (x.over 16 8) || x.over 16 8 % 64 != 0
    | 5 => !tagOk (x.over 24 8) || x.over 32 4 == 0 || decide (65535 < x.over 32 4)
    | _ => decide (2 ^ slots ≤ x.over 12 4)
  if x.overrides = [] then 0
  else if 128 ≤ x.over 0 4 ∨ (x.overrides.drop 36).any (fun b => b != 0) then 0x0003
  else
    match (List.range 7).find? (fun b => x.present b && bad b) with
    | some b => 0x5000 + b
    | none => 0

/-- The source of an ENCODE_FRAME suits its stream (R163, R164): status and detail of the first failure. A 4:0:0 stream
takes the luma plane of any source. -/
def sourceCheck (x : Job) (st : Stream) : Option (Nat × Nat) :=
  match fmtOf (x.at 20 1) with
  | none => some (0x22, 0)
  | some f =>
    let c := st.field 2
    if f.decodeOnly ∨ !(c == 0 || f.chroma == c || (c == 1 && f.chroma == 2)) then some (0x22, 0)
    else if !f.t24 ∧ x.at 16 4 < st.field 0 * f.bytes then some (0x50, 0x0C)
    else none

/-- SUBOP of a REF_OP (R177). -/
def Job.subop (x : Job) : Nat := x.at 8 1

/-- What a REF_OP fails with on a stream of this direction, if it does (R178). -/
def refCheck (encode : Bool) (sub : Nat) : Option (Nat × Nat) :=
  match sub with
  | 1 | 4 => none
  | 2 | 3 => if encode then none else some (0x50, 0x05)
  | 5 => if encode then some (0x50, 0x05) else none
  | _ => some (0x50, 0x01)

/-- What the state of its stream makes of a job when its turn comes (R130, R138, R155, R158, R164, R176, R327): status and
detail of the completion, or none. -/
def State.streamCheck (s : State) (x : Job) (n : Nat) : Option (Nat × Nat) :=
  let st := s.stream n
  let op := x.opcode
  if op = 0x01 then (if st.state = .closed then none else some (0x50, 0x03))
  else if st.state = .closed ∨ st.state = .closing then some (0x50, 0x03)
  else if x.queue ≠ st.queue then some (0x50, 0x04)
  else if ((op = 0x10 ∨ op = 0x11) ∧ !st.encode) ∨ ((op = 0x20 ∨ op = 0x21) ∧ st.encode) then some (0x50, 0x05)
  else if st.state = .stopped ∧ op ≠ 0x50 ∧ op ≠ 0x02 then some (0x11, 0)
  else if op = 0x50 then refCheck st.encode x.subop
  else if op = 0x10 ∧ x.parent = none ∧ st.field 55 = 2 then some (0x31, 0x200C)
  else if op = 0x10 then
    (match sourceCheck x st with
    | some e => some e
    | none =>
      let codec := codecOf (((mget s.pers.dir st.pers).map PersEntry.id).getD 0)
      let c := overrideCode x codec (st.field 12) st.poolSlots
      if c = 0 then none else some (0x31, c))
  else none

/-- A job completes without having been coded: its buffers return (R139, R147). -/
def State.refuse (s : State) (j : Nat) (e : Nat × Nat) : State := (s.discard j).finish j e.1 e.2

/-- Brings job k of stream n to its turn: it is checked, and a source frame takes its DISPLAY_INDEX (R173). -/
def State.letIn (s : State) (k n : Nat) : State :=
  match s.job k with
  | some x =>
    if x.phase = .waiting ∧ !(s.before k n).any (fun y => y.2.streamOp || y.2.phase == .body || y.2.phase == .parsing ||
        y.2.phase == .waiting) then
      match s.streamCheck x n with
      | some e => s.refuse k e
      | none =>
        if x.streamOp then s
        else if x.opcode = 0x10 then
          ((s.modJob k (fun y => { y with phase := .ready, display := (s.stream n).displayIndex })).modStream n
            (fun t => { t with displayIndex := (t.displayIndex + 1) % 2 ^ 32 })).markReady k
        else (s.modJob k (fun y => { y with phase := .ready })).markReady k
    else s
  | none => s

/-- Brings the jobs of stream n up to job j to their turn, in order. -/
def State.letInAll (s : State) (j n : Nat) : State :=
  (s.jobs.filter (fun (y : Nat × Job) => decide (y.1 ≤ j) && y.2.phase == .waiting && y.2.names n && y.2.stream == some n)).foldl
    (fun t y => t.letIn y.1 n) s

/-- A stream operation may run: every earlier job of its stream has retired, no BARRIER holds it and no re-home is on (R132,
R150, R177, R194). -/
def State.opTurn (s : State) (j : Nat) (x : Job) (n : Nat) : Bool :=
  (s.before j n).isEmpty && !s.barred j x.queue && !(s.stream n).rehome.isSome

/-! ### Stream memory (R153 to R156) -/

/-- First address of quadrant q's stream memory region. -/
def State.regionBase (s : State) (q : Nat) : Nat := fld (s.active (quadPage q) 0x040) 19 0 * 2 ^ 20
/-- Its size in MiB. -/
def State.regionMib (s : State) (q : Nat) : Nat := fld (s.active (quadPage q) 0x044) 15 0

/-- The blocks that quadrant q holds, as address and MiB: those of streams, of a resize and of a re-home in progress. -/
def State.blocks (s : State) (q : Nat) : List (Nat × Nat) :=
  s.streams.flatMap (fun (y : Nat × Stream) =>
    let t := y.2
    (if t.state ≠ .closed ∧ t.home = q then (t.blockBase, t.blockMib) :: t.reserve.toList else []) ++
    (match t.rehome with
    | some r => if r.started ∧ r.target = q then [(r.base, t.blockMib)] else []
    | none => []))

/-- Sorts blocks by address. -/
def insBlock (x : Nat × Nat) : List (Nat × Nat) → List (Nat × Nat)
  | [] => [x]
  | y :: t => if x.1 ≤ y.1 then x :: y :: t else y :: insBlock x t

/-- The free runs between sorted blocks from address `a` to address `e`, as address and MiB. -/
def freeRuns (a e : Nat) : List (Nat × Nat) → List (Nat × Nat)
  | [] => if a < e then [(a, (e - a) / 2 ^ 20)] else []
  | (b, n) :: t => (if a < b then [(a, (b - a) / 2 ^ 20)] else []) ++ freeRuns (max a (b + n * 2 ^ 20)) e t

/-- The free runs of quadrant q's region. -/
def State.gaps (s : State) (q : Nat) : List (Nat × Nat) :=
  freeRuns (s.regionBase q) (s.regionBase q + s.regionMib q * 2 ^ 20) ((s.blocks q).foldr insBlock [])

/-- LARGEST_FREE of a quadrant in MiB. -/
def State.largestFree (s : State) (q : Nat) : Nat := (s.gaps q).foldl (fun m g => max m g.2) 0

/-- First fit from the lowest address (R153). -/
def State.fitBlock (s : State) (q mib : Nat) : Option Nat := ((s.gaps q).find? (fun g => decide (mib ≤ g.2))).map Prod.fst

/-! ### Pool slots (R169 to R172) -/

/-- Slot k of a stream. -/
def Stream.slot (t : Stream) (k : Nat) : Slot := mgetD t.slots k {}

/-- Changes slot k of stream n. -/
def State.modSlot (s : State) (n k : Nat) (f : Slot → Slot) : State :=
  s.modStream n (fun t => { t with slots := mset t.slots k (f (t.slot k)) })

/-- A slot is free (R169). -/
def Slot.isFree (k : Slot) : Bool := k.mark == .unused && !k.pending && !k.coding && k.readers == 0

/-- The first free slot of a stream. -/
def Stream.freeSlot (t : Stream) : Option Nat := (List.range t.poolSlots).find? (fun k => (t.slot k).isFree)

/-- A slot is given to a new picture (R169). -/
def Slot.give (k : Slot) (w h order cvs : Nat) : Slot :=
  { gen := (k.gen + 1) % 65536, coding := true, width := w, height := h, orderIndex := order, cvs := cvs }

/-- The picture in a slot comes before another key in output order (R174). -/
def Slot.outBefore (a : Slot) (cvs : Nat) (key : Int) (order : Nat) : Bool :=
  decide (a.cvs < cvs) || (a.cvs == cvs && (decide (a.outKey < key) || (a.outKey == key && decide (a.orderIndex < order))))

/-- The slot of the least picture under `lt` among those that `p` picks. -/
def Stream.pickSlot (t : Stream) (p : Slot → Bool) (lt : Slot → Slot → Bool) : Option Nat :=
  (List.range t.poolSlots).foldl (fun (o : Option Nat) k =>
    if p (t.slot k) then
      match o with
      | some m => if lt (t.slot k) (t.slot m) then some k else o
      | none => some k
    else o) none

/-- The earliest picture in output order among those that `p` picks. -/
def Stream.firstOut (t : Stream) (p : Slot → Bool) : Option Nat :=
  t.pickSlot p (fun a b => a.outBefore b.cvs b.outKey b.orderIndex)

/-- One step of R171 in normal service: the oldest SHORT picture, else the oldest LONG one, loses its mark, else the
earliest pending picture loses OUTPUT_PENDING. -/
def State.evict (s : State) (n : Nat) : State :=
  let t := s.stream n
  let old := fun (m : RefMark) => t.pickSlot (fun k => k.mark == m && !k.coding) (fun a b => decide (a.orderIndex < b.orderIndex))
  match (old .short).orElse (fun _ => old .long) with
  | some k => s.modSlot n k (fun y => { y with mark := .unused, longIdx := 0xFF })
  | none =>
    match t.firstOut (fun k => k.pending && !k.coding) with
    | some k => (s.modSlot n k (fun y => { y with pending := false, released := false })).modStream n
        (fun t => { t with droppedOutput := min (t.droppedOutput + 1) 65535 })
    | none => s

/-- Evicts until a slot is free. -/
def State.makeRoom (s : State) (n : Nat) : Nat → State
  | 0 => s
  | f + 1 => if (s.stream n).freeSlot.isSome then s else (s.evict n).makeRoom n f

/-- Fills every stored sample of a picture with mid-grey (R172). -/
def Geom.grey (g : Geom) (m : List Host.Cell) : List Host.Cell :=
  let v := 2 ^ (g.depth - 1)
  ((List.range 2).foldl (fun m pl =>
    if pl = 1 ∧ g.chroma = 0 then m
    else (List.range (roundUp (g.planeH pl) 16)).foldl (fun m y =>
      (List.range (roundUp (g.planeW pl) 64)).foldl (fun m x => g.store m pl x y v) m) m) m)

/-- Bytes of a slot up to its motion field: planes and tile headers (R166). -/
def Geom.picBytes (g : Geom) : Nat :=
  let tiles := g.planeTiles 0 + g.planeTiles 1
  tiles * g.tileBytes + (if g.packed then 32 * tiles else 0)

/-- Builds a synthetic reference in slot k (R172, R367): its picture order value, place in output order and mark. -/
def State.synthesize (s : State) (n k : Nat) (grey : Bool) (picId key : Int) (long : Bool) : State :=
  let t := s.stream n
  let near := t.pickSlot (fun y => y.complete && (y.mark != .unused || y.pending) && y.outBefore t.cvs key t.decodeIndex)
    (fun a b => b.outBefore a.cvs a.outKey a.orderIndex)
  let src := if grey then none else near
  let w := (src.map (fun i => (t.slot i).width)).getD (t.field 0)
  let h := (src.map (fun i => (t.slot i).height)).getD (t.field 1)
  let s1 := s.modSlot n k (fun y => { y.give w h t.decodeIndex t.cvs with
    coding := false, synthetic := true, taint := true, rowsDone := ceilDiv h 16, picId := picId, outKey := key,
    mark := if long then .long else .short, entropyEnd := true })
  let g := (s1.stream n).slotGeom k
  match src with
  | some i => s1.write g.base (memGetAll s.mem (t.slotGeom i).base g.picBytes)
  | none => { s1 with mem := g.grey s1.mem }

/-! ### Written pictures (R165, R174, R175) -/

/-- Bytes of output before a 64-byte record, the record starting at a multiple of 64 (R173, R174). -/
def recordAt (base n : Nat) : Nat := roundUp (base + n) 64 - base

/-- The picture record of a slot (R174). -/
def pictureRecord (k : Slot) (fmt pitch next : Nat) : List Byte :=
  leBytes 8 k.pts ++ leBytes 2 k.width ++ leBytes 2 k.height ++
    leBytes 1 fmt ++ leBytes 1 (2 * b2n k.taint + b2n k.concealed) ++ leBytes 1 k.fraction ++ [0] ++
    leBytes 4 (if 0x10 ≤ fmt then 0 else pitch) ++ leBytes 4 next ++ leBytes 4 k.orderIndex ++ List.replicate 36 0

/-- The runs that writing slot k of stream n puts behind an address, with the record, and their end; none when OUT_FORMAT or
OUT_PITCH breaks R163 or R165. Film grain is not the spec's to compute: a grained picture's samples are free. -/
def State.pictureRuns (s : State) (n k fmt pitch next base : Nat) (grain : Bool) : Option (List (Nat × List Byte) × Nat) :=
  let g := (s.stream n).slotGeom k
  match fmtOf fmt with
  | none => none
  | some f =>
    if !fmtFits f g.chroma ∨ !pitchOk f base pitch g.w then none
    else
      let l0 := g.runs s.mem f pitch
      let l := if grain ∧ ((s.stream n).slot k).grain then
          l0.map (fun r => (r.1, (List.range r.2.length).map (fun i => BitVec.ofNat 8 (Config.freeValue (s.free + r.1 + i)))))
        else l0
      let e := recordAt base (runsEnd l)
      some (l ++ [(e, pictureRecord ((s.stream n).slot k) fmt pitch next)], e + 64)

/-- Every tile header that a read of slot k meets passes its CHECK (R168). -/
def State.tilesOk (s : State) (n k : Nat) : Bool := ((s.stream n).slotGeom k).headersOk s.mem

/-- The pending pictures of a stream in output order (R174). -/
def Stream.drainOrder (t : Stream) : Nat → List Nat → List Nat
  | 0, _ => []
  | f + 1, gone =>
    let left := { t with slots := t.slots.filter (fun y => !gone.contains y.1) }
    match left.firstOut (fun k => k.pending) with
    | some k => k :: t.drainOrder f (k :: gone)
    | none => []

/-! ### The retire point (R35, R36, R444) -/

/-- The job reaches its retire point with OK and this DETAIL. -/
def State.retire (s : State) (j detail : Nat) : State :=
  match s.job j with
  | none => s
  | some x =>
    let s1 := x.staging.foldl (fun t h => t.dropCore h.2) (x.bufs.foldl (fun t h => t.coreToHost h) s)
    let s2 := ((s1.unplace j).modJob j (fun y => { y with
      phase := .retired, status := 0, detail := detail, staging := [], bufs := [] })).migrated j
    match x.stream with
    | some n =>
      if x.opcode = 0x10 ∨ x.opcode = 0x20 then s2.modStream n (fun t => { t with
        framesDone := (t.framesDone + 1) % 2 ^ 32
        last64 := if x.core < 48 then (x.core / 12 :: t.last64).take 64 else t.last64 })
      else s2
    | none => s2

/-! ### Errors of decode streams (R359, R369 to R371) -/

/-- Where an error lies (R370, R371). -/
structure ErrAt where
  cls : Nat
  cause : Nat
  detector : Nat
  byte : Nat := 0xFFFFFFFF
  unit : Nat := 0xFFFFFFFF
  ctu : Nat := 0xFFFFFFFF
  missing : Int := 0
  deriving DecidableEq, Repr

/-- DETAIL of the three bitstream errors (R370). -/
def ErrAt.detail (e : ErrAt) : Nat := e.cls * 65536 + e.cause * 256 + e.detector * 16

/-- STATUS of a strict-mode error (R369). -/
def ErrAt.status (e : ErrAt) : Nat := if e.cause = 0x30 then 0x21 else if e.cause = 0x23 ∨ e.cause = 0x28 then 0x22 else 0x20

/-- The error record (R371). -/
def ErrAt.bytes (e : ErrAt) (tag index : Nat) : List Byte :=
  let off := if e.detector = 3 ∨ e.detector = 4 then 0xFFFFFFFF else e.byte
  leBytes 4 tag ++ leBytes 4 off ++ leBytes 4 e.unit ++ leBytes 4 e.ctu ++ leBytes 1 e.cls ++ leBytes 1 e.cause ++
    leBytes 1 e.detector ++ [0] ++ leBytes 4 index ++ leBytes 4 (if e.cause = 0x30 then narrow 32 e.missing else 0) ++
    List.replicate 4 0

/-- The strict-mode latch (R369, R371): the record, the failing job, the other jobs of the stream, and STOPPED. -/
def State.latch (s : State) (j : Nat) (e : ErrAt) : State :=
  match s.job j with
  | none => s
  | some x =>
    match x.stream with
    | none => s
    | some n =>
      let t := s.stream n
      let s1 := if t.field 42 = 0 then s else s.writeTagged (t.field 42) (e.bytes x.tag x.coding)
      let s2 := (s1.refuse j (e.status, e.detail)).modStream n (fun t => { t with state := .stopped })
      (s2.jobs.filter (fun (y : Nat × Job) => y.2.live && y.2.stream == some n && y.2.opcode != 0x50 && y.2.opcode != 0x02 &&
        y.2.opcode != 0x01)).foldl (fun u y => u.refuse y.1 (0x11, 0)) s2

end Sys2Proof.Machine
end

