-- ==== Sys2Proof/Machine/Conceal.lean ====
section
/-!
DEFINITION. Which CTUs of a decoded picture its segments cover, and the concealment of the others (R170, R360, R362 to R365).
A CTU is named by its position in decoding order.
-/
namespace Sys2Proof.Machine

/-! ### The picture in CTUs (R360, R362) -/

/-- CTU columns and rows of the picture in a slot. -/
def Job.ctuGrid (x : Job) (k : Slot) : Nat × Nat := (ceilDiv k.width (max 1 x.ctu), ceilDiv k.height (max 1 x.ctu))

/-- The CTUs of a picture. -/
def Job.ctuCount (x : Job) (k : Slot) : Nat := (x.ctuGrid k).1 * (x.ctuGrid k).2

/-- Column and row of the CTU at a position of the decoding order. -/
def Job.ctuAt (x : Job) (k : Slot) (p : Nat) : Nat × Nat :=
  let r := if x.scan = [] then p else x.scan.getD p p
  let cols := max 1 (x.ctuGrid k).1
  (r % cols, r / cols)

/-- The position of the CTU in a column and row. -/
def Job.ctuPos (x : Job) (k : Slot) (cx cy : Nat) : Nat :=
  let r := cy * (x.ctuGrid k).1 + cx
  if x.scan = [] then r else x.scan.idxOf r

/-- What has become of a CTU: 0 no segment covers it, 1 decoded, 2 concealed. -/
def Job.covered (x : Job) (p : Nat) : Nat := mgetD x.cover p 0

/-- The CTU in a column and row is covered, and how. -/
def Job.coveredAt (x : Job) (k : Slot) (cx cy : Nat) : Nat := x.covered (x.ctuPos k cx cy)

/-- The 16-row units whose CTUs are all decoded or concealed (R362): the units that ROWS_DONE may count. -/
def Job.coveredRows (x : Job) (k : Slot) : Nat :=
  let g := x.ctuGrid k
  let rowOk := fun (cy : Nat) => (List.range g.1).all (fun cx => x.coveredAt k cx cy != 0)
  let full := ((List.range g.2).takeWhile rowOk).length
  if full = g.2 then ceilDiv k.height 16 else full * x.ctu / 16

/-- ROWS_DONE of the own slot follows the posts of the job's cores, and in a decoded picture not past an uncovered CTU (R170,
R253, R362). The last unit ends the picture and fills its edges. -/
def State.countRows (s : State) (j stn k : Nat) : State :=
  match s.job j with
  | none => s
  | some x =>
    let y := mgetD (s.stream stn).slots k {}
    let posted := match x.cores with
      | [] => 0
      | c :: t => t.foldl (fun m n => min m (mgetD x.posts n 0)) (mgetD x.posts c 0)
    let done := if (s.stream stn).encode then posted else min posted (x.coveredRows y)
    let g := (s.stream stn).slotGeom k
    let full := ceilDiv g.h 16
    let s1 := s.modStream stn (fun st => { st with
      slots := mupd st.slots k (fun y =>
        let r := max y.rowsDone done
        { y with rowsDone := r, coding := y.coding && decide (r < full) }) })
    if done = full ∧ y.rowsDone < full then
      { s1 with mem := if g.chroma = 0 then g.replicate s1.mem 0 else g.replicate (g.replicate s1.mem 0) 1 }
    else s1

/-! ### Methods (R363) -/

/-- The median of three. -/
def median3 (a b c : Int) : Int := max (min a b) (min (max a b) c)

/-- The vector of the candidates that exist (R363): their component-wise median, mean, or the one. -/
def concealVector : List (Int × Int) → Option (Int × Int)
  | [] => none
  | [a] => some a
  | [a, b] => some ((a.1 + b.1).tdiv 2, (a.2 + b.2).tdiv 2)
  | a :: b :: c :: _ => some (median3 a.1 b.1 c.1, median3 a.2 b.2 c.2)

/-- A vector component in 1/den samples, rounded to whole samples with halves toward zero (R363). -/
def roundWhole (v : Int) (den : Nat) : Int :=
  let n := (2 * v.natAbs + den - 1) / (2 * max 1 den)
  if v < 0 then -(n : Int) else (n : Int)

/-- The candidates of a CTU: only decoded blocks give one (R363). -/
def Job.candidates (x : Job) (k : Slot) (p : Nat) (m : ConcealMv) : List (Int × Int) :=
  let c := x.ctuAt k p
  (if 0 < c.2 ∧ x.coveredAt k c.1 (c.2 - 1) = 1 then m.above.toList else []) ++
    (if 0 < c.1 ∧ x.coveredAt k (c.1 - 1) c.2 = 1 then m.left.toList else []) ++ m.col.toList

/-- The reference that MOTION and COPY take samples from: reference 0, or for COPY the nearest complete picture before this one in
output order. -/
def Stream.concealRef (t : Stream) (x : Job) (k : Slot) : Option Nat :=
  match x.ref0 with
  | some r => some r
  | none => t.pickSlot (fun y => y.complete && (y.mark != .unused || y.pending) && y.outBefore k.cvs k.outKey k.orderIndex)
      (fun a b => b.outBefore a.cvs a.outKey a.orderIndex)

/-- The covered CTU nearest above (or below) in a column, by its row. -/
def Job.nearRow (x : Job) (k : Slot) (cx cy : Nat) (below : Bool) : Option Nat :=
  if below then ((List.range ((x.ctuGrid k).2 - (cy + 1))).map (fun i => cy + 1 + i)).find? (fun r => x.coveredAt k cx r != 0)
  else (List.range cy).reverse.find? (fun r => x.coveredAt k cx r != 0)

/-- How a CTU is concealed. -/
inductive ConcealWay
  | motion (ref : Nat) (mv : Int × Int)
  | copy (ref : Nat)
  | spatial (above below : Option Nat)
  | grey
  deriving DecidableEq, Repr

/-- The method of a concealed CTU (R363): the first usable from CONCEAL's own on, or from MOTION on under AUTO. -/
def Stream.concealWay (t : Stream) (x : Job) (k : Slot) (conceal p : Nat) (m : ConcealMv) : ConcealWay :=
  let c := x.ctuAt k p
  let motion := match x.ref0, concealVector (x.candidates k p m) with
    | some r, some v => if conceal = 0 then some (ConcealWay.motion r v) else none
    | _, _ => none
  let copy := (t.concealRef x k).bind (fun r => if conceal ≤ 1 then some (ConcealWay.copy r) else none)
  let up := x.nearRow k c.1 c.2 false
  let dn := x.nearRow k c.1 c.2 true
  let spatial := if conceal ≤ 2 ∧ (up.isSome ∨ dn.isSome) then some (ConcealWay.spatial up dn) else none
  ((motion.orElse fun _ => copy).orElse fun _ => spatial).getD .grey

/-- Sample (px, py) of a plane of the picture as the method gives it. SPATIAL's rounding is to nearest, and a chroma vector is the
luma vector in chroma samples, rounded as MOTION states (DESIGN CHOICE, log entry 106). -/
def State.concealSample (s : State) (t : Stream) (x : Job) (own : Nat) (w : ConcealWay) (pl px py : Nat) : Nat :=
  let g := t.slotGeom own
  let d := if pl = 0 then (1, 1) else chromaDiv g.chroma
  let ref := fun (r : Nat) (dx dy : Int) =>
    let h := t.slotGeom r
    let z := planeSize h.w h.h h.chroma pl
    if pl ≠ 0 ∧ h.chroma = 0 then 2 ^ (g.depth - 1)
    else s.slotSample t r pl (clampTo (px + dx) z.1) (clampTo (py + dy) z.2)
  match w with
  | .motion r v => ref r (roundWhole v.1 (2 ^ x.mvFrac * d.1)) (roundWhole v.2 (2 ^ x.mvFrac * d.2))
  | .copy r => ref r 0 0
  | .spatial up dn =>
    let z := planeSize g.w g.h g.chroma pl
    let ua := up.map (fun r => min ((r + 1) * x.ctu / d.2) z.2 - 1)
    let da := dn.map (fun r => r * x.ctu / d.2)
    match ua, da with
    | some a, some b =>
      let n := b - a
      (s.slotSample t own pl px a * (b - py) + s.slotSample t own pl px b * (py - a) + n / 2) / max 1 n
    | some a, none => s.slotSample t own pl px a
    | none, some b => s.slotSample t own pl px b
    | none, none => 2 ^ (g.depth - 1)
  | .grey => 2 ^ (g.depth - 1)

/-- Writes the samples of one plane of a concealed CTU. -/
def State.concealPlane (s : State) (t : Stream) (x : Job) (own : Nat) (w : ConcealWay) (c : Nat × Nat) (pl : Nat) : State :=
  let g := t.slotGeom own
  let d := if pl = 0 then (1, 1) else chromaDiv g.chroma
  let z := planeSize g.w g.h g.chroma pl
  let bw := x.ctu / d.1
  let bh := x.ctu / d.2
  { s with mem := (List.range (bw * bh)).foldl (fun m e =>
      let px := c.1 * bw + e % max 1 bw
      let py := c.2 * bh + e / max 1 bw
      if px < z.1 ∧ py < z.2 then
        let v := s.concealSample t x own w pl px py
        if pl = 0 then g.store m 0 px py v else g.store m 1 (2 * px + (pl - 1)) py v
      else m) s.mem }

/-- The slot that a method reads. -/
def ConcealWay.ref : ConcealWay → Option Nat
  | .motion r _ => some r
  | .copy r => some r
  | _ => none

/-- Conceals the CTU at position p of job j's picture (R363, R364): its samples, its mark, and the slot that it read (R368). -/
def State.concealCtu (s : State) (j n own p : Nat) (mvs : Map ConcealMv) : State :=
  match s.job j with
  | none => s
  | some x =>
    let t := s.stream n
    let w := t.concealWay x (t.slot own) (fv (s.effMode x t) 40) p (mgetD mvs p {})
    let c := x.ctuAt (t.slot own) p
    let s1 := ([0] ++ (if (t.slotGeom own).chroma = 0 then [] else [1, 2])).foldl (fun (u : State) pl => u.concealPlane t x own w c pl) s
    s1.modJob j (fun y => { y with
      cover := mset y.cover p 2
      reads := match w.ref with
        | some r => if y.reads.contains r then y.reads else r :: y.reads
        | none => y.reads })

/-- A concealment waits for rows of its reference that are not final (R216, R363). -/
def State.concealHeld (s : State) (j : Nat) (x : Job) (n own : Nat) (l : List Nat) (mvs : Map ConcealMv) : Bool :=
  let t := s.stream n
  let k := t.slot own
  l.any (fun p =>
    let w := t.concealWay x k (fv (s.effMode x t) 40) p (mgetD mvs p {})
    match w with
    | .motion r v =>
      !(t.slot r).covers (((x.ctuAt k p).2 + 1) * x.ctu - 1 + roundWhole v.2 (2 ^ x.mvFrac)) (s.margin j)
    | .copy r => !(t.slot r).covers (((x.ctuAt k p).2 + 1) * x.ctu - 1 : Nat) (s.margin j)
    | _ => false)

/-- Conceals a list of CTUs in order; the rows that they complete are then counted (R362). -/
def State.conceal (s : State) (j n own : Nat) (l : List Nat) (mvs : Map ConcealMv) : State :=
  if l = [] then s else (l.foldl (fun (u : State) p => u.concealCtu j n own p mvs) s).countRows j n own

/-- The positions from `a` up to `b` that no segment has covered. -/
def Job.gap (x : Job) (a b : Nat) : List Nat := ((List.range (b - a)).map (fun i => a + i)).filter (fun p => x.covered p == 0)

/-- The run that an error at position `p` of a segment conceals (R360): from ERR_BACKOFF before it, but not before the segment's
first CTU nor in rows already counted, to the segment's last. -/
def Job.errorRun (x : Job) (k : Slot) (backoff first p last : Nat) : List Nat :=
  let l := (List.range (last + 1 - first)).map (fun i => first + i)
  l.filter (fun q => decide (p ≤ q + backoff) && decide (16 * k.rowsDone ≤ (x.ctuAt k q).2 * x.ctu))

/-- The output area of a decoded picture: left, top, width and height (R365). -/
def Job.outArea (x : Job) (k : Slot) : Nat × Nat × Nat × Nat :=
  if x.crop.2.2.1 = 0 then (0, 0, k.width, k.height) else x.crop

/-- Luma samples of the concealed CTUs inside the output area (R365). -/
def Job.concealedLuma (x : Job) (k : Slot) : Nat :=
  let area := x.outArea k
  let side := fun (c lo n size : Nat) => min (min ((c + 1) * x.ctu) size) (lo + n) - max (c * x.ctu) lo
  (x.cover.map (fun e =>
    let c := x.ctuAt k e.1
    if e.2 = 2 then side c.1 area.1 area.2.2.1 k.width * side c.2 area.2.1 area.2.2.2 k.height else 0)).sum

end Sys2Proof.Machine
end

