-- ==== Sys2Proof/Machine/RateModel.lean ====
section
/-!
DEFINITION. The frame model of rate control: plans, budgets, frame QPs and the CPB (R341 to R349, R353, R354).
-/
namespace Sys2Proof.Machine

/-- TF in 1/16 of a picture type and temporal layer (R343). -/
def typeFactor (picType tid : Nat) : Nat :=
  match picType with
  | 0 => 64
  | 1 => 48
  | 2 => 16
  | _ => if tid = 0 then 16 else if tid = 1 then 10 else if tid = 2 then 8 else 6

/-- lg(x) of R346, in 1/256. -/
def lg256 (x : Nat) : Int :=
  let l := Nat.log2 (max 1 x)
  (256 * l + (max 1 x) * 256 / 2 ^ l : Nat) - 256

/-- A signed mode field of one byte: I_OFFSET (R373). -/
def sfield (v : List Nat) (f : Nat) : Int := signed 8 (fv v f)

/-- The plan of a frame in CBR and VBR, without its clamps (R343): `cs` are C(j) and TF(j) of the window's frames. -/
def planRaw (t : Nat) (cs : List (Nat × Nat)) : Nat :=
  match cs with
  | [] => t
  | (c, f) :: _ => t * cs.length * (c * f) / max 1 ((cs.map (fun x => x.1 * x.2)).sum)

/-- The least frame of R343. -/
def planLeast (hdr total minBits tail : Nat) : Nat := hdr + total * minBits + tail

/-- repay of R344. -/
def repayOf (plan : Nat) (debt : Int) (frames : Nat) : Int :=
  let q : Int := (plan / 4 : Nat)
  max (-q) (min q (debt.tdiv (max 1 frames)))

/-- The frame close that frame c's model may see: that of frame c − D or before (R345). -/
def RateState.seen (r : RateState) (c d : Nat) : Option RateClose := r.closes.find? (fun x => decide (x.idx + d ≤ c))

/-- The live frames of the stream between the last close that the model sees and frame c, which count at their budgets
(R345). -/
def State.flightBudgets (s : State) (n c from' : Nat) : List Nat :=
  ((s.jobs.filter (fun (y : Nat × Job) => y.2.stream == some n && y.2.indexed && decide (from' ≤ y.2.coding) &&
    decide (y.2.coding < c))).map (fun y => y.2.budget))

/-- B(N) as the budget of frame c sees it (R345, R348). -/
def State.cpbBefore (s : State) (n c : Nat) (v : List Nat) (d : Nat) : Int :=
  let t := s.stream n
  match t.rc.seen c d with
  | some x => (s.flightBudgets n c (x.idx + 1)).foldl (cpbNext v) x.full
  | none => (s.flightBudgets n c 0).foldl (cpbNext v) (cpbInit v)

/-- QP_BASE of R346, from the history of the picture's type. -/
def qpFromHist (h : Option (Nat × Nat × Nat × Nat)) (start c budget lo hi : Nat) : Nat :=
  match h with
  | none => start
  | some (_, sz, q, cr) =>
    let e := sz * c / max 1 cr
    let x : Int := (q : Int) + (6 * (lg256 e - lg256 budget) + 128) / 256
    (max (lo : Int) (min x (hi : Int))).toNat

/-- The starting QP of a picture type in CQP, or without history (R346, R347). -/
def qpStart (v : List Nat) (base picType tid : Nat) : Nat :=
  let q : Int := if picType ≤ 1 then (base : Int) + sfield v 28 else if picType = 3 then (base + fv v 29 * tid : Nat) else (base : Int)
  (max 0 (min q 63)).toNat

/-- What a frame set starts with (R347, R354). -/
structure FramePlan where
  budget : Nat
  plan : Nat
  qp : Nat
  qpMin : Nat
  qpMax : Nat
  rowCtrl : Nat
  debt : Int
  deriving DecidableEq, Repr

/-- The plan of frame x of stream n at its frame start (R343 to R348, R354): header bits, C(N) and the window. -/
def State.framePlan (s : State) (x : Job) (n : Nat) (picType tid hdr c : Nat) (cs : List (Nat × Nat)) (total minBits tail : Nat) :
    FramePlan :=
  let t := s.stream n
  let v := s.effMode x t
  let d := max 1 (min t.overlap (s.devField x.epoch 3))
  let debt : Int := ((t.rc.seen x.coding d).map RateClose.debt).getD 0
  let tf := typeFactor picType tid
  let least := planLeast hdr total minBits tail
  let cap := frameBits v (fv v 22) * tf / 16
  let raw := planRaw (frameBits v (fv v 21)) cs
  let base := match fv v 19 with
    | 2 => max least (min raw cap)
    | 3 => cap
    | _ => max least raw
  let plan := if x.present 0 then max (x.over 4 4) least else base
  let paid : Int := (plan : Int) - repayOf plan debt (fv v 35)
  let hrd : Int := s.cpbBefore n x.coding v d - (fv v 25 * cpbSize v / 256 : Nat)
  let budget := (max 1 (if fv v 20 = 1 then min paid hrd else paid)).toNat
  let lo := if x.present 2 then x.over 9 1 else fv v 30
  let hi := if x.present 2 then x.over 10 1 else fv v 31
  let hist := ((t.rc.seen x.coding d).map RateClose.hist).getD []
  let modeQp := match fv v 19 with
    | 0 => qpStart v (fv v 26) picType tid
    | 3 =>
      if fv v 20 = 1 then qpFromHist (hist.find? (fun h => h.1 == picType)) (qpStart v (fv v 27) picType tid) c budget lo hi
      else qpStart v (fv v 27) picType tid
    | _ => qpFromHist (hist.find? (fun h => h.1 == picType)) (qpStart v (fv v 26) picType tid) c budget lo hi
  let cqp := fv v 19 == 0 && !x.present 0
  { budget := if cqp then 0xFFFFFFFF else budget
    plan := if cqp then 0 else if fv v 19 = 3 then budget else plan
    qp := if x.present 1 then x.over 8 1 else modeQp
    qpMin := lo, qpMax := hi
    rowCtrl := (if fv v 19 = 3 then 256 else 0) + (if x.present 1 then 0 else fv v 34)
    debt := debt }

/-- Writes the registers of a frame set at frame start (R333, R347, R353): the tile's share of the frame's figures. -/
def State.loadSet (s : State) (core j : Nat) (f : FramePlan) (hdr tail total cols minBits guard lag budget map0 map1 pitch : Nat) :
    State :=
  match s.ownSet core j with
  | none => s
  | some k =>
    let w := fun (m : Map Word) (p : Nat × Nat) => mset m p.1 (BitVec.ofNat 32 p.2)
    s.modRc core k (fun r => { r with
      regs := [(0x00, budget), (0x01, f.plan), (0x02, hdr), (0x03, tail), (0x04, total), (0x05, cols), (0x06, minBits),
        (0x07, guard), (0x08, lag), (0x09, f.qp), (0x0A, f.qpMax * 256 + f.qpMin), (0x0B, f.rowCtrl), (0x0C, map0 % 2 ^ 32),
        (0x0D, map0 / 2 ^ 32), (0x0E, map1 % 2 ^ 32), (0x0F, map1 / 2 ^ 32), (0x16, narrow 32 f.debt), (0x18, pitch)].foldl w r.regs })

/-- The budgets of the tiles of a frame (R353): shares by CTUs, the leftmost tile taking the remainder. -/
def tileBudgets (budget hdr total : Nat) (ctus : List Nat) : List Nat :=
  if budget = 0xFFFFFFFF then ctus.map (fun _ => budget)
  else
    let l := ctus.map (fun c => (budget - hdr) * c / max 1 total)
    match l with
    | [] => []
    | a :: t => (a + (budget - hdr - l.sum)) :: t

end Sys2Proof.Machine
end

