-- ==== Sys2Proof/Machine/Lookahead.lean ====
section
/-!
DEFINITION. The lookahead passes and the adaptive QP map (R225, R350 to R352, R355).
-/
namespace Sys2Proof.Machine

/-- The 8×8 block columns and rows of the copy (R350, R351). -/
def Stream.copyBlocks (t : Stream) : Nat × Nat := ((t.copySize.1 + 7) / 8, (t.copySize.2 + 7) / 8)

/-- min(intra, inter) of a block (R350). -/
def LookStat.least (b : LookStat) : Nat := min b.intra b.inter

/-- C(N) of a pass (R350). -/
def lookCost (l : List LookStat) : Nat := max 1 (l.map LookStat.least).sum

/-- The positions lo to hi of a line of CTUs or of samples that a run of `len` from `a` touches, scaled from units of `num` to units
of `den`. -/
def touched (a len num den : Nat) : List Nat :=
  let lo := a * num / den
  (List.range (ceilDiv ((a + len) * num) den - lo)).map (fun i => lo + i)

/-- The cost c of every CTU of a picture in raster order, from the statistics of its copy (R352). -/
def Stream.ctuCosts (t : Stream) (l : List LookStat) (ctu : Nat) : List Nat :=
  let b := t.copyBlocks
  let cols := ceilDiv (t.field 0) ctu
  let rows := ceilDiv (t.field 1) ctu
  let unit := 8 * t.copyScale
  (List.range (cols * rows)).map (fun i =>
    let xs := (touched (i % cols) 1 ctu unit).filter (fun x => decide (x < b.1))
    let ys := (touched (i / cols) 1 ctu unit).filter (fun y => decide (y < b.2))
    max 1 ((ys.flatMap (fun y => xs.map (fun x => ((l[y * b.1 + x]?).map LookStat.least).getD 0))).sum))

/-- The costs of a lower rendition's CTUs: the top's CTU costs over the area that each covers when scaled to the top's size
(R355). A top CTU that the area touches counts whole (DESIGN CHOICE, log entry 105). -/
def scaledCosts (top low : Stream) (costs : List Nat) (topCtu ctu : Nat) : List Nat :=
  let cols := ceilDiv (low.field 0) ctu
  let rows := ceilDiv (low.field 1) ctu
  let tc := ceilDiv (top.field 0) topCtu
  let tr := ceilDiv (top.field 1) topCtu
  (List.range (cols * rows)).map (fun i =>
    let xs := (touched (i % cols) 1 (ctu * top.field 0) (topCtu * max 1 (low.field 0))).filter (fun x => decide (x < tc))
    let ys := (touched (i / cols) 1 (ctu * top.field 1) (topCtu * max 1 (low.field 1))).filter (fun y => decide (y < tr))
    max 1 ((ys.flatMap (fun y => xs.map (fun x => costs.getD (y * tc + x) 0))).sum))

/-- The byte of the adaptive map of a CTU of cost c, where m is the mean cost (R352). -/
def aqByte (strength c m : Nat) : Int := max (-6) (min 6 (((strength : Int) * (lg256 c - lg256 m) + 128) / 256))

/-- The adaptive map of a picture, one byte per CTU in rows of `pitch` bytes (R339, R352). The mean is truncated (DESIGN CHOICE,
log entry 105). -/
def aqMap (strength : Nat) (costs : List Nat) (cols pitch : Nat) : List Byte :=
  let m := max 1 (costs.sum / max 1 costs.length)
  (List.range (ceilDiv costs.length (max 1 cols))).flatMap (fun y =>
    (((costs.drop (y * cols)).take cols).map (fun c => BitVec.ofInt 8 (aqByte strength c m))) ++
      List.replicate (pitch - cols) 0)

/-- The first byte and the size of the part of the stream block in which an adaptive map lies: the lookahead area, or the context
area when lookahead is off (R166, R352). -/
def Stream.aqArea (t : Stream) : Nat × Nat :=
  if t.lookCap = 0 then (t.blockBase, 524288)
  else (t.slotAddr t.poolSlots, lookArea (setf (setf t.openVec 32 t.lookCap) 15 (fv t.openVec 15)))

/-- Writes the adaptive map of a frame and answers its tagged address, 0 for none (R352). Where in its area it lies is not stated:
an open 64-byte unit (log entry 105). -/
def State.writeAq (s : State) (t : Stream) (strength : Nat) (costs : List Nat) (cols pitch : Nat) : Nat × State :=
  if strength = 0 ∨ costs = [] then (0, s)
  else
    let l := aqMap strength costs cols pitch
    let r := s.draw
    let a := t.aqArea.1 + r.1 % ((t.aqArea.2 - l.length) / 64 + 1) * 64
    (2 ^ 63 + a, r.2.writeTagged (2 ^ 63 + a) l)

end Sys2Proof.Machine
end

