-- ==== Sys2Proof/Machine/PlacerOps.lean ====
section
/-!
DEFINITION. How the Placer decides: tempo, scores, tile counts and splits, homes, row windows, and its log (R179 to R206,
R585, R590, R591).
-/
namespace Sys2Proof.Machine

/-! ### Fractions -/

/-- A fraction of natural numbers. -/
structure Frac where
  num : Nat := 0
  den : Nat := 1
  deriving DecidableEq, Repr

/-- The sum of two fractions. -/
def Frac.add (a b : Frac) : Frac := if a.den = b.den then ⟨a.num + b.num, a.den⟩ else ⟨a.num * b.den + b.num * a.den, a.den * b.den⟩
/-- One fraction is below another. -/
def Frac.lt (a b : Frac) : Bool := decide (a.num * b.den < b.num * a.den)
/-- A fraction times a number. -/
def Frac.scale (a : Frac) (k : Nat) : Frac := ⟨a.num * k, a.den⟩
/-- A whole number. -/
def Frac.nat (k : Nat) : Frac := ⟨k, 1⟩

/-! ### Cores and quadrants -/

/-- The Placer's record of quadrant q. -/
def State.quad (s : State) (q : Nat) : QuadPlace := mgetD s.placer.quads q {}

/-- Changes the Placer's record of quadrant q. -/
def State.modQuad (s : State) (q : Nat) (f : QuadPlace → QuadPlace) : State :=
  { s with placer := { s.placer with quads := mset s.placer.quads q (f (s.quad q)) } }

/-- Core n is enabled and IDLE or RUNNING, or its quadrant is parked and the core not fenced (R182, R188). -/
def State.inService (s : State) (n : Nat) : Bool :=
  let g := s.page (corePage n)
  if (s.quad (n / 12)).parked then g.enable && !g.fence && g.state != .fenced
  else g.enable && !g.draining && (g.state == .idle || g.state == .running)

/-- Core n counts as in service for the number of cores of a frame (R188): enabled and not FENCED, or parked and not fenced. -/
def State.countable (s : State) (n : Nat) : Bool :=
  let g := s.page (corePage n)
  g.enable && g.state != .fenced && !((s.quad (n / 12)).parked && g.fence)

/-- PT(n) as R180 computes it at each refresh. It holds while the core is parked, at the value that QUADRANT_PARK leaves, and for
100 µs after. -/
def State.ptOf (s : State) (n : Nat) : Nat := (s.core n).pt

/-- PT(n) for placement: 0 for a core out of service (R180). -/
def State.ptPlace (s : State) (n : Nat) : Nat := if s.inService n then s.ptOf n else 0

/-- The epoch that core n has applied (PAGE_EPOCH). -/
def State.coreEpoch (s : State) (n : Nat) : Nat := (s.page (corePage n)).epoch

/-- Core n holds an epoch (R201); a core of a parked quadrant applies CURRENT_EPOCH before it takes work (R385). -/
def State.holdsEpoch (s : State) (n e : Nat) : Bool :=
  ((s.quad (n / 12)).parked && e == s.modes.current) || s.coreEpoch n == e || (s.core n).retained == some e

/-- A policy register in force (PLACER.POLICY). -/
def State.policy (s : State) (k : Nat) : Word := s.active 5 (0x040 + 4 * (k % 8))

/-- LOAD_CAP of a policy slot. -/
def State.loadCap (s : State) (k : Nat) : Nat := fld (s.policy k) 7 0

/-- The image of a stream. -/
def State.image (s : State) (t : Stream) : Option PersEntry := mget s.pers.dir t.pers

/-- The cores that PIN_MASK allows (R179). -/
def pinned (mask n : Nat) : Bool := mask == 0 || bit mask n

/-- The cores on which a job may run (R179, R185). -/
def State.allowed (s : State) (x : Job) : List Nat :=
  match x.stream with
  | some n =>
    let t := s.stream n
    (List.range 48).filter (fun c => pinned (t.field 48) c && (x.opcode != 0x50 || c / 12 == t.home))
  | none =>
    let d := x.at 16 8
    if isDev d ∧ devOf d < 2 ^ 37 then (List.range 48).filter (fun c => c / 12 == devOf d / 2 ^ 35) else List.range 48

/-- A slot holds a picture. -/
def Slot.holds (k : Slot) : Bool := k.mark != .unused || k.pending

/-- The slot that SLOT or PIC_ID of a REF_OP selects (R177). -/
def Stream.select (t : Stream) (x : Job) : Option Nat :=
  if x.at 9 1 ≠ 0xFF then
    (if x.at 9 1 < t.poolSlots ∧ (t.slot (x.at 9 1)).holds then some (x.at 9 1) else none)
  else (List.range t.poolSlots).find? (fun k => (t.slot k).holds && narrow 32 (t.slot k).picId == x.at 12 4)

/-- Bytes that an EXPORT writes: the picture that it selects, in FORMAT (R163, R165, R590). -/
def exportBytes (t : Stream) (x : Job) : Nat :=
  match t.select x, fmtOf (x.at 28 1) with
  | some k, some f =>
    let g := t.slotGeom k
    let c := g.chromaSize f
    if f.t24 then
      let tb := if f.depth = 8 then 1024 else 1536
      (ceilDiv g.w 64 * ceilDiv g.h 16 + ceilDiv (2 * c.1) 64 * ceilDiv c.2 16) * tb
    else f.bytes * (g.w * g.h + 2 * c.1 * c.2)
  | _, _ => 0

/-- Bytes that a COPY, FILL or REF_OP writes (R590). -/
def State.opBytes (s : State) (x : Job) : Nat :=
  if x.opcode = 0x30 then (if x.indirect then (x.frags.map Prod.snd).sum else x.at 24 4)
  else if x.opcode = 0x31 then x.at 24 4
  else if x.at 8 1 = 1 then 336
  else if x.at 8 1 = 4 then
    match x.stream with
    | some n => let t := s.stream n
                exportBytes t x
    | none => 0
  else 0

/-- work_estimate of a coding job of `px` luma pixels at tempo 1.000, in µs (R183). Rates are pixels per second. -/
def State.codeWork (s : State) (x : Job) (px : Nat) : Frac :=
  match x.stream with
  | some n =>
    let t := s.stream n
    match s.image t with
    | some e => ⟨px * 1000000, max 1 (rateOf e.params t.encode (s.effMode x t))⟩
    | none => .nat 0
  | none => .nat 0

/-- The luma pixels of a coding job: of its picture once it has a slot, and of the stream's mode before. -/
def State.jobPx (s : State) (x : Job) : Nat :=
  match x.stream with
  | some n =>
    let t := s.stream n
    match x.slot with
    | some k => (t.slot k).width * (t.slot k).height
    | none => t.field 0 * t.field 1
  | none => 0

/-- work_estimate of a job at tempo 1.000, in µs (R183, R590). -/
def State.workOf (s : State) (x : Job) : Frac :=
  if x.opcode = 0x30 ∨ x.opcode = 0x31 ∨ x.opcode = 0x50 then ⟨64000 + s.opBytes x, 32000⟩
  else s.codeWork x (s.jobPx x)

/-- The part of a placed job that core c has not done, as a fraction of the whole job: its share, less the 16-row units that
the core has reported (R183). -/
def State.leftOf (s : State) (x : Job) (c : Nat) : Frac :=
  let i := (x.cores.zipIdx.find? (fun (p : Nat × Nat) => p.1 == c)).map Prod.snd
  let part : Frac := if x.shares.length ≤ 1 then .nat 1 else ⟨x.shares.getD (i.getD 0) 0, max 1 x.shares.sum⟩
  match x.stream, x.slot with
  | some n, some k =>
    let h := max 1 (ceilDiv ((s.stream n).slot k).height 16)
    ⟨part.num * (h - min h (mgetD x.posts c 0)), part.den * h⟩
  | _, _ => part

/-- queued(c): estimated µs of work placed on core c and not done (R183). -/
def State.queuedOf (s : State) (c : Nat) : Frac :=
  let p := s.core c
  (p.inside ++ p.queue ++ p.side).foldl (fun f j =>
    match s.job j with
    | some x =>
      let w := s.workOf x
      let l := s.leftOf x c
      f.add ⟨w.num * l.num * 0x400, w.den * l.den * max 1 (s.ptOf c)⟩
    | none => f) (.nat 0)

/-- Busy cores of a quadrant (R195). -/
def State.busyIn (s : State) (q : Nat) : Nat := ((List.range 12).filter (fun i => (s.core (12 * q + i)).busy)).length

/-- power(c) of R195. -/
def State.powerOf (s : State) (pol : Word) (c : Nat) : Nat :=
  let q := c / 12
  let others := s.busyIn q - b2n (s.core c).busy
  if (s.quad q).parked then 2000
  else if pol.getLsbD 13 then (if 0 < others then 0 else 100)
  else 10 * s.busyIn q

/-- Ring hops between two quadrants (R183). -/
def hops (a b : Nat) : Nat := let d := (a + 4 - b) % 4; min d (4 - d)

/-- The score of core c for a share of a job, `w` in µs at tempo 1.000 (R183, R203). -/
def State.score (s : State) (x : Job) (w : Frac) (c : Nat) : Frac :=
  let home := x.stream.map (fun n => (s.stream n).home)
  let pol := s.policy ((x.stream.map (fun n => (s.stream n).field 52)).getD 0)
  let sw := if (s.core c).lastStream = x.stream ∧ x.stream.isSome then 0 else 6
  let w1 := w.add (.nat sw)
  let run : Frac := ⟨w1.num * 0x400, w1.den * max 1 (s.ptOf c)⟩
  let fin := (s.queuedOf c).add run
  let h := (home.map (fun q => hops (c / 12) q)).getD 0
  let x2 := if (s.quad (c / 12)).dramHigh ∧ home ≠ some (c / 12) then 2 else 1
  (((fin.scale (fld pol 31 28)).add (run.scale (fld pol 27 24))).add
    (.nat (x2 * fld pol 23 20 * 20 * h))).add (.nat (fld pol 19 16 * s.powerOf pol c))

/-- Sorts cores by a score, the lower number first on a tie. -/
def insBy (f : Nat → Frac) (x : Nat) : List Nat → List Nat
  | [] => [x]
  | y :: t => if (f y).lt (f x) ∨ (!(f x).lt (f y) ∧ y < x) then y :: insBy f x t else x :: y :: t

/-- The k cores of least score. -/
def bestCores (f : Nat → Frac) (k : Nat) (l : List Nat) : List Nat := sortNat ((l.foldr (insBy f) []).take k)

/-! ### Tile splits (R189 to R191) -/

/-- The index of the widest entry above `lo`, lowest index on a tie. -/
def widest (lo : Nat) (w : List Nat) : Option Nat :=
  (w.zipIdx.foldl (fun (o : Option (Nat × Nat)) p =>
    if p.1 ≤ lo then o
    else match o with
      | some q => if q.1 < p.1 then some p else o
      | none => some p) none).map Prod.snd

/-- The entry below `hi` whose next column costs least. -/
def cheapest (hi : Nat) (pts w : List Nat) : Option Nat :=
  (w.zipIdx.foldl (fun (o : Option (Nat × Nat)) p =>
    if hi ≤ p.1 then o
    else match o with
      | some q =>
        if (p.1 + 1) * max 1 (pts.getD q.2 1) < (q.1 + 1) * max 1 (pts.getD p.2 1) then some p else o
      | none => some p) none).map Prod.snd

/-- The two loops of R189, one column at a time. -/
def balance (total lo hi : Nat) (pts : List Nat) : Nat → List Nat → List Nat
  | 0, w => w
  | f + 1, w =>
    if total < w.sum then
      match widest lo w with
      | some i => balance total lo hi pts f (w.modify i (· - 1))
      | none => w
    else if w.sum < total then
      match cheapest hi pts w with
      | some i => balance total lo hi pts f (w.modify i (· + 1))
      | none => w
    else w

/-- k columns of a uniform spacing (R189): HEVC and VP9 round the boundaries down; AV1 and VVC give every column but the last
one width, where some width gives k columns (PRESUMED, log entry 101). -/
def uniformCols (codec total k : Nat) : List Nat :=
  let even := (List.range k).map (fun i => (i + 1) * total / k - i * total / k)
  let step := fun (w : Nat) => (List.range k).map (fun i => min w (total - i * w))
  if codec = 4 ∨ codec = 5 then
    let ws := if codec = 4 then (List.range 7).map (fun j => ceilDiv total (2 ^ j)) else [ceilDiv total (max 1 k)]
    match ws.find? (fun w => ceilDiv total (max 1 w) == k) with
    | some w => step w
    | none => even
  else even

/-- The column widths of an encode frame (R189): uniform as the standard defines it, or in proportion to the tempo. -/
def splitCols (codec total lo hi : Nat) (uniform : Bool) (pts : List Nat) : List Nat :=
  if uniform then uniformCols codec total pts.length
  else balance total lo hi pts (total + 12 * hi) (pts.map (fun p => min hi (max lo (total * p / max 1 pts.sum))))

/-- The unit in [a, b] whose pixel count px lies nearest t, the lowest on a tie (R591). -/
def nearest (px : Nat → Nat) (t a b : Nat) : Nat :=
  let d := fun (j : Nat) => max (px j) t - min (px j) t
  ((List.range (b + 1 - a)).map (· + a)).foldl (fun m j => if d j < d m then j else m) a

/-- The runs of coded units that the cores of a decode frame take (R591): the count of units of each. -/
def splitUnits (units pts : List Nat) : List Nat :=
  let px := fun (j : Nat) => (units.take j).sum
  let kf := pts.length
  let bs := (List.range (kf - 1)).foldl (fun (b : List Nat) i =>
    let t := units.sum * (pts.take (i + 1)).sum / max 1 pts.sum
    b ++ [nearest px t (b.getLast?.getD 0 + 1) (units.length - (kf - (i + 1)))]) [0]
  (bs ++ [units.length]).zip ((bs ++ [units.length]).tail) |>.map (fun p => p.2 - p.1)

/-! ### Homes (R192, R193) -/

/-- A quadrant takes no homes (R192). -/
def State.noHomes (s : State) (q : Nat) : Bool :=
  s.regionMib q == 0 || (s.page (quadPage q)).state == .fenced || !(List.range 3).all (fun i => s.dchUp (3 * q + i))

/-- A quadrant qualifies as the home of a stream with this mode and block (R179, R192). -/
def State.qualifies (s : State) (mode : List Nat) (mib q : Nat) : Bool :=
  pinQuad (fv mode 48) q != 0 && !s.noHomes q && decide (mib ≤ s.largestFree q)

/-- Pixels per second of a mode. -/
def pixelRate (mode : List Nat) : Frac := ⟨fv mode 0 * fv mode 1 * fv mode 7, max 1 (fv mode 8)⟩

/-- The open streams homed in quadrant q. -/
def State.homed (s : State) (q : Nat) : List (Nat × Stream) :=
  s.streams.filter (fun (y : Nat × Stream) => y.2.state != .closed && y.2.home == q)

/-- The committed pixel rate of a quadrant (R192). -/
def State.committed (s : State) (q : Nat) : Frac := (s.homed q).foldl (fun f y => f.add (pixelRate y.2.mode)) (.nat 0)

/-- The committed rate of a quadrant in cores (R192). -/
def State.coreLoad (s : State) (q : Nat) : Frac :=
  (s.homed q).foldl (fun f y =>
    let r := pixelRate y.2.mode
    match s.image y.2 with
    | some e => f.add ⟨r.num, r.den * max 1 (rateOf e.params y.2.encode y.2.mode)⟩
    | none => f) (.nat 0)

/-- The least of a list under a fraction, the first on a tie. -/
def leastFrac (f : Nat → Frac) : List Nat → Option Nat
  | [] => none
  | x :: t =>
    match leastFrac f t with
    | none => some x
    | some y => if (f y).lt (f x) then some y else some x

/-- The home of stream n under the rules of R192, and whether it lies apart from its group; `avoid` is a quadrant left
out. -/
def State.chooseHome (s : State) (n : Nat) (mode : List Nat) (encode : Bool) (p : PersParams) (mib : Nat)
    (avoid : Option Nat) : Option Nat × Bool :=
  let qs := (List.range 4).filter (fun q => some q != avoid && s.qualifies mode mib q)
  let grp := fv mode 51
  let hint := fv mode 49
  let mates := (List.range 4).filter (fun q => grp != 0 && (s.homed q).any (fun y =>
    y.1 != n && y.2.state == .opened && y.2.field 51 == grp))
  let apart := fun (q : Nat) => !mates.isEmpty && !mates.contains q
  let out := fun (q : Nat) => (some q, apart q)
  if fv mode 50 = 2 then (if qs.contains hint then out hint else (none, false))
  else
    match mates.find? (fun q => qs.contains q) with
    | some q => out q
    | none =>
      if fv mode 50 = 1 ∧ qs.contains hint then out hint
      else
        let cool := qs.filter (fun q => !(s.quad q).dramHigh)
        let l := if cool = [] then qs else cool
        let pack := (s.policy (fv mode 52)).getLsbD 13
        let own : Frac := ⟨(pixelRate mode).num, (pixelRate mode).den * max 1 (rateOf p encode mode)⟩
        let fits := l.filter (fun q => !(s.quad q).parked &&
          !(Frac.mk (12 * s.loadCap (fv mode 52)) 256).lt ((s.coreLoad q).add own))
        let most := fits.foldl (fun (o : Option Nat) q =>
          match o with
          | some m => if (s.committed m).lt (s.committed q) then some q else o
          | none => some q) none
        match (if pack then most else none).orElse (fun _ => leastFrac s.committed l) with
        | some q => out q
        | none => (none, false)

/-! ### The placement log (R204) -/

/-- The 16 bytes of a log record. -/
def State.logBytes (s : State) (stream kind quad cores arg flags : Nat) : List Byte :=
  leBytes 4 (s.time.ns / 1000) ++ leBytes 2 stream ++ leBytes 1 kind ++ leBytes 1 quad ++ leBytes 6 cores ++ leBytes 1 arg ++
    leBytes 1 flags

/-- Closes one log record as a packet of LOG_CLQ, when the queue takes it. -/
def State.logPacket (s : State) (q : Nat) (b : List Byte) : Option State :=
  let c := s.clq q
  if c.enabled ∧ c.cfg.producer = 4 ∧ c.opened = none ∧ s.grants q then
    let crust : Crust := { typ := .data, lastRef := false, key := false, auEnd := false, auStart := false, tag := 0 }
    some (((s.linkPacket q { crust := crust, payload := b }).notice q State.trigger).cellEvents)
  else none

/-- Writes one log record, after a LOST record where some were lost. -/
def State.log (s : State) (stream kind quad cores arg flags : Nat) : State :=
  let w := s.active 5 0x064
  if !w.getLsbD 31 then s
  else
    let q := fld w 11 0
    let drop := fun (t : State) => { t with placer := { t.placer with lost := min (t.placer.lost + 1) 255 } }
    let s1 := if s.placer.lost = 0 then s
      else match s.logPacket q (s.logBytes 0xFFFF 0x0A 0xFF 0 s.placer.lost 0) with
        | some t => { t with placer := { t.placer with lost := 0 } }.raiseEvt 5 4
        | none => s
    match (if s1.placer.lost = 0 then s1.logPacket q (s1.logBytes stream kind quad cores arg flags) else none) with
    | some t => t
    | none => drop s1

/-- FROM and TO of a log record. -/
def quadByte (frm dst : Nat) : Nat := frm * 16 + dst

/-- A mask of cores. -/
def coreMask (l : List Nat) : Nat := l.foldl (fun m c => m + 2 ^ c) 0

/-! ### Row windows (R191, R205) -/

/-- Rows of a window of a job whose effective mode is v (R191, R376). -/
def State.winRows (s : State) (t : Stream) (v : List Nat) : Nat :=
  if !t.encode then fv v 43
  else
    match s.image t with
    | some e => roundUp (2 * (e.params.vsr.getD (fv v 15) 0 + e.params.marginEnc) + PersParams_ctu e.params (fv v 15)) 16
    | none => 0

/-- Bytes of a window: 16-row bands of luma and chroma tiles. -/
def winBytes (g : Geom) (rows : Nat) : Nat :=
  let band := ceilDiv (g.planeW 0) 64 * g.tileBytes +
    (if g.chroma = 0 then 0 else ceilDiv (g.planeW 1) 64 * g.tileBytes / (chromaDiv g.chroma).2)
  rows / 16 * band

/-- The window budget of a quadrant's slice in bytes (WINDOW_MIB). -/
def State.winBudget (s : State) (q : Nat) : Nat := fld (s.active 5 0x070) (8 * q + 7) (8 * q) * 2 ^ 20

/-- Gives reference slot k of stream n a window in quadrant q, or shares one; false when the budget cannot hold it. -/
def State.takeWindow (s : State) (n k q : Nat) (v : List Nat) : State × Bool :=
  let t := s.stream n
  let y := t.slot k
  let l := (s.quad q).windows
  let hit := fun (w : Window) => w.stream == n && w.slot == k && w.gen == y.gen
  let z := winBytes (t.slotGeom k) (s.winRows t v)
  if l.any hit then
    (s.modQuad q (fun p => { p with windows := p.windows.map (fun w => if hit w then { w with users := w.users + 1 } else w) }), true)
  else if (l.map Window.bytes).sum + z ≤ s.winBudget q then
    (s.modQuad q (fun p => { p with windows := p.windows ++ [{ stream := n, slot := k, gen := y.gen, users := 1, bytes := z }] }), true)
  else (s, false)

end Sys2Proof.Machine
end

