-- ==== Sys2Proof/Machine/IntcOps.lean ====
section
/-!
DEFINITION. The interrupt controller's operations and the sending of messages (R106, R466 to R481).
-/
namespace Sys2Proof.Machine

/-- TYPE of a source: LEVEL for pages and QD channels (R466). -/
def srcLevel (n : Nat) : Bool := (decide (32 ≤ n) && decide (n < 68)) || (decide (72 ≤ n) && decide (n < 264))

/-- The sources that exist: all but 68–71 and 296–319 (R466). -/
def srcReal (n : Nat) : Bool := decide (n < 68) || (decide (72 ≤ n) && decide (n < 296))

/-- PAGE_STATUS.PARKED: the page is a core or core DMA page of a parked quadrant (R71, R196). -/
def State.pageParked (s : State) (p : Nat) : Bool :=
  (pageKind p == some .core || pageKind p == some .cdma) && (mgetD s.placer.quads (pageQuad p) {}).parked

/-- PAGE_STATUS.PARKED: the page lies in a parked quadrant (R71, R90). -/
def State.quadParked (s : State) (p : Nat) : Bool :=
  decide (64 ≤ p) && decide (p < 192) && (mgetD s.placer.quads (pageQuad p) {}).parked

/-- (EVT_PEND and EVT_ENABLE) of page p is not 0 (R72). INTC and FUSE have no events, and the core and core DMA pages of a
parked quadrant assert nothing (R466, R481). -/
def State.pageLevel (s : State) (p : Nat) : Bool :=
  let g := s.page p
  decide (g.evtPend &&& g.evtEnable ≠ 0) && p != 4 && p != 33 && !s.pageParked p

/-- The condition of a level source in its unit (R466). -/
def State.unitLevel (s : State) (n : Nat) : Bool :=
  if n < 68 then s.pageLevel (n - 32)
  else if n < 200 then s.pageLevel (n - 72 + 64)
  else
    let m := n - 200
    let e := s.reg (qdmaPage (m / 16)) (0x058 + 0x40 * (m % 16))
    BitVec.ofNat 32 (s.chan (192 + m)).evtPend &&& e != 0

/-- Source n. -/
def State.src (s : State) (n : Nat) : IntSource := mgetD s.intc.srcs n {}

/-- PENDING as it reads (R469). -/
def State.srcPending (s : State) (n : Nat) : Bool :=
  let x := s.src n
  if srcLevel n then !x.inService && (x.level || x.soft) else x.pending

/-- The source may be claimed (R469). -/
def State.claimable (s : State) (n : Nat) : Bool :=
  srcReal n && (s.src n).enable && s.srcPending n && !(s.src n).inService

/-- Group g. -/
def State.grp (s : State) (g : Nat) : IntGroup := mgetD s.intc.grps g {}

/-- Changes group g. -/
def State.modGrp (s : State) (g : Nat) (f : IntGroup → IntGroup) : State :=
  { s with intc := { s.intc with grps := mset s.intc.grps g (f (s.grp g)) } }

/-- MSI-X table entry v. -/
def State.vec (s : State) (v : Nat) : MsixEntry := mgetD s.pcie.msix v {}

/-- Nothing but the power state can hold a message of vector v back (R106, R476). -/
def State.vecOpen (s : State) (v : Nat) : Bool := s.pcie.msixEnable && !s.pcie.funcMask && !(s.vec v).masked

/-- The function is in D0 with BME = 1 (R476): a message then enters the transmit queue. -/
def State.busOpen (s : State) : Bool := s.pcie.bme && !s.pcie.d3hot

/-- Each rise of PME_Status sends one PM_PME message (R106). -/
def State.raisePme (s : State) : State :=
  if s.pcie.pmeEn ∧ ¬s.pcie.pmeStatus then
    { s with pcie := { s.pcie with pmeStatus := true } }.send .pmPme
  else s

/-- The message of vector v passes its commit point: a posted write of the table entry (R476, R478). It brings the link out
of L1 first (R107). -/
def State.sendMsix (s : State) (v : Nat) : State :=
  s.send (.msix (s.vec v).addr (s.vec v).data)

/-- A message issued to vector v (R476, R106). -/
def State.issueVec (s : State) (v : Nat) : State :=
  if s.vecOpen v && s.busOpen then s.sendMsix v
  else
    let s1 := { s with pcie := { s.pcie with pba := s.pcie.pba ||| (1#128 <<< v) } }
    if s.vecOpen v then s1.raisePme else s1

/-- Every set PBA bit whose conditions hold again sends its message at once (R476). -/
def State.flushPba (s : State) : State :=
  if s.boot.state ≠ .ready ∨ !s.busOpen then s
  else
    (List.range 128).foldl (fun t v =>
      if t.pcie.pba.getLsbD v && t.vecOpen v then
        { t with pcie := { t.pcie with pba := t.pcie.pba &&& ~~~ (1#128 <<< v) } }.sendMsix v
      else t) s

/-- A mask of the vectors `l` is cleared: their held messages are sent, or, held back from now on by the power state alone,
raise PME at that moment (R106, R476). -/
def State.unmasked (s : State) (l : List Nat) : State :=
  if s.boot.state = .ready ∧ !s.busOpen then
    (if l.any (fun v => s.pcie.pba.getLsbD v && s.vecOpen v) then s.raisePme else s)
  else s.flushPba

/-- GRP_CFG of a group in force (R477). -/
def State.grpCfg (s : State) (g : Nat) : Word := s.active 4 (0x700 + 4 * g)

/-- A group issues its owed message while its timer is idle (R475). Nothing is issued before READY (R480). -/
def State.issueGrp (s : State) (g : Nat) : State :=
  let x := s.grp g
  if x.msgDue ∧ ¬x.timerRun ∧ s.boot.state = .ready then
    let h := fld (s.grpCfg g) 31 16
    (s.modGrp g (fun y => { y with
      msgDue := false, timerRun := h != 0, timerLeft := h * 250 * 2 ^ 40 })).issueVec (fld (s.grpCfg g) 6 0)
  else s

/-- Changes source n: a source that becomes claimable owes its group a message (R474). -/
def State.modSrc (s : State) (n : Nat) (f : IntSource → IntSource) : State :=
  let s1 := { s with intc := { s.intc with srcs := mset s.intc.srcs n (f (s.src n)) } }
  if !s.claimable n && s1.claimable n then
    (s1.modGrp (n / 8) (fun y => { y with msgDue := true })).issueGrp (n / 8)
  else s1

/-- An event of an EDGE source (R469). -/
def State.edge (s : State) (n : Nat) : State := s.modSrc n (fun x => { x with pending := true })

/-- The lowest claimable source of group g (R471). -/
def State.firstClaimable (s : State) (g : Nat) : Option Nat :=
  ((List.range 8).map (fun i => 8 * g + i)).find? s.claimable

end Sys2Proof.Machine
end

