-- ==== Sys2Proof/Machine/Queues.lean ====
section
/-!
DEFINITION. Work queues and the Geyser: commands, polling, fetching, completions and aborts (R110 to R126, R136 to R152).
-/
namespace Sys2Proof.Machine

/-- A field of the WQ_TABLE entry of a queue: n bytes from byte a (R112). -/
def Queue.at (x : Queue) (a n : Nat) : Nat := leNat ((x.cfg.drop a).take n)

/-- Entries of the submission ring. -/
def Queue.sqSize (x : Queue) : Nat := 2 ^ x.at 24 1
/-- Entries of the completion ring. -/
def Queue.cqSize (x : Queue) : Nat := 2 ^ x.at 25 1

/-- The code of a queue state (R112). -/
def WqState.code : WqState → Nat
  | .disarmed => 0
  | .armed => 1
  | .paused => 2
  | .halted => 3

/-- Idle-poll reads per µs that the armed queues ask for, as a fraction (R126). -/
def State.pollDemand (s : State) : Nat × Nat :=
  (s.geyser.queues.filter (fun q => q.2.state == .armed)).foldl
    (fun f q => (f.1 * q.2.at 26 2 + 4 * f.2, f.2 * q.2.at 26 2)) (0, 1)

/-- The armed queues ask for more than POLL_BUDGET (R126). -/
def State.stretched (s : State) : Bool :=
  let d := s.pollDemand
  decide (fld (s.active 7 0x040) 15 8 * d.2 < d.1)

/-- The level events of the GEYSER page follow the queues (R126, R142, R145). -/
def State.queueEvents (s : State) : State :=
  ((s.setCond 7 0 (s.geyser.queues.any (fun q => q.2.state == .halted))).setCond 7 1
    (s.geyser.queues.any (fun q => q.2.cqFull))).setCond 7 3 s.stretched

/-- Writes the host status word of queue q, in one aligned 8-byte write (R122). -/
def State.putStatus (s : State) (q : Nat) : State :=
  let x := s.wq q
  s.hostPut (x.at 16 8) (leBytes 8 (x.sqNext + x.state.code * 2 ^ 16 + x.haltReason * 2 ^ 24 + x.accepted * 2 ^ 32)) false

/-- The ended visits whose bodies are all read (R123). -/
def Queue.visitsDone (x : Queue) : List Nat := x.visits.filter (fun d => x.bodies.all (fun b => decide (d < b)))

/-- Writes the host status words that are due on queue q, when the host can be reached: one for a change of STATE, and one
for each ended visit whose bodies are read (R122, R123, R152). -/
def State.statusWord (s : State) (q : Nat) : State :=
  if !s.hostReach then s
  else
    let s1 := if (s.wq q).statusDue then (s.modWq q (fun y => { y with statusDue := false })).putStatus q else s
    let done := (s1.wq q).visitsDone
    done.foldl (fun t _ => t.putStatus q)
      (s1.modWq q (fun y => { y with visits := y.visits.filter (fun d => !done.contains d) }))

/-- A visit of queue q ends, if one is on: its status word is due once its last body is read (R122, R125). -/
def State.closeVisit (s : State) (q : Nat) : State :=
  match s.geyser.visit with
  | some (v, _, last) =>
    if v = q then
      let s1 := s.modWq q (fun y => { y with visits := y.visits ++ last.toList })
      { s1 with geyser := { s1.geyser with visit := none } }
    else s
  | none => s

/-- Changes the STATE of a queue, with its status word and events (R114, R122). A queue that is no longer armed is not
fetched from. -/
def State.setWq (s : State) (q : Nat) (st : WqState) : State :=
  let s1 := s.modWq q (fun y => { y with state := st, statusDue := true, reading := y.reading && st == .armed })
  let s2 := if st = .armed then s1 else s1.closeVisit q
  (s2.statusWord q).queueEvents

/-- A paused queue has reached INFLIGHT 0 (R115). -/
def State.drainedEvt (s : State) (q : Nat) : State :=
  if (s.wq q).state = .paused ∧ (s.wq q).window = [] then s.raiseEvt 7 4 else s

/-- The checks of ARM (R113). A stream that is OPEN or STOPPED is open on its queue (R117). A reserved byte or bit of bytes 0 to
47 that is not 0 counts as a field outside its range (DESIGN CHOICE, log entry 94). -/
def State.armOk (s : State) (q : Nat) : Bool :=
  let x := s.wq q
  let log := fun a => decide (4 ≤ x.at a 1) && decide (x.at a 1 ≤ 15)
  log 24 && log 25 && decide (1 ≤ x.at 26 2) && decide (1 ≤ x.at 28 1) && decide (1 ≤ x.at 29 1) && decide (x.at 29 1 ≤ 64) &&
  bits (x.at 30 2) 14 5 == 0 && (x.cfg.drop 32).all (fun b => b == 0) &&
  x.at 0 8 % 64 == 0 && x.at 8 8 % 32 == 0 && x.at 16 8 % 8 == 0 &&
  decide (x.at 0 8 + 64 * x.sqSize ≤ 2 ^ 64) && decide (x.at 8 8 + 32 * x.cqSize ≤ 2 ^ 64) &&
  s.geyser.sources.all (fun c => c.2.queue != q ||
    ((s.stream c.2.stream).state == .opened || (s.stream c.2.stream).state == .stopped) && (s.stream c.2.stream).queue == q)

/-- A queue command in a state that allows it; otherwise ACCESS_BAD (R114). -/
def wqCmd (q : Nat) (s : State) (ok : Queue → Bool) (f : State → State) : Result :=
  if 1024 ≤ q then .next s else hostCmd 7 s fun s => if ok (s.wq q) then f s else s.accessBad 7

/-- WQ_ARM (R110, R113, R117). -/
def execWqArm (q : Nat) (s : State) : Result :=
  wqCmd q s (fun x => x.state == .disarmed) fun s =>
    if s.armOk q then
      (s.modWq q (fun x => { x with
        sqNext := 0, cqProd := 0, cqHead := 0, accepted := 0, haltReason := 0, credit := x.at 28 1, ready := false,
        cqFull := false, lastEpoch := none })).setWq q .armed
    else s.reject 7 1 0

/-- WQ_PAUSE (R115). -/
def execWqPause (q : Nat) (s : State) : Result :=
  wqCmd q s (fun x => x.state == .armed) fun s => (s.setWq q .paused).drainedEvt q

/-- WQ_RESUME (R114). -/
def execWqResume (q : Nat) (s : State) : Result :=
  wqCmd q s (fun x => x.state == .paused) fun s => s.setWq q .armed

/-- The Geyser fetches: the host is reachable, the device is not stopped and the GEYSER page takes work (R71, R103, R542). -/
def State.fetches (s : State) : Bool := s.hostReach && s.faults.stop == .normal && s.takes 7

/-- The Geyser asks for the owner word of slot SQ_NEXT of queue q (R110, R118, R120). -/
def State.askOwner (s : State) (q : Nat) : State :=
  let x := s.wq q
  (s.issueRead (.owner q) (x.at 0 8 + 64 * (x.sqNext % x.sqSize) + 56) 8).modWq q (fun y => { y with reading := true })

/-- A poll issues an owner-word read of an idle queue (R120, R124); while the Geyser fetches nothing, none is read (R152). -/
def State.pollNow (s : State) (q : Nat) : State :=
  let x := s.wq q
  if x.state = .armed ∧ !x.ready ∧ !x.reading ∧ s.fetches then s.askOwner q else s

/-- WQ_KICK (R124). -/
def execWqKick (q : Nat) (s : State) : Result :=
  wqCmd q s (fun x => x.state == .armed) fun s => s.pollNow q

/-- The job has not started on a core or DMA channel in any attempt (R116, R157). -/
def Job.notStarted (x : Job) : Bool := x.live && !x.began

/-- The jobs of a ladder job's renditions. -/
def State.children (s : State) (j : Nat) : List Nat := (s.jobs.filter (fun y => y.2.parent == some j)).map Prod.fst

/-- A job completes with FLUSHED before it started (R116); its buffers return. -/
def State.flushJob (s : State) (j : Nat) : State :=
  let kids := s.children j
  if kids.any (fun k => ((s.job k).map Job.began).getD false) then s
  else (kids ++ [j]).foldl (fun t k => (t.discard k).finish k 0x11 0) s

/-- WQ_DISCARD (R116). -/
def execWqDiscard (q : Nat) (s : State) : Result :=
  wqCmd q s (fun x => x.state == .paused || x.state == .halted) fun s =>
    (s.wq q).window.foldl (fun t j => if ((t.job j).map Job.notStarted).getD false then t.flushJob j else t) s

/-- WQ_DISARM (R114, R117). -/
def execWqDisarm (q : Nat) (s : State) : Result :=
  wqCmd q s (fun x => (x.state == .paused || x.state == .halted) && x.window == []) fun s =>
    (s.modWq q (fun x => { x with haltReason := 0, ready := false })).setWq q .disarmed

/-- QUEUE_POLL (R124). -/
def execQueuePoll (q : Nat) (s : State) : Result :=
  act s fun s => if q < 1024 then s.pollNow q else s

/-- A queue halts (R145); a queue that is halted already keeps its first reason. -/
def State.haltQueue (s : State) (q reason : Nat) : State :=
  if (s.wq q).state = .halted then s
  else (s.modWq q (fun x => { x with haltReason := reason, ready := false })).setWq q .halted

/-- The end of a visit or poll of queue q, which leaves it ready or idle (R122, R124, R125). -/
def State.endVisit (s : State) (q : Nat) (ready : Bool) : State :=
  ((s.modWq q (fun x => { x with ready := ready })).closeVisit q).statusWord q

/-- The Geyser accepts a job (R120, R121, R141, O4): it takes the current epoch and a place in the reorder window. -/
def State.accept (s : State) (q : Nat) (x : Job) : State :=
  let j := s.nextJob
  let y := { x with epoch := s.modes.current, tStart := s.time.ns / 1000 % 2 ^ 32 }
  { s.modWq q (fun z => { z with window := z.window ++ [j], accepted := (z.accepted + 1) % 2 ^ 32 }) with
    jobs := mset s.jobs j y, nextJob := j + 16 }

/-- Accepts the entry whose owner word was read (R120, R121): its body read is issued. -/
def State.acceptEntry (s : State) (q : Nat) (w : DWord) : State :=
  let j := s.nextJob
  let n := (s.wq q).sqNext
  let x : Job := { queue := q, seq := n, epoch := 0, indirect := w.getLsbD 17,
                   body := List.replicate 56 0 ++ leBytes 8 w.toNat }
  ((s.accept q x).issueRead (.body q j) ((s.wq q).at 0 8 + 64 * (n % (s.wq q).sqSize)) 56).modWq q (fun z => { z with
    sqNext := (z.sqNext + 1) % 65536, bodies := z.bodies ++ [j] })

/-- After the acceptance of job j: a visit of the queue goes on to the next owner word, or ends (R125). A poll makes the queue
ready (R124); its acceptance counts as that of a visit for the status word (R122; DESIGN CHOICE, log entry 95). -/
def State.stepVisit (s : State) (q j : Nat) : State :=
  let polled := (s.modWq q (fun x => { x with ready := true, visits := x.visits ++ [j] })).statusWord q
  match s.geyser.visit with
  | some (v, n, _) =>
    if v = q then
      let s1 := s.modWq q (fun x => { x with credit := x.credit - 1 })
      let s2 := { s1 with geyser := { s1.geyser with visit := some (q, n + 1, some j) } }
      let x := s2.wq q
      if n + 1 < x.at 29 1 ∧ 0 < x.credit ∧ x.window.length < 256 ∧ s2.fetches then s2.askOwner q
      else s2.endVisit q true
    else polled
  | none => polled

/-- A failed owner-word read halts the queue (R100, R145). -/
def State.ownerFail (s : State) (q : Nat) : State :=
  ((s.modWq q (fun y => { y with reading := false })).haltQueue q 2).fault 8 0xFFFF none 0

/-- A failed entry-body read halts the queue, and no job is built from the entry (R100, R145). -/
def State.bodyFail (s : State) (q : Nat) : State :=
  match (s.wq q).bodies with
  | [] => s
  | j :: t =>
    let s1 := s.modWq q (fun y => { y with bodies := t, window := y.window.filter (· != j) })
    (({ s1 with jobs := mdel s1.jobs j }.haltQueue q 2).fault 8 0xFFFF none 0).drainedEvt q

/-- OWNER_WORD_READ (R120, R121, R145): the owner word of slot SQ_NEXT, or none when the read failed (R100). -/
def execOwnerWordRead (q : Nat) (w : Option DWord) (s : State) : Result :=
  act s fun s =>
    let x := s.wq q
    if !x.reading ∨ 1024 ≤ q ∨ !s.onLink (.owner q) then s
    else
      let s0 := s.modWq q (fun y => { y with reading := false })
      State.readDone (match w with
      | none => s.ownerFail q
      | some v =>
        let sq := v.toNat % 65536
        if !v.getLsbD 16 ∨ (sq ≠ x.sqNext ∧ sq = (x.sqNext + 65536 - x.sqSize) % 65536) then s0.endVisit q false
        else if sq ≠ x.sqNext then s0.haltQueue q 1
        else if !s0.fetches then s0.endVisit q x.ready
        else if 256 ≤ x.window.length then s0.endVisit q true
        else (s0.acceptEntry q v).stepVisit q s0.nextJob)

/-- Stream n is open on queue q, or an earlier entry of the queue opens it (R130). -/
def State.ownedBy (s : State) (n q j : Nat) : Bool :=
  ((s.stream n).state != .closed && (s.stream n).queue == q) ||
    s.jobs.any (fun y => decide (y.1 < j) && y.2.live && y.2.stream == some n && y.2.queue == q && y.2.opcode == 0x01)

/-- Every earlier job of the stream that has not started completes with FLUSHED: the acceptance of a STREAM_CLOSE with
CLOSE_MODE DISCARD (R150, R157). -/
def State.closeFlush (s : State) (j : Nat) (x : Job) : State :=
  let n := x.at 2 2
  if x.live ∧ x.at 0 1 = 0x02 ∧ x.at 8 1 = 1 ∧ s.ownedBy n x.queue j then
    (s.jobs.filter (fun y => decide (y.1 < j) && y.2.stream == some n && y.2.queue == x.queue && y.2.notStarted &&
      y.2.parent.isNone)).foldl (fun t y => t.flushJob y.1) s
  else s

/-- The entry of job j with its 56 bytes: JOB_TAG and STREAM are known, and the job goes to the parser. -/
def Job.withBody (y : Job) (l : List Byte) : Job :=
  let z := { y with body := (l ++ List.replicate 56 0).take 56 ++ y.body.drop 56 }
  { z with tag := z.at 4 4, phase := if z.phase = .body then .parsing else z.phase,
           stream := if z.at 2 2 < 1024 then some (z.at 2 2) else none }

/-! ### Visits (R125) -/

/-- What the round robin may visit: ready armed queues, each followed by its ready device-side sources, by number. -/
def State.readySources (s : State) : List (Nat × Option Nat) :=
  (s.geyser.queues.filter (fun q => q.2.state == .armed)).flatMap (fun q =>
    (if q.2.ready then [(q.1, none)] else []) ++
    (s.geyser.sources.filter (fun c => c.2.queue == q.1 && c.2.ready)).map (fun c => (q.1, some c.1)))

/-- The place of a source in the round: its queue, then the queue itself before its CLQs. -/
def placeOf (v : Nat × Option Nat) : Nat :=
  v.1 * 8192 + (match v.2 with
    | none => 1
    | some c => c + 2)

/-- Every queue receives WEIGHT credits, and the round starts at the lowest number (R125). -/
def State.newRound (s : State) : State :=
  { s with geyser := { s.geyser with
      lastVisit := 0, queues := s.geyser.queues.map (fun q => (q.1, { q.2 with credit := q.2.at 28 1 })) } }

/-- Some ready queue or source has credit left (R125). -/
def State.roundOn (s : State) : Bool := s.readySources.any (fun v => decide (0 < (s.wq v.1).credit))

/-- The next source to visit: the first after the last one that has credit, else the first from the start. A queue whose
reorder window is full waits (R141). -/
def State.pickVisit (s : State) : Option (Nat × Option Nat) :=
  let l := s.readySources.filter (fun v => decide (0 < (s.wq v.1).credit) && decide ((s.wq v.1).window.length < 256))
  (l.find? (fun v => decide (s.geyser.lastVisit < placeOf v))).orElse (fun _ => l.head?)

/-- The entry that the Geyser builds from a packet (R38, R497). -/
def sourceBody (c : Source) (p : Packet) : List Byte :=
  let o := fun a n => (c.out.drop (a - 64)).take n
  leBytes 2 0x20 ++ leBytes 2 c.stream ++ leBytes 4 (2 ^ 31 + p.unit % 2 ^ 31) ++ leBytes 8 0 ++ leBytes 4 p.payload.length ++
    leBytes 2 0 ++ leBytes 1 1 ++ o 64 1 ++ leBytes 8 0 ++ o 68 4 ++ o 72 4 ++
    leBytes 8 ((p.times.map Prod.fst).getD 0) ++ List.replicate 16 0

/-- Takes the first packet of a device-side source: a DATA packet builds a job, whose cells it holds (R432, R497). -/
def State.takeUnit (s : State) (k : Nat) (c : Source) : State :=
  match (s.clq k).complete with
  | [] => s
  | p :: t =>
    let j := s.nextJob
    let more := !t.isEmpty
    let s1 := { s with geyser := { s.geyser with sources := mupd s.geyser.sources k (fun y => { y with ready := more }) } }
    let s2 := s1.modClq k (fun y => { y with
      complete := t, held := if p.crust.typ = .data then y.held ++ [(j, p.cells)] else y.held })
    if p.crust.typ ≠ .data then s2.cellEvents
    else
      let b := sourceBody c p
      s2.accept c.queue { queue := c.queue, seq := p.unit, device := true, epoch := 0, phase := .parsing, body := b,
                          stream := some c.stream, tag := leNat ((b.drop 4).take 4), input := p.payload
                          request := (c.out[1]?).bind (fun p => if p.toNat < 16 then some (true, p.toNat) else none) }

/-- The packet at the head of a source's queue is a DATA packet. -/
def State.headData (s : State) (k : Nat) : Bool :=
  match (s.clq k).complete with
  | p :: _ => p.crust.typ == .data
  | [] => false

/-- Takes packets of a source until its visit ends (R125): each DATA packet is one entry, which spends a credit and one of the
`left` places of BURST; another packet spends nothing. The last argument bounds the packets. -/
def State.drainSource (s : State) (k q left : Nat) : Nat → State
  | 0 => s
  | n + 1 =>
    match mget s.geyser.sources k with
    | some c =>
      if (s.clq k).complete = [] then
        { s with geyser := { s.geyser with sources := mupd s.geyser.sources k (fun y => { y with ready := false }) } }
      else if !c.ready ∨ left = 0 ∨ (s.wq q).credit = 0 ∨ 256 ≤ (s.wq q).window.length then s
      else if s.headData k then
        State.drainSource ((s.takeUnit k c).modWq q (fun x => { x with credit := x.credit - 1 })) k q (left - 1) n
      else State.drainSource (s.takeUnit k c) k q left n
    | none => s

/-- One visit of source k of report queue q (R125): a visit that accepts a job ends with a status word (R122). -/
def State.visitSource (s : State) (k q : Nat) : State :=
  let s1 := s.drainSource k q ((s.wq q).at 29 1) ((s.clq k).complete.length + 1)
  if s.nextJob < s1.nextJob then
    (s1.modWq q (fun x => { x with visits := x.visits ++ [s1.nextJob - 16] })).statusWord q
  else s1

/-- GEYSER_VISIT (R125): the next ready queue has its owner word read, or the next ready source gives its access units. -/
def execGeyserVisit (s : State) : Result :=
  act s fun s =>
    if s.geyser.visit.isSome ∨ !s.fetches then s
    else
      let s0 := if s.roundOn then s else s.newRound
      match s0.pickVisit with
      | none => s0
      | some (q, none) =>
        let s1 := s0.askOwner q
        { s1 with geyser := { s1.geyser with visit := some (q, 0, none), lastVisit := placeOf (q, none) } }
      | some (q, some k) =>
        let s1 := s0.visitSource k q
        { s1 with geyser := { s1.geyser with lastVisit := placeOf (q, some k) } }

/-! ### Completions (R136 to R144) -/

/-- The 32 bytes of a completion entry (R136, R137). -/
def completionBytes (x : Job) (h k flags : Nat) : List Byte :=
  leBytes 4 x.tag ++ leBytes 2 x.status ++ leBytes 2 flags ++ leBytes 2 x.epoch ++ leBytes 1 x.core ++ leBytes 1 0 ++
    leBytes 4 x.outBytes ++ leBytes 4 x.handle0 ++ leBytes 4 x.handle1 ++ leBytes 4 x.tStart ++ leBytes 3 x.detail ++
    leBytes 1 (if bit h k then 0 else 128)

/-- The completion ring has no free slot (R142). -/
def Queue.full (x : Queue) : Bool := decide (x.cqSize ≤ (x.cqProd + 65536 - x.cqHead) % 65536)

/-- The cells of a device-side job are freed (R497). -/
def State.freeInput (s : State) (j : Nat) : State :=
  { s with qm := { s.qm with queues := s.qm.queues.map (fun (q : Nat × Clq) =>
      (q.1, { q.2 with held := q.2.held.filter (fun h => h.1 != j) })) } }.cellEvents

/-- A stop for GEYSER_PARITY or PCIE_INTERNAL lets no further completion out (R544). -/
def State.completionsEnd (s : State) : Bool :=
  s.faults.stop == .stopped && (s.faults.stopSource == 11 || s.faults.stopSource == 10)

/-- COMPLETION_WRITE (R136, R141 to R143, R152): the oldest job of the window has retired and its entry is written, with
its notification. A job that was flushed before its entry was read waits for JOB_TAG and NO_NOTIFY. -/
def execCompletionWrite (q : Nat) (s : State) : Result :=
  act s fun s =>
    let x := s.wq q
    match x.window with
    | [] => s
    | j :: t =>
      match s.job j with
      | none => s
      | some y =>
        if y.live ∨ x.bodies.contains j ∨ x.full ∨ !s.hostReach ∨ s.completionsEnd then s
        else
          let h := x.cqProd
          let flags := if x.lastEpoch.any (fun e => e != y.epoch) ∧ !bit y.flags 6 then y.flags + 64 else y.flags
          let s1 := s.hostPut (x.at 8 8 + 32 * (h % x.cqSize)) (completionBytes y h (x.at 25 1) flags) false
          let s2 := s1.modWq q (fun z =>
            let z' := { z with window := t, cqProd := (h + 1) % 65536, lastEpoch := some y.epoch }
            { z' with cqFull := z'.full })
          let s3 := { s2 with jobs := (s2.children j).foldl mdel (mdel s2.jobs j) }
          let s4 := ((s3.drainedEvt q).queueEvents).freeInput j
          if bit (x.at 30 2) 15 ∧ !bit (y.at 1 1) 0 then s4.edge (x.at 30 2 % 32) else s4

/-- CQ_HEAD (R144): QUEUE in [25:16], HEAD in [15:0]; a head outside the ring's span is ignored. -/
def execCqHead (v : Word) (s : State) : Result :=
  hostCmd 7 s fun s =>
    let s := s.rsv 7 0x03FFFFFF v
    let q := fld v 25 16
    let x := s.wq q
    let span := fun h => (h + 65536 - x.cqHead) % 65536
    if span (fld v 15 0) ≤ span x.cqProd then
      (s.modWq q (fun z => let y := { z with cqHead := fld v 15 0 }; { y with cqFull := y.full })).queueEvents
    else s.accessBad 7

/-! ### Abort (R146 to R149) -/

/-- Posts a result: it shows at once in an empty mailbox, or waits (R87). -/
def Mailbox.post (m : Mailbox) (outcome info : Nat) : Mailbox :=
  if m.current.isNone then { m with current := some (nextSeq m.seq, outcome, info), seq := nextSeq m.seq }
  else { m with waiting := m.waiting ++ [(outcome, info)] }

/-- A write to the ACK register: the present SEQ consumes the result (R88). None for any other write. -/
def Mailbox.ack (m : Mailbox) (v : Nat) : Option Mailbox :=
  match m.current with
  | some (q, _) =>
    if v = q then
      some (match m.waiting with
        | (o, i) :: t => { m with current := some (nextSeq m.seq, o, i), seq := nextSeq m.seq, waiting := t }
        | [] => { m with current := none })
    else none
  | none => none

/-- The abort mailbox changes, with the ABORT_DONE event. -/
def State.setAbort (s : State) (m : Mailbox) : State :=
  { s with geyser := { s.geyser with abort := m } }.setCond 7 2 m.current.isSome

/-- An aborted job ends for good (R147, R148), with the renditions of a ladder job. -/
def State.abortJob (s : State) (j : Nat) : State :=
  (s.children j ++ [j]).foldl (fun t k =>
    if ((t.job k).map Job.live).getD false then t.failFinal k 0x10 0 else t) s

/-- How a request meets the arbiter (R146): the outcome and the job to abort. A BARRIER or MARK that has retired is answered
TOO_LATE, as any accepted job that has retired (DESIGN CHOICE, log entry 100). -/
def State.arbiter (s : State) (q seq : Nat) : Nat × Option Nat :=
  let x := s.wq q
  if x.state = .disarmed then (4, none)
  else if (seq + 65536 - x.sqNext) % 65536 < 32768 then (3, none)
  else
    match x.window.find? (fun j => match s.job j with
      | some y => !y.device && y.seq == seq
      | none => false) with
    | none => (2, none)
    | some j =>
      match s.job j with
      | none => (2, none)
      | some y => if !y.live then (2, none) else if y.opcode = 0x40 ∨ y.opcode = 0x41 then (4, none) else (1, some j)

/-- The arbiter decides a request, and its result is posted (R146). -/
def State.decideAbort (s : State) (q seq : Nat) : State :=
  let r := s.arbiter q seq
  let s1 := match r.2 with
    | some j => s.abortJob j
    | none => s
  s1.setAbort (s1.geyser.abort.post r.1 (q * 65536 + seq))

/-- The requests that waited for the body of job j are decided (R146). -/
def State.settleBody (s : State) (j : Nat) : State :=
  (s.geyser.asked.filter (fun r => r.1 == j)).foldl (fun t r => t.decideAbort r.2.1 r.2.2)
    { s with geyser := { s.geyser with asked := s.geyser.asked.filter (fun r => r.1 != j) } }

/-- Requests that have no consumed result yet (R149). -/
def Geyser.requests (g : Geyser) : Nat := b2n g.abort.current.isSome + g.abort.waiting.length + g.asked.length

/-- ABORT_REQ (R146, R149): at most eight requests are outstanding. A request for a job whose entry is still being read waits
for it. -/
def execAbortReq (v : Word) (s : State) : Result :=
  hostCmd 7 s fun s =>
    let s := s.rsv 7 0x03FFFFFF v
    let q := fld v 25 16
    let seq := fld v 15 0
    if 8 ≤ s.geyser.requests then s.accessBad 7
    else
      match (s.arbiter q seq).2.filter (fun j => (s.wq q).bodies.contains j) with
      | some j => { s with geyser := { s.geyser with asked := s.geyser.asked ++ [(j, q, seq)] } }
      | none => s.decideAbort q seq

/-- ENTRY_BODY_READ (R100, R121): the first body read of the queue returns, and the job goes to the parser; when it failed,
no job is built and the queue halts. -/
def execEntryBodyRead (q : Nat) (body : Option (List Byte)) (s : State) : Result :=
  act s fun s =>
    match (s.wq q).bodies with
    | [] => s
    | j :: t =>
      if !s.onLink (.body q j) then s
      else
        let s1 := match body with
          | some l =>
            let s2 := (s.modWq q (fun y => { y with bodies := t })).modJob j (fun y => y.withBody l)
            (match s2.job j with
            | some x => s2.closeFlush j x
            | none => s2).statusWord q
          | none => s.bodyFail q
        (s1.settleBody j).readDone

/-- ABORT_ACK (R88). -/
def execAbortAck (seq : BitVec 8) (s : State) : Result :=
  hostCmd 7 s fun s =>
    match s.geyser.abort.ack seq.toNat with
    | some m => s.setAbort m
    | none => s.accessBad 7

end Sys2Proof.Machine
end

