-- ==== Sys2Proof/Machine/JobCmds.lean ====
section
/-!
DEFINITION. The job parser, the requests of jobs to the buffer pools, and the jobs without a stream: COPY, FILL, BARRIER and
MARK (R127 to R135, R139, R140, R185, R442, R590).
-/
namespace Sys2Proof.Machine

/-! ### Checks of an entry (R118, R127 to R129, R138, R163) -/

/-- The opcode table (R128): STREAM, whether PARAM_PTR may be named, whether INDIRECT is allowed, and the operand bytes that
R129 and R177 name, as first and last byte. None for an opcode outside the table. -/
def opRow (op : Nat) : Option (Bool × Bool × Bool × List (Nat × Nat)) :=
  match op with
  | 0x01 => some (true, true, false, [(8, 12), (16, 19)])
  | 0x02 => some (true, false, false, [(8, 8)])
  | 0x03 => some (true, true, false, [(16, 19)])
  | 0x10 => some (true, true, true, [(8, 22), (24, 37), (40, 47)])
  | 0x11 => some (true, true, false, [(8, 22), (40, 47)])
  | 0x20 => some (true, false, true, [(8, 19), (22, 47)])
  | 0x21 => some (true, false, false, [])
  | 0x30 => some (false, false, true, [(8, 27)])
  | 0x31 => some (false, false, false, [(16, 31)])
  | 0x40 => some (false, false, false, [])
  | 0x41 => some (false, false, false, [(8, 23)])
  | 0x50 => some (true, false, false, [(8, 10), (12, 28), (32, 35)])
  | _ => none

/-- A reserved bit or byte of the entry is set (R118, R127, R129). -/
def Job.rsvSet (x : Job) (spans : List (Nat × Nat)) : Bool :=
  decide (2 ≤ x.at 1 1) || x.at 56 8 / 2 ^ 18 != 0 ||
  (List.range 40).any (fun i => !spans.any (fun p => decide (p.1 ≤ i + 8) && decide (i + 8 ≤ p.2)) && x.at (i + 8) 1 != 0) ||
  ((x.opcode == 0x10 || x.opcode == 0x11) && decide (8 ≤ x.at 21 1))

/-- The tagged addresses of an entry: source or input, unless a fragment table names it, and destination. -/
def Job.addrs (x : Job) : List Nat :=
  let src := if x.indirect then [] else [x.at 8 8]
  let out := if x.at 22 1 = 0 then [x.at 24 8] else []
  match x.opcode with
  | 0x10 => src ++ out
  | 0x11 => [x.at 8 8]
  | 0x20 => src ++ out
  | 0x30 => src ++ [x.at 16 8]
  | 0x31 => [x.at 16 8]
  | 0x41 => [x.at 8 8]
  | _ => []

/-- Format, address and pitch of the picture that a coding entry names: its source, or its output. -/
def Job.picArgs (x : Job) : Option (Nat × Nat × Nat) :=
  match x.opcode with
  | 0x10 | 0x11 => some (x.at 20 1, if x.indirect then 0 else x.at 8 8, x.at 16 4)
  | 0x20 => some (x.at 23 1, if x.at 22 1 = 0 then x.at 24 8 else 0, x.at 36 4)
  | _ => none

/-- A linear picture starts at a multiple of 64 (R163). -/
def picAddrBad (a : Nat × Nat × Nat) : Bool :=
  match fmtOf a.1 with
  | some f => !f.t24 && a.2.1 % 64 != 0
  | none => false

/-- The pitch breaks R163. -/
def picPitchBad (a : Nat × Nat × Nat) : Bool :=
  match fmtOf a.1 with
  | some f => if f.t24 then a.2.2 != 0 else a.2.2 % 64 != 0
  | none => false

/-- The output asks a pool by size (R441). -/
def Job.asksSize (x : Job) : Bool :=
  (x.opcode == 0x10 || x.opcode == 0x20) && (x.at 22 1 == 1 || x.at 22 1 == 3) && !(x.device && x.request.isSome)

/-- No pool can serve OUT_SIZE (R441). -/
def State.noPool (s : State) (n : Nat) : Bool := n == 0 || decide (16777216 < n) || (s.sizePool n).isNone

/-- The reason of ERR_DESCRIPTOR for which an entry fails in the parser, or none (R138). DESIGN CHOICE: of several failures the
first in this order is reported (log entry 99), LEN 0 of FILL counts as a value that its opcode does not define (log entry 96),
and PARAM_PTR 0 with INDIRECT = 1 names a fragment table at host address 0 (log entry 97). -/
def State.entryReason (s : State) (x : Job) : Option Nat :=
  match opRow x.opcode with
  | none => some 0x01
  | some (stream, ptr, ind, spans) =>
    let op := x.opcode
    let p := x.at 48 8
    if x.indirect ∧ !ind then some 0x08
    else if x.rsvSet spans ∨ (p ≠ 0 ∧ !ptr ∧ !x.indirect) then some 0x02
    else if (if stream then decide (1024 ≤ x.at 2 2) else x.at 2 2 != 0xFFFF) then some 0x03
    else if (op = 0x01 ∧ 2 ≤ x.at 12 1) ∨ (op = 0x02 ∧ 2 ≤ x.at 8 1) then some 0x0C
    else if !tagOk p ∨ !x.addrs.all tagOk ∨ (x.picArgs.map picAddrBad).getD false then some 0x06
    else if (x.picArgs.map picPitchBad).getD false then some 0x0C
    else if (op = 0x10 ∧ 4 ≤ x.at 22 1) ∨ (op = 0x20 ∧ 2 ≤ x.at 22 1) then some 0x07
    else if op = 0x10 ∧ 2 ≤ x.at 22 1 ∧ 4096 ≤ x.clq then some 0x0C
    else if x.asksSize ∧ s.noPool (x.at 32 4) then some 0x07
    else if ((op = 0x30 ∧ !x.indirect) ∨ op = 0x31) ∧ x.at 24 4 = 0 then some 0x0C
    else if op = 0x11 ∧ (x.at 22 1 = 0 ∨ 9 ≤ x.at 22 1) then some 0x0C
    else if op = 0x11 ∧ (p = 0 ∨ p % 16 ≠ 0) then some 0x06
    else if x.indirect ∧ p % 16 ≠ 0 then some 0x06
    else none

/-! ### Fragment tables (R134, R135) -/

/-- How the read of a fragment table ends: the fragments and the address of the parameter block (0 = none), a completion, or
a failed host read. -/
inductive FragEnd
  | ok (frags : List (Nat × Nat)) (param : Nat)
  | bad (status detail : Nat)
  | hostFail
  deriving DecidableEq, Repr

/-- ERR_DESCRIPTOR at entry i of the table (R138). -/
def fragBad (i reason : Nat) : FragEnd := .bad 0x50 (i * 256 + reason)

/-- Reads the table from entry i on. `fs` are the fragments so far, latest first. -/
def State.fragments (s : State) (x : Job) (host : Option (List Byte)) : Nat → Nat → List (Nat × Nat) → Nat → Nat → FragEnd
  | 0, _, _, _, _ => fragBad 4095 0x0A
  | f + 1, i, fs, total, param =>
    let at' := x.at 48 8 + 16 * i
    let e := if isDev at' then s.readTagged at' 16 none
      else host.map (fun l => ((l.drop (16 * i)) ++ List.replicate 16 0).take 16)
    match e with
    | none => if isDev at' then .bad 0x42 x.refused else .hostFail
    | some l =>
      let g := fun a n => leNat ((l.drop a).take n)
      let addr := g 0 8
      let len := g 8 4
      let fl := g 12 4
      if 4 ≤ fl then fragBad i 0x02
      else if !tagOk addr then fragBad i 0x06
      else if len = 0 then fragBad i 0x09
      else if 2 ≤ fl ∧ i ≠ 0 then fragBad i 0x0B
      else
        let fs2 := if 2 ≤ fl then fs else (addr, len) :: fs
        let tot := if 2 ≤ fl then total else total + len
        let par := if 2 ≤ fl then addr else param
        if 2 ^ 32 ≤ tot then fragBad i 0x0A
        else if fl % 2 = 1 then (if fs2 = [] then fragBad 0 0x09 else .ok fs2.reverse par)
        else s.fragments x host f (i + 1) fs2 tot par

/-! ### JOB_PARSE -/

/-- The job leaves the parser: a stream's job waits for its turn, others are ready; POOL output asks for its buffer
(R442, R497). -/
def State.parsed (s : State) (j : Nat) (x : Job) : State :=
  let size := x.at 32 4
  let req := if x.asksSize then some (false, size)
    else x.request
  (s.modJob j (fun y => { y with
    phase := if x.stream.isSome then .waiting else .ready, request := req, ask := req })).markReady j

/-- Reads the parameter block of ENCODE_FRAME or the ladder block, n bytes at a tagged address, into the job. -/
def State.readParam (s : State) (j : Nat) (x : Job) (a n : Nat) (host : Option (List Byte)) (put : Job → List Byte → Job) :
    State :=
  match s.readTagged a n host with
  | some l =>
    let s1 := (s.askTagged a n false).modJob j (fun y => put y l)
    (match s1.job j with
    | some y => s1.parsed j y
    | none => s1)
  | none => if isDev a then s.refuse j (0x42, x.refused) else (s.askTagged a n false).fault 8 0xFFFF (some j) 0

/-- The block that the entry names behind address `param`, as address and length, if any. -/
def Job.block (x : Job) (param : Nat) : Option (Nat × Nat) :=
  if x.opcode = 0x10 ∧ param ≠ 0 then some (param, 64)
  else if x.opcode = 0x11 then some (x.at 48 8, 16 + 48 * x.renditions)
  else none

/-- What follows the fragment table: the block that the entry names, if any (R129, R176, R327). -/
def State.parseBlock (s : State) (j : Nat) (x : Job) (param : Nat) (host : Option (List Byte)) : State :=
  if x.opcode = 0x10 ∧ param ≠ 0 then s.readParam j x param 64 host (fun y l => { y with overrides := l })
  else if x.opcode = 0x11 then
    s.readParam j x (x.at 48 8) (16 + 48 * x.renditions) host (fun y l => { y with ladder := l })
  else s.parsed j x

/-- Entries of the fragment table that the parser reads. -/
def FragEnd.entries : FragEnd → Nat
  | .ok fs p => fs.length + b2n (p != 0)
  | .bad _ d => if d < 2 ^ 20 then d / 256 + 1 else 1
  | .hostFail => 1

/-- The parser has host memory to read while it cannot be reached: the job waits (R103, R104). -/
def State.parseHeld (s : State) (x : Job) (param : Nat) : Bool :=
  !s.hostReach && ((x.indirect && !isDev (x.at 48 8)) || (x.block param).any (fun b => !isDev b.1))

/-- JOB_PARSE (R127 to R135, R138, R139): the parser checks the entry and reads what it names. `table` and `param` are the
host's answers for a fragment table and for a parameter block in host memory. -/
def execJobParse (job : Nat) (table param : Option (List Byte)) (s : State) : Result :=
  act s fun s =>
    match s.job job with
    | none => s
    | some x =>
      if x.phase ≠ .parsing then s
      else if x.device then
        (if x.asksSize ∧ s.noPool (x.at 32 4) then s.refuse job (0x50, 0x07) else s.parsed job x)
      else
        match s.entryReason x with
        | some r => s.refuse job (0x50, r)
        | none =>
          if x.indirect then
            let r := s.fragments x table 4096 0 [] 0 0
            let s1 := s.askTagged (x.at 48 8) (16 * r.entries) true
            if s.parseHeld x (match r with
              | .ok _ p => p
              | _ => 0) then s
            else
              match r with
              | .hostFail => s1.fault 8 0xFFFF (some job) 0
              | .bad st d => s1.refuse job (st, d)
              | .ok fs p =>
                (s1.modJob job (fun y => { y with frags := fs })).parseBlock job { x with frags := fs } p param
          else if s.parseHeld x (x.at 48 8) then s
          else s.parseBlock job x (x.at 48 8) param

/-! ### Buffers for a job (R140, R175, R224, R441, R442) -/

/-- The request that job x may make of the pools now: the one it waits on, or a staging buffer of a tiled encode frame. -/
def State.mayAsk (s : State) (x : Job) (byPool : Bool) (arg : Nat) : Bool :=
  (x.request == some (byPool, arg) && x.phase != .parsing) ||
  (byPool && x.phase == .running && x.opcode == 0x10 && decide (1 < x.cores.length) && x.request.isNone &&
    (s.stageFor x).isSome &&
    (match x.stream with
    | some n => arg == (s.stream n).field 54
    | none => false))

/-- One request of job j to the pool manager, its first one or a retry (R441, R442). -/
def State.askPool (s : State) (j : Nat) (x : Job) (byPool : Bool) (arg : Nat) (host : Option (List Byte)) : State :=
  let r := s.allocate (if byPool then .byPool arg else .bySize arg) (.core x.core) host
  let own := x.request == some (byPool, arg) && !x.forStage
  let last := decide (s.devField x.epoch 2 ≤ x.tries)
  let wait := fun (t : State) (p : Nat) =>
    if last then t.failFinal j 0x30 (0x010000 + p)
    else t.modJob j (fun y => { y with request := some (byPool, arg), forStage := !own })
  match r.1 with
  | .granted h =>
    if own then (r.2.modJob j (fun y => { y with
      bufs := y.bufs ++ [h], request := none, tries := 0
      handle0 := if y.bufs = [] then h else y.handle0
      handle1 := if y.bufs = [] ∨ y.drain ≠ [] then y.handle1 else h
      flags := if y.bufs = [] ∨ y.drain ≠ [] ∨ bit y.flags 7 then y.flags else y.flags + 128 })).markReady j
    else r.2.modJob j (fun y => { y with
      staging := y.staging ++ [((s.stageFor x).getD 0, h)], request := none, forStage := false, tries := 0 })
  | .empty p | .notEnabled p => wait r.2 p
  | .broken p => r.2.failFinal j 0x30 (0x030000 + p)
  | .noFit => if x.drain = [] then r.2.failFinal j 0x50 0x07 else r.2.failFinal j 0x30 0x010000

/-- POOL_ALLOCATE (R441): a job asks for a buffer by size or by pool. `host` is the answer of a header read in host
memory. -/
def execPoolAllocate (job : Nat) (byPool : Bool) (arg : Nat) (host : Option (List Byte)) (s : State) : Result :=
  act s fun s =>
    match s.job job with
    | none => s
    | some x =>
      if x.live ∧ s.mayAsk x byPool arg ∧ !s.allocHeld (if byPool then .byPool arg else .bySize arg) then
        s.askPool job x byPool arg host
      else s

/-- POOL_RETRY (R442): POOL_RETRY has passed since a request of the job failed, and it asks again. -/
def execPoolRetry (job : Nat) (host : Option (List Byte)) (s : State) : Result :=
  act s fun s =>
    match s.job job with
    | none => s
    | some x =>
      match x.request with
      | some (byPool, arg) =>
        if x.live ∧ !s.allocHeld (if byPool then .byPool arg else .bySize arg) then
          let y := { x with tries := x.tries + 1 }
          (s.modJob job (fun z => { z with tries := z.tries + 1 })).askPool job y byPool arg host
        else s
      | none => s

/-! ### COPY, FILL, BARRIER and MARK -/

/-- Core n is powered (R197) and a DMA channel of its own is free for its pilot: USER is PILOT and no coding job runs on it
(R590). -/
def State.sideReady (s : State) (n : Nat) : Bool :=
  !(s.quad (n / 12)).parked && (List.range 4).any (fun g => !s.chanHost (4 * n + g) && (s.chan (4 * n + g)).job.isNone)

/-- Job j is the first of the COPY, FILL and REF_OP jobs on its core, and its core can run it (R197, R590). -/
def State.sideTurn (s : State) (j : Nat) (x : Job) : Bool :=
  x.phase == .placed && decide (x.core < 48) && (s.core x.core).side.head? == some j && s.sideReady x.core

/-- The transfer starts (R116, R136). -/
def State.begin (s : State) (j : Nat) : State :=
  s.modJob j (fun y => { y with started := true, began := true, tStart := s.time.ns / 1000 % 2 ^ 32 })

/-- The bytes of a source, host parts taken in turn from `host`; none when device memory refuses a read (R135). -/
def State.gather (s : State) : List (Nat × Nat) → List Byte → Option (List Byte)
  | [], _ => some []
  | (a, n) :: t, h =>
    if isDev a then
      (if tagOk a && s.readRun (devOf a) n then (s.gather t h).map (fun l => s.devBytes (devOf a) n ++ l) else none)
    else (s.gather t (h.drop n)).map (fun l => (h ++ List.replicate n 0).take n ++ l)

/-- The end of a transfer: its bytes land and the job retires, or a refused address ends it (R32, R35). -/
def State.land (s : State) (j : Nat) (x : Job) (a : Nat) (l : List Byte) : State :=
  if s.writeTagOk a l.length then
    ((s.writeTagged a l).modJob j (fun y => { y with outBytes := l.length })).retire j 0
  else s.failFinal j 0x42 x.refused

/-- COPY (R129, R135, R185, R590). `host` is the host part of the source. -/
def execCopy (job : Nat) (host : Option (List Byte)) (s : State) : Result :=
  act s fun s =>
    match s.job job with
    | none => s
    | some x =>
      let src := if x.indirect then x.frags else [(x.at 8 8, x.at 24 4)]
      let hostSrc := src.any (fun f => !isDev f.1)
      if x.opcode ≠ 0x30 ∨ !s.sideTurn job x ∨ ((hostSrc ∨ !isDev (x.at 16 8)) ∧ !s.hostReach) then s
      else
        let s1 := src.foldl (fun t f => t.askTagged f.1 f.2 false) (s.begin job)
        if hostSrc ∧ host = none then s1.fault 8 0xFFFF (some job) 0
        else
          match s1.gather src (host.getD []) with
          | some l => s1.land job x (x.at 16 8) l
          | none => s1.failFinal job 0x42 x.refused

/-- FILL (R129, R185, R590): PATTERN repeats from DST. -/
def execFill (job : Nat) (s : State) : Result :=
  act s fun s =>
    match s.job job with
    | none => s
    | some x =>
      if x.opcode ≠ 0x31 ∨ !s.sideTurn job x ∨ (!isDev (x.at 16 8) ∧ !s.hostReach) then s
      else
        let pat := (x.body.drop 28).take 4
        (s.begin job).land job x (x.at 16 8) ((List.range (x.at 24 4)).map (fun i => pat.getD (i % 4) 0))

/-- BARRIER (R35, R132): it retires once every earlier job of its queue has retired. -/
def execBarrier (job : Nat) (s : State) : Result :=
  act s fun s =>
    match s.job job with
    | none => s
    | some x =>
      if x.opcode ≠ 0x40 ∨ x.phase ≠ .ready ∨ s.jobs.any (fun (y : Nat × Job) =>
          decide (y.1 < job) && y.2.queue == x.queue && y.2.live) then s
      else s.retire job 0

/-- MARK (R133): it writes MARK_VALUE and retires, held only by an earlier BARRIER. -/
def execMark (job : Nat) (s : State) : Result :=
  act s fun s =>
    match s.job job with
    | none => s
    | some x =>
      let a := x.at 8 8
      if x.opcode ≠ 0x41 ∨ x.phase ≠ .ready ∨ s.barred job x.queue ∨ (a ≠ 0 ∧ !isDev a ∧ !s.hostReach) then s
      else if a = 0 then s.retire job 0
      else if s.writeTagOk a 8 then (s.writeTagged a (leBytes 8 (x.at 16 8))).retire job 0
      else s.refuse job (0x42, x.refused)

end Sys2Proof.Machine
end

