-- ==== Sys2Proof/Machine/Rehome.lean ====
section
/-!
DEFINITION. Re-homing of streams (R194, R206, R585).
-/
namespace Sys2Proof.Machine

/-- A quadrant that re-homing has not chosen yet. -/
def noQuad : Nat := 15

/-- R397 refuses an address of the quadrant's home range, or its router is fenced (R194). -/
def State.unreadable (s : State) (q : Nat) : Bool :=
  !(List.range 3).all (fun i => s.dchUp (3 * q + i)) || (s.page (quadPage q + 3)).state == .fenced

/-- REHOME_STALLED holds while a stream has no home. -/
def State.stallCond (s : State) : State := s.setCond 5 3 (s.streams.any (fun (y : Nat × Stream) => y.2.homeless))

/-- Step 1 (R194): placement of the stream stops, with a REHOME_START record. -/
def State.rehomeStart (s : State) (n cause target : Nat) : State :=
  let t := s.stream n
  if t.state = .closed ∨ t.rehome.isSome then s
  else ((s.modStream n (fun t => { t with
      rehome := some { cause := cause, target := target }, again := none, homeless := false })).log n 3
    (quadByte t.home target) 0 cause 0).stallCond

/-- The home quadrant takes no homes because of a fault of severity S3 (R194). -/
def State.homeFaulted (s : State) (q : Nat) : Bool :=
  s.noHomes q && (quadPage q :: (List.range 3).map (fun i => dchPage (3 * q + i))).any (fun p =>
    let g := s.page p
    (g.state == .fenced || g.state == .frozen) && g.cause == .fault)

/-- HINT_MODE REQUIRE homes the stream only in HOME_HINT (R179). -/
def Stream.hintAllows (t : Stream) (q : Nat) : Bool := !(t.field 50 == 2 && t.field 49 != q)

/-- The quadrant to which LOCALITY moves a stream, if any (R194). -/
def State.localTarget (s : State) (t : Stream) : Option Nat :=
  (List.range 4).find? (fun q => q != t.home && decide (48 < (t.last64.filter (· == q)).length) &&
    s.qualifies t.mode t.blockMib q && t.hintAllows q)

/-- The unparked quadrants. -/
def State.unparked (s : State) : List Nat := (List.range 4).filter (fun q => !(s.quad q).parked)

/-- Consolidation under PACK may move a stream out of quadrant q (R196). -/
def State.packMoves (s : State) (t : Stream) : Bool :=
  let l := s.unparked
  let pol := t.field 52
  let rest := l.filter (· != t.home)
  let load := l.foldl (fun f q => f.add (s.coreLoad q)) (Frac.nat 0)
  (s.policy pol).getLsbD 13 && (s.active 5 0x068).getLsbD 31 && leastFrac s.committed l == some t.home && !rest.isEmpty &&
  !(Frac.mk (12 * s.loadCap pol * rest.length) 256).lt load &&
  !s.streams.any (fun (y : Nat × Stream) => (y.2.rehome.map Rehome.cause).getD 0 == 3)

/-- REHOME_START (R194, R196): the Placer decides a re-home for cause FAULT, LOCALITY or PACK. -/
def execRehomeStart (n cause : Nat) (s : State) : Result :=
  act s fun s =>
    let t := s.stream n
    if t.state = .closed ∨ t.homeless then s
    else
      match cause with
      | 1 => if s.homeFaulted t.home then s.rehomeStart n 1 noQuad else s
      | 2 =>
        if (s.active 5 0x068).getLsbD 30 then
          match s.localTarget t with
          | some q => s.rehomeStart n 2 q
          | none => s
        else s
      | 3 => if s.packMoves t then s.rehomeStart n 3 noQuad else s
      | _ => s

/-- The stream has a job placed on a core. -/
def State.hasPlaced (s : State) (n : Nat) : Bool :=
  s.jobs.any (fun (y : Nat × Job) => y.2.stream == some n && (y.2.phase == .placed || y.2.phase == .running))

/-- The re-home ends without a move (R194): FAULT starts afresh, any other cause waits for its retry. -/
def State.abandonHome (s : State) (n : Nat) (r : Rehome) : State :=
  let t := s.stream n
  let s1 := ((s.modStream n (fun t => { t with
      rehome := none, again := if r.cause = 1 then none else some (r.cause, r.target) })).log n 4
    (quadByte t.home t.home) 0 1 0).raiseEvt 5 2
  if r.cause = 1 then s1.rehomeStart n 1 noQuad else s1

/-- The target of a re-home now (R192, R194): the one named while it qualifies, which a request may name against HINT_MODE (R206),
else the Placer's choice. -/
def State.rehomeTarget (s : State) (n : Nat) (t : Stream) (r : Rehome) : Option Nat :=
  if r.target < 4 ∧ s.qualifies t.mode t.blockMib r.target ∧ (r.cause = 4 ∨ t.hintAllows r.target) then some r.target
  else if r.target < 4 ∧ r.cause ≠ 1 then none
  else
    match s.image t with
    | some e => (s.chooseHome n t.mode t.encode e.params t.blockMib (some t.home)).1
    | none => none

/-- REHOME_ALLOCATE (R194): step 2, once the stream has no placed job; one at a time per target, in stream order. -/
def execRehomeAllocate (n : Nat) (s : State) : Result :=
  act s fun s =>
    let t := s.stream n
    match t.rehome with
    | none => s
    | some r =>
      let first := !s.streams.any (fun (y : Nat × Stream) => decide (y.1 < n) &&
        match y.2.rehome with
        | some o => o.cause == r.cause && !o.started
        | none => false)
      if r.started ∨ s.hasPlaced n ∨ !first then s
      else
        match s.rehomeTarget n t r with
        | none =>
          if r.cause = 1 then (s.modStream n (fun t => { t with rehome := none, homeless := true })).stallCond
          else s.abandonHome n r
        | some q =>
          if s.streams.any (fun (y : Nat × Stream) =>
              match y.2.rehome with
              | some o => o.started && o.target == q
              | none => false) then s
          else
            match s.fitBlock q t.blockMib with
            | some b => s.modStream n (fun t => { t with
                rehome := some { r with target := q, started := true, rebuild := s.unreadable t.home, base := b } })
            | none => s

/-- Step 3 (R194): the context area and every slot that is not free are copied to the new block. -/
def State.copyBlock (s : State) (t : Stream) (base : Nat) : State :=
  let used := (List.range t.poolSlots).filter (fun k => !(t.slot k).isFree)
  let parts := (0, 524288) :: used.map (fun k => (524288 + k * t.slotBytes, t.slotBytes))
  parts.foldl (fun u p => u.write (base + p.1) (memGetAll s.mem (t.blockBase + p.1) p.2)) s

/-- A slot of a rebuilt stream: UNUSED, with its generation (R194). -/
def Slot.cleared (k : Slot) : Slot := { gen := k.gen }

/-- K of a stream under its mode now (R186, R187). -/
def State.kOf (s : State) (t : Stream) : Nat :=
  match s.image t with
  | some e => coresOf e.params t.encode (s.loadCap (t.field 52)) t.mode
  | none => t.k

/-- Step 4 (R194): the stream lives in its new home. A rebuild takes the mode and the sequence-level state from the mirror. -/
def State.moveHome (s : State) (n : Nat) (t : Stream) (r : Rehome) (rebuild : Bool) : State :=
  let s1 := if rebuild then s else s.copyBlock t r.base
  let u : Stream := { t with
    home := r.target, blockBase := r.base, rehome := none, migrate := true, last64 := []
    k := s.kOf t }
  let v : Stream := if rebuild then { u with
      slots := u.slots.map (fun y => (y.1, y.2.cleared)), rc := {}, nextKey := u.nextKey || u.encode
      mode := u.mirror.mode, saveA := {}, saveB := {}, record := u.mirror.seq, slices := [], ctxLost := true } else u
  ((s1.modStream n (fun _ => v.mirrored)).log n 4 (quadByte t.home r.target) 0 (if rebuild then 2 else 0) 0).raiseEvt 5 2

/-- REHOME_DONE (R194): the copy or rebuild ends. -/
def execRehomeDone (n : Nat) (s : State) : Result :=
  act s fun s =>
    let t := s.stream n
    match t.rehome with
    | none => s
    | some r =>
      if !r.started then s
      else if s.noHomes r.target then s.abandonHome n { r with started := false }
      else s.moveHome n t r (r.rebuild || s.unreadable t.home)

/-- REHOME_RETRY (R194): a stream without a home looks for one again, and an abandoned re-home of another cause starts
again. -/
def execRehomeRetry (n : Nat) (s : State) : Result :=
  act s fun s =>
    let t := s.stream n
    if t.homeless then
      match s.rehomeTarget n t { cause := 1, target := noQuad } with
      | some _ => s.rehomeStart n 1 noQuad
      | none => s
    else
      match t.again with
      | some (c, q) => if q = t.home then s.modStream n (fun t => { t with again := none }) else s.rehomeStart n c q
      | none => s

/-- REHOME_REQ (R206): TARGET in [17:16], STREAM in [9:0]. -/
def execRehomeReq (v : Word) (s : State) : Result :=
  hostCmd 5 s fun s =>
    let s := s.rsv 5 0x000303FF v
    let n := fld v 9 0
    let q := fld v 17 16
    let t := s.stream n
    if t.state ≠ .opened ∨ t.rehome.isSome ∨ q = t.home ∨ !s.qualifies t.mode t.blockMib q then s.accessBad 5
    else s.rehomeStart n 4 q

end Sys2Proof.Machine
end

