-- ==== Sys2Proof/Machine/Streams.lean ====
section
/-!
DEFINITION. The stream operations: STREAM_OPEN, STREAM_PARAMS, STREAM_CLOSE, DECODE_DRAIN and REF_OP (R150, R153 to R158,
R174 to R178, R372 to R375).
-/
namespace Sys2Proof.Machine

/-! ### Written pictures of a job -/

/-- FILM_GRAIN_APPLY for a job (R380). -/
def State.grainOn (s : State) (x : Job) : Bool := s.devField x.epoch 18 == 1

/-- The completion of a job whose output format breaks R163 or R165, if it does. -/
def Stream.formatCode (t : Stream) (k fmt pitch base : Nat) : Option (Nat × Nat) :=
  let g := t.slotGeom k
  match fmtOf fmt with
  | none => some (0x22, 0)
  | some f => if !fmtFits f g.chroma then some (0x22, 0) else if !pitchOk f base pitch g.w then some (0x50, 0x0C) else none

/-- How one pass over a drain ends: it waits for a buffer, its job has ended, or every picture is written. -/
inductive DrainEnd
  | wait (s : State)
  | ended (s : State)
  | written (s : State)
  deriving DecidableEq, Repr

/-- The buffers of a drain with their pictures and the handle that each record names (R174, R175). -/
def drainItems (slots bufs : List Nat) : List (Nat × Nat × Nat) :=
  slots.zip (bufs.zip (bufs.tail ++ [0xFFFFFFFF]))

/-- Writes the pictures of a drain into their buffers; none when an address is refused. -/
def State.drainWrite (s : State) (n : Nat) (grain : Bool) : List (Nat × Nat × Nat) → Option (State × Nat)
  | [] => some (s, 0)
  | (k, h, next) :: rest =>
    let t := s.stream n
    let base := s.bufAddr (handlePool h) (handleIndex h)
    match s.pictureRuns n k t.lastFormat t.lastPitch next base grain with
    | none => none
    | some (l, e) =>
      if s.runsOk base l then
        (State.drainWrite ({ s.writeRuns base l with free := s.free + 1 }) n grain rest).map (fun r => (r.1, r.2 + e))
      else none

/-- One pass over the drain of job j of stream n (R175): a buffer for the next picture, or all pictures written. -/
def State.drainRun (s : State) (j : Nat) (x : Job) (n : Nat) : DrainEnd :=
  let t := s.stream n
  match x.drain[x.bufs.length]? with
  | some k =>
    if x.request.isSome then .wait s
    else
      match t.formatCode k t.lastFormat t.lastPitch 0, s.pictureRuns n k t.lastFormat t.lastPitch 0 0 false with
      | some e, _ => .ended (s.refuse j e)
      | none, some (_, e) => .wait (s.modJob j (fun y => { y with request := some (false, e) }))
      | none, none => .ended (s.refuse j (0x22, 0))
  | none =>
    if !s.hostReach ∧ x.bufs.any (fun h => !isDev (s.poolBase (handlePool h))) then .wait s
    else if !x.drain.all (s.tilesOk n) then
      .ended (s.fault 75 (if x.core < 48 then x.core else 12 * t.home) (some j) 0)
    else
      match s.drainWrite n (s.grainOn x) (drainItems x.drain x.bufs) with
      | none => .ended (s.failFinal j 0x42 x.refused)
      | some (u, bytes) =>
        .written ((x.drain.foldl (fun v k => v.modSlot n k (fun y => { y with pending := false, released := false })) u).modJob j
          (fun y => { y with outBytes := bytes }))

/-- DECODE_DRAIN (R175): the job runs on a core, writes every pending picture and retires. -/
def execDecodeDrain (job : Nat) (s : State) : Result :=
  act s fun s =>
    match s.job job with
    | none => s
    | some x =>
      match x.stream with
      | none => s
      | some n =>
        if x.opcode ≠ 0x21 ∨ x.phase ≠ .running ∨ !(s.before job n).isEmpty then s
        else
          let s1 := if x.reported then s
            else s.modJob job (fun y => { y with reported := true, drain := (s.stream n).drainOrder 17 [] })
          match s1.job job with
          | none => s
          | some y =>
            match s1.drainRun job y n with
            | .wait t | .ended t => t
            | .written t => t.retire job y.drain.length

/-! ### STREAM_OPEN (R155) -/

/-- The image that STREAM_OPEN names (R313). -/
def State.findPers (s : State) (id : Nat) : Option (Nat × PersEntry) :=
  s.pers.dir.find? (fun (e : Nat × PersEntry) => e.2.id / 256 == id / 256 &&
    (id % 256 == 255 || decide (id % 256 ≤ e.2.id % 256)))

/-- How the read of a mode block ends (R372). -/
inductive BlockEnd
  | ok (l : List Byte)
  | bad (status detail : Nat)
  | hostFail
  deriving DecidableEq, Repr

/-- Reads the mode block of a stream operation. -/
def State.modeBlock (s : State) (x : Job) (host : Option (List Byte)) : BlockEnd :=
  let a := x.at 48 8
  if x.at 16 4 ≠ 256 then .bad 0x31 0x0002
  else if a = 0 ∨ a % 16 ≠ 0 then .bad 0x50 0x06
  else
    match s.readTagged a 256 host with
    | some l => .ok l
    | none => if isDev a then .bad 0x42 x.refused else .hostFail

/-- The mode block lies in host memory, which cannot be reached: the job waits (R104). -/
def State.blockHeld (s : State) (x : Job) : Bool :=
  x.at 16 4 == 256 && x.at 48 8 != 0 && x.at 48 8 % 16 == 0 && !isDev (x.at 48 8) && !s.hostReach

/-- Asks the host for the mode block, where it holds it. -/
def State.askBlock (s : State) (x : Job) : State :=
  if x.at 16 4 = 256 ∧ x.at 48 8 ≠ 0 ∧ x.at 48 8 % 16 = 0 then s.askTagged (x.at 48 8) 256 false else s

/-- Bytes a to a + n - 1 of a block as a number. -/
def blockNat (l : List Byte) (a n : Nat) : Nat := leNat ((l.drop a).take n)

/-- Steps 2 to 5 of R155 for a validated mode. -/
def State.openWith (s : State) (j : Nat) (x : Job) (n k : Nat) (e : PersEntry) (enc : Bool) (w : List Nat) : State :=
  let mib := blockMib enc (if enc then lookArea w else 0) w
  let c := s.chooseHome n w enc e.params mib none
  match c.1, c.1.bind (fun q => s.fitBlock q mib) with
  | some q, some b =>
    let t : Stream := {
      state := .opened, queue := x.queue, encode := enc, pers := k, persId := x.at 8 4, mode := w, openVec := w
      home := q, blockBase := b, blockMib := mib, poolSlots := poolSlotsOf enc w, overlap := fv w 14
      k := coresOf e.params enc (s.loadCap (fv w 52)) w, lookCap := fv w 32 }
    ((s.modStream n (fun _ => t.mirrored)).log n 2 (quadByte q q) 0 0 (if c.2 then 16 else 0)).retire j 0
  | _, _ => s.refuse j (0x31, 0x3001)

/-- The checks of a STREAM_OPEN on its block, and the open (R155, R375). -/
def State.openStream (s : State) (j : Nat) (x : Job) (n : Nat) (l : List Byte) (verdict : Nat) : State :=
  let bad := fun (c : Nat) => s.refuse j (0x31, c)
  if blockNat l 0 2 ≠ 1 then bad 0x0001
  else if !modeRsvOk l ∨ blockNat l 8 8 ≠ 0 then bad 0x0003
  else
    match s.findPers (x.at 8 4) with
    | none => bad 0x0005
    | some (k, e) =>
      let enc := x.at 12 1 == 1
      if !bit e.flags (b2n enc) then bad 0x0007
      else
        let v := modeOf l
        let cap := s.loadCap (fv v 52)
        let r := validate e.id e.flags e.params enc cap (s.devField x.epoch 17 == 1) verdict v
        if r.2 ≠ 0 then bad r.2
        else if coresOf e.params enc cap r.1 < kSize e.params enc r.1 then bad 0x3002
        else s.openWith j x n k e enc r.1

/-- A stream operation whose turn has come, checked against the state of its stream (R150, R155). The jobs of a stream without a
home fail (R194). -/
def State.opStart (s : State) (j op : Nat) (f : Job → Nat → State) : State :=
  match s.job j with
  | none => s
  | some x =>
    match x.stream with
    | none => s
    | some n =>
      if x.opcode ≠ op ∨ x.phase ≠ .waiting ∨ !s.opTurn j x n then s
      else if op ≠ 0x01 ∧ (s.stream n).homeless then s.failFinal j 0x40 (faultDetail 0xFF 4 x.attempts 0)
      else if x.started then f x n
      else
        match s.streamCheck x n with
        | some e => s.refuse j e
        | none => f x n

/-- The whole of STREAM_OPEN with the answer of the image's validator. -/
def State.runOpen (s : State) (j : Nat) (block : Option (List Byte)) (verdict : Nat) : State :=
  s.opStart j 0x01 fun x n =>
    if s.blockHeld x then s
    else
    let s := s.askBlock x
    match s.modeBlock x block with
    | .hostFail => s.fault 8 0xFFFF (some j) 0
    | .bad st d => s.refuse j (st, d)
    | .ok l => s.openStream j x n l verdict

/-- STREAM_OPEN (R155). `block` is the mode block where it lies in host memory, `verdict` what the image's validator
answered (R319). -/
def execStreamOpen (job : Nat) (block : Option (List Byte)) (verdict : Nat) (s : State) : Result :=
  act s fun s => s.runOpen job block verdict

/-! ### STREAM_PARAMS (R156) -/

/-- The vector that a STREAM_PARAMS block asks for: the named fields changed (R373). -/
def Stream.merged (t : Stream) (l : List Byte) : List Nat :=
  (List.range 62).map (fun f => if bit (blockNat l 8 8) f then fv (modeOf l) f else t.field f)

/-- The change is made under the pool rules of R156: class R, or POOL_SLOTS or SLOT_BYTES changes (R374). -/
def Stream.resizes (t : Stream) (w : List Nat) : Bool :=
  (List.range 62).any (fun f => fieldChange f == .resize && fieldUsed t.encode f && fv w f != t.field f) ||
  poolSlotsOf t.encode w != t.poolSlots || slotBytesOf w != t.slotBytes

/-- MiB of the block under a new mode; the lookahead area keeps the depth and the scale of STREAM_OPEN (R374). -/
def Stream.newMib (t : Stream) (w : List Nat) : Nat :=
  Sys2Proof.Machine.blockMib t.encode (if t.encode then lookArea (setf (setf w 32 t.lookCap) 15 (fv t.openVec 15)) else 0) w

/-- Where the block of a stream goes: in place, with the room it grows by, or a new run (R156). -/
def State.placeBlock (s : State) (n mib : Nat) : Option (Option (Nat × Nat)) :=
  let t := s.stream n
  let stop := t.blockBase + t.blockMib * 2 ^ 20
  if mib ≤ t.blockMib then some none
  else if (s.gaps t.home).any (fun g => g.1 == stop && decide (mib - t.blockMib ≤ g.2)) then some (some (stop, mib - t.blockMib))
  else (s.fitBlock t.home mib).map (fun b => some (b, mib))

/-- The mode takes effect (R156, R374). -/
def State.applyMode (s : State) (n : Nat) (w : List Nat) : State :=
  let t := s.stream n
  let size := t.resizes w
  let mib := t.newMib w
  let base := match t.reserve with
    | some (b, m) => if b = t.blockBase + t.blockMib * 2 ^ 20 ∧ m ≠ mib then t.blockBase else b
    | none => t.blockBase
  let ctu := fun (v : List Nat) => match s.image t with
    | some e => PersParams_ctu e.params (fv v 15)
    | none => 0
  let u : Stream := { t with
    mode := w, reserve := none, nextKey := t.nextKey || (t.encode && (size || ctu w != ctu t.mode)) }
  let v : Stream := if size then { u with
      blockBase := base, blockMib := mib, poolSlots := poolSlotsOf t.encode w, overlap := fv w 14
      slots := (u.slots.filter (fun y => decide (y.1 < poolSlotsOf t.encode w))).map (fun y => (y.1, y.2.cleared)) } else u
  s.modStream n (fun _ => ({ v with k := s.kOf v } : Stream).mirrored)

/-- The present home is one that the mode allows (R374). -/
def Stream.homeAllowed (t : Stream) : Bool :=
  pinQuad (t.field 48) t.home != 0 && !(t.field 50 == 2 && t.field 49 != t.home)

/-- The end of a STREAM_PARAMS: the mode applies, the job retires, and a home that a new PIN_MASK, HOME_HINT or HINT_MODE no
longer allows is left (R374). -/
def State.endParams (s : State) (j n : Nat) (w : List Nat) (drained : Nat) : State :=
  let s1 := (s.applyMode n w).retire j drained
  if [48, 49, 50].all (fun f => fv w f == (s.stream n).field f) || (s1.stream n).homeAllowed then s1
  else s1.rehomeStart n 4 noQuad

/-- The vector that the validated block gives, or the detail code that refuses it (R375). -/
def State.checkParams (s : State) (x : Job) (n : Nat) (l : List Byte) (verdict : Nat) : List Nat × Nat :=
  let t := s.stream n
  let mask := blockNat l 8 8
  let bad := fun (c : Nat) => (t.mode, c)
  if blockNat l 0 2 ≠ 1 then bad 0x0001
  else if !modeRsvOk l ∨ 2 ^ 62 ≤ mask then bad 0x0003
  else if bit mask 55 then bad 0x0004
  else
    match s.image t with
    | none => bad 0x0005
    | some e =>
      let v := t.merged l
      let cap := s.loadCap (fv v 52)
      let r := validate e.id e.flags e.params t.encode cap (s.devField x.epoch 17 == 1) verdict v
      if r.2 ≠ 0 then r
      else if coresOf e.params t.encode cap r.1 < kSize e.params t.encode r.1 then bad 0x3002
      else if t.encode ∧ t.lookCap < fv r.1 32 then bad 0x3003
      else r

/-- The drain of a decode stream that a resize begins with, one pass (R156). -/
def State.paramsDrain (s : State) (j n : Nat) (w : List Nat) : State :=
  match s.job j with
  | none => s
  | some x =>
    match s.drainRun j x n with
    | .wait t | .ended t => t
    | .written t => t.endParams j n w x.drain.length

/-- A validated STREAM_PARAMS takes its course (R156): a resize reserves its room first. -/
def State.startParams (s : State) (j n : Nat) (w : List Nat) : State :=
  let t := s.stream n
  if t.resizes w then
    match s.placeBlock n (t.newMib w) with
    | none => s.refuse j (0x31, 0x3001)
    | some r =>
      let s1 := s.modStream n (fun t => { t with reserve := r })
      if t.encode then s1.endParams j n w 0
      else
        ((s1.begin j).modJob j (fun y => { y with vec := w, drain := t.drainOrder 17 [] })).paramsDrain j n w
  else s.endParams j n w 0

/-- The whole of STREAM_PARAMS with the answer of the image's validator. A drain that waited for a buffer goes on with the
mode that was validated. -/
def State.runParams (s : State) (j : Nat) (block : Option (List Byte)) (verdict : Nat) : State :=
  s.opStart j 0x03 fun x n =>
    if x.started then s.paramsDrain j n x.vec
    else
      if s.blockHeld x then s
      else
      let s := s.askBlock x
      match s.modeBlock x block with
      | .hostFail => s.fault 8 0xFFFF (some j) 0
      | .bad st d => s.refuse j (st, d)
      | .ok l =>
        let r := s.checkParams x n l verdict
        if r.2 ≠ 0 then s.refuse j (0x31, r.2) else s.startParams j n r.1

/-- STREAM_PARAMS (R156). `block` is the mode block where it lies in host memory, `verdict` what the image's validator
answered. -/
def execStreamParams (job : Nat) (block : Option (List Byte)) (verdict : Nat) (s : State) : Result :=
  act s fun s => s.runParams job block verdict

/-- VALIDATOR_TIMEOUT (R319) for a stream's block: the mode is refused with 0x0006. -/
def State.validatorTimeout (s : State) (j : Nat) (block : Option (List Byte)) : State :=
  match s.job j with
  | some x => if x.opcode = 0x01 then s.runOpen j block 0x0006 else s.runParams j block 0x0006
  | none => s

/-! ### STREAM_CLOSE (R157) -/

/-- The stream is CLOSED and its block free, at the retire point of its STREAM_CLOSE. -/
def State.closed (s : State) (j n detail : Nat) : State :=
  ((s.retire j detail).modStream n (fun _ => {})).stallCond

/-- STREAM_CLOSE (R150, R157). -/
def execStreamClose (job : Nat) (s : State) : Result :=
  act s fun s =>
    s.opStart job 0x02 fun x n =>
      let t := s.stream n
      let drains := !t.encode && x.at 8 1 == 0
      if !drains then s.closed job n 0
      else
        let s1 := if x.started then s
          else ((s.begin job).modStream n (fun t => { t with before := t.state, state := .closing })).modJob job
            (fun y => { y with drain := t.drainOrder 17 [] })
        match s1.job job with
        | none => s
        | some y =>
          match s1.drainRun job y n with
          | .wait u | .ended u => u
          | .written u => u.closed job n y.drain.length

/-! ### REF_OP (R177, R178) -/

/-- One REF_OP: it has been placed and is the next of its core (R590). -/
def refOp (job sub : Nat) (s : State) (f : State → Job → Nat → State) : Result :=
  act s fun s =>
    match s.job job with
    | none => s
    | some x =>
      match x.stream with
      | none => s
      | some n => if x.opcode ≠ 0x50 ∨ x.subop ≠ sub ∨ !s.sideTurn job x then s else f (s.begin job) x n

/-- The stream summary of QUERY (R178). -/
def State.querySummary (s : State) (n : Nat) : List Byte :=
  let t := s.stream n
  let code := match t.state with
    | .closed => 0
    | .opened => 1
    | .stopped => 2
    | .closing => 3
  let flight := (s.jobs.filter (fun (y : Nat × Job) => y.2.stream == some n && y.2.codes &&
    (y.2.phase == .placed || y.2.phase == .running))).length
  let pend := ((List.range t.poolSlots).filter (fun k => (t.slot k).pending)).length
  leBytes 2 n ++ leBytes 1 code ++ leBytes 1 (b2n t.encode) ++ leBytes 4 t.persId ++ leBytes 1 t.home ++
    leBytes 1 t.poolSlots ++ leBytes 1 t.overlap ++ leBytes 1 flight ++ leBytes 4 t.framesDone ++ leBytes 2 pend ++
    leBytes 2 t.droppedOutput ++ leBytes 4 t.rebuilds ++ leBytes 8 t.blockBase ++ leBytes 4 t.blockMib ++
    List.replicate 28 0

/-- A QUERY slot record (R178). -/
def Slot.queryRecord (k : Slot) : List Byte :=
  let mark := match k.mark with
    | .unused => 0
    | .short => 1
    | .long => 2
  leBytes 4 (mark * 2 ^ 30 + b2n k.pending * 2 ^ 29 + b2n k.synthetic * 2 ^ 28 + b2n k.coding * 2 ^ 27 + b2n k.failed * 2 ^ 26 +
    k.readers % 16 * 2 ^ 16 + k.rowsDone % 1024) ++ leBytes 4 (narrow 32 k.picId) ++ leBytes 2 k.gen ++
    leBytes 1 (if k.mark = .long then k.longIdx else 0xFF) ++ [0] ++ leBytes 4 k.orderIndex

/-- The 336 bytes of QUERY. -/
def State.queryBytes (s : State) (n : Nat) : List Byte :=
  let t := s.stream n
  s.querySummary n ++ (List.range 17).flatMap (fun k =>
    if k < t.poolSlots then (t.slot k).queryRecord else List.replicate 16 0)

/-- A REF_OP that writes runs behind ADDR: SIZE, the host and the address decide (R178, R397). -/
def State.refWrite (s : State) (j : Nat) (x : Job) (l : List (Nat × List Byte)) (stop : Nat) (content : Bool) : State :=
  let a := x.at 16 8
  if !tagOk a then s.refuse j (0x50, 0x06)
  else if x.at 24 4 < stop then s.refuse j (0x30, 0x020000)
  else if !isDev a ∧ !s.hostReach then s
  else if s.runsOk a l then ((s.writeRuns a l content).modJob j (fun y => { y with outBytes := stop })).retire j 0
  else s.failFinal j 0x42 x.refused

/-- QUERY (R98, R177, R178): its record is none of the data that may be relaxed. -/
def execQuery (job : Nat) (s : State) : Result :=
  refOp job 0x01 s fun s x n => s.refWrite job x [(0, s.queryBytes n)] 336 false

/-- A REF_OP on the picture that it selects; none leaves everything (R178). -/
def State.refPicture (s : State) (j : Nat) (x : Job) (n : Nat) (f : Slot → Slot) : State :=
  match (s.stream n).select x with
  | some k => (s.modSlot n k f).retire j 0
  | none => s.retire j 0

/-- INVALIDATE (R177). -/
def execInvalidate (job : Nat) (s : State) : Result :=
  refOp job 0x02 s fun s x n => s.refPicture job x n (fun k => { k with mark := .unused, longIdx := 0xFF })

/-- MARK_LONG (R177). -/
def execMarkLong (job : Nat) (s : State) : Result :=
  refOp job 0x03 s fun s x n => s.refPicture job x n (fun k => { k with mark := .long, longIdx := x.at 10 1 })

/-- EXPORT (R167, R177): the complete picture, uncompressed, in FORMAT at PITCH. -/
def execExportPic (job : Nat) (s : State) : Result :=
  refOp job 0x04 s fun s x n =>
    let t := s.stream n
    match (t.select x).filter (fun k => (t.slot k).complete) with
    | none => s.retire job 0
    | some k =>
      let lin := ((fmtOf (x.at 28 1)).map (fun f => !f.t24)).getD false
      if lin ∧ x.at 16 8 % 64 ≠ 0 then s.refuse job (0x50, 0x06)
      else
      match fmtOf (x.at 28 1), t.formatCode k (x.at 28 1) (x.at 32 4) 0 with
      | some f, none =>
        if !s.tilesOk n k then s.fault 75 x.core (some job) 0
        else
          let l := (t.slotGeom k).runs s.mem f (x.at 32 4)
          s.refWrite job x l (runsEnd l) true
      | _, some e => s.refuse job e
      | none, none => s.refuse job (0x22, 0)

/-- RELEASE_OUTPUT (R177): one picture, or every pending one. -/
def execReleaseOutput (job : Nat) (s : State) : Result :=
  refOp job 0x05 s fun s x n =>
    if x.at 9 1 = 0xFF ∧ x.at 12 4 = 0x80000000 then
      (s.modStream n (fun t => { t with slots := t.slots.map (fun y => (y.1, { y.2 with pending := false, released := false })) })).retire
        job 0
    else s.refPicture job x n (fun k => { k with pending := false, released := false })

end Sys2Proof.Machine
end

