-- ==== Sys2Proof/Machine/Coding.lean ====
section
/-!
DEFINITION. ENCODE_FRAME, ENCODE_LADDER, DECODE_UNIT and the retire point of coding jobs (R35, R173, R174, R210, R224,
R327 to R331, R340 to R355, R360 to R371).
-/
namespace Sys2Proof.Machine

/-! ### Frame start of an encode frame (R210, R343 to R354) -/

/-- CTU columns and rows of a picture. -/
def ctuGrid (w h ctu : Nat) : Nat × Nat := (ceilDiv w ctu, ceilDiv h ctu)

/-- C(j) of the frame with display index `d` for job x of stream t (R343, R350, R355). A lower rendition reads the top's, one
frame earlier once the top has finally failed. -/
def State.complexity (s : State) (x : Job) (t : Stream) (d : Nat) : Nat :=
  match s.topOf x with
  | some top =>
    let u := (top.stream.map s.stream).getD {}
    let back := b2n (!top.live && top.status != 0)
    mgetD u.look (top.display + d - x.display - back) 1
  | none => if t.field 32 = 0 then 1 else mgetD t.look d 1

/-- LOOKAHEAD_DEPTH of a job: a lower rendition's is the top's (R355). -/
def State.lookDepth (s : State) (x : Job) (t : Stream) : Nat :=
  match (s.topOf x).bind Job.stream with
  | some n => fv (s.effMode x (s.stream n)) 32
  | none => fv (s.effMode x t) 32

/-- The frame is coded as a key picture (R148, R176, R354, R374): it was forced, no reference is left, or the CTU size
changed. -/
def forcedKey (x : Job) (t : Stream) (picType ctu : Nat) : Bool :=
  t.nextKey || x.keyPic || bit (x.at 21 1) 0 || (decide (2 ≤ picType) && x.refs == []) ||
  (t.lastCtu != 0 && t.lastCtu != ctu)

/-- The widths of the tiles of a frame, and their budgets (R189, R353). -/
def Job.tileShare (x : Job) (budget hdr cols rows : Nat) : List Nat × List Nat :=
  let widths := if x.cores.length = 1 then [cols] else x.widths
  (widths, if x.cores.length = 1 then [budget] else tileBudgets budget hdr (cols * rows) (widths.map (fun w => w * rows)))

/-- The frame sets of a frame are loaded, one on each of its cores (R347, R353). -/
def State.loadTiles (s : State) (j : Nat) (x : Job) (f : FramePlan) (r : CtuParams) (lag guard hdr cols rows aq : Nat) : State :=
  let k := x.cores.length
  let share := x.tileShare f.budget hdr cols rows
  let widths := share.1
  let budgets := share.2
  let map := if x.present 4 then x.over 16 8 else 0
  (List.range k).foldl (fun u i =>
    let w := widths.getD i 0
    u.loadSet (x.cores.getD i 0) j f (if k = 1 then hdr else 0) r.tailBits (w * rows) w r.minCtuBits guard lag
      (budgets.getD i 0) (if map = 0 then 0 else map + (widths.take i).sum) (if aq = 0 then 0 else aq + (widths.take i).sum)
      (roundUp cols 64)) s

/-- The CTU costs from which the adaptive map of an encode frame is built (R352, R355): those of its own pass, of the top's for a
lower rendition, and without lookahead of the frame before. -/
def State.aqCosts (s : State) (x : Job) (t : Stream) (ctu : Nat) (stats : List LookStat) : List Nat :=
  match (s.topOf x).bind (fun y => y.stream.map (fun n => (y, s.stream n))) with
  | some (y, u) =>
    match s.image u, mget u.passes y.display with
    | some e, some p =>
      let c := PersParams_ctu e.params (fv (s.effMode y u) 15)
      scaledCosts u t (u.ctuCosts p.stats c) c ctu
    | _, _ => []
  | none =>
    if t.lookCap = 0 then (if stats = [] then [] else t.ctuCosts stats ctu)
    else ((mget t.passes x.display).map (fun p => t.ctuCosts p.stats ctu)).getD []

/-- Every frame of the stream before job x in coding order has begun. -/
def State.startsInOrder (s : State) (n : Nat) (x : Job) : Bool :=
  s.jobs.all (fun (y : Nat × Job) => !(y.2.live && y.2.stream == some n && y.2.indexed && decide (y.2.coding < x.coding) &&
    !y.2.framed))

/-- Frame start of an encode frame. -/
def State.frameStart (s : State) (j : Nat) (x : Job) (n : Nat) (p : FrameStart) : State :=
  let t := s.stream n
  match s.image t with
  | none => s
  | some e =>
    let v := s.effMode x t
    let ctu := PersParams_ctu e.params (fv v 15)
    let key := forcedKey x t p.picType ctu
    let typ := if key then 0 else p.picType
    let r := ctuRow e.params ctu
    let g := ctuGrid (fv v 0) (fv v 1) ctu
    let k := x.cores.length
    let depth := s.lookDepth x t
    let win := ((typ, p.tid) :: p.window.drop 1).take (max 1 (if depth = 0 then p.window.length else depth))
    let cs := win.zipIdx.map (fun q => (s.complexity x t (x.display + q.2), typeFactor q.1.1 q.1.2))
    let c := (cs.head?.map Prod.fst).getD 1
    let hdr := if k = 1 then p.hdrBits else r.hdrBase + r.hdrPerCore * k
    let guard := if fv v 36 = 0 then e.params.lag * r.guardBits else fv v 36
    let f := s.framePlan x n typ p.tid hdr c cs (g.1 * g.2) r.minCtuBits r.tailBits
    let aq := s.writeAq t (fv v 33) (s.aqCosts x t ctu p.stats) g.1 (roundUp g.1 64)
    let s1 := aq.2.loadTiles j x f r e.params.lag guard hdr g.1 g.2 aq.1
    let s2 := s1.modStream n (fun t => { t with nextKey := false, lastCtu := ctu })
    let s3 := match x.slot with
      | some o => s2.modSlot n o (fun y => { y with picId := p.picId, pts := x.at 40 8 })
      | none => s2
    s3.modJob j (fun y => { y with
      framed := true, keyPic := key || typ == 0, picType := typ, tid := p.tid, budget := f.budget, plan := f.plan, cost := c
      qp := f.qp, borders := p.borders
      record := if k = 1 then none else
        some { hdrBits := hdr, refs := x.refs, qp := f.qp, budgets := (x.tileShare f.budget hdr g.1 g.2).2 } })

/-! ### Frame close of an encode frame (R173, R210, R224, R340) -/

/-- The frame set of job j on core n. -/
def State.jobSet (s : State) (n j : Nat) : Option RcSet := (s.ownSet n j).map (s.rcSet n)

/-- Every tile of a frame has ended: its engine has left the job, its count is closed and, with several tiles, its bytes are
staged (R222, R224, R340). -/
def State.tilesEnded (s : State) (j : Nat) (x : Job) : Bool :=
  x.cores.all (fun n =>
    (s.unit n).bin.job != some j && ((s.jobSet n j).bind RcSet.final).isSome &&
    (x.cores.length == 1 || (mget x.tiles n).isSome))

/-- The size S of a frame: the sum over its tiles (R340). -/
def State.frameSize (s : State) (j : Nat) (x : Job) : Nat :=
  (x.cores.map (fun n => ((s.jobSet n j).bind RcSet.final).getD 0)).sum

/-- The staged bytes of tile i (R224): read from its buffers, or as the sender gives them where those are in host memory. -/
def State.stagedTile (s : State) (x : Job) (i n : Nat) (staged : List (List Byte)) : List Byte :=
  let l := s.stageAreas x n
  let len := mgetD x.tiles n 0
  if l.any (fun a => !isDev a.1) then staged.getD i []
  else (l.flatMap (fun a => s.devBytes (devOf a.1) (min a.2 len))).take len

/-- The 64-byte access-unit record (R173). -/
def auRecord (x : Job) (kept : Bool) : List Byte :=
  leBytes 8 (x.at 40 8) ++ leBytes 4 x.coding ++ leBytes 4 x.display ++ leBytes 1 x.picType ++ leBytes 1 x.tid ++
    leBytes 1 (if kept then x.slot.getD 0xFF else 0xFF) ++ List.replicate 45 0

/-- Writes the access-unit record behind the output, in the buffer that holds its last byte (R173): a record that does not
fit marks OUT_OVERFLOW. -/
def State.writeAuRecord (s : State) (j : Nat) (kept : Bool) : State :=
  match s.job j with
  | none => s
  | some x =>
    if x.outMode = 2 then s
    else
      let put := fun (o : Option (Nat × Nat) × Nat) (a : Nat × Nat) =>
        match o.1 with
        | some _ => o
        | none => if x.outBytes ≤ o.2 + a.2 then (some (a.1, x.outBytes - o.2), o.2) else (none, o.2 + a.2)
      match ((s.areas x).foldl put (none, 0)).1, (s.areas x).find? (fun _ => true) with
      | some (a, used), _ =>
        let at' := recordAt a used
        let size := (((s.areas x).find? (fun z => z.1 == a)).map Prod.snd).getD 0
        if at' + 64 ≤ size then s.writePieces j x [(a + at', auRecord x kept)]
        else s.modJob j (fun y => { y with overflow := true })
      | none, _ => s.modJob j (fun y => { y with overflow := true })

/-- Changes reference marks for a job, keeping what a discard brings back (R160, R169). -/
def State.dropMarks (s : State) (j n : Nat) (l : List Nat) : State :=
  l.foldl (fun u k =>
    let y := (u.stream n).slot k
    if y.mark = .unused then u
    else (u.modJob j (fun x => { x with undo := (k, y.gen, y.mark, y.longIdx) :: x.undo })).modSlot n k
      (fun y => { y with mark := .unused, longIdx := 0xFF })) s

/-- The mark that a report's code names: 1 short, 2 long. -/
def markOf (c : Nat) : RefMark := if c = 1 then .short else if c = 2 then .long else .unused

/-- The reference mark of an encoded picture (R169, R176): LONG_TERM keeps it long, NO_REF drops it. -/
def encodeMark (x : Job) (p : FrameClose) : RefMark × Nat :=
  if bit (x.at 21 1) 1 then (.unused, 0xFF)
  else if x.present 3 then (.long, x.over 11 1)
  else (markOf p.mark, if p.mark = 2 then p.longIdx else 0xFF)

/-- Assembles a tiled frame (R224): the headers, then the tiles in order; the staging buffers return. -/
def State.assemble (s : State) (j : Nat) (x : Job) (p : FrameClose) : State :=
  if x.cores.length ≤ 1 then s
  else
    let l := p.head ++ x.cores.zipIdx.flatMap (fun c => s.stagedTile x c.2 c.1 p.staged)
    let s1 := s.outUnit j l true
    (x.staging.foldl (fun t h => t.dropCore h.2) s1).modJob j (fun y => { y with staging := [] })

/-- Bytes that the assembly of a tiled frame adds to the output. -/
def assembled (x : Job) (p : FrameClose) : Nat :=
  if x.cores.length ≤ 1 then 0 else p.head.length + (x.cores.map (fun n => mgetD x.tiles n 0)).sum

/-- Frame close of an encode frame. -/
def State.frameClose (s : State) (j : Nat) (x : Job) (n : Nat) (p : FrameClose) : State :=
  let size := s.frameSize j x
  let sets := x.cores.filterMap (fun c => s.jobSet c j)
  let floor := sets.any (fun r => r.floorFrom.isSome)
  let s1 := s.assemble j x p
  let m := encodeMark x p
  let s2 := s1.writeAuRecord j (m.1 != .unused)
  let s3 := s2.dropMarks j n p.drop
  let s4 := match x.slot with
    | some k => s3.modSlot n k (fun y => { y with mark := m.1, longIdx := m.2 })
    | none => s3
  s4.modJob j (fun y =>
    let y1 := if floor then y.setFlag 2 else y
    { (if x.budget < size then y1.setFlag 5 else y1) with reported := true })

/-- ENCODE_FRAME (R173, R210): the pilot's report of the frame's start or close. -/
def execEncodeFrame (job : Nat) (r : FrameReport) (s : State) : Result :=
  act s fun s =>
    match s.job job with
    | none => s
    | some x =>
      match x.stream, r with
      | none, _ => s
      | some n, .start p =>
        if x.opcode ≠ 0x10 ∨ x.phase ≠ .running ∨ x.framed ∨ !s.startsInOrder n x then s else s.frameStart job x n p
      | some n, .close p =>
        if x.opcode ≠ 0x10 ∨ x.phase ≠ .running ∨ !x.framed ∨ x.reported ∨ x.request.isSome ∨ !s.tilesEnded job x ∨
            (1 < x.cores.length ∧ s.outHeld x) ∨ s.unreachable (s.areas x) then s
        else if s.needsSecond x (assembled x p) then s.askSecond job x
        else s.frameClose job x n p

/-! ### Decode units (R174, R359 to R371) -/

/-- Every earlier decode unit of the stream has been parsed. -/
def State.parsesInOrder (s : State) (n : Nat) (x : Job) : Bool := s.startsInOrder n x

/-- The job takes the picture that it writes: the earliest pending one that the output process has released and no earlier job
writes (R174). -/
def State.claimOutput (s : State) (j n : Nat) : State :=
  match (s.stream n).firstOut (fun k => k.pending && k.released) with
  | some k => (s.modSlot n k (fun y => { y with released := false })).modJob j (fun y => { y with outSlot := some k })
  | none => s

/-- The headers of a unit are parsed: marks change, the picture takes its place in output order, and the job takes the
picture that it writes (R165, R169, R174). -/
def State.unitParsed (s : State) (j : Nat) (x : Job) (n : Nat) (p : UnitPic) : State :=
  let s1 := if p.newCvs then s.modStream n (fun t => { t with cvs := t.cvs + 1 }) else s
  let s2 := s1.dropMarks j n p.drop
  let cvs := (s2.stream n).cvs
  let s3 := match x.slot with
    | some k => s2.modSlot n k (fun y => { y with
        picId := p.picId, outKey := p.outKey, cvs := cvs, mark := markOf p.mark, pending := p.pending, released := false
        longIdx := if p.mark = 2 then p.longIdx else 0xFF, pts := x.at 40 8, grain := p.grain })
    | none => s2
  let s4 := match p.shows with
    | some k => if ((s3.stream n).slot k).holds then
        s3.modSlot n k (fun y => { y with pending := true, outKey := p.outKey, cvs := cvs, grain := p.grain })
      else s3
    | none => s3
  let s5 := p.released.foldl (fun u k =>
    match (if k = 0xFF then x.slot else some k) with
    | some m => if ((u.stream n).slot m).pending then u.modSlot n m (fun y => { y with released := true }) else u
    | none => u) s4
  (s5.claimOutput j n).modJob j (fun y => { y with
    framed := true, ctu := max 1 p.ctu, scan := p.scan, ref0 := p.ref0, mvFrac := p.mvFrac, crop := p.crop, cover := [], seg := none
    borders := p.borders, record := if y.cores.length ≤ 1 then none else some { refs := y.refs } })

/-- The unit produces no picture (R361): it counts as never received, and later readers of its slot run again. -/
def State.unitLost (s : State) (j : Nat) (x : Job) (n : Nat) : State :=
  let s1 := s.cascade n j x.slot
  let s2 := match x.slot with
    | some k => s1.modSlot n k (fun y => { y with coding := false, failed := true, mark := .unused, pending := false })
    | none => s1
  (s2.modJob j (fun y => { y with slot := none, framed := true })).claimOutput j n

/-- An error of a unit (R359 to R361, R369): strict mode latches it, PICTURE_SIZE and TOOL end the job with ERR_UNSUPPORTED,
and other errors are concealed, or leave the unit without a picture. -/
def State.unitError (s : State) (j : Nat) (x : Job) (n : Nat) (e : UnitError) : State :=
  let at' : ErrAt := { cls := e.cls, cause := e.cause, detector := e.detector, byte := e.byte, unit := e.unit, ctu := e.ctu }
  if s.strict x then s.latch j at'
  else if e.cause = 0x23 ∨ e.cause = 0x28 then s.failFinal j 0x22 at'.detail
  else if e.lost ∧ !x.framed then s.unitLost j x n
  else
    match x.slot, x.seg with
    | some k, some (first, _) =>
      let y := (s.stream n).slot k
      let l := x.errorRun y (fv (s.effMode x (s.stream n)) 41) first e.at' (min e.last (x.ctuCount y - 1))
      if s.concealHeld j x n k l e.mvs then s else (s.modJob j (fun y => { y with seg := none })).conceal j n k l e.mvs
    | _, _ => s

/-! ### Segments (R360, R362) -/

/-- A CTU that normal service would conceal, or a segment that it would drop, in strict mode (R369). The cause of a gap is the
model's (DESIGN CHOICE, log entry 106). -/
def State.segmentError (s : State) (j p : Nat) : State :=
  s.latch j { cls := 2, cause := 0x22, detector := 1, ctu := p }

/-- An intact segment header (R362): the gap before the segment is concealed and the segment opens. One whose address lies outside
the picture or in CTUs already covered is not decoded. -/
def State.openSegment (s : State) (j : Nat) (x : Job) (n k first : Nat) (mvs : Map ConcealMv) : State :=
  let y := (s.stream n).slot k
  let gap := x.gap 0 first
  if x.ctuCount y ≤ first ∨ x.covered first ≠ 0 then
    (if s.strict x then s.segmentError j first else s.modJob j (fun z => { z with seg := none }))
  else if s.strict x ∧ gap ≠ [] then s.segmentError j (gap.headD 0)
  else if s.concealHeld j x n k gap mvs then s
  else (s.modJob j (fun z => { z with seg := some (first, first) })).conceal j n k gap mvs

/-- The next CTUs of the open segment are decoded, up to one that an earlier segment has decoded (R362). -/
def State.segmentDecoded (s : State) (j : Nat) (x : Job) (n k count : Nat) : State :=
  match x.seg with
  | none => s
  | some (first, next) =>
    let y := (s.stream n).slot k
    let want := (List.range (min count (x.ctuCount y - next))).map (fun i => next + i)
    let l := want.takeWhile (fun p => x.covered p == 0)
    if s.strict x ∧ l.length < count then s.segmentError j (next + l.length)
    else
      (s.modJob j (fun z => { z with
        cover := l.foldl (fun m p => mset m p 1) z.cover
        seg := if l.length < count then none else some (first, next + l.length) })).countRows j n k

/-- The pieces that writing runs into the areas of a job makes, or none when they do not fit. -/
def State.runPieces (s : State) (x : Job) (l : List (Nat × List Byte)) : Option (List (Nat × List Byte)) :=
  let cut := l.map (fun r => splitInto (s.areas x) r.1 r.2)
  if cut.all (fun c => c.2 == []) then some (cut.flatMap Prod.fst) else none

/-- The job writes no picture (R174): its buffers return. -/
def State.noPicture (s : State) (j : Nat) (x : Job) : State :=
  (x.bufs.foldl (fun t h => t.dropCore h) s).modJob j (fun y => { y with
    bufs := [], handle0 := 0xFFFFFFFF, handle1 := 0xFFFFFFFF, outBytes := 0, reported := true })

/-- The job writes the picture of slot k (R165, R168, R174). -/
def State.writePicture (s : State) (j : Nat) (x : Job) (n k : Nat) : State :=
  let t := s.stream n
  let y := t.slot k
  let fmt := x.at 23 1
  let pitch := x.at 36 4
  let base := ((s.areas x).head?.map Prod.fst).getD 0
  match t.formatCode k fmt pitch base, s.pictureRuns n k fmt pitch 0xFFFFFFFF base (s.grainOn x) with
  | some e, _ => s.refuse j e
  | none, none => s.refuse j (0x22, 0)
  | none, some (l, e) =>
    if !s.tilesOk n k then s.fault 75 (if x.core < 48 then x.core else 12 * t.home) (some j) 0
    else if s.needsSecond x e then s.askSecond j x
    else
      match s.runPieces x l with
      | none => s.refuse j (0x30, 0x020000)
      | some ps =>
        let s1 := State.writePieces { s with free := s.free + 1 } j x ps
        match s1.job j with
        | some z =>
          if z.phase ≠ .running then s1
          else (s1.modSlot n k (fun y => { y with pending := false })).modJob j (fun z =>
            let z1 := if y.concealed then z.setFlag 0 else z
            { (if y.taint then z1.setFlag 1 else z1) with
              outBytes := e, reported := true, detail := if y.concealed then y.fraction else 0 })
        | none => s1

/-- The concealed fraction in 1/256 (R365). -/
def concealedFraction (c luma : Nat) : Nat := min 255 (ceilDiv (256 * c) (max 1 luma))

/-- The CTUs of a unit's own picture that no segment has covered at frame close (R362). -/
def State.lastGap (s : State) (x : Job) (n : Nat) : List Nat :=
  match x.slot with
  | some k => x.gap 0 (x.ctuCount ((s.stream n).slot k))
  | none => []

/-- Frame close of the unit's own picture: what no segment covered is concealed, and the picture's concealment and taint are known
(R362, R365, R368). -/
def State.closePicture (s : State) (j : Nat) (x : Job) (n : Nat) (mvs : Map ConcealMv) : State :=
  match x.slot with
  | none => s
  | some k =>
    let s1 := s.conceal j n k (s.lastGap x n) mvs
    match s1.job j with
    | none => s1
    | some z =>
      let t := s1.stream n
      let c := z.concealedLuma (t.slot k)
      let a := z.outArea (t.slot k)
      s1.modSlot n k (fun y => { y with
        concealed := decide (0 < c), fraction := if c = 0 then 0 else concealedFraction c (a.2.2.1 * a.2.2.2)
        taint := y.taint || z.reads.any (fun r => (t.slot r).taint) })

/-- The unit has ended: its own picture is closed, and the output picture is written once it is complete (R174). -/
def State.unitEnded' (s : State) (j : Nat) (x : Job) (n : Nat) (e : UnitEnd) : State :=
  let s1 := s.closePicture j x n e.mvs
  match x.outSlot with
  | some k =>
    let y := (s1.stream n).slot k
    if y.coding then s1 else if !y.pending then s1.noPicture j x else s1.writePicture j x n k
  | none => s1.noPicture j x

/-- DECODE_UNIT (R174): the pilot's report of a unit's headers, of an error or of its end. -/
def execDecodeUnit (job : Nat) (r : UnitReport) (s : State) : Result :=
  act s fun s =>
    match s.job job with
    | none => s
    | some x =>
      match x.stream with
      | none => s
      | some n =>
        if x.opcode ≠ 0x20 ∨ x.phase ≠ .running ∨ x.reported then s
        else
          match r with
          | .parsed p => if x.framed ∨ !s.parsesInOrder n x then s else s.unitParsed job x n p
          | .segment first mvs =>
            match x.slot with
            | some k => if x.framed then s.openSegment job x n k first mvs else s
            | none => s
          | .decoded count =>
            match x.slot with
            | some k => if x.framed then s.segmentDecoded job x n k count else s
            | none => s
          | .error e => if e.lost ∧ !s.parsesInOrder n x then s else s.unitError job x n e
          | .ended e =>
            if !x.framed ∨ x.request.isSome ∨ s.unreachable (s.areas x) then s
            else if s.strict x ∧ s.lastGap x n ≠ [] then s.segmentError job ((s.lastGap x n).headD 0)
            else if (x.slot.map (fun k => s.concealHeld job x n k (s.lastGap x n) e.mvs)).getD false then s
            else s.unitEnded' job x n e

/-! ### Ladders (R327 to R331) -/

/-- Entry r of a ladder block: n bytes from byte a. -/
def Job.rend (x : Job) (r a n : Nat) : Nat := leNat ((x.ladder.drop (16 + 48 * r + a)).take n)

/-- RESULT_ADDR of a ladder block. -/
def Job.resultAddr (x : Job) : Nat := leNat (x.ladder.take 8)

/-- A reserved byte of the ladder block is set. -/
def Job.ladderRsv (x : Job) : Bool :=
  (x.ladder.drop 8).take 8 != List.replicate 8 0 ||
  (List.range x.renditions).any (fun r => x.rend r 3 1 != 0 || x.rend r 6 2 != 0 || x.rend r 20 4 != 0 || x.rend r 32 8 != 0 ||
    x.rend r 40 8 != 0)

/-- The renditions fit the top (R327): image, GOP structure, key interval, frame rate and size. -/
def State.ladderFits (s : State) (top low : Stream) : Bool :=
  let le8 := fun (a b : Nat) => decide (b ≤ 8 * a) && decide (a ≤ b)
  low.pers == top.pers && [7, 8, 9, 10, 11].all (fun f => low.field f == top.field f) &&
  le8 (low.field 0) (top.field 0) && le8 (low.field 1) (top.field 1) &&
  ((s.image top).map (fun e => bit e.flags 2)).getD false

/-- The check of ENCODE_LADDER's block (R328): status and detail of the first failure. -/
def State.ladderCheck (s : State) (x : Job) : Option (Nat × Nat) :=
  let rs := List.range x.renditions
  let st := fun (r : Nat) => s.stream (x.rendStream r)
  let pool := fun (r : Nat) => x.rend r 2 1 == 1 || x.rend r 2 1 == 3
  let addr := fun (r : Nat) => tagOk (x.resultAddr) && x.resultAddr % 32 == 0 && tagOk (x.rend r 24 8) &&
    (x.rend r 2 1 != 0 || tagOk (x.rend r 8 8)) && !(pool r && x.resultAddr == 0)
  let top := st 0
  let err := rs.findSome? (fun r => s.streamCheck { x with parent := some 0 } (x.rendStream r))
  if x.ladderRsv then some (0x50, 0x02)
  else if rs.any (fun r => decide (4 ≤ x.rend r 2 1)) ∨ rs.any (fun r => pool r && s.noPool (x.rend r 16 4)) then some (0x50, 0x07)
  else if some (x.rendStream 0) ≠ x.stream ∨ rs.any (fun r => decide (1024 ≤ x.rendStream r)) ∨
      rs.any (fun r => (List.range r).any (fun q => x.rendStream q == x.rendStream r)) then some (0x50, 0x03)
  else if rs.any (fun r => (st r).state != .closed && (st r).queue != x.queue) then some (0x50, 0x04)
  else if !rs.all addr then some (0x50, 0x06)
  else if err.isSome then err
  else if s.devField x.epoch 17 = 0 then some (0x31, 0x6091)
  else if rs.any (fun r => (st r).field 55 != (if r = 0 then 1 else 2)) then some (0x31, 0x200C)
  else if rs.any (fun r => !s.ladderFits top (st r)) then some (0x31, 0x200D)
  else sourceCheck x top

/-- The entry of rendition r as an ENCODE_FRAME (R327). -/
def rendBody (x : Job) (r : Nat) : List Byte :=
  [0x10, 0] ++ leBytes 2 (x.rendStream r) ++ leBytes 4 x.tag ++ (x.body.drop 8).take 14 ++ leBytes 1 (x.rend r 2 1) ++ [0] ++
    leBytes 8 (x.rend r 8 8) ++ leBytes 4 (x.rend r 16 4) ++ leBytes 2 (x.rend r 4 2) ++ leBytes 2 0 ++ (x.body.drop 40).take 8 ++
    List.replicate 16 0

/-- Starts rendition r of ladder job j, at its place in its stream's display order (R173, R329). -/
def State.spawn (s : State) (j : Nat) (x : Job) (overs : List Byte) (r : Nat) : State :=
  let n := x.rendStream r
  let m := x.rend r 2 1
  let req := if m = 1 ∨ m = 3 then some (false, x.rend r 16 4) else none
  let y : Job := {
    queue := x.queue, seq := x.seq, epoch := x.epoch, body := rendBody x r, phase := .ready, stream := some n
    tag := x.tag, parent := some j, request := req, ask := req, overrides := overs, display := (s.stream n).displayIndex
    tStart := x.tStart }
  (({ s with jobs := mset s.jobs (j + 1 + r) y }).modStream n (fun t => { t with
    displayIndex := (t.displayIndex + 1) % 2 ^ 32 })).markReady (j + 1 + r)

/-- The override block of rendition r: empty where none is named, none when its host read failed or it is refused. -/
def State.rendOver (s : State) (x : Job) (overs : List (Option (List Byte))) (r : Nat) : Option (List Byte) :=
  if x.rend r 24 8 = 0 then some [] else s.readTagged (x.rend r 24 8) 64 (overs.getD r none)

/-- ENCODE_LADDER (R327 to R329): its turn has come on every rendition stream, the block is checked and the renditions start.
`overs` are the override blocks that lie in host memory. -/
def execEncodeLadder (job : Nat) (overs : List (Option (List Byte))) (s : State) : Result :=
  act s fun s =>
    let s0 := match (s.job job).bind Job.stream with
      | some n => s.letInAll job n
      | none => s
    match s0.job job with
    | none => s
    | some x =>
      let rs := List.range x.renditions
      let held := rs.any (fun r => (s0.before job (x.rendStream r)).any (fun y =>
        y.2.streamOp || y.2.phase == .body || y.2.phase == .parsing || y.2.phase == .waiting ||
        (y.2.opcode == 0x11 && !y.2.framed)))
      if x.opcode ≠ 0x11 ∨ x.phase ≠ .ready ∨ x.framed ∨ held ∨ s0.barred job x.queue then s0
      else
        match s0.ladderCheck x with
        | some e => s0.refuse job e
        | none =>
          match rs.find? (fun r => (s0.rendOver x overs r).isNone) with
          | some r =>
            if isDev (x.rend r 24 8) then s0.refuse job (0x42, x.refused) else s0.fault 8 0xFFFF (some job) 0
          | none =>
            let ov := fun r => (s0.rendOver x overs r).getD []
            let code := fun r =>
              let t := s0.stream (x.rendStream r)
              overrideCode { x with overrides := ov r } (codecOf (((s0.image t).map PersEntry.id).getD 0)) (t.field 12) t.poolSlots
            match rs.find? (fun r => code r != 0) with
            | some r => s0.refuse job (0x31, code r)
            | none =>
              (rs.foldl (fun u r => u.spawn job x (ov r) r) s0).modJob job (fun y => { y with framed := true, started := true })

/-- The 32-byte result record of a rendition (R330). -/
def resultRecord (y : Job) : List Byte :=
  leBytes 2 (y.stream.getD 0xFFFF) ++ leBytes 2 y.status ++ leBytes 2 y.flags ++ leBytes 1 y.core ++
    leBytes 1 (if y.status = 0 then y.detail else 0) ++ leBytes 4 y.outBytes ++ leBytes 4 y.handle0 ++ leBytes 4 y.handle1 ++
    leBytes 4 y.coding ++ List.replicate 8 0

/-- The or of two flag words. -/
def orFlags (a b : Nat) : Nat := a ||| b

/-- The ladder job retires with its last rendition (R329, R330): its records are written and its completion built. -/
def State.retireLadder (s : State) (j : Nat) (x : Job) : State :=
  let kids := (List.range x.renditions).filterMap (fun r => s.job (j + 1 + r))
  let a := x.resultAddr
  if !x.framed ∨ kids.any Job.live ∨ (a ≠ 0 ∧ !isDev a ∧ !s.hostReach) then s
  else
    let recs := kids.flatMap resultRecord
    if a ≠ 0 ∧ !s.writeTagOk a recs.length then s.failFinal j 0x42 x.refused
    else
      let s1 := if a = 0 then s else s.writeTagged a recs
      let bad := kids.find? (fun y => y.status != 0)
      let top := kids.head?.getD x
      let s2 := s1.retire j ((bad.map Job.detail).getD kids.length)
      s2.modJob j (fun y => { y with
        status := (bad.map Job.status).getD 0, flags := kids.foldl (fun f k => orFlags f k.flags) y.flags
        outBytes := (kids.map Job.outBytes).sum, core := top.core, handle0 := top.handle0, handle1 := top.handle1 })

/-! ### JOB_RETIRE (R35) -/

/-- Every core of the job has ended its part, its packets have left and its picture is written (R35, R269). -/
def State.partsEnded (s : State) (j : Nat) (x : Job) (n : Nat) : Bool :=
  x.cores.all (fun c => s.unitEnded c j && !(s.core c).queue.contains j) && !s.packetHeld j x &&
  (match x.slot with
  | some k => !((s.stream n).slot k).coding
  | none => true)

/-- The mean QP of a frame: the sum over its grants (R138, R333). -/
def State.meanQp (s : State) (j : Nat) (x : Job) : Nat :=
  let sets := x.cores.filterMap (fun c => s.jobSet c j)
  (sets.map RcSet.qpSum).sum / max 1 (sets.map RcSet.grants).sum

/-- An encode frame retires (R35, R138, R340, R341, R349): its close enters the stream's rate-control state in coding order. -/
def State.retireEncode (s : State) (j : Nat) (x : Job) (n : Nat) : State :=
  if s.earlierCoding n x.coding then s
  else if x.overflow then s.failFinal j 0x30 0x020000
  else
    let t := s.stream n
    let v := s.effMode x t
    let rc := t.rc.closeFrame v x.coding (s.frameSize j x) x.picType x.qp x.cost x.plan
    let s1 := s.modStream n (fun t => { t with rc := rc })
    let s2 := if t.rc.underflows < rc.underflows then s1.modJob j (fun y => y.setFlag 5) else s1
    ((s2.recordContext x.core n).retire j (s.meanQp j x)).settleFails n v

/-- JOB_RETIRE (R35): the job's last part has ended. Jobs that work in one step retire in their own rows. -/
def execJobRetire (job : Nat) (s : State) : Result :=
  act s fun s =>
    match s.job job with
    | none => s
    | some x =>
      match x.stream with
      | none => s
      | some n =>
        if x.opcode = 0x11 ∧ x.phase = .ready then s.retireLadder job x
        else if x.phase ≠ .running ∨ !x.reported ∨ !s.partsEnded job x n then s
        else if x.opcode = 0x10 then s.retireEncode job x n
        else if x.opcode = 0x20 then (s.recordContext x.core n).retire job x.detail
        else s

end Sys2Proof.Machine
end

