-- ==== Sys2Proof/Machine/DramOps.lean ====
section
/-!
DEFINITION. From a device address to its DRAM location, and the shared operations of a controller (R390 to R395, R398 to
R419).
-/
namespace Sys2Proof.Machine

/-- Parity of the low n bits. -/
def parity : Nat → Nat → Nat
  | 0, _ => 0
  | n + 1, v => (v % 2 + parity n (v / 2)) % 2

/-- One region of a quadrant (R395), from its two registers. -/
structure Region where
  enable : Bool
  frame : Bool
  order : Nat
  maskSet : Nat
  base : Nat
  size : Nat
  deriving DecidableEq, Repr

/-- The region that two register words spell; base and size in bytes. -/
def regionOf (lo hi : Word) : Region :=
  { enable := lo.getLsbD 31, frame := lo.getLsbD 30, order := fld lo 29 28, maskSet := fld lo 27 26,
    base := fld lo 13 0 * 2 ^ 21, size := fld hi 14 0 * 2 ^ 21 }

/-- Region i of quadrant q in force. -/
def State.region (s : State) (q i : Nat) : Region :=
  regionOf (s.active (quadPage q) (0x100 + 8 * i)) (s.active (quadPage q) (0x104 + 8 * i))

/-- Mask j of mask set m, over address bits (R394). -/
def State.xmask (s : State) (q m j : Nat) : Nat := (s.active (quadPage q) (0x180 + 4 * (5 * m + j))).toNat * 64

/-- The lowest-numbered enabled region that contains an offset (R395). -/
def State.regionAt (s : State) (q o : Nat) : Option Region :=
  ((List.range 16).map (s.region q)).find? (fun r => r.enable && decide (r.base ≤ o) && decide (o < r.base + r.size))

/-- A DRAM location: controller, sub-channel, rank, bank, physical row, burst column and byte in the burst. -/
structure Location where
  dch : Nat
  sub : Nat
  rank : Nat
  bank : Nat
  row : Nat
  col : Nat
  byte : Nat
  deriving DecidableEq, Repr

/-- Column, bank and row of a sub-channel address under a LINEAR order (R392). -/
def linearFields (order a : Nat) : Nat × Nat × Nat :=
  match order with
  | 1 => (bits a 10 6, bits a 20 17, bits a 16 11 + a / 2 ^ 21 * 64)
  | 2 => (bits a 14 10, bits a 9 6, a / 2 ^ 15)
  | _ => (bits a 10 6, bits a 14 11, a / 2 ^ 15)

/-- FRAME's bank: bit i becomes the parity under its mask (R392). -/
def frameBank (mask : Nat → Nat) (a : Nat) : Nat :=
  ((List.range 4).map (fun i => parity 40 (Nat.land a (mask (i + 1))) * 2 ^ i)).sum

/-- Rows per bank of one rank (R388). -/
def State.rowsPerBank (s : State) : Nat :=
  let g := s.density
  if fld s.fuse.boardCfg 11 10 = 2 then 16384 * g else 32768 * g

/-- Rank and physical row of a data row (R393). -/
def State.rankRow (s : State) (n : Nat) : Nat × Nat :=
  let r := s.rowsPerBank
  let d := if s.inlineEcc then 7 * r / 8 else r
  if fld s.fuse.boardCfg 11 10 = 2 ∧ d ≤ n then (1, n - d) else (0, n)

/-- The controller-local address of a quadrant offset (R390). -/
def localAddr (o : Nat) : Nat := o / 256 / 3 * 256 + o % 256

/-- The quadrant offset of a controller-local address: R390 read backwards. -/
def offsetOf (ctl r : Nat) : Nat := (r / 256 * 3 + ctl) * 256 + r % 256

/-- Sub-channel and sub-channel address of a device address (R390, R391). -/
def State.subAddr (s : State) (a : Nat) : Nat × Nat :=
  let q := a / 2 ^ 35
  let r := localAddr (a % 2 ^ 35)
  (match s.regionAt q (a % 2 ^ 35) with
    | some g => if g.frame then parity 40 (Nat.land r (s.xmask q g.maskSet 0)) else b2n (bit r 8)
    | none => b2n (bit r 8), r / 512 * 256 + r % 256)

/-- The three stages of the mapping (R390 to R393). -/
def State.locate (s : State) (a : Nat) : Location :=
  let q := a / 2 ^ 35
  let o := a % 2 ^ 35
  let chunk := o / 256
  let reg := s.regionAt q o
  let frame := match reg with
    | some g => g.frame
    | none => false
  let ms := match reg with
    | some g => g.maskSet
    | none => 0
  let sub := (s.subAddr a).1
  let x := (s.subAddr a).2
  let order := match reg with
    | some g => if g.frame then 0 else g.order
    | none => 0
  let f := linearFields order x
  let bank := if frame then frameBank (s.xmask q ms) x else f.2.1
  let rr := s.rankRow f.2.2
  { dch := 3 * q + chunk % 3, sub := sub, rank := rr.1, bank := bank, row := rr.2, col := f.1, byte := x % 64 }

/-- The key of a bank in a controller's tables. -/
def Location.bankKey (l : Location) : Nat := l.sub * 32 + l.rank * 16 + l.bank

/-- FREEZE_LOC (R418). `word` is the failing 8-byte word. -/
def Location.freezeLoc (l : Location) (word : Nat) : Nat :=
  l.sub * 2 ^ 31 + l.rank * 2 ^ 30 + l.bank * 2 ^ 26 + l.row * 2 ^ 9 + l.col * 2 ^ 4 + word * 2

/-- A valid mask set under R394: SC_MASK includes r[8] and excludes r[7:0]; BANK_MASK_i includes its home bit and excludes
the other home bits and s[5:0]. The argument gives the five register values. -/
def maskSetOk (m : Nat → Nat) : Bool :=
  let a := fun j => m j * 64
  bit (a 0) 8 && bits (a 0) 7 0 == 0 &&
  (List.range 4).all (fun i => bits (a (i + 1)) 14 11 == 2 ^ i && bits (a (i + 1)) 5 0 == 0)

/-- BURST of a port in bytes and its RATE in 0.1 GB/s, from the active view of PORT_REG (R406). -/
def State.portBurst (s : State) (k p : Nat) : Nat := fld (s.active (dchPage k) (0x080 + 4 * p)) 27 16 * 1024
/-- RATE of a port. -/
def State.portRate (s : State) (k p : Nat) : Nat := fld (s.active (dchPage k) (0x080 + 4 * p)) 11 0

/-- The rate that governs a port now: a throttled port runs at the lower of RATE and THROTTLE_RATE (R410). None leaves it
unregulated. -/
def State.portLimit (s : State) (k p : Nat) : Option Nat :=
  let r := s.portRate k p
  if bit (s.dch k).throttled p then
    let t := fld (s.active (dchPage k) 0x04C) 11 0
    some (if r = 0 then t else min r t)
  else if r = 0 then none
  else some r

/-- The port regulator lets a request issue (R406, R410). -/
def State.permits (s : State) (k : Nat) (r : DchReq) : Bool :=
  decide (16 ≤ r.port) ||
  (match s.portLimit k r.port with
   | none => true
   | some _ =>
     decide (0 < mgetD (s.dch k).tokens r.port 0) ||
       ((r.cls == 0 || r.promoted) && !bit (s.dch k).throttled r.port))

/-- The class that orders a request: one promoted by age counts as C0 (R404). -/
def DchReq_class (r : DchReq) : Nat := if r.promoted then 0 else r.cls

/-- The request's row is open in its bank (R404). -/
def State.rowHit (s : State) (k : Nat) (r : DchReq) : Bool :=
  let l := s.locate r.addr
  mget (s.dch k).rows l.bankKey == some l.row

/-- No earlier request of its source to its 4 KiB granule waits (R30). -/
def firstOfGranule (before : List DchReq) (r : DchReq) : Bool :=
  !before.any (fun x => x.src == r.src && x.addr / 4096 == r.addr / 4096)

/-- The requests that R30 lets issue. -/
def inOrder (before : List DchReq) : List DchReq → List DchReq
  | [] => []
  | r :: t => (if firstOfGranule before r then [r] else []) ++ inOrder (before ++ [r]) t

/-- The request that R404 chooses among the permitted ones whose bank is ready; `busy` lists the banks that are not. -/
def State.choose (s : State) (k : Nat) (busy : List Nat) : Option DchReq :=
  ((inOrder [] (s.dch k).reqs).filter (fun r => s.permits k r && !busy.contains (s.locate r.addr).bankKey)).foldl
    (fun (o : Option DchReq) r =>
      match o with
      | none => some r
      | some b =>
        if DchReq_class r < DchReq_class b then some r
        else if DchReq_class r = DchReq_class b ∧ s.rowHit k r ∧ !s.rowHit k b then some r
        else some b) none

/-- One burst takes 64 tokens of a regulated port, and never below minus BURST (R406). -/
def State.takeTokens (s : State) (k p : Nat) : State :=
  if 16 ≤ p ∨ s.portLimit k p = none then s
  else s.modDch k (fun d => { d with tokens := mset d.tokens p (max (mgetD d.tokens p 0 - 64) (-(s.portBurst k p : Int))) })

/-- The entry that gives way in a full activation table: lowest count, lowest entry number on a tie (R408). -/
def leastEntry (l : List (Nat × Nat)) : Option (Nat × Nat) :=
  l.foldl (fun (o : Option (Nat × Nat)) x =>
    match o with
    | none => some x
    | some y => if x.2 < y.2 then some x else some y) none

/-- One activation in a bank's table of 8 rows (R408): its new contents and the count of the row. -/
def activate (l : List (Nat × Nat)) (row : Nat) : List (Nat × Nat) × Nat :=
  match l.find? (fun x => x.1 == row) with
  | some x => (l.map (fun y => if y.1 = row then (row, x.2 + 1) else y), x.2 + 1)
  | none =>
    if l.length < 8 then (l ++ [(row, 1)], 1)
    else
      match leastEntry l with
      | some v => (l.map (fun y => if y = v then (row, v.2 + 1) else y), v.2 + 1)
      | none => ([(row, 1)], 1)

/-- THROTTLE follows the throttled ports. -/
def State.throttleCond (s : State) (k : Nat) : State := s.setCond (dchPage k) 4 (decide ((s.dch k).throttled ≠ 0))

/-- Notes a memory command of the present row. -/
def State.dramOp (s : State) (k : Nat) (o : DramOp) : State := s.modDch k (fun d => { d with ops := d.ops ++ [o] })

/-- A row's count reaches HAMMER_THRESHOLD (R409, R410): an RFM clears the entry, the port is throttled unless it is MAINT,
and the event and the fault are raised. -/
def State.hammer (s : State) (k key row port : Nat) : State :=
  let s1 := s.modDch k (fun d => { d with
    rfm := min (d.rfm + 1) 65535
    acts := mmod d.acts key [] (fun l => l.filter (fun x => x.1 != row))
    lastHammer := port
    throttled := if port < 16 ∧ !bit d.throttled port then d.throttled + 2 ^ port else d.throttled })
  (((s1.dramOp k (.rfm key)).throttleCond k).raiseEvt (dchPage k) 0).fault (99 + 8 * k) k none 0

/-- An activation of a row (R408, R409). -/
def State.activateRow (s : State) (k : Nat) (l : Location) (port : Nat) : State :=
  let a := activate (mgetD (s.dch k).acts l.bankKey []) l.row
  let s1 := s.modDch k (fun d => { d with
    rows := mset d.rows l.bankKey l.row, acts := mset d.acts l.bankKey a.1, ops := d.ops ++ [.activate l.bankKey l.row] })
  if fld (s.active (dchPage k) 0x048) 15 0 ≤ a.2 then s1.hammer k l.bankKey l.row port else s1

/-! ### ECC (R398 to R400) -/

/-- The check bits of an 8-byte word. -/
def checkBits (v : Nat) : Nat := Config.eccCheck v % 256

/-- The number of the ECC line that holds the check bits of an address: its aligned 512-byte block of its sub-channel (R398). -/
def State.eccLine (s : State) (a : Nat) : Nat := (s.subAddr a).2 / 512 * 2 + (s.subAddr a).1

/-- The 8-byte words of a line, as numbers, of which the mask covers any byte. -/
def coveredWords (a : Nat) (mask : BitVec 64) : List Nat :=
  ((List.range 8).filter (fun i => (mask >>> (8 * i)).setWidth 8 != 0#8)).map (fun i => a / 64 * 8 + i)

/-- A write covers whole 8-byte words (R398). -/
def DchReq_whole (r : DchReq) : Bool :=
  (List.range 8).all (fun i => let b := (r.mask >>> (8 * i)).setWidth 8; b == 0#8 || b == 0xFF#8)

/-- One cached ECC line is written back, with byte masks for the check bits that changed. -/
def State.eccEvict (s : State) (k i : Nat) : State :=
  match (s.dch k).ecc[i]? with
  | some (n, w) =>
    (s.modDch k (fun d => { d with
      ecc := mdel d.ecc n, carve := w.foldl (fun m x => if x.2 = checkBits 0 then mdel m x.1 else mset m x.1 x.2) d.carve })).dramOp
      k (.eccWrite n (w.map Prod.fst))
  | none => s

/-- The controller needs the ECC line n: one that it does not hold is read. How many lines it holds, and which one makes room,
is not stated: an open value says whether one is written back first (log entry 104). -/
def State.eccFetch (s : State) (k n : Nat) : State :=
  if (mget (s.dch k).ecc n).isSome then s
  else
    let r := s.draw
    ((r.2.eccEvict k r.1).modDch k (fun d => { d with ecc := mset d.ecc n [] })).dramOp k (.eccRead n)

/-- A request's access to memory (R398): a read; a write of whole 8-byte words as a masked write, and of parts of words as a
read-modify-write. With inline ECC its ECC line takes part, and a write renews the check bits of the words it covers. -/
def State.eccAccess (s : State) (k : Nat) (r : DchReq) : State :=
  let s1 := s.dramOp k (if !r.write then .read r.addr else if DchReq_whole r then .maskedWrite r.addr else .readModifyWrite r.addr)
  if !s.inlineEcc then s1
  else
    let n := s.eccLine r.addr
    let s2 := s1.eccFetch k n
    if r.write then
      s2.modDch k (fun d => { d with
        ecc := mupd d.ecc n (fun m => (coveredWords r.addr r.mask).foldl
          (fun m w => mset m w (checkBits (memNat s.mem (8 * w) 8))) m) })
    else s2

/-- Every byte of an address run has valid ECC of zero (R389, R396, R419). -/
def State.eccZero (s : State) (a n : Nat) : State :=
  let keep := fun (w : Nat) => decide (8 * w + 8 ≤ a) || decide (a + n ≤ 8 * w)
  { s with dchs := s.dchs.map (fun d => (d.1, { d.2 with
      carve := d.2.carve.filter (fun c => keep c.1)
      ecc := d.2.ecc.map (fun l => (l.1, l.2.filter (fun c => keep c.1))) })) }

/-- A corrected error of a link (R400): it counts. -/
def State.countCe (s : State) (k : Nat) : State :=
  (s.modDch k (fun d => { d with ce := min (d.ce + 1) 65535 })).raiseEvt (dchPage k) 1

/-- A corrected error of the memory (R399): the corrected line goes back at class C4, the error is counted, and DCH_CE fires at
most once per millisecond. -/
def State.corrected (s : State) (k addr : Nat) : State :=
  let d := s.dch k
  let quiet := match d.lastCe with
    | some t => decide (s.time.ns < t + 1000000)
    | none => false
  let back : DchReq := { port := 16, cls := 4, src := 16, write := true, addr := addr / 64 * 64, mask := BitVec.allOnes 64,
                         promoted := false, arrival := s.time.ns }
  let s1 := (s.countCe k).modDch k (fun d => { d with
    lastCe := if quiet then d.lastCe else some s.time.ns, reqs := d.reqs ++ [back] })
  if quiet then s1 else s1.fault (96 + 8 * k) k none 0

/-- Link ECC runs (R388, R400). -/
def State.linkEcc (s : State) : Bool := fld s.fuse.boardCfg 24 24 == 1

/-- What error correction found in the access that controller k just made (R399, R400); it finds nothing of a kind that is off. -/
def State.eccFound (s : State) (k addr : Nat) (met : EccMet) : State :=
  match met with
  | .clean => s
  | .single => if s.inlineEcc then s.corrected k addr else s
  | .link => if s.linkEcc then s.countCe k else s

/-- The freeze of a controller (R416, R418): the first error is captured, later ones are only counted. `hits` are the jobs
whose requests failed with it. -/
def State.freezeDch (s : State) (k : Nat) (c : Freeze) (hits : List Nat) : State :=
  let src := if c.source = 1 then 97 + 8 * k else 98 + 8 * k
  if (s.page (dchPage k)).state = .frozen then
    let s1 := s.modDch k (fun d => { d with freezeExtra := min (d.freezeExtra + 1) 255 })
    hits.foldl (fun t j => t.refault j src true 0) s1
  else
    let q := nextSeq (s.dch k).freezeSeq
    let s1 := s.modDch k (fun d => { d with
      freeze := some { c with seq := q }, freezeSeq := q, reqs := [], sr := .active, lastLine := c.line })
    let s2 := (s1.modPage (dchPage k) (fun g => { g.leaves with
      state := .frozen, cause := if s.severity src = 3 then .fault else g.cause, draining := false })).setCond (dchPage k) 2 true
    let s3 := (s2.setCond (dchPage k) 3 false).fault src k hits.head? q
    hits.tail.foldl (fun t j => t.refault j src true 0) s3

end Sys2Proof.Machine
end

