-- ==== Sys2Proof/Machine/ResetOps.lean ====
section
/-!
DEFINITION. Withdrawing a unit from service, resetting it and returning it (R71, R92, R162, R237, R419, R465, R541, R589).
-/
namespace Sys2Proof.Machine

/-- The pages whose FENCE and UNIT_RESET fields are RSV (R71). -/
def noFence : PageKind → Bool
  | .device | .boot | .fault | .intc | .mgmt | .pcie | .timebase | .dormant | .fuse | .board | .spi => true
  | _ => false

/-- The core of a core page. -/
def pageCore (p : Nat) : Option Nat := if pageKind p = some .core then some (pageInstance p) else none

/-- The channels of a DMA page. -/
def pageChans (p : Nat) : List Nat :=
  match pageKind p with
  | some .cdma => (List.range 4).map (fun g => 4 * pageInstance p + g)
  | some .qdma => (List.range 16).map (fun g => 192 + 16 * pageQuad p + g)
  | _ => []

/-- The unit of page p has work in flight that must drain (R71). -/
def State.pageBusy (s : State) (p : Nat) : Bool :=
  match pageKind p with
  | some .core => (s.core (pageInstance p)).busy
  | some .cdma | some .qdma => (pageChans p).any (fun c => (s.chan c).state == .running)
  | some .geyser => s.geyser.visit.isSome || s.geyser.queues.any (fun q => q.2.reading || q.2.bodies != [])
  | some .dch => (s.dch (pageInstance p)).reqs != []
  | _ => false

/-- The unit of page p has work, as PAGE_STATUS reports it of a unit in service (R71, log entry 45). -/
def State.pageWorks (s : State) (p : Nat) : Bool :=
  match pageKind p with
  | some .mode => s.modes.state != .applied
  | some .bpm => s.bpm.pools.any (fun x => x.2.state == .enabling || x.2.state == .rebuilding)
  | some .placer => s.jobs.any (fun x => decide (x.2.readyAt ≠ 0) && x.2.phase == .ready)
  | some .qmgr => s.qm.queues.any (fun q => q.2.opened.isSome || q.2.reading.isSome)
  | _ => s.pageBusy p

/-- Page p has left service: MODE no longer waits for a core that has (R385). -/
def State.left (s : State) (p : Nat) : State :=
  match pageCore p with
  | some n => s.dropLaggard n
  | none => s

/-- A unit stops taking work: it reads FENCED at once without work, and otherwise once it has drained (R71). -/
def State.fenceDrain (s : State) (p : Nat) (cause : FenceCause) : State :=
  if s.pageBusy p then s.modPage p (fun g => { g with draining := true, cause := cause })
  else (s.modPage p (fun g => { g.leaves with state := .fenced, draining := false, cause := cause })).left p

/-- A channel returns to IDLE with nothing pending or remembered (R465). -/
def State.resetChan (s : State) (c : Nat) : State := (((s.chanStop c).modChan c (fun _ => {})).chanCond c)

/-- The core's registers, memories and counters at reset; its stores keep their words, but the service pilot rewrites the
words of loaded runs (12_personalities.md). LOAD owns every block register (R237). -/
def State.resetCore (s : State) (n : Nat) : State :=
  let runs := fun (f : PersEntry → Nat × Nat) (i : Nat) =>
    s.pers.dir.any (fun e => decide ((f e.2).1 ≤ i) && decide (i < (f e.2).1 + (f e.2).2))
  let s1 := s.modUnit n (fun u => {
    lanes := u.lanes
    prog := u.prog.filter (fun w => !runs (fun e => (e.progBase, e.progWords)) w.1)
    tab := u.tab.filter (fun w => !runs (fun e => (e.tabBase, e.tabWords)) w.1) })
  let s2 := s1.loseContexts (fun m k => k == n && (s.core n).lastStream == some m)
  (List.range 4).foldl (fun t g => t.resetChan (4 * n + g)) (s2.modPlace n (fun c => { c with lastStream := none, retained := none }))

/-- A mailbox without results; its numbering goes on (log entry 63). -/
def Mailbox.emptied (b : Mailbox) : Mailbox := { seq := b.seq }

/-- What UNIT_RESET does to the unit behind the page, beyond its active view (R92): its status returns to reset values. What
counts as the status of a unit for which no rule names it: log entry 63. -/
def State.resetUnit (s : State) (p : Nat) : State :=
  let i := pageInstance p
  match pageKind p with
  | some .core => s.resetCore i
  | some .cdma | some .qdma => (pageChans p).foldl State.resetChan s
  | some .dch =>
    let line := (s.dch i).lastLine * 64
    { (s.modDch i (fun d => {
        rows := d.rows, acts := d.acts, refreshed := d.refreshed, window := d.window, freezeSeq := d.freezeSeq,
        ecc := d.ecc, carve := d.carve })).eccZero line 64 with
      mem := zeroRun s.mem line 64 }
  | some .bpm => { s with bpm := { seq := s.bpm.seq } }
  | some .quad =>
    let q := pageQuad p
    ({ s with mem := zeroRun s.mem (0xE000000000 + q * 0x2000000) 0x1800000 }.loseContexts (fun _ k => k / 12 == q)).dropSlices q
  | some .qcomp => { s with comps := s.comps.filter (fun c => c.1 / 8 != pageQuad p) }
  | some .netp => (s.modPort i (fun x => { x with drops := [] })).retrain i
  | some .nete => s.modPort i (fun x => { stamps := x.stamps, drops := x.drops })
  | some .tempo => { s with tempo := { s.tempo with
      avsBad := 0, avsLost := false, atVmax := false, atVmin := false, throttling := false, ceiling := 0, under := false } }
  | some .geyser => { s with geyser := { s.geyser with abort := s.geyser.abort.emptied, asked := [] } }
  | some .placer => { s with placer := { s.placer with
      lost := 0, cores := s.placer.cores.map (fun c => (c.1, { c.2 with slow := false })) } }
  | some .mode => { s with modes := { box := s.modes.box.emptied } }
  | some .flowwin => { s with net := { s.net with flowResult := 0, flowSeq := 0, flowIndex := 0 } }
  | _ => s

/-- Page p's active view and event status at their reset values (R92). PAGE_ERR, SNAP and PAGE_LOCK stay (log entry 93). -/
def State.resetView (s : State) (p : Nat) : State :=
  { s with regs := s.regs.filter (fun r => !(decide (regKey p 0x800 ≤ r.1) && decide (r.1 < regKey (p + 1) 0))) }.modPage p
    (fun g => { g with evtRaw := 0, evtPend := 0 })

/-- A unit reset starts (R71): the unit reads OFFLINE while its self-test runs. -/
def State.startReset (s : State) (p : Nat) : State :=
  ((s.resetView p).resetUnit p).modPage p (fun g => { g with state := .offline, resetting := true, draining := false })

/-- The fenced cores and the router that return with their quadrant (R541). -/
def State.quadResets (s : State) (p : Nat) : List Nat :=
  if pageKind p = some .quad then
    ((List.range 12).map (fun i => p + 16 + i) ++ [p + 3]).filter (fun c => (s.page c).state == .fenced)
  else []

/-- UNIT_RESET of a fenced unit (R71); a quadrant's reset takes its fenced cores and its router with it (R541). -/
def State.beginReset (s : State) (p : Nat) : State := (s.quadResets p).foldl State.startReset (s.startReset p)

/-- The page's unit ends its reset: it returns, stays fenced by software, or failed its self-test (R71). A core that
returns holds CURRENT_EPOCH and retains none (R385), and one that the Placer had fenced raises CORE_RETURN (R200). -/
def State.endReset (s : State) (p : Nat) (pass : Bool) : State :=
  let g := s.page p
  let s1 := s.modPage p (fun g => { g with
    resetting := false, epoch := s.modes.current
    state := if pass && !g.fence then .idle else .fenced
    cause := if !pass then .selftest else if g.fence then .software else .none })
  match pageCore p with
  | some n =>
    if !pass then s1.fault 73 n none 0
    else if g.cause = .placer ∧ !g.fence then s1.raiseEvt 5 1
    else s1
  | none => s1

end Sys2Proof.Machine
end

