-- ==== Sys2Proof/Machine/Placer.lean ====
section
/-!
DEFINITION. JOB_PLACE, the Placer's view of core speed, and parking (R179 to R206, R219, R590, R591).
-/
namespace Sys2Proof.Machine

/-! ### When a job may be placed (R132, R173, R184, R219, R350, R442) -/

/-- The frame with display index d of stream n is ahead of the source: an END_OF_STREAM frame, or a STREAM_CLOSE with DRAIN,
comes before it (R173, R350). -/
def State.sourceEnds (s : State) (n d : Nat) : Bool :=
  s.jobs.any (fun (y : Nat × Job) => y.2.stream == some n &&
    ((y.2.opcode == 0x10 && bit (y.2.at 21 1) 2 && decide (y.2.display < d)) ||
     (y.2.live && y.2.opcode == 0x02 && y.2.at 8 1 == 0 && decide ((s.stream n).displayIndex ≤ d))))

/-- The lookahead passes that an encode frame needs have ended (R350, R355). -/
def State.lookReady (s : State) (x : Job) (n : Nat) : Bool :=
  let depth := s.lookDepth x (s.stream n)
  let top := s.topOf x
  let m := (top.bind Job.stream).getD n
  let d0 := (top.map Job.display).getD x.display
  let failed := top.any (fun y => !y.live && y.status != 0)
  failed || (List.range depth).all (fun i => (mget (s.stream m).look (d0 + i)).isSome || s.sourceEnds m (d0 + i))

/-- A job of its stream that this one follows has been placed. A ladder job counts as placed once its renditions run. -/
def Job.isPlaced (y : Job) : Bool := y.phase == .placed || y.phase == .running || (y.opcode == 0x11 && y.framed)

/-- Every earlier job of the stream is placed (R184); the frames of a reordering encode stream go in coding order. -/
def State.placeTurn (s : State) (j n : Nat) : Bool :=
  let t := s.stream n
  (s.before j n).all (fun y => y.2.isPlaced || (t.encode && t.field 9 == 2 && y.2.opcode == 0x10))

/-- OVERLAP_DEPTH of a job (R166, R219, R381). -/
def State.depthOf (s : State) (x : Job) (t : Stream) : Nat := max 1 (min t.overlap (s.devField x.epoch 3))

/-- The coding index that a job has or takes when it is placed. -/
def nextIndex (x : Job) (t : Stream) : Nat := if x.indexed then x.coding else if t.encode then t.codingIndex else t.decodeIndex

/-- Frame N − D has retired (R219). -/
def State.depthOk (s : State) (j n : Nat) (x : Job) : Bool :=
  let t := s.stream n
  let c := nextIndex x t
  s.jobs.all (fun (y : Nat × Job) => y.1 == j || !(y.2.live && y.2.stream == some n && y.2.indexed &&
    decide (y.2.coding + s.depthOf x t ≤ c)))

/-- The opcodes that the Placer places (R185). -/
def Job.placeable (x : Job) : Bool := [0x10, 0x20, 0x21, 0x30, 0x31, 0x50].contains x.opcode

/-- The job is ready to be placed (R132, R150, R184, R194, R219, R350, R442). -/
def State.placeReady (s : State) (j : Nat) (x : Job) : Bool :=
  x.placeable && !s.barred j x.queue && !x.request.isSome &&
  (match x.stream with
  | none => x.phase == .ready
  | some n =>
    if x.opcode = 0x50 then x.phase == .waiting && s.opTurn j x n
    else x.phase == .ready && !(s.stream n).rehome.isSome && s.placeTurn j n && s.depthOk j n x &&
      (x.opcode != 0x10 || s.lookReady x n))

/-! ### Cores for a job (R182, R188 to R190, R591) -/

/-- A choice of cores in one quadrant: the cores, the width of each tile, the part of the frame that each takes and the highest
tile score. -/
structure Choice where
  cores : List Nat
  widths : List Nat
  shares : List Nat
  cost : Frac
  deriving DecidableEq, Repr

/-- A fraction times a share of a whole. -/
def Frac.share (f : Frac) (a b : Nat) : Frac := ⟨f.num * a, f.den * max 1 b⟩

/-- The greater of two fractions. -/
def Frac.max (a b : Frac) : Frac := if a.lt b then b else a

/-- The split of the frame is UNIFORM by its policy or by FORCE_UNIFORM (R189, R380). -/
def State.uniformSplit (s : State) (x : Job) (v : List Nat) : Bool :=
  (s.policy (fv v 52)).getLsbD 12 || s.devField x.epoch 7 == 1

/-- The tiles of a frame over its chosen cores: widths and the whole they are parts of (R189, R591). -/
def State.tileWidths (s : State) (x : Job) (n : Nat) (units cores : List Nat) : List Nat × Nat :=
  let t := s.stream n
  let pts := cores.map s.ptOf
  if x.opcode = 0x10 then
    match s.image t with
    | some e =>
      let v := s.effMode x t
      let r := ctuRow e.params (PersParams_ctu e.params (fv v 15))
      let cols := ctuCols e.params v
      if cores.length ≤ 1 then ([cols], cols)
      else (splitCols (codecOf e.id) cols r.minCols r.maxCols (s.uniformSplit x v) pts, cols)
    | none => ([1], 1)
  else
    let w := splitUnits units pts
    (w, w.sum)

/-- The luma pixels of a run of units. -/
def unitPx (units widths : List Nat) (i : Nat) : Nat := ((units.drop (widths.take i).sum).take (widths.getD i 0)).sum

/-- The best choice of k cores among candidates of one quadrant. -/
def State.chooseCores (s : State) (x : Job) (n : Nat) (units : List Nat) (w : Frac) (k : Nat) (cand : List Nat) : Choice :=
  let cores := bestCores (s.score x (w.share 1 k)) k cand
  let tw := s.tileWidths x n units cores
  let shares := if x.opcode = 0x10 then tw.1 else (List.range cores.length).map (unitPx units tw.1)
  let part := fun (i : Nat) => if cores.length ≤ 1 then w else w.share (shares.getD i 0) shares.sum
  { cores := cores, widths := tw.1, shares := shares
    cost := (cores.zipIdx.foldl (fun (f : Frac) c => f.max (s.score x (part c.2) c.1)) (Frac.nat 0)) }

/-- How the search for cores ends. -/
inductive Found
  | cores (c : Choice)
  | wait
  | noCore
  deriving DecidableEq, Repr

/-- A core that does not hold the epoch yet will apply it (R182, R537). -/
def State.willHold (s : State) (e : Nat) : Bool := e == s.modes.current

/-- Some core that counts as in service holds the epoch of a job, or will (R182, R201): the job waits for it. -/
def State.epochComes (s : State) (e : Nat) (l : List Nat) : Bool := s.willHold e || l.any (fun c => s.holdsEpoch c e)

/-- Cores for a job that takes one core (R182, R183, R185): none at all when every allowed core is fenced or disabled. -/
def State.findOne (s : State) (x : Job) : Found :=
  let serv := (s.allowed x).filter s.countable
  let cand := serv.filter (fun c => s.inService c && s.holdsEpoch c x.epoch)
  if serv = [] then .noCore
  else if cand = [] then (if s.epochComes x.epoch serv then .wait else .noCore)
  else
    let l := bestCores (s.score x (s.workOf x)) 1 cand
    .cores { cores := l, widths := [], shares := [], cost := Frac.nat 0 }

/-- Cores for a frame (R188, R190, R591). `k` is the count it would use. -/
def State.findFrame (s : State) (x : Job) (n : Nat) (units : List Nat) (k : Nat) (w : Frac) : Found :=
  let serv := (s.allowed x).filter s.countable
  let inQ := fun (l : List Nat) (q : Nat) => l.filter (fun c => c / 12 == q)
  let most := (List.range 4).foldl (fun m q => max m (inQ serv q).length) 0
  let use := min k most
  let cand := serv.filter (fun c => s.inService c && s.holdsEpoch c x.epoch)
  let qs := (List.range 4).filter (fun q => decide (use ≤ (inQ cand q).length))
  let least := ((s.image (s.stream n)).map (fun e => kSize e.params true (s.effMode x (s.stream n)))).getD 1
  if use = 0 ∨ (x.opcode = 0x10 ∧ use < least) then .noCore
  else
    match leastFrac (fun q => (s.chooseCores x n units w use (inQ cand q)).cost) qs with
    | some q => .cores (s.chooseCores x n units w use (inQ cand q))
    | none => if s.epochComes x.epoch serv then .wait else .noCore

/-! ### Slots and references at placement (R169 to R172, R366, R367) -/

/-- A picture that one core alone cannot handle (R224, R591). -/
def tooLarge (w h : Nat) : Bool := decide (4096 < w) || decide (9437184 < w * h)

/-- The job takes the key picture that its stream owes: every frame before it in coding order has begun (R539). -/
def State.takesKey (s : State) (n : Nat) (x : Job) : Bool :=
  let t := s.stream n
  t.nextKey && s.jobs.all (fun (y : Nat × Job) => !(y.2.live && y.2.stream == some n && y.2.indexed &&
    decide (y.2.coding < nextIndex x t) && !y.2.framed))

/-- The references of a frame: none for a forced key picture, and those that REF_MASK allows (R148, R176). -/
def State.refsOf (s : State) (x : Job) (n : Nat) (p : PlacePlan) : List Nat :=
  let t := s.stream n
  if x.opcode = 0x10 then
    if s.takesKey n x ∨ x.keyPic ∨ bit (x.at 21 1) 0 then []
    else p.refs.filter (fun k => decide (k < t.poolSlots) && (t.slot k).mark != .unused && !(t.slot k).failed &&
      (!x.present 6 || bit (x.over 12 4) k))
  else p.refs.filter (fun k => decide (k < t.poolSlots))

/-- How taking a slot ends. -/
inductive SlotEnd
  | ok (s : State) (k : Nat)
  | wait
  | strict
  deriving DecidableEq, Repr

/-- An earlier frame of the stream is in flight (R171). -/
def State.earlierFlight (s : State) (j n : Nat) : Bool :=
  s.jobs.any (fun (y : Nat × Job) => decide (y.1 < j) && y.2.live && y.2.stream == some n && y.2.codes &&
    (y.2.phase == .placed || y.2.phase == .running))

/-- A free slot for the job (R169, R171). -/
def State.takeSlot (s : State) (j : Nat) (x : Job) (n : Nat) : SlotEnd :=
  match (s.stream n).freeSlot with
  | some k => .ok s k
  | none =>
    if s.earlierFlight j n ∨ (s.stream n).encode then .wait
    else if s.strict x then .strict
    else
      let u := s.makeRoom n 40
      match (u.stream n).freeSlot with
      | some k => .ok u k
      | none => .wait

/-- The missing references are replaced by synthetic pictures (R366, R367); the slots they take, or why they cannot be. -/
def State.fillMissing (s : State) (j : Nat) (x : Job) (n : Nat) : List MissingRef → List Nat → SlotEnd × List Nat
  | [], l => (.ok s 0, l)
  | m :: rest, l =>
    match s.takeSlot j x n with
    | .ok u k => State.fillMissing (u.synthesize n k (fv (u.effMode x (u.stream n)) 39 == 1) m.picId m.outKey m.long) j x n rest (l ++ [k])
    | .wait => (.wait, l)
    | .strict => (.strict, l)

/-- Adds the readers of a placed job (R169). -/
def State.addReaders (s : State) (n : Nat) (refs : List Nat) : State :=
  refs.foldl (fun u k => u.modSlot n k (fun y => { y with readers := y.readers + 1 })) s

/-- The row windows of a job's references in its quadrant, and whether one is without a window (R191). -/
def State.takeWindows (s : State) (n q : Nat) (v : List Nat) (refs : List Nat) : State × List (Nat × Nat × Nat) × Bool :=
  refs.foldl (fun (a : State × List (Nat × Nat × Nat) × Bool) k =>
    let r := a.1.takeWindow n k q v
    if r.2 then (r.1, a.2.1 ++ [(q, k, ((a.1.stream n).slot k).gen)], a.2.2) else (r.1, a.2.1, true)) (s, [], false)

/-! ### The placement (R183 to R191, R197, R204) -/

/-- A placement chooses cores of a parked quadrant, which begins to power up (R197). -/
def State.wake (s : State) (q : Nat) : State :=
  if (s.quad q).parked ∧ !(s.quad q).waking then
    ((s.modQuad q (fun p => { p with waking := true })).log 0xFFFF 9 (quadByte 15 q) 0 0 0).raiseEvt 5 5
  else s

/-- Writes a placement: cores, queues, the owner of the job's buffers and the log record. -/
def State.commitPlace (s : State) (j : Nat) (x : Job) (c : Choice) (side unwin uniform : Bool) : State :=
  let lead := c.cores.headD 0
  let q := lead / 12
  let parked := (s.quad q).parked
  let s1 := c.cores.foldl (fun u n => (u.modPlace n (fun p =>
    if side then { p with side := p.side ++ [j] } else { p with queue := p.queue ++ [j] })).coreState n) s
  let s2 := x.bufs.foldl (fun u h => u.placeBuffer h lead) s1
  let s3 := s2.modJob j (fun y => { y with phase := .placed, cores := c.cores, widths := c.widths, shares := c.shares, core := lead })
  let home := match x.stream with
    | some n => (s.stream n).home
    | none => 15
  (s3.log (x.stream.getD 0xFFFF) 1 (quadByte home q) (coreMask c.cores) c.cores.length
    (b2n (decide (0 < x.discards)) + 2 * b2n unwin + 4 * b2n parked + 8 * b2n uniform)).wake q

/-- No allowed core is in service (R182, R537, R540). -/
def State.noCore (s : State) (j : Nat) (x : Job) : State := s.failFinal j 0x40 (faultDetail 0xFF 3 x.attempts 0)

/-- Places a job that takes one core and no pool slot: COPY, FILL, REF_OP and DECODE_DRAIN (R185, R590). -/
def State.placeOne (s : State) (j : Nat) (x : Job) : State :=
  match s.findOne x with
  | .noCore => s.noCore j x
  | .wait => s
  | .cores c => s.commitPlace j x c (x.opcode != 0x21) false false

/-- The slot of the job's picture is given to it, and the job takes its place in coding order. -/
def State.giveSlot (s : State) (j : Nat) (x : Job) (n : Nat) (slot : Option Nat) (p : PlacePlan) : State :=
  let t := s.stream n
  let c := nextIndex x t
  let w := if t.encode then t.field 0 else p.width
  let h := if t.encode then t.field 1 else p.height
  let s1 := match slot with
    | some k => s.modSlot n k (fun y => y.give w h c t.cvs)
    | none => s
  let s2 := if x.indexed then s1
    else s1.modStream n (fun t => if t.encode then { t with codingIndex := (t.codingIndex + 1) % 2 ^ 32 }
      else { t with decodeIndex := (t.decodeIndex + 1) % 2 ^ 32, lastFormat := x.at 23 1, lastPitch := x.at 36 4 })
  s2.modJob j (fun y => { y with slot := slot, indexed := true, coding := c })

/-- Where an error at placement lies (R366, R370). -/
def placeError (p : PlacePlan) (cause detector : Nat) (missing : Int) : ErrAt :=
  { cls := p.cls, cause := cause, detector := detector, missing := missing }

/-- Places a frame: references, missing pictures, a slot, cores and windows. -/
def State.placeFrame (s : State) (j : Nat) (x : Job) (n : Nat) (p : PlacePlan) : State :=
  let t := s.stream n
  let enc := t.encode
  let spill := !enc && decide (p.units.length ≤ 1) && tooLarge p.width p.height
  let k := if enc then t.k else max 1 (min t.k p.units.length)
  let w0 := if enc then s.workOf x else s.codeWork x (p.width * p.height)
  let w := if spill then w0.scale 2 else w0
  if spill ∧ s.devField x.epoch 15 = 0 then
    (if s.strict x then s.latch j (placeError p 0x23 1 0) else s.failFinal j 0x22 (placeError p 0x23 1 0).detail)
  else if !enc ∧ s.strict x ∧ p.missing ≠ [] then
    s.latch j (placeError p 0x30 3 ((p.missing.head?.map MissingRef.picId).getD 0))
  else
    match s.findFrame x n p.units k w with
    | .noCore => s.noCore j x
    | .wait => s
    | .cores c =>
      let refs := s.refsOf x n p
      let s1 := s.addReaders n refs
      match s1.fillMissing j x n (if enc then [] else p.missing) [] with
      | (.wait, _) => s
      | (.strict, _) => s.latch j (placeError p 0x27 1 0)
      | (.ok s2 _, syn) =>
        let s3 := s2.addReaders n syn
        let own := x.slot.filter (fun k => (((s3.stream n).slot k).failed && ((s3.stream n).slot k).coding))
        let got := if !p.kept then SlotEnd.ok s3 0
          else match own with
            | some k => .ok s3 k
            | none => s3.takeSlot j x n
        match got with
        | .wait => s
        | .strict => s.latch j (placeError p 0x27 1 0)
        | .ok s4 slot =>
          let s5 := s4.giveSlot j x n (if p.kept then some slot else none) p
          let win := s5.takeWindows n (c.cores.headD 0 / 12) (s.effMode x t) (refs ++ syn)
          let s6 := win.1.modJob j (fun y => { y with refs := refs ++ syn, wins := win.2.1, spill := spill })
          match s6.job j with
          | some y =>
            let s7 := c.cores.foldl (fun u n' => u.stageContext n (n' / 12)) s6
            s7.commitPlace j y c false win.2.2 (enc && decide (1 < c.cores.length) && s.uniformSplit x t.mode)
          | none => s

/-- A ready job that the Placer could place now: cores are candidates for it and its picture has a slot (R169, R182, R188). -/
def State.couldPlace (s : State) (x : Job) : Bool :=
  let found := fun (f : Found) => match f with
    | .cores _ => true
    | _ => false
  match x.stream with
  | some n =>
    let t := s.stream n
    if x.opcode = 0x10 then found (s.findFrame x n [] t.k (s.workOf x)) && (t.freeSlot.isSome || x.slot.isSome)
    else if x.opcode = 0x20 then found (s.findOne x) && (t.freeSlot.isSome || x.slot.isSome)
    else found (s.findOne x)
  | none => found (s.findOne x)

/-- Jobs of different streams are placed in the order in which they became ready, oldest first (R184). A job that would have to
wait for a core or a slot does not hold the others back (DESIGN CHOICE, log entry 102). -/
def State.oldestReady (s : State) (j : Nat) (x : Job) : Bool :=
  s.jobs.all (fun (y : Nat × Job) => y.1 == j || (y.2.stream == x.stream && x.stream.isSome) || y.2.readyAt == 0 ||
    decide (x.readyAt ≤ y.2.readyAt) || !s.placeReady y.1 y.2 || !s.couldPlace y.2)

/-! ### Tempo of cores (R180, R181, R198 to R200) -/

/-- The cores that count for the median (R181). -/
def State.medianCores (s : State) : List Nat :=
  (List.range 48).filter (fun n => let g := s.page (corePage n)
    g.enable && g.state != .fenced && !(s.quad (n / 12)).parked)

/-- The median Placer tempo (R181). -/
def State.medianPt (s : State) : Nat := medianNat (s.medianCores.map s.ptOf)

/-- The ratio of PT(n) to the median (R198). -/
def State.ratioOf (s : State) (n : Nat) : Nat := s.ptOf n * 0x400 / max 1 s.medianPt

/-- CORE_STATUS.BUSY (R195, R206): the fraction of the last 100 µs in which the core was busy, in 1/256. The refreshes, 1 µs apart,
are its samples (DESIGN CHOICE, log entry 103). -/
def CorePlace.busy256 (c : CorePlace) : Nat := min 255 ((c.busyLog.filter id).length * 256 / 100)

/-- PLACER_TEMPO_REFRESH (R180, R195, R203): PT(n) follows the monitors, BUSY whether the core holds a job, and DRAM_LOAD the
utilisation that was measured over the last 100 µs in each quadrant. -/
def execPlacerTempoRefresh (load : List Nat) (s : State) : Result :=
  act s fun s =>
    let high := fld (s.active 5 0x068) 23 16
    let s1 := (List.range 48).foldl (fun u n =>
      let q := u.quad (n / 12)
      if q.parked ∨ u.time.ns < q.liveAt then u
      else u.modPlace n (fun c => { c with pt := u.monTempo n * (u.unit n).lanes / 256 % 65536 })) s
    let s1 := (List.range 48).foldl (fun u n => u.modPlace n (fun c => { c with busyLog := (c.busy :: c.busyLog).take 100 })) s1
    (List.range 4).foldl (fun u q =>
      let l := min 255 (load.getD q 0)
      u.modQuad q (fun p => { p with dramLoad := l, dramHigh := decide (high < l) || (p.dramHigh && decide (high ≤ l + 16)) })) s1

/-- The CORE_SLOW condition. -/
def State.slowCond (s : State) : State := s.setCond 5 0 (s.placer.cores.any (fun c => c.2.slow))

/-- Core n is the only in-service core that some open stream's PIN_MASK allows (R199). -/
def State.soleCore (s : State) (n : Nat) : Bool :=
  s.streams.any (fun (y : Nat × Stream) => y.2.state == .opened &&
    ((List.range 48).filter (fun c => pinned (y.2.field 48) c && s.inService c)) == [n])

/-- CORE_SLOW (R198, R199): core n has been slow for TEMPO_FLOOR_TIME. -/
def execCoreSlow (n : Nat) (s : State) : Result :=
  act s fun s =>
    let ctl := s.active 5 0x060
    let r := s.ratioOf n
    if 48 ≤ n ∨ (s.core n).slow ∨ fld ctl 15 0 ≤ r then s
    else
      let q := quadByte (n / 12) (n / 12)
      let s1 := ((s.modPlace n (fun c => { c with slow := true })).slowCond).log 0xFFFF 5 q (coreMask [n]) (min 255 (r / 4)) 0
      if ctl.getLsbD 24 ∧ !s1.soleCore n ∧ s1.inService n then
        (s1.fenceDrain (corePage n) .placer).log 0xFFFF 6 q (coreMask [n]) 0 0
      else s1

/-- SLOW_CLEAR (R198, R200): the ratio has stayed high enough for TEMPO_FLOOR_TIME. SLOW clears, and AUTO_RETURN resets a core that
reads FENCED with cause PLACER, be it slow still or not. -/
def execSlowClear (n : Nat) (s : State) : Result :=
  act s fun s =>
    let ctl := s.active 5 0x060
    if 48 ≤ n ∨ s.ratioOf n < fld ctl 15 0 + 0x20 then s
    else
      let s1 := (s.modPlace n (fun c => { c with slow := false })).slowCond
      let g := s1.page (corePage n)
      if ctl.getLsbD 25 ∧ g.state = .fenced ∧ g.cause = .placer then
        ((s1.beginReset (corePage n)).log 0xFFFF 7
          (quadByte (n / 12) (n / 12)) (coreMask [n]) 0 0)
      else s1

/-! ### Parking (R196) -/

/-- Quadrant q may park (R196), its idle time apart. -/
def State.mayPark (s : State) (q : Nat) : Bool :=
  let ctl := s.active 5 0x068
  ctl.getLsbD 31 && !(s.quad q).parked &&
  (List.range 12).all (fun i => !(s.core (12 * q + i)).busy) &&
  (s.homed q).isEmpty &&
  !s.streams.any (fun (y : Nat × Stream) => y.2.state != .closed && y.2.field 48 != 0 &&
    (List.range 48).all (fun c => !bit (y.2.field 48) c || c / 12 == q)) &&
  decide (fld ctl 25 24 < s.unparked.length)

/-- Switches a core off: what its registers and memories held is lost. PT(n) holds its value, and a core that has not run since
READY takes that of tempo 1.000 (R180). -/
def State.coreOff (s : State) (n : Nat) : State :=
  (s.modUnit n (fun u => { lanes := u.lanes })).modPlace n (fun c => { c with
    lastStream := none, pt := if c.ran then c.pt else 0x400 * (s.unit n).lanes / 256 })

/-- QUADRANT_PARK (R196): PARK_IDLE has passed for quadrant q. -/
def execQuadrantPark (q : Nat) (s : State) : Result :=
  act s fun s =>
    if 4 ≤ q ∨ !s.mayPark q then s
    else
      let s1 := (List.range 12).foldl (fun u i => (u.coreOff (12 * q + i)).dropLaggard (12 * q + i)) s
      ((s1.modQuad q (fun p => { p with parked := true, waking := false })).log 0xFFFF 8 (quadByte 15 q) 0 0 0).raiseEvt 5 5

end Sys2Proof.Machine
end

