-- ==== Sys2Proof/Machine/Modes.lean ====
section
/-!
DEFINITION. Changing the device mode, and the epochs (R319, R380 to R387).
-/
namespace Sys2Proof.Machine

/-- The MODE_DETAIL mailbox changes, with the RESULT event. -/
def State.setDetail (s : State) (m : Mailbox) : State :=
  { s with modes := { s.modes with box := m } }.setCond 6 2 m.current.isSome

/-- Posts a MODE_DETAIL result: OUTCOME, then BUSY_REASON in [35:32], EPOCH in [31:16] and DETAIL in [15:0]. -/
def State.postDetail (s : State) (outcome epoch busy detail : Nat) : State :=
  s.setDetail (s.modes.box.post outcome (busy * 2 ^ 32 + epoch * 2 ^ 16 + detail))

/-- A refused commit (R382, R383). -/
def State.refuseMode (s : State) (epoch busy detail : Nat) : State :=
  { s with modes := { s.modes with busy := busy } }.postDetail 2 epoch busy detail

/-- The results held and the one that a commit under validation owes (R382). -/
def Modes.owed (m : Modes) : Nat := b2n m.box.current.isSome + m.box.waiting.length + b2n (m.state == .validating)

/-- The first state of R382 that refuses a COMMIT for an epoch, or 0. -/
def State.modeBusy (s : State) (epoch : Nat) : Nat :=
  if s.modes.state = .mixed then 1
  else if s.modes.state = .validating then 2
  else if s.jobs.any (fun (y : Nat × Job) => y.2.live && y.2.epoch != s.modes.current) then 3
  else if epoch ≠ (s.modes.current + 1) % 65536 then 4
  else if s.faults.stop = .stopped then 5
  else 0

/-- MODE_COMMIT (R382, R383). -/
def execModeCommit (v : Word) (s : State) : Result :=
  hostCmd 6 s fun s =>
    let s := s.rsv 6 1 v
    if !v.getLsbD 0 then s
    else if 4 ≤ s.modes.owed then s.accessBad 6
    else
      let epoch := fld (s.reg 6 0x080) 15 0
      let r := s.modeBusy epoch
      if r ≠ 0 then s.refuseMode epoch r 0
      else
        { s with
            modes := { s.modes with
              state := .validating, asked := epoch
              candidate := (List.range 19).map (fun d => fld (s.reg 6 (0x100 + 4 * d)) 15 0) } }

/-- The range of device field d (R380). -/
def devRange (d : Nat) : Nat × Nat :=
  [(0, 7), (10, 10000), (0, 255), (1, 3), (0, 7), (0, 60), (0, 12), (0, 1), (0, 1), (0, 2), (0, 4), (0, 16), (1, 16383),
   (1, 16383), (1, 1000), (0, 1), (0, 1), (0, 1), (0, 1)].getD d (0, 0)

/-- The device's own rules on a device vector: the code of the first that fails, or 0 (R379, R383). -/
def devRules (v : List Nat) : Nat :=
  match (List.range 19).find? (fun d => decide (fv v d < (devRange d).1) || decide ((devRange d).2 < fv v d)) with
  | some d => 0x6000 + d
  | none =>
    if 1000000 < fv v 1 * fv v 2 then 0x6101
    else if fv v 13 < fv v 12 then 0x6102
    else 0

/-- A core that the commit point counts (R385): enabled, IDLE or RUNNING, and not in a parked quadrant. -/
def State.countsForEpoch (s : State) (n : Nat) : Bool :=
  let g := s.page (corePage n)
  g.enable && (g.state == .idle || g.state == .running) && !s.pageParked (corePage n)

/-- The commit point (R383, R385, R387). -/
def State.commitPoint (s : State) : State :=
  let l := (List.range 48).foldl (fun (m : BitVec 48) n => if s.countsForEpoch n then m ||| (1#48 <<< n) else m) 0
  let m := s.modes
  let s1 := { s with
    modes := { m with current := m.asked, prev := m.vec, vec := m.candidate, state := .mixed } }
  ((s1.postDetail 1 m.asked 0 0).setCond 6 1 true).setLaggards l

/-- The end of a commit's validation with a detail code, 0 for none (R383). -/
def State.endValidation (s : State) (code : Nat) : State :=
  if s.modes.state ≠ .validating then s
  else if code = 0 then s.commitPoint
  else { s with modes := { s.modes with state := .applied } }.refuseMode s.modes.asked 6 code

/-- MODE_VALIDATION_DONE (R383): `verdict` is what the loaded images' own device-level rules answered, 0 for no
refusal. -/
def execModeValidationDone (verdict : Nat) (s : State) : Result :=
  act s fun s =>
    let r := devRules s.modes.candidate
    s.endValidation (if r ≠ 0 then r else verdict)

/-- The job's cores that have not applied yet are just core n, and it is not placed (R202). An accepted entry that is still to be
read may need any core. -/
def State.lastForOld (s : State) (n : Nat) : Bool :=
  s.jobs.any (fun (y : Nat × Job) => y.2.live && y.2.epoch == s.coreEpoch n && (y.2.placeable || y.2.opcode == 0x11) && !y.2.isPlaced &&
    (s.allowed y.2).filter (fun c => s.modes.laggards.getLsbD c) == [n]) ||
  (s.jobs.any (fun (y : Nat × Job) => y.2.live && y.2.epoch == s.coreEpoch n && y.2.phase == .body) &&
    s.modes.laggards == 1#48 <<< n)

/-- Core n applies CURRENT_EPOCH. It retains the epoch it leaves if that is the one before (R201, R385). -/
def State.applyEpoch (s : State) (n : Nat) : State :=
  let old := s.coreEpoch n
  let cur := s.modes.current
  if old = cur then s.dropLaggard n
  else
    (((s.modPlace n (fun c => { c with retained := if (old + 1) % 65536 = cur then some old else none })).modPage
      (corePage n) (fun g => { g with epoch := cur })).dropLaggard n)

/-- Core n stands at a frame boundary (R202, R385): it holds no job, or the job that entered last has not started its frame
(log entry 112). -/
def State.atFrame (s : State) (n : Nat) : Bool :=
  match (s.core n).inside.getLast? with
  | some j => !((s.job j).map Job.framed).getD false
  | none => true

/-- EPOCH_APPLY (R202, R385, R386): core n applies the pending epoch at a frame boundary, or meets a fault while it does. -/
def execEpochApply (n : Nat) (fault : Bool) (s : State) : Result :=
  act s fun s =>
    if 48 ≤ n ∨ s.modes.laggards.getLsbD n = false ∨ !s.atFrame n then s
    else if fault then (s.raiseEvt 6 3).fault 68 n none 0
    else if s.lastForOld n then s
    else s.applyEpoch n

/-- MODE_DETAIL_ACK (R88). -/
def execModeDetailAck (seq : BitVec 8) (s : State) : Result :=
  hostCmd 6 s fun s =>
    match s.modes.box.ack seq.toNat with
    | some m => s.setDetail m
    | none => s.accessBad 6

/-- VALIDATOR_TIMEOUT (R319): an image's validator is stopped after 1 ms. The mode it checked is refused with 0x0006: the
block of a stream's job, or the device vector of the commit under validation. -/
def execValidatorTimeout (job : Option Nat) (block : Option (List Byte)) (s : State) : Result :=
  act s fun s =>
    match job with
    | some j => s.validatorTimeout j block
    | none => s.endValidation 0x0006

end Sys2Proof.Machine
end

