-- ==== Sys2Proof/Machine/Pers.lean ====
section
/-!
DEFINITION. Loading and unloading personality images (R313 to R321).
-/
namespace Sys2Proof.Machine

/-- DEVICE.PAGE_REV.STEPPING of the part this model describes (R6). -/
def stepping : Nat := 0xB0

/-- The instructions and the table words that images share (R317). -/
def progRoom : Nat := 31744
/-- The table words that images share. -/
def tabRoom : Nat := 32256

/-- The section table lies in the image, before its signature (R313, R316). -/
def PersImage_sectionsOk (g : PersImage) : Bool :=
  decide (1 ≤ g.sections.length) && decide (g.sections.length ≤ 16) &&
  g.sections.all (fun c => decide (c.off + c.len + 64 ≤ g.len))

/-- The header is valid for a command that names `len` bytes. -/
def PersImage_headerOk (g : PersImage) (len : Nat) : Bool :=
  decide (g.magic = 0x50565453) && decide (g.format = 1) && decide (g.len = len) && decide (g.len % 64 = 0) &&
  decide (64 ≤ g.len) && decide (g.len ≤ 4194304) && decide (1 ≤ g.progWords) && decide (g.progWords ≤ progRoom) &&
  decide (1 ≤ g.tableWords) && decide (g.tableWords ≤ tabRoom) && PersImage_sectionsOk g

/-- The first index from which a run of n is free of the runs in use, below `room` (R317). -/
def firstFit (room n : Nat) (used : List (Nat × Nat)) : Option Nat :=
  let ok := fun a => decide (a + n ≤ room) && used.all (fun r => decide (a + n ≤ r.1) || decide (r.1 + r.2 ≤ a))
  leastBy id ((0 :: used.map (fun r => r.1 + r.2)).filter ok)

/-- Adds to the field [lo + w - 1 : lo] of a number, without carry out of the field. -/
def addField (n lo w k : Nat) : Nat := n - bits n (lo + w - 1) lo * 2 ^ lo + (bits n (lo + w - 1) lo + k) % 2 ^ w * 2 ^ lo

/-- One instruction after relocation to a program base and a table base (R317; log entry 60). -/
def relocIns (rel : List (RelocKind × Nat)) (pb tb i : Nat) (w : DWord) : DWord :=
  BitVec.ofNat 64 (rel.foldl (fun n r =>
    if r.2 ≠ i then n
    else
      match r.1 with
      | .target => addField n 0 15 pb
      | .tbase => addField n 0 13 (tb / 4)
      | .desc => addField n 0 12 tb
      | .imm32 => addField n 0 32 tb
      | .syn => n) w.toNat)

/-- One table word after relocation. -/
def relocTab (rel : List (RelocKind × Nat)) (tb i : Nat) (w : Word) : Word :=
  BitVec.ofNat 32 (rel.foldl (fun n r => if r.2 = i ∧ r.1 = .syn then addField n 0 15 tb else n) w.toNat)

/-- The command finishes with a result (PERS_STATUS). -/
def State.persDone (s : State) (result slot : Nat) : State :=
  { s with pers := { s.pers with result := result, slot := slot, cmdSeq := (s.pers.cmdSeq + 1) % 256 } }

/-- Places an image in a directory entry: its words are relocated and reach the stores of every core (R317, R318). -/
def State.placeImage (s : State) (g : PersImage) (slot pb tb : Nat) : State :=
  let p := s.pers
  let prog := (g.prog.take g.progWords).zipIdx.foldl (fun (m : Map DWord) w =>
    mset m (pb + w.2) (relocIns g.relocs pb tb w.2 w.1)) p.prog
  let tab := (g.tables.take g.tableWords).zipIdx.foldl (fun (m : Map Word) w =>
    mset m (tb + w.2) (relocTab g.relocs tb w.2 w.1)) p.tables
  let e : PersEntry := { id := g.id, flags := g.flags, unsigned := !(g.keyMatches && g.sigValid), progBase := pb,
                         progWords := g.progWords, tabBase := tb, tabWords := g.tableWords, params := g.params }
  { s with
      pers := { p with dir := mset p.dir slot e, prog := prog, tables := tab }
      cores := s.cores.map (fun c => (c.1, { c.2 with
        prog := c.2.prog.filter (fun w => !(decide (pb ≤ w.1) && decide (w.1 < pb + g.progWords)))
        tab := c.2.tab.filter (fun w => !(decide (tb ≤ w.1) && decide (w.1 < tb + g.tableWords))) })) }

/-- A LOAD of an image of `len` bytes (R313 to R317): the state, the result code and the directory entry. The checks run in
the order of R316, the section table's bounds with the header. -/
def State.loadImage (s : State) (g : PersImage) (len : Nat) : State × Nat × Nat :=
  let used := s.pers.dir.map Prod.snd
  if !PersImage_headerOk g len then (s, 0x10, 0)
  else if !g.sections.all PersSection.crcOk then (s, 0x11, 0)
  else if !g.steppings.contains stepping then (s, 0x13, 0)
  else if s.fuse.secureBoot ∧ !g.keyMatches then (s, 0x12, 0)
  else if s.fuse.secureBoot ∧ !g.sigValid then (s, 0x11, 0)
  else if used.any (fun e => e.id / 65536 == g.id / 65536) then (s, 0x15, 0)
  else
    match (List.range 16).find? (fun k => (mget s.pers.dir k).isNone) with
    | none => (s, 0x18, 0)
    | some k =>
      match firstFit progRoom g.progWords (used.map (fun e => (e.progBase, e.progWords))),
            firstFit tabRoom g.tableWords (used.map (fun e => (e.tabBase, e.tabWords))) with
      | some pb, some tb => (s.placeImage g k pb tb, 0x01, k)
      | _, _ => (s, 0x14, 0)

/-- PERS_LOAD (R313 to R320): the LOAD command of PERS_CMD. `img` is the image as it was read, none for a read that failed.
While the device cannot reach host memory the command runs on, BUSY reads 1, and a further command is discarded; the row that finds
host memory in reach again finishes the command that waits. -/
def execPersLoad (img : Option PersImage) (s : State) : Result :=
  hostCmd 17 s fun s0 =>
    let src := (s0.pers.busy.map Prod.fst).getD ((s0.reg 17 0x104).toNat * 2 ^ 32 + (s0.reg 17 0x100).toNat)
    let len := (s0.pers.busy.map Prod.snd).getD (fld (s0.reg 17 0x108) 22 0)
    let s := { s0 with pers := { s0.pers with busy := none } }
    if s.boot.state ≠ .ready then s0.accessBad 17
    else if len < 64 ∨ 4194304 < len then s.persDone 0x10 0
    else if isDev src ∧ !(tagOk src && s.readRun (devOf src) len) then s.persDone 0x17 0
    else if !isDev src ∧ !s.hostReach then
      if s0.pers.busy.isSome then s0.accessBad 17 else { s with pers := { s.pers with busy := some (src, len) } }
    else
      match img with
      | none => (if isDev src then s else s.fault 8 0xFFFF none 0).persDone 0x17 0
      | some g =>
        let r := s.loadImage g len
        r.1.persDone r.2.1 r.2.2

/-- PERS_UNLOAD (R321): the UNLOAD command of PERS_CMD. -/
def execPersUnload (slot : Nat) (s : State) : Result :=
  hostCmd 17 s fun s =>
    let k := slot % 16
    if s.boot.state ≠ .ready ∨ s.pers.busy.isSome then s.accessBad 17
    else if (mget s.pers.dir k).isNone then s.persDone 0x19 k
    else if s.streams.any (fun (y : Nat × Stream) => y.2.state != .closed && y.2.pers == k) then s.persDone 0x16 k
    else ({ s with pers := { s.pers with dir := mdel s.pers.dir k } }).persDone 0x01 k

end Sys2Proof.Machine
end

