-- ==== Sys2Proof/Machine/Boot.lean ====
section
/-!
DEFINITION. Power, resets, the boot stages, the service firmware package and Dormant mode (R546 to R561).
-/
namespace Sys2Proof.Machine

/-! ### Power and reset (R92, R108, R109, R546, R547, R571) -/

/-- POWER_ON (R546): everything is at its value after power-on; the fuses stand. -/
def execPowerOn (s : State) : Result :=
  .next (if s.power.powered then s else { fuse := s.fuse, free := s.free, out := s.out, pending := s.pending })

/-- POWER_REMOVAL (R571): nothing but the fuses survives. -/
def execPowerRemoval (s : State) : Result :=
  .next { power := { powered := false }, fuse := s.fuse, free := s.free, out := s.out, pending := s.pending }

/-- The PCIe link is down. -/
def State.dropLink (s : State) : State :=
  { s with pcie := { s.pcie with linkUp := false, speed := 0, width := 0, inL1 := false } }

/-- PERST_N_RISE (R547): the straps are sampled and an attempt starts, unless the TAP holds it back (R582). A sealed part
only moves its link (R543). -/
def execPerstNRise (straps : Straps) (s : State) : Result :=
  .next (
    if !s.power.powered ∨ s.power.perstHigh then s
    else
      let s1 := { s with power := { s.power with perstHigh := true } }
      if s.faults.stop = .sealed then s1
      else
        let s2 := { s1 with boot := { s1.boot with straps := straps } }
        if s2.jtag.instr.holds then { s2 with jtag := { s2.jtag with held := true } } else s2.startAttempt true true false)

/-- PERST_N_ASSERT (R59, R92, R108). -/
def execPerstNAssert (s : State) : Result :=
  .next (
    if !s.power.powered ∨ !s.power.perstHigh then s
    else if s.faults.stop = .sealed then { s.dropLink with power := { s.power with perstHigh := false } }
    else
      let s1 := s.resetAll.dropLink
      { s1 with power := { s1.power with perstHigh := false }, time := {}, jtag := { s.jtag with held := false } })

/-- HOT_RESET (R108, R543): a new attempt starts at once. -/
def execHotReset (s : State) : Result :=
  .next (
    if !s.linked then s
    else if s.faults.stop = .sealed then s.dropLink
    else { s.resetAll.dropLink with jtag := s.jtag }.startAttempt true false false)

/-- FLR (R109, R543): as a hot reset, with the link kept. -/
def execFlr (s : State) : Result :=
  .next (
    if !s.linked ∨ s.faults.stop = .sealed then s
    else { s.resetAll with jtag := s.jtag }.startAttempt true false false)

/-! ### Units at boot (R43, R555, R556) -/

/-- A page that the attempt has fenced. -/
def State.bootFenced (s : State) (p : Nat) : Bool := s.boot.fences.any (fun f => f.1 == p)

/-- Fences a page for the attempt; its first cause stands. -/
def State.bootFence (s : State) (p : Nat) (c : FenceCause) : State :=
  if s.bootFenced p then s else { s with boot := { s.boot with fences := s.boot.fences ++ [(p, c)] } }

/-- The pages that a unit failure fences (R555). -/
def UnitFail_pages (u : UnitFail) : List Nat :=
  match u with
  | .core n => [corePage n]
  | .dch k => [dchPage k]
  | .quad q =>
    [quadPage q, qdmaPage q] ++ (List.range 12).map (fun i => corePage (12 * q + i)) ++
      (List.range 3).map (fun i => dchPage (3 * q + i))

/-- The unit exists. -/
def UnitFail_ok (u : UnitFail) : Bool :=
  match u with
  | .core n => decide (n < 48)
  | .dch k => decide (k < 12)
  | .quad q => decide (q < 4)

/-- The unit that a monitor stands for, and none for the central slice (R43). -/
def monUnit (m : Nat) : Option UnitFail :=
  if m < 48 then some (.core m) else if m < 52 then some (.quad (m - 48)) else if m = 52 then none else some (.quad (m - 53))

/-- The monitors of quadrant q: its cores, its slice and its router. -/
def quadMons (q : Nat) : List Nat := (List.range 12).map (fun i => 12 * q + i) ++ [48 + q, 53 + q]

/-- The monitors that read outside 15 % of their quadrant's median (R43). -/
def State.badMons (s : State) : List Nat :=
  (List.range 4).flatMap (fun q =>
    let med := medianNat ((quadMons q).map s.monTempo)
    (quadMons q).filter (fun m =>
      let t := s.monTempo m
      decide (15 * med < 100 * (max t med - min t med))))

/-- The unit failures of the present stage: the unit, the sub-code, INSTANCE and the fence cause (R43, R554, R555). -/
def State.stageUnits (s : State) (r : StageResult) : List (UnitFail × Nat × Nat × FenceCause) :=
  let unit := fun (u : UnitFail) =>
    match s.boot.stage, u with
    | 2, .core n => some (u, 0x23, n, FenceCause.boot)
    | 2, .quad q => some (u, 0x22, q, .boot)
    | 5, .dch k => some (u, 0x52, k, .boot)
    | _, _ => none
  match s.boot.stage with
  | 2 => (r.units ++ (r.lanes.filter (fun l => laneCount l.2 == 0)).map (fun l => UnitFail.core l.1)).filterMap unit
  | 3 => s.badMons.filterMap (fun m => (monUnit m).map (fun u => (u, 0x33, m, if m < 48 then .monitor else .boot)))
  | 5 => r.units.filterMap unit
  | 9 => ((List.range 48).filter (fun n => !s.bootFenced (corePage n) && !r.golden.contains n)).map
      (fun n => (.core n, 0x91, n, .boot))
  | _ => []

/-- A quadrant remains: it is not fenced and holds a core and a controller in service (R556). -/
def State.remains (s : State) (q : Nat) : Bool :=
  !s.bootFenced (quadPage q) && (List.range 12).any (fun i => !s.bootFenced (corePage (12 * q + i))) &&
  (List.range 3).any (fun i => !s.bootFenced (dchPage (3 * q + i)))

/-! ### The package (R550 to R552, R558) -/

/-- A package header as its bytes spell it (R551). The verdicts on the key and the signature come from outside. -/
def parsePackage (l : List Byte) (v : Package) : Package :=
  let n := fun a k => leNat ((l.drop a).take k)
  { magic := n 0 4, len := n 4 4, format := n 8 2, steppings := (List.range 8).map (fun i => n (12 + i) 1),
    fwOffset := n 20 4, fwLen := n 24 4, bootsetOffset := n 28 4, bootsetCount := n 32 4, goldenOffset := n 36 4,
    goldenLen := n 40 4, version := n 76 4, keyMatches := v.keyMatches, sigValid := v.sigValid }

/-- Check 1 of R552: MAGIC, FORMAT, PKG_LEN and the bounds of every section, within the `room` bytes that were read. -/
def Package_ok (p : Package) (room : Nat) : Bool :=
  let fits := fun a n => decide (256 ≤ a) && decide (a + n + 64 ≤ p.len)
  decide (p.magic = 0x47575453) && decide (p.format = 1) && decide (p.len % 64 = 0) && decide (4096 ≤ p.len) &&
  decide (p.len ≤ 16777216) && decide (p.len ≤ room) && fits p.fwOffset p.fwLen && decide (p.fwLen ≤ 2 ^ 20) &&
  fits p.bootsetOffset 0 && decide (p.bootsetOffset % 64 = 0) && decide (1 ≤ p.bootsetCount) && decide (p.bootsetCount ≤ 16) &&
  fits p.goldenOffset p.goldenLen

/-- The bytes that the present source holds. -/
def State.pkgRoom (s : State) : Nat :=
  match s.boot.source with
  | 2 => s.boot.hostLen
  | 3 => fld (s.reg 32 0x040) 24 0
  | _ => 16777216

/-- The first failed check of R552, or 0. -/
def State.pkgCheck (s : State) (p : Package) : Nat :=
  if !Package_ok p s.pkgRoom then 0x71
  else if !p.steppings.contains stepping then 0x72
  else if s.fuse.secureBoot ∧ !p.keyMatches then 0x73
  else if s.fuse.secureBoot ∧ !p.sigValid then 0x74
  else 0

/-- Stage 6 begins: the source of the package, and the wait for HOST_GO (R550). -/
def State.takeHost (s : State) : State :=
  { s with
      boot := { s.boot with
        source := 2, hostWait := false, hostGo := false
        hostSrc := (s.reg 1 0x048).toNat * 2 ^ 32 + (s.reg 1 0x044).toNat, hostLen := fld (s.reg 1 0x04C) 24 0 } }

/-- Stage 6 waits for the driver's package, or takes one already named (R550). -/
def State.waitHost (s : State) : State :=
  let s1 := { s with boot := { s.boot with stage := 6, source := 2, hostWait := true, pkg := none } }
  if s.boot.hostGo then s1.takeHost else s1

/-- The start of stage 6. -/
def State.startStage6 (s : State) : State :=
  let s1 := { s with boot := { s.boot with stage := 6, reached6 := true, pkg := none } }
  if s.boot.window then { s1 with boot := { s1.boot with source := 3 } }
  else if s.boot.straps.bootSrc = 1 then s1.waitHost
  else { s1 with boot := { s1.boot with source := 0 } }

/-- A package fails stage 6 or 7 with a sub-code: copy B follows copy A, and SPI_THEN_HOST waits for the host after copy B
(R550, R552). -/
def State.pkgFail (s : State) (sub inst : Nat) : State :=
  if s.boot.source = 0 then { s with boot := { s.boot with stage := 6, source := 1, pkg := none } }
  else if s.boot.source = 1 ∧ s.boot.straps.bootSrc = 2 then s.waitHost
  else s.failAttempt sub inst

/-- Stage 6 ends with what it read (R550). -/
def State.endStage6 (s : State) (r : PackageRead) : State :=
  let src := s.boot.source
  let seven := fun (p : Package) => { s with boot := { s.boot with stage := 7, pkg := some p } }
  if !s.boot.window ∧ 3 ≤ s.boot.straps.bootSrc then s.failAttempt 0x65 0xFFFF
  else
    match r with
    | .read p =>
      if src = 3 then seven (parsePackage (memGetAll s.mem 0xE008000000 256) p)
      else if src < 2 ∧ p.magic ≠ 0x47575453 then s.pkgFail 0x62 src
      else seven p
    | .noFlash => if src < 2 then s.pkgFail 0x61 0xFFFF else s
    | .badHeader => if src < 2 then s.pkgFail 0x62 src else s
    | .hostReadError => if src = 2 then (s.fault 8 0xFFFF none 0).failAttempt 0x64 0xFFFF else s

/-- Stage 7 ends: the checks, UNSIGNED, and the flash programming of a retry (R552, R561). -/
def State.endStage7 (s : State) (p : Package) (flashOk : Bool) : State :=
  let c := s.pkgCheck p
  if c ≠ 0 then s.pkgFail c s.boot.source
  else
    let bad := !p.keyMatches || !p.sigValid
    let s1 := { s with boot := { s.boot with stage := 8, unsigned := bad } }
    if !s.boot.window ∨ s.boot.flash = 0 then s1
    else if bad then { s1 with boot := { s1.boot with lastResult := 2 } }
    else if flashOk then { s1 with boot := { s1.boot with flashed := (s.boot.flash, p.version) :: s1.boot.flashed } }
    else { s1 with boot := { s1.boot with lastResult := 3 } }

/-- Stage 8 (R553): the boot set is loaded in order; the first refused image fails the attempt. -/
def State.loadBootSet (s : State) : List PersImage → Nat → State × Option (Nat × Nat)
  | [], _ => (s, none)
  | g :: t, i =>
    match s.loadImage g g.len with
    | (s1, 1, _) => s1.loadBootSet t (i + 1)
    | (s1, code, _) => (s1, some (i, code))

/-! ### Stage ends (R549, R554 to R559) -/

/-- READY (R90, R556, R557): every page leaves OFFLINE, the fenced units with their cause, and the record is written. -/
def State.toReady (s : State) : State :=
  let b := s.boot
  let up := fun n => !s.bootFenced (corePage n)
  let s1 := { s with boot := { b with stage := 10 } }.pushHistory 1 0
  let pages := (List.range 192).filter (fun p => (pageKind p).isSome)
  let s2 := pages.foldl (fun t p =>
    match b.fences.find? (fun f => f.1 == p) with
    | some f => t.modPage p (fun g => { g with state := .fenced, cause := f.2 })
    | none => t.modPage p (fun g => { g with state := .idle })) s1
  let s3 := b.lanes.foldl (fun t l => t.modUnit l.1 (fun u => { u with lanes := l.2 })) s2
  { s3 with
      modes := { s3.modes with vec := devDefaults, prev := devDefaults }
      mem := zeroRun s3.mem 0xE008000000 0x1000000
      boot := { s3.boot with
        state := .ready, running := false, window := false, busy := false, attempts := 0, entry := 0, windowOk := false
        degraded := !b.fences.isEmpty
        capCores := (List.range 48).foldl (fun (m : BitVec 48) n => if up n then m ||| (1#48 <<< n) else m) 0
        capQuads := (List.range 4).foldl (fun (m : BitVec 4) q => if s.remains q then m ||| (1#4 <<< q) else m) 0
        capDch := (List.range 12).foldl
          (fun (m : BitVec 12) k => if s.bootFenced (dchPage k) then m else m ||| (1#12 <<< k)) 0 } }

/-- The sub-codes with which a stage itself fails, as far as its result names them (R549, R557). -/
def State.stageFail (s : State) (f : Option (Nat × Nat)) : Option (Nat × Nat) :=
  match s.boot.stage, f with
  | 2, some (0x21, _) => some (0x21, 0xFFFF)
  | 3, some (0x31, _) => some (0x31, 0xFFFF)
  | 3, some (0x32, _) => some (0x32, 0xFFFF)
  | 4, some (0x41, p) => if p < 2 ∧ s.fuse.boardCfg.getLsbD (26 + p) then some (0x41, p) else none
  | 5, _ => if s.fuse.boardCfg.getLsbD 31 then none else some (0x51, 0xFFFF)
  | _, _ => none

/-- The work of a stage that has ended without failing: the lanes found, memory cleared, the loop started, the next stage
(R25, R45, R389, R549). -/
def State.nextStage (s : State) (r : StageResult) : State :=
  let go := fun (t : State) => { t with boot := { t.boot with stage := t.boot.stage + 1 } }
  match s.boot.stage with
  | 1 =>
    if s.boot.window then go s
    else if s.boot.fromPerst ∧ s.boot.straps.dormantForce then s.enterDormant 2
    else if s.boot.fromReset ∧ s.boot.retryLimit ≤ s.boot.attempts then s.enterDormant 1
    else go s
  | 2 =>
    let keep := if s.boot.window then fld (s.reg 32 0x040) 24 0 else 0
    let m := (List.range 4).foldl (fun m q => zeroRun m (0xE000000000 + q * 0x2000000) 0x1800000) s.mem
    go { s with
      mem := zeroRun m (0xE008000000 + keep) (0x1000000 - keep)
      boot := { s.boot with lanes := r.lanes.map (fun l => (l.1, laneCount l.2)) } }
  | 3 => go { s with tempo := { s.tempo with calibrated := true, loopStarted := true } }
  | 5 => { s with mem := zeroRun s.mem 0 (4 * 2 ^ 35) }.startStage6
  | 9 => s.toReady
  | _ => go s

/-- Unit failures and capacity at a stage end, then the next stage (R555, R556). -/
def State.stageUnitsDone (s : State) (r : StageResult) : State :=
  let us := (s.stageUnits r).filter (fun u => UnitFail_ok u.1)
  match us.head?, s.boot.allowDegraded with
  | some u, false => s.failAttempt u.2.1 u.2.2.1
  | _, _ =>
    let s1 := us.foldl (fun t u => (UnitFail_pages u.1).foldl (fun t p => t.bootFence p u.2.2.2) t) s
    if s.boot.stage = 9 ∧ (List.range 48).all (fun n => s.bootFenced (corePage n) || !r.golden.contains n) then
      s.failAttempt 0x92 0xFFFF
    else if !(List.range 4).any s1.remains then s1.failAttempt 0xA0 0xFFFF
    else s1.nextStage r

/-- The entry test of the central slice has ended; the slice is then filled with zeros (R559). -/
def State.entryTest (s : State) (ok : Bool) : State :=
  { s with
      mem := zeroRun s.mem 0xE008000000 0x1000000
      boot := { s.boot with windowOk := ok } }

/-- BOOT_STAGE_END (R549): the present stage of the attempt ends. In Dormant mode it is the end of the entry test. -/
def execBootStageEnd (r : StageResult) (s : State) : Result :=
  act s fun s =>
    if s.boot.state = .dormant ∧ !s.boot.windowOk then s.entryTest r.fail.isNone
    else if !s.boot.running then s
    else
      match s.boot.stage with
      | 6 => if s.boot.hostWait ∨ (s.boot.source = 2 ∧ !s.hostReach) then s else s.endStage6 r.pkg
      | 7 =>
        match s.boot.pkg with
        | some p => s.endStage7 p r.flashOk
        | none => s
      | 8 =>
        match s.loadBootSet r.images 0 with
        | (s1, none) => s1.stageUnitsDone r
        | (s1, some (i, code)) => s1.failAttempt 0x81 (i * 256 + code)
      | _ =>
        match s.stageFail r.fail with
        | some f => s.failAttempt f.1 f.2
        | none => s.stageUnitsDone r

/-- STAGE_TIMEOUT (R549): the stage exceeds its limit; the wait for HOST_GO has a sub-code of its own (R557). -/
def execStageTimeout (s : State) : Result :=
  act s fun s =>
    if !s.boot.running then s
    else s.failAttempt (if s.boot.stage = 6 ∧ s.boot.hostWait then 0x63 else 0x01) 0xFFFF

/-! ### Commands (R550, R561) -/

/-- HOST_GO (R550). -/
def execHostGo (v : Word) (s : State) : Result :=
  hostCmd 1 s fun s =>
    let s := s.rsv 1 1 v
    if !v.getLsbD 0 then s
    else if s.boot.state ≠ .booting then s.accessBad 1
    else if s.boot.hostWait then s.takeHost
    else { s with boot := { s.boot with hostGo := s.boot.running } }

/-- DORMANT_RETRY_GO (R561): FLASH 3 discards the write. -/
def execDormantRetryGo (v : Word) (s : State) : Result :=
  hostCmd 32 s fun s =>
    let s := s.rsv 32 0xD v
    let flash := fld v 3 2
    if flash = 3 then s.accessBad 32
    else if !v.getLsbD 0 then s
    else if !s.boot.windowOk ∨ s.boot.busy then s.accessBad 32
    else { s with boot := { s.boot with flash := flash, lastResult := 0 } }.startAttempt false false true

end Sys2Proof.Machine
end

