-- ==== Sys2Proof/Machine/EgressOps.lean ====
section
/-!
DEFINITION. Egress queues: their fields and checks, the packetizers, the shaper and the headers of datagrams (R511 to R530).
-/
namespace Sys2Proof.Machine

/-! ### Fields of an entry (R511) -/

/-- n bytes from byte a. -/
def EgressQ.at (x : EgressQ) (a n : Nat) : Nat := leNat ((x.cfg.drop a).take n)
/-- LANE. -/
def EgressQ.lane (x : EgressQ) : Nat := x.at 0 1 % 4
/-- CLASS. -/
def EgressQ.cls (x : EgressQ) : Nat := x.at 1 1 % 8
/-- PACKETIZER. -/
def EgressQ.kind (x : EgressQ) : Nat := x.at 2 1
/-- The queue sends transport packets. -/
def EgressQ.isTs (x : EgressQ) : Bool := x.kind == 1 || x.kind == 2
/-- The datagrams carry RTP. -/
def EgressQ.isRtp (x : EgressQ) : Bool := decide (2 ≤ x.kind)
/-- TWIN_EN. -/
def EgressQ.twinEn (x : EgressQ) : Bool := bit (x.at 3 1) 3
/-- DROP_ON_DOWN. -/
def EgressQ.dropOnDown (x : EgressQ) : Bool := bit (x.at 3 1) 2
/-- NULL_FILL. -/
def EgressQ.nullFill (x : EgressQ) : Bool := bit (x.at 3 1) 1
/-- TWIN. -/
def EgressQ.twin (x : EgressQ) : Nat := x.at 4 2
/-- TS_PER_DGRAM. -/
def EgressQ.perDgram (x : EgressQ) : Nat := x.at 25 1
/-- VIDEO_PID. -/
def EgressQ.videoPid (x : EgressQ) : Nat := x.at 26 2 % 8192
/-- PCR_PID. -/
def EgressQ.pcrPid (x : EgressQ) : Nat := x.at 28 2 % 8192
/-- HDR_LEN of the template. -/
def EgressQ.hdrLen (x : EgressQ) : Nat := byteAt x.hdr 0
/-- The header bytes of the template. -/
def EgressQ.header (x : EgressQ) : List Byte := (x.hdr.drop 16).take x.hdrLen

/-- Changes egress queue e. -/
def State.modEq (s : State) (e : Nat) (f : EgressQ → EgressQ) : State :=
  { s with net := { s.net with egress := mset s.net.egress e (f (s.egressQ e)) } }

/-- Every field of bytes 0 to 49 lies in its range (R511). -/
def eqFieldsOk (x : EgressQ) : Bool :=
  let f := x.at
  let ts := x.isTs
  let ovh := signed 8 (f 24 1)
  decide (f 0 1 < 16) && !bit (f 0 1) 2 && decide (f 1 1 < 8) && decide (f 2 1 ≤ 4) && decide (f 3 1 < 16) && !bit (f 3 1) 0 &&
  (!x.twinEn || decide (f 4 2 < 4096)) && decide (64 ≤ f 6 2) && f 8 8 % 64 == 0 && tagOk (f 8 8) &&
  decide (1 ≤ f 16 4) && decide (f 16 4 ≤ 100000000) && decide (64 ≤ f 20 4) && decide (f 20 4 ≤ 16777216) &&
  decide (-32 ≤ ovh) && decide (ovh ≤ 63) && f 35 1 == 0 &&
  (!ts || (decide (1 ≤ f 25 1) && decide (f 25 1 ≤ 7) && decide (0x10 ≤ f 26 2) && decide (f 26 2 ≤ 0x1FFE) &&
    decide (0x10 ≤ f 28 2) && decide (f 28 2 ≤ 0x1FFE) && decide (1000 ≤ f 30 2) && decide (10 ≤ f 32 2) &&
    decide (f 32 2 ≤ 1000) && decide (1 ≤ f 34 1) && decide (f 34 1 ≤ 4) && decide (f 36 4 ≤ 900000) && f 40 8 % 64 == 0 &&
    tagOk (f 40 8))) &&
  (ts || f 34 1 == 0) &&
  (if 3 ≤ x.kind then decide (256 ≤ f 48 2) && decide (f 48 2 ≤ 8900) else f 48 2 == 0)

/-- The header of a template parses (R512): where IP, UDP and RTP begin, and whether it is IPv6. -/
def hdrPlaces (h : List Byte) : Option (Nat × Nat × Nat × Bool) :=
  let t := parseTags h
  let ip := h.length - t.2.2.length
  if t.2.1 = 0x0800 then
    (if byteAt h ip = 0x45 ∧ byteAt h (ip + 9) = 17 then some (ip, ip + 20, ip + 28, false) else none)
  else if t.2.1 = 0x86DD then
    (if byteAt h ip / 16 = 6 ∧ byteAt h (ip + 6) = 17 then some (ip, ip + 40, ip + 48, true) else none)
  else none

/-- The template passes R512 for a packetizer. -/
def templateOk (x : EgressQ) : Bool :=
  let fl := byteAt x.hdr 1
  decide (42 ≤ x.hdrLen) && decide (x.hdrLen ≤ 82) && decide (fl < 4) && ((x.hdr.drop 2).take 14).all (· == 0) &&
  ((x.hdr.drop (16 + x.hdrLen)).all (· == 0)) && bit fl 1 == x.isRtp &&
  (match hdrPlaces x.header with
   | some (_, _, b, v6) => v6 == bit fl 0 && x.hdrLen == b + (if x.isRtp then 12 else 0) &&
       (!x.isRtp || byteAt x.header b == 0x80)
   | none => false)

/-- The largest frame of the queue (R512). -/
def EgressQ.largest (x : EgressQ) : Nat := x.hdrLen + (if x.isTs then x.perDgram * 188 else x.at 48 2)

/-! ### Time (R518, R519, R524) -/

/-- The STC of a queue at an instant (R518). -/
def EgressQ.stcAt (x : EgressQ) (t : Nat) : Nat :=
  match x.stc with
  | some (t0, c0) => c0 + (t - t0) * 27 / 1000
  | none => 0

/-- Nanoseconds from the start of a frame's preamble to the end of byte k after the destination address began (R485, R519),
at 25 or 100 Gb/s. -/
def State.byteNs (s : State) (port k : Nat) : Nat := (8 + k) * 8 / (if s.portMode port = 3 then 25 else 100)

/-- TOKENS at an instant (R524), in units of 2^-16 byte. -/
def EgressQ.fill (x : EgressQ) (now : Nat) : EgressQ :=
  { x with
      tokens := min (x.burst * 65536 : Nat) (x.tokens + ((now - x.filled) * x.rate * 65536 / 8000000 : Nat))
      filled := now }

/-- The counted length of a frame (R524). -/
def EgressQ.counted (x : EgressQ) (len : Nat) : Nat := ((len : Int) + x.overhead).toNat

/-! ### Transport packets (R515 to R519, R521) -/

/-- The 6 bytes of a program clock reference (R519). -/
def pcrBytes (stc : Nat) : List Byte := beBytes 6 (stc / 300 % 2 ^ 33 * 2 ^ 15 + 63 * 2 ^ 9 + stc % 300)

/-- A 33-bit time with its marker bits, after a 4-bit prefix. -/
def stampBytes (pre t : Nat) : List Byte :=
  beBytes 5 (pre * 2 ^ 36 + bits t 32 30 * 2 ^ 33 + 2 ^ 32 + bits t 29 15 * 2 ^ 17 + 2 ^ 16 + bits t 14 0 * 2 + 1)

/-- The PES header of an access unit (R515). -/
def pesBytes (pts dts : Nat) : List Byte :=
  [0, 0, 1, 0xE0, 0, 0, 0x84] ++
    (if dts = pts then [0x80, 5] ++ stampBytes 2 (pts % 2 ^ 33)
     else [0xC0, 10] ++ stampBytes 3 (pts % 2 ^ 33) ++ stampBytes 1 (dts % 2 ^ 33))

/-- An adaptation field that leaves room for n payload bytes: its flags, a place for the PCR, and stuffing. -/
def adaptation (n : Nat) (pcr disc : Bool) : List Byte :=
  let room := 184 - n
  let flags := b2n disc * 128 + b2n pcr * 16
  let body := BitVec.ofNat 8 flags :: (if pcr then List.replicate 6 (0 : Byte) else [])
  if room = 0 then []
  else if room = 1 then [0]
  else BitVec.ofNat 8 (room - 1) :: (body ++ List.replicate (room - 1 - body.length) (255 : Byte))

/-- A transport packet: payload of at most 184 bytes behind an adaptation field as long as it needs. -/
def tsBytes (pid cc : Nat) (start pcr disc : Bool) (pay : List Byte) : List Byte :=
  let ad := adaptation pay.length pcr disc
  let ctl := (if ad = [] then 0 else 2) + (if pay = [] then 0 else 1)
  [0x47] ++ beBytes 2 (b2n start * 16384 + pid) ++ leBytes 1 (ctl * 16 + cc) ++ ad ++ pay

/-- A null packet. -/
def nullPacket : List Byte := [0x47, 0x1F, 0xFF, 0x10] ++ List.replicate 184 (255 : Byte)

/-- The PID of a packet. -/
def pidOf (l : List Byte) : Nat := beAt l 1 2 % 8192

/-- Takes the next continuity_counter of a PID. -/
def EgressQ.nextCc (x : EgressQ) (pid : Nat) : Nat × EgressQ :=
  let c := mgetD x.cc pid 0
  (c, { x with cc := mset x.cc pid ((c + 1) % 16) })

/-- The PSI packets join the datagram in build with their own continuity counters (R517). -/
def EgressQ.putPsi (x : EgressQ) : EgressQ :=
  x.psi.foldl (fun (y : EgressQ) p =>
    let r := y.nextCc (pidOf p)
    let l := p.set 3 (BitVec.ofNat 8 (byteAt p 3 / 16 * 16 + r.1))
    { r.2 with build := r.2.build ++ [{ bytes := l }] }) { x with psiDue := false }

/-- A PCR-only packet of PCR_PID; the counter does not move (R518). -/
def EgressQ.pcrOnly (x : EgressQ) : List Byte :=
  tsBytes x.pcrPid ((mgetD x.cc x.pcrPid 0 + 15) % 16) false true false []

/-- Cuts the next video packet from the waiting PES bytes, when there are enough of them (R515, R518, R521). -/
def EgressQ.cutVideo (x : EgressQ) : Option EgressQ :=
  let same := x.videoPid == x.pcrPid
  let pcr := same && (x.pcrDue || x.discont)
  let room := if pcr then 176 else if x.discont then 182 else 184
  if x.es = [] ∨ (x.es.length < room ∧ !x.esEnd) then none
  else
    let n := min room x.es.length
    let r := x.nextCc x.videoPid
    let last := x.esEnd && x.es.length == n
    let done := x.esFrees.filter (fun h => decide (h.1 ≤ n))
    let p : Piece := { bytes := tsBytes x.videoPid r.1 x.esStart pcr x.discont (x.es.take n), pcr := pcr, auEnd := last
                       frees := done.map Prod.snd }
    some { r.2 with
      es := x.es.drop n, esStart := false, esEnd := x.esEnd && !last, discont := false
      esFrees := (x.esFrees.filter (fun h => decide (n < h.1))).map (fun h => (h.1 - n, h.2))
      pcrDue := x.pcrDue && !pcr, build := x.build ++ [p] }

/-- The datagram in build is ready (R516). -/
def EgressQ.dgramFull (x : EgressQ) : Bool :=
  decide (x.perDgram ≤ x.build.length) || (!x.nullFill && (x.build.getLast?.map Piece.auEnd).getD false)

/-- Builds transport packets until the datagram is ready or nothing more waits (R516 to R518). Nothing is sent before the
STC starts. -/
def EgressQ.buildTs : Nat → EgressQ → EgressQ
  | 0, x => x
  | fuel + 1, x =>
    if x.dgramFull ∨ x.stc = none then x
    else if x.psiDue then EgressQ.buildTs fuel x.putPsi
    else if x.pcrDue ∧ x.pcrPid ≠ x.videoPid ∧ (x.es ≠ [] ∨ x.build ≠ []) then
      EgressQ.buildTs fuel { x with pcrDue := false, build := x.build ++ [{ bytes := x.pcrOnly, pcr := true }] }
    else
      match x.cutVideo with
      | some y => EgressQ.buildTs fuel y
      | none => x

/-- Runs the packetizer on what waits. -/
def EgressQ.work (x : EgressQ) : EgressQ := if x.isTs then EgressQ.buildTs 32 x else x

/-- The pieces of the next datagram; PSI packets beyond its size wait for the following one. -/
def EgressQ.nextPieces (x : EgressQ) : List Piece :=
  if x.isTs then
    let l := x.build.take x.perDgram
    if x.nullFill then
      let pcr := x.pcrDue && x.pcrPid != x.videoPid && decide (l.length < x.perDgram)
      let l := if pcr then l ++ [{ bytes := x.pcrOnly, pcr := true }] else l
      l ++ List.replicate (x.perDgram - l.length) { bytes := nullPacket }
    else l
  else x.ready.take 1

/-- The queue has a frame ready (R516, R520, R522, R529). -/
def EgressQ.hasFrame (x : EgressQ) : Bool :=
  !x.copies.isEmpty || (if x.isTs then x.stc.isSome && (x.nullFill || x.dgramFull) else !x.ready.isEmpty)

/-! ### RTP (R520) -/

/-- The NAL units of a byte stream, without their start codes. `cur` is the unit in progress. -/
def splitNals : Nat → List Byte → Option (List Byte) → List (List Byte)
  | 0, _, cur => (cur.map List.reverse).toList
  | fuel + 1, l, cur =>
    let close := (cur.map (fun c => (c.dropWhile (· == 0)).reverse)).toList.filter (· ≠ [])
    match l with
    | [] => (cur.map List.reverse).toList.filter (· ≠ [])
    | 0 :: 0 :: 1 :: t => close ++ splitNals fuel t (some [])
    | b :: t => splitNals fuel t (cur.map (fun c => b :: c))

/-- Cuts bytes into runs of at most n. -/
def chunks : Nat → Nat → List Byte → List (List Byte)
  | 0, _, _ => []
  | fuel + 1, n, l => if l.length ≤ n then [l] else l.take n :: chunks fuel n (l.drop n)

/-- The payloads of one NAL unit: itself, or its fragments (R520). -/
def nalPackets (hevc : Bool) (mx : Nat) (n : List Byte) : List (List Byte) :=
  if n.length ≤ mx then [n]
  else
    let h := if hevc then 2 else 1
    let parts := chunks n.length (mx - h - 1) (n.drop h)
    let b0 := byteAt n 0
    parts.zipIdx.map (fun p =>
      let se := b2n (p.2 == 0) * 128 + b2n (p.2 + 1 == parts.length) * 64
      (if hevc then leBytes 1 (b0 / 128 * 128 + 49 * 2 + b0 % 2) ++ (n.drop 1).take 1 ++ leBytes 1 (se + b0 / 2 % 64)
       else leBytes 1 (b0 / 32 * 32 + 28) ++ leBytes 1 (se + b0 % 32)) ++ p.1)

/-- The RTP payloads of a Caldera packet; the marker falls on the last one of an access unit. -/
def rtpPieces (x : EgressQ) (bytes : List Byte) (auEnd : Bool) (frees : List Nat) : List Piece :=
  let l := (splitNals (bytes.length + 1) bytes none).flatMap (nalPackets (x.kind == 4) (x.at 48 2))
  l.zipIdx.map (fun p =>
    let last := p.2 + 1 == l.length
    { bytes := p.1, auEnd := auEnd && last, ts := x.pts % 2 ^ 32, frees := if last then frees else [] })

/-! ### Frames (R513, R519, R522) -/

/-- Replaces bytes at an offset. -/
def patch (l : List Byte) (a : Nat) (b : List Byte) : List Byte := l.take a ++ b ++ l.drop (a + b.length)

/-- The 12-byte RTP header of a datagram: the template's, with marker, sequence number and timestamp (R513). -/
def rtpHead (tmpl : List Byte) (marker : Bool) (seq ts : Nat) : List Byte :=
  patch tmpl 1 (leBytes 1 (b2n marker * 128 + byteAt tmpl 1 % 128) ++ beBytes 2 (seq % 65536) ++ beBytes 4 (ts % 2 ^ 32))

/-- A whole frame from a queue's template and the bytes that follow its UDP header (R513). -/
def dgramFrame (x : EgressQ) (body : List Byte) : List Byte :=
  match hdrPlaces x.header with
  | none => []
  | some (ip, udp, b, v6) =>
    let len := 8 + body.length
    let h := x.header.take b
    let h1 := if v6 then patch h (ip + 4) (beBytes 2 len)
      else
        let h0 := patch (patch h (ip + 2) (beBytes 2 (20 + len) ++ beBytes 2 (x.ipId % 65536))) (ip + 10) [0, 0]
        patch h0 (ip + 10) (beBytes 2 (inetSum ((h0.drop ip).take 20)))
    let h2 := patch h1 (udp + 4) (beBytes 2 len ++ [0, 0])
    let addrs := if v6 then (h2.drop (ip + 8)).take 32 else (h2.drop (ip + 12)).take 8
    let sum := inetSum (addrs ++ beBytes 2 17 ++ beBytes 2 len ++ h2.drop udp ++ body)
    patch h2 (udp + 6) (beBytes 2 (if sum = 0 then 65535 else sum)) ++ body

/-- Stamps the PCRs of pieces (R519): the value at the instant at which the byte with the last bit of the base crosses the
PCS. `off` is the offset of the first piece in its frame and `t` when the frame starts. -/
def State.stampPcr (s : State) (x : EgressQ) (port t : Nat) : Nat → List Piece → List Byte
  | _, [] => []
  | off, p :: r =>
    (if p.pcr then patch p.bytes 6 (pcrBytes (x.stcAt (t + s.byteNs port (off + 11)))) else p.bytes) ++
      State.stampPcr s x port t (off + p.bytes.length) r

/-! ### Shaper changes (R525) -/

/-- Why the staging group g of port p is refused, 0 for no reason (R525). -/
def State.shapeReject (s : State) (p g : Nat) : Nat :=
  let r := fun k => s.reg (12 + p) (0x040 + 0x10 * g + k)
  let x := s.egressQ (fld (r 0) 11 0)
  let ovh := signed 7 (fld (r 0) 30 24)
  if fld (r 4) 26 0 < 1 ∨ 100000000 < fld (r 4) 26 0 ∨ fld (r 8) 24 0 < 64 ∨ 16777216 < fld (r 8) 24 0 ∨ ovh < -32 ∨ 63 < ovh
  then 1
  else if !x.enabled then 0x80
  else if x.port ≠ p then 0x81
  else 0

/-- RATE, BURST and OVERHEAD of a staging group take effect together (R525). -/
def State.shapeApply (s : State) (p g : Nat) : State :=
  let r := fun k => s.active (12 + p) (0x040 + 0x10 * g + k)
  s.modEq (fld (r 0) 11 0) (fun x => { x with
    rate := fld (r 4) 26 0, burst := fld (r 8) 24 0, overhead := signed 7 (fld (r 0) 30 24), filled := s.time.ns
    tokens := if (r 0).getLsbD 31 then 0 else (fld (r 8) 24 0 * 65536 : Nat) })

end Sys2Proof.Machine
end

