-- ==== Sys2Proof/Machine/Pools.lean ====
section
/-!
DEFINITION. The commands of the buffer pool manager (R436 to R446, R589).
-/
namespace Sys2Proof.Machine

/-- Two address runs overlap. -/
def overlaps (a n b m : Nat) : Bool := decide (a < b + m) && decide (b < a + n)

/-- A device run lies in the addressable populated part of one home range (R32, R436). -/
def State.homeRun (s : State) (a n : Nat) : Bool :=
  decide (a / 2 ^ 35 < 4) && decide (a % 2 ^ 35 + n ≤ s.addressable)

/-- Every buffer lies in the populated part of some home range, none straddling two (R436). Buffers tile the run, so only
a buffer that reaches the end of a populated part can fail. -/
def State.buffersHome (s : State) (a size count : Nat) : Bool :=
  (List.range count).all (fun i => s.homeRun (a + i * size) size)

/-- The range checks of ENABLE (R436): alignment, place of buffers and owner table, overlap with other pools. -/
def State.poolRangeOk (s : State) (p : Nat) : Bool :=
  let base := s.poolBase p
  let size := 2 ^ s.poolLog2 p
  let n := s.poolCount p
  let ot := s.poolOwner p
  let bufsOk :=
    if isDev base then tagOk base && s.buffersHome (devOf base) size n else decide (base + n * size ≤ 2 ^ 63)
  let clear := (List.range 16).all (fun q =>
    let same := q == p
    let other := decide ((s.pool q).state ≠ .disabled)
    !(same || other) || !isDev (s.poolBase q) ||
      !overlaps ot (8 * n) (devOf (s.poolBase q)) (s.poolCount q * 2 ^ s.poolLog2 q))
  decide (base % min size 4096 = 0) && bufsOk && s.homeRun ot (8 * n) && clear &&
    decide (1 ≤ n) && decide (8 ≤ s.poolLog2 p) && decide (s.poolLog2 p ≤ 24)

/-- No other enabled pool with SIZE_SELECT has the same buffer size (R436). DEDUCED: a pool is enabled from an accepted ENABLE
until DISABLE. -/
def State.poolSizeFree (s : State) (p : Nat) : Bool :=
  !s.poolBySize p || (List.range 16).all (fun q =>
    q == p || !((s.pool q).state != .disabled && s.poolBySize q && s.poolLog2 q == s.poolLog2 p))

/-- POOL_ENABLE (R436): a DISABLED pool is checked and its threading starts. -/
def execPoolEnable (pool : Nat) (s : State) : Result :=
  hostCmd 9 s fun s =>
    let p := pool % 16
    if (s.pool p).state ≠ .disabled then s.accessBad 9
    else if !s.poolRangeOk p then s.reject 9 1 p
    else if !s.poolSizeFree p then s.reject 9 2 p
    else s.modPool p (fun _ => { state := .enabling })

/-- POOL_DISABLE (R437). -/
def execPoolDisable (pool : Nat) (s : State) : Result :=
  hostCmd 9 s fun s =>
    let p := pool % 16
    let g := s.pool p
    if (g.state = .enabled ∨ g.state = .broken) ∧ g.owned = 0 then
      let s1 := s.modPool p (fun _ => {})
      s1.setCond 9 0 ((List.range 16).any (fun q => (s1.pool q).state == .broken))
    else s.accessBad 9

/-- POOL_REBUILD (R437, R440): only a BROKEN pool starts rebuilding. -/
def execPoolRebuild (pool : Nat) (s : State) : Result :=
  hostCmd 9 s fun s =>
    let p := pool % 16
    if (s.pool p).state = .broken then
      let s1 := s.modPool p (fun g => { g with state := .rebuilding, cause := 0 })
      s1.setCond 9 0 ((List.range 16).any (fun q => (s1.pool q).state == .broken))
    else s.accessBad 9

/-- Writes the headers of the free buffers `l` in index order, each naming the next (R436, R440). -/
def State.threadList (s : State) (p : Nat) : List Nat → State
  | [] => s
  | i :: t =>
    let a := s.bufAddr p i
    let next := match t with
      | j :: _ => s.bufAddr p j
      | [] => 0
    (s.writeTagged a (poolHeader a next p)).threadList p t

/-- Zero owner records for every buffer (R436). -/
def State.zeroOwners (s : State) (p : Nat) : State :=
  s.write (s.poolOwner p) (List.replicate (8 * s.poolCount p) 0)

/-- POOL_THREAD_DONE (R436, R440): the last header of an ENABLE or a REBUILD has landed, or a write of the threading was
refused. -/
def execPoolThreadDone (pool : Nat) (s : State) : Result :=
  act s fun s =>
    let p := pool % 16
    let all := List.range (s.poolCount p)
    match (s.pool p).state with
    | .enabling =>
      if s.writeRun (s.poolOwner p) (8 * s.poolCount p) && all.all (fun i => s.headerOk (s.bufAddr p i)) then
        ((s.zeroOwners p).threadList p all).modPool p
          (fun _ => { state := .enabled, head := s.bufAddr p 0, free := s.poolCount p })
      else s.breakPool p 3
    | .rebuilding =>
      let l := all.filter (fun i => (s.owner p i).owners == 0)
      if l.all (fun i => s.headerOk (s.bufAddr p i)) then
        (s.threadList p l).modPool p (fun g => { g with
          state := .enabled, cause := 0, free := l.length,
          head := match l with
            | i :: _ => s.bufAddr p i
            | [] => 0 })
      else s.breakPool p 3
    | _ => s

/-- The results held, at most four (R446). -/
def Bpm.post (b : Bpm) (pool outcome handle : Nat) : Bpm :=
  let q := nextSeq b.seq
  { b with seq := q, box := b.box ++ [{ pool := pool, outcome := outcome, handle := handle, seq := q }] }

/-- BPM_ALLOC_REQ (R441, R446): a host request posts one result, unless four are outstanding. -/
def execBpmAllocReq (v : Word) (host : Option (List Byte)) (s : State) : Result :=
  hostCmd 9 s fun s =>
    let s := s.rsv 9 0x3FFFFFFF v
    if 4 ≤ s.bpm.box.length then s.accessBad 9
    else
      let r := s.allocate (if v.getLsbD 29 then .byPool (fld v 28 25) else .bySize (fld v 24 0)) .host host
      let post := fun (pool outcome h : Nat) =>
        ({ r.2 with bpm := r.2.bpm.post pool outcome h }).setCond 9 3 true
      match r.1 with
      | .granted h => post (handlePool h) 1 h
      | .empty p => post p 2 0xFFFFFFFF
      | .broken p => post p 3 0xFFFFFFFF
      | .noFit => post 0 4 0xFFFFFFFF
      | .notEnabled p => post p 5 0xFFFFFFFF

/-- BPM_ALLOC_ACK (R88): the present SEQ consumes the result shown. -/
def execBpmAllocAck (seq : BitVec 8) (s : State) : Result :=
  hostCmd 9 s fun s =>
    match s.bpm.box with
    | r :: t =>
      if r.seq = seq.toNat then
        ({ s with bpm := { s.bpm with box := t } }).setCond 9 3 (!t.isEmpty)
      else s.accessBad 9
    | [] => s.accessBad 9

/-- BPM_RELEASE (R445): the host gives up a buffer. -/
def execBpmRelease (handle : Word) (s : State) : Result :=
  hostCmd 9 s fun s => s.release handle.toNat .host

/-- BUFFER_RELEASE (R445): an egress port or a DMA channel gives up a buffer; a job's CORE entry is never removed by a
release (R444). -/
def execBufferRelease (kind agent : Nat) (handle : Word) (s : State) : Result :=
  act s fun s =>
    s.release handle.toNat
      (match kind with
       | 0 => .host
       | 1 => .egress agent
       | 2 => .dma agent
       | _ => .core agent)

end Sys2Proof.Machine
end

