-- ==== Sys2Proof/Machine/Timebase.lean ====
section
/-!
DEFINITION. The timebase and its comparators (R59 to R62, R459).
-/
namespace Sys2Proof.Machine

/-- One 1 ns cycle of the timebase clock: the accumulator adds the fixed increment (R60), and every running hold-off timer
counts it (R475). -/
def State.tick (s : State) : State :=
  let t := s.time.frac + s.time.inc
  { s with
    time := { s.time with ns := (s.time.ns + t / 2 ^ 40) % 2 ^ 64, frac := t % 2 ^ 40 }
    intc := { s.intc with
      grps := s.intc.grps.map (fun g => (g.1, { g.2 with timerLeft := g.2.timerLeft - s.time.inc })) } }

/-- The fixed increment of a trim, in units of 2^-40 ns, rounded to nearest with ties away from zero (R60). -/
def trimInc (trim : Int) : Nat :=
  let n : Int := trim * (2 ^ 40 : Nat)
  let d : Int := 10 ^ 12
  let m := if 0 ≤ n then (2 * n + d) / (2 * d) else -((2 * -n + d) / (2 * d))
  ((2 ^ 40 : Nat) + m).toNat

/-- Comparator k of quadrant q, numbered 8q + k. -/
def State.comp (s : State) (n : Nat) : Comparator := mgetD s.comps n {}

/-- Changes comparator n. -/
def State.modComp (s : State) (n : Nat) (f : Comparator → Comparator) : State :=
  { s with comps := mset s.comps n (f (s.comp n)) }

/-- A comparator fires: it disarms, arms again at its value plus PERIOD when that is not 0, and triggers the QD channels
that name it (R61, R459). -/
def State.compFire (s : State) (q k : Nat) : State :=
  let s1 := s.modComp (8 * q + k) (fun c => { c with
    armed := c.period != 0, value := if c.period = 0 then c.value else (c.value + c.period) % 2 ^ 64 })
  (List.range 16).foldl (fun t g =>
    let d := 192 + 16 * q + g
    if t.chanTrig d = 1 ∧ bits (t.chanCfg d) 23 20 = k then t.trigger d else t) s1

/-- COMPARATOR_FIRE (R61): the timebase has reached the value of an armed comparator. -/
def execComparatorFire (q k : Nat) (s : State) : Result :=
  act s fun s =>
    let c := s.comp (8 * q + k)
    if q < 4 ∧ k < 8 ∧ c.armed ∧ c.value ≤ s.time.ns then s.compFire q k else s

/-- A write of CMP_CTRL (R459): PERIOD is stored, DISARM disarms, and ARM latches CMP_HI:CMP_LO and arms. -/
def State.compCtrl (s : State) (q k : Nat) (v : Word) (arm disarm : Bool) : State :=
  let p := qcompPage q
  let lo := s.reg p (0x040 + 0x10 * k)
  let hi := s.reg p (0x044 + 0x10 * k)
  s.modComp (8 * q + k) (fun c =>
    let c1 := { c with period := fld v 27 0, armed := c.armed && !disarm }
    if arm then { c1 with armed := true, value := hi.toNat * 2 ^ 32 + lo.toNat } else c1)

/-- COMPARATOR_ARM (R459): a write of CMP_CTRL with ARM = 1. -/
def execComparatorArm (q k : Nat) (v : Word) (s : State) : Result :=
  hostCmd (qcompPage q) s fun s =>
    if k < 8 then (s.compCtrl q k v true (v.getLsbD 30)).rsv (qcompPage q) 0xEFFFFFFF v else s

/-- COMPARATOR_DISARM (R459): a write of CMP_CTRL with DISARM = 1 and ARM = 0. -/
def execComparatorDisarm (q k : Nat) (v : Word) (s : State) : Result :=
  hostCmd (qcompPage q) s fun s =>
    if k < 8 then (s.compCtrl q k v false true).rsv (qcompPage q) 0xEFFFFFFF v else s

/-- A read of TIME_LO latches the high word of the timebase into TIME_HI (R62). -/
def State.latchTime (s : State) : State :=
  { s with time := { s.time with hiLatch := BitVec.ofNat 32 (s.time.ns / 2 ^ 32) } }

/-- TIME_LO_READ (R62): the read returns the low word and latches the high word. A page that is not served answers 0. -/
def execTimeLoRead (s : State) : Result :=
  let s := s.toL0
  if !s.linked then .next s
  else if !s.decodes then .next (s.emit .unsupportedRequest)
  else if s.serving 19 ≠ .served then .next (s.emit (.timeLo 0))
  else
    .next (s.latchTime.emit (.timeLo (BitVec.ofNat 32 s.time.ns)))

end Sys2Proof.Machine
end

