-- ==== Sys2Proof/Machine/PageOps.lean ====
section
/-!
DEFINITION. Writing the registers of a page, the checks of a commit and what an accepted hand-over does to the unit (R69 to
R81, and the register tables of the owning chapters).
-/
namespace Sys2Proof.Machine

/-! ### Access codes (R15, R69) -/

/-- The event bits that a page type has. -/
def evtMask : PageKind → Word
  | .tempo | .geyser => 0x1F
  | .placer | .dch | .netp => 0x3F
  | .core | .mode | .qmgr | .bpm | .fault | .cdma => 0xF
  | .nete => 0x3
  | .qdma => 0xFFFF
  | _ => 0

/-- The bits of a header register that are not RSV on a page type (R69). -/
def headerMask (k : PageKind) (off : Nat) : Word :=
  match off with
  | 0x000 | 0x014 | 0x038 => 0xFFFFFFFF
  | 0x004 => if k = .device then 0xFFF else 0xFFFF
  | 0x008 => if k = .core then 0x01FF00FF else 0xFFFFFFFF
  | 0x00C => if noFence k then 1 else 7
  | 0x010 => 0xCF7
  | 0x018 => 0xFFFF
  | 0x01C => 0xFFFF0007
  | 0x020 | 0x024 | 0x028 | 0x02C => evtMask k
  | 0x030 => 0xFFFF0F
  | 0x034 => 0xFF07
  | 0x03C => 0x1FFFF
  | _ => 0

/-- The RO bits of a register that software writes (R532): the severity bounds of a source that exists. -/
def roBits (k : PageKind) (d : RegDef) (off : Nat) : Word :=
  match k with
  | .fault =>
    if d.off = 0x040 then
      (if (sourceInfo (2 * d.idx off)).isSome then 0x7700 else 0) ||| (if (sourceInfo (2 * d.idx off + 1)).isSome then 0x77000000 else 0)
    else 0
  | _ => 0

/-- The RW bits of a register (R15); every field of a reserved fault source's half is RSV (R532). -/
def rwBits (k : PageKind) (d : RegDef) (off : Nat) : Word :=
  match k with
  | .fault =>
    if d.off = 0x040 then
      (if (sourceInfo (2 * d.idx off)).isSome then 0x7 else 0) ||| (if (sourceInfo (2 * d.idx off + 1)).isSome then 0x70000 else 0)
    else BitVec.ofNat 32 d.rw
  | _ => BitVec.ofNat 32 d.rw

/-- What a write of v leaves in a register that holds `old` (R15, R80): RO and RSV bits keep their values, and so do the
protected bits of a locked page. -/
def regNext (rw prot old v : Word) (unlocked : Bool) : Word :=
  let m := if unlocked then rw else rw &&& ~~~prot
  (old &&& ~~~m) ||| (v &&& m)

/-- A write to a register that stores what it is given (R15, R73, R74, R80): the shadow view, or a direct register. -/
def State.storeReg (s : State) (p off : Nat) (k : PageKind) (d : RegDef) (v : Word) : State :=
  let rw := rwBits k d off
  let prot := rw &&& BitVec.ofNat 32 d.prot
  let old := s.reg p off
  let open' := (s.page p).unlocked
  let s1 := s.rsv p (rw ||| roBits k d off) v
  if k = .boot ∧ off = 0x040 ∧ open' ∧ fld v 2 0 = 0 then s1.accessBad p
  else
    let s2 := s1.setReg p off (regNext rw prot old v open')
    if !open' ∧ (v ^^^ old) &&& prot ≠ 0 then s2.accessBad p else s2

/-- Registers below 0x800 that only units write: the bits that are not RSV (R15, R87). -/
def readOnlyMask (k : PageKind) (off : Nat) : Option Word :=
  match k, off with
  | .geyser, 0x0C0 | .geyser, 0x0C4 | .mode, 0x0C0 | .mode, 0x0C4 | .bpm, 0x314 | .dch, 0x104 | .dch, 0x108 => some 0xFFFFFFFF
  | .bpm, 0x310 => some 0x8000FFFF
  | .dch, 0x100 => some 0xFFFFFFFF
  | .intc, o => if 0x040 ≤ o ∧ o < 0x0E0 then some 0x800001FF else none
  | _, _ => none

/-! ### Commit groups (R75, R76, R79) -/

/-- Page p has the commit group. -/
def hasGroup (p g : Nat) : Bool :=
  match pageKind p with
  | some k => decide (g < groupCount k)
  | none => false

/-- A write of PAGE_COMMIT.GO (R75, R79, R81): the page locks, and each named group becomes pending, is refused as absent, or
is rejected with STATE. -/
def State.goWrite (s : State) (p : Nat) (mask : BitVec 16) : State :=
  (List.range 16).foldl (fun t g =>
    if !mask.getLsbD g then t
    else if !hasGroup p g then t.accessBad p
    else if (t.pageState p).rejects then t.reject p 3 g
    else t.modPage p (fun x => { x with groups := x.groups ||| (1#16 <<< g) }))
    (s.modPage p (fun x => { x with unlocked := false }))

/-- A number outside a range. -/
def outside (a b x : Nat) : Bool := decide (x < a) || decide (b < x)

/-- The shadow values of TEMPO (R50). -/
def State.tempoReject (s : State) : Nat :=
  let c := s.reg 2 0x040
  let l := s.reg 2 0x048
  let h := s.reg 2 0x04C
  if fld c 23 16 = 0 ∨ fld c 11 8 = 0 ∨ fld c 5 4 = 3 ∨ outside 0x2D5 0x4CD (fld (s.reg 2 0x044) 15 0) ∨
    outside 620 900 (fld l 25 16) ∨ outside 620 900 (fld l 9 0) ∨ outside 0x2D5 0x4CD (fld h 31 16) ∨ fld h 11 8 = 0 ∨
    outside 60 105 (fld h 7 0) then 1
  else if fld l 25 16 < fld l 9 0 then 2
  else 0

/-- The severities of FAULT (R532). -/
def State.faultReject (s : State) : Nat :=
  if (List.range 208).any (fun n =>
    match sourceInfo n with
    | some i =>
      let w := s.reg 3 (0x040 + 4 * (n / 2))
      outside i.lo i.hi (if n % 2 = 0 then fld w 2 0 else fld w 18 16)
    | none => false) then 1 else 0

/-- The policy and control registers of PLACER (08_placement.md). -/
def State.placerReject (s : State) : Nat :=
  let r := s.reg 5
  if (List.range 8).any (fun k => decide (fld (r (0x040 + 4 * k)) 31 28 = 0) || decide (fld (r (0x040 + 4 * k)) 7 0 < 0x40)) ∨
    fld (r 0x060) 23 16 = 0 ∨ outside 0x200 0x3F0 (fld (r 0x060) 15 0) ∨ fld (r 0x068) 25 24 = 0 ∨ fld (r 0x068) 23 16 < 0x80 ∨
    fld (r 0x068) 15 0 = 0 ∨ outside 1 64 (fld (r 0x06C) 7 0) ∨
    (List.range 4).any (fun q => decide (20 < fld (r 0x070) (8 * q + 7) (8 * q))) then 1 else 0

/-- PORT_CFG and PFC_CTRL of NETPp (21_network_ingest.md). -/
def State.netpReject (s : State) (p : Nat) : Nat :=
  let c := s.reg p 0x040
  let f := s.reg p 0x044
  if outside 1518 9216 (fld c 13 0) ∨ fld f 15 8 = 0 ∨ 254 < fld f 7 0 then 1
  else if c.getLsbD 22 && c.getLsbD 21 ∨ fld f 15 8 ≤ fld f 7 0 then 2
  else 0

/-- A group of a DCH page (16_memory_controller.md). -/
def State.dchReject (s : State) (p g : Nat) : Nat :=
  let r := s.reg p
  let bad := match g with
    | 0 => decide (fld (r 0x040) 15 0 < 10)
    | 1 => (List.range 16).any (fun i => decide (fld (r (0x080 + 4 * i)) 27 16 = 0))
    | 2 => decide (fld (r 0x048) 15 0 < 64) || decide (fld (r 0x04C) 31 16 = 0) || decide (fld (r 0x04C) 11 0 = 0)
    | _ => decide (fld (r 0x050) 27 24 = 0) || decide (fld (r 0x050) 23 16 = 0) || decide (fld (r 0x050) 15 0 = 0)
  if bad then 1 else 0

/-- The stream memory region of QUAD (R153, R154). -/
def State.streamMemReject (s : State) (p q : Nat) : Nat :=
  let base := fld (s.reg p 0x040) 19 0
  let size := fld (s.reg p 0x044) 15 0
  if base % 2 = 1 ∨ base / 2 ^ 15 ≠ q ∨ size % 2 = 1 ∨ 24576 < size ∨ s.addressable < (base % 2 ^ 15 + size) * 2 ^ 20 then 1
  else if (s.reg p 0x040 ≠ s.active p 0x040 ∨ s.reg p 0x044 ≠ s.active p 0x044) ∧
    s.streams.any (fun (y : Nat × Stream) => y.2.state != .closed && y.2.home == q) then 0x80
  else 0

/-- Region i of quadrant q as the shadow view spells it. -/
def State.newRegion (s : State) (q i : Nat) : Region :=
  regionOf (s.reg (quadPage q) (0x100 + 8 * i)) (s.reg (quadPage q) (0x104 + 8 * i))

/-- Mask register j of set m in the shadow view. -/
def State.newMask (s : State) (q m j : Nat) : Nat := (s.reg (quadPage q) (0x180 + 4 * (5 * m + j))).toNat

/-- A commit changes region i: its entry, or the masks of a FRAME region in force (R396). -/
def State.regionChanged (s : State) (q i : Nat) : Bool :=
  let a := s.region q i
  let b := s.newRegion q i
  (a != b && (a.enable || b.enable)) ||
  (b.enable && b.frame && (List.range 5).any (fun j => s.newMask q b.maskSet j * 64 != s.xmask q b.maskSet j))

/-- A region overlaps the stream memory region in force (R396). -/
def State.onStreamMem (s : State) (q : Nat) (r : Region) : Bool :=
  let base := fld (s.active (quadPage q) 0x040) 14 0 * 2 ^ 20
  let size := fld (s.active (quadPage q) 0x044) 15 0 * 2 ^ 20
  r.enable && overlaps r.base r.size base size

/-- The region table of QUAD (R394 to R396). -/
def State.regionReject (s : State) (q : Nat) : Nat :=
  let rs := (List.range 16).map (s.newRegion q)
  if rs.any (fun r => (!r.frame && r.order == 3) ||
    (r.enable && (r.size == 0 || decide (16384 * 2 ^ 21 < r.size) || decide (s.addressable < r.base + r.size)))) then 1
  else if rs.any (fun r => r.frame && (r.order != 0 || (r.enable && !maskSetOk (s.newMask q r.maskSet)))) then 2
  else if s.streams.any (fun (y : Nat × Stream) => y.2.state != .closed && y.2.home == q) ∧
    (List.range 16).any (fun i => s.regionChanged q i && (s.onStreamMem q (s.region q i) || s.onStreamMem q (s.newRegion q i))) then 0x80
  else 0

/-- The reason for which group g of page p is rejected on its shadow values, or 0 (R76). -/
def State.handReject (s : State) (p g : Nat) : Nat :=
  let r := s.reg p
  let range := fun (b : Bool) => if b then 1 else 0
  match pageKind p with
  | some .tempo => s.tempoReject
  | some .fault => s.faultReject
  | some .placer => s.placerReject
  | some .geyser => range (decide (fld (r 0x040) 15 8 < 8))
  | some .qmgr => range (decide (131072 < fld (r 0x040) 17 0))
  | some .bpm =>
    if (s.pool g).state ≠ .disabled then 0x80
    else range (decide (fld (r (0x04C + 0x20 * g)) 23 0 = 0) || outside 8 24 (fld (r (0x050 + 0x20 * g)) 4 0))
  | some .netp => s.netpReject p
  | some .nete =>
    if g < 15 then s.shapeReject (p - 12) g
    else range ((List.range 8).any (fun i => outside 64 1048575 (fld (r (0x140 + 4 * i)) 19 0)))
  | some .flowwin => range (decide (4096 ≤ fld (r 0x240) 15 0) && fld (r 0x240) 15 0 != 65535)
  | some .pcie =>
    range (fld (r 0x040) 11 0 % 2 ^ s.pcie.bar2Size != 0 || outside 2 1000 (fld (r 0x044) 15 0))
  | some .timebase => range (decide (500000000 < (signed 32 (r 0x040).toNat).natAbs))
  | some .dch => s.dchReject p g
  | some .quad => if g = 0 then s.streamMemReject p (pageQuad p) else s.regionReject (pageQuad p)
  | some .qdma | some .cdma => s.chanReject ((pageChans p).getD g 0)
  | some .core =>
    range (decide (fld (r 0x040) 15 0 = 0) || decide (fld (r 0x044) 23 16 = 0) || decide (fld (r 0x044) 15 0 = 0))
  | _ => 0

/-- An accepted commit of TIMEBASE (R60, R61): the new increment, TIME_ADJ once, and the comparators that it passes fire. -/
def State.timeHanded (s : State) : State :=
  let adj := signed 64 ((s.reg 19 0x04C).toNat * 2 ^ 32 + (s.reg 19 0x048).toNat)
  let now := narrow 64 ((s.time.ns : Int) + adj)
  let s1 := { s with time := { s.time with ns := now, inc := trimInc (signed 32 (s.reg 19 0x040).toNat) } }
  let s2 := ((s1.setReg 19 0x048 0).setReg 19 0x04C 0).setReg 19 0x848 0 |>.setReg 19 0x84C 0
  if adj ≤ 0 then s2
  else (List.range 32).foldl (fun t n => if (t.comp n).armed ∧ (t.comp n).value ≤ now then t.compFire (n / 8) (n % 8) else t) s2

/-- An accepted region commit starts the fill of every region that it changes, in its old and its new place (R396). -/
def State.regionsHanded (s : State) (old : State) (q : Nat) : State :=
  let runs := (List.range 16).flatMap (fun i =>
    if old.regionChanged q i then
      ([old.region q i, old.newRegion q i].filter Region.enable).map (fun r => (i, r.base, r.size))
    else [])
  { s with quads := mset s.quads q { mgetD s.quads q {} with init := (mgetD s.quads q {}).init ++ runs } }

/-- What the unit does with an accepted hand-over, beyond the active view. `old` is the state before the copy. -/
def State.handed (s old : State) (p g : Nat) : State :=
  match pageKind p with
  | some .timebase => s.timeHanded
  | some .netp =>
    if fld (old.active p 0x040) 31 26 ≠ fld (s.active p 0x040) 31 26 then s.retrain (p - 10) else s
  | some .nete => if g < 15 then s.shapeApply (p - 12) g else s
  | some .qmgr => s.cellEvents
  | some .geyser => s.queueEvents
  | some .dch =>
    if g = 1 then s.modDch (p - 20) (fun d => { d with
      tokens := d.tokens.map (fun t => (t.1, min t.2 (s.portBurst (p - 20) t.1 : Nat))) })
    else s
  | some .quad => if g = 1 then s.regionsHanded old (pageQuad p) else s
  | some .qdma | some .cdma => s.chanHanded ((pageChans p).getD g 0)
  | _ => s

/-- The hand-over of a pending group (R76, R79). -/
def State.handOver (s : State) (p g : Nat) : State :=
  let s1 := s.modPage p (fun x => { x with groups := x.groups &&& ~~~ (1#16 <<< g) })
  if (s.pageState p).rejects then s1.reject p 3 g
  else
    let r := s1.handReject p g
    if r ≠ 0 then s1.reject p r g else (s1.copyGroup p g).handed s1 p g

/-- A shadow write that lands after the copy (R77). -/
def State.lateWrite (s : State) (p : Nat) (w : Nat × Word) : State :=
  match pageKind p with
  | none => s
  | some k =>
    match findReg k w.1 with
    | none => s
    | some d =>
      match d.group w.1 with
      | none => s
      | some h => (s.storeReg p w.1 k d w.2).modPage p (fun x =>
          if x.shadowLate then x else { x with shadowLate := true, lateGroup := h })

/-- The hand-over of group g of page p at a boundary that a row reaches (R78): a pending group of a page that is served, outside a
parked quadrant. -/
def State.boundary (s : State) (p g : Nat) : State :=
  if s.live && (s.page p).groups.getLsbD g && decide (s.serving p = .served) && !s.pageParked p then s.handOver p g else s

/-- The unit of page p stands at the boundary of group g (R78, R407, R449), as far as its state tells: a core holds no job, a
channel runs no descriptor, and a controller neither enters nor leaves self-refresh. -/
def State.atBoundary (s : State) (p g : Nat) : Bool :=
  match pageKind p with
  | some .core => (s.core (pageInstance p)).inside.isEmpty
  | some .cdma | some .qdma => ((s.chan ((pageChans p).getD g 0)).desc).isNone
  | some .dch => g != 3 || (s.dch (pageInstance p)).sr == .active || (s.dch (pageInstance p)).sr == .selfRefresh
  | _ => true

/-! ### Snapshots (R86) -/

/-- The registers of page p that are marked Snapshot, with their present values. -/
def State.snapRegs (s : State) (p : Nat) : Map Word :=
  let f := s.faultSummary p
  let summary := BitVec.ofNat 32 ((f.1.getD 0xFF) * 0x10000 + f.2.1 * 0x100 + b2n (f.2.1 != 0) * 8 + f.2.2)
  let i := pageInstance p
  (0x030, summary) ::
    match pageKind p with
    | some .tempo =>
      let t := s.tempo
      let mon := fun m => BitVec.ofNat 32 (narrow 8 (s.mon m).tj * 2 ^ 24 + (if t.calibrated then s.monTempo m else 0))
      [ (0x8C0, BitVec.ofNat 32 (s.goal * 65536 + (if s.loopCores.isEmpty then 0 else s.deviceTempo))),
        (0x8C4, BitVec.ofNat 32 (t.vddReq * 65536 + t.vddRead)),
        (0x8C8, BitVec.ofNat 32 (narrow 8 s.tjMax * 2 ^ 24 + b2n t.avsLost * 8 + b2n t.atVmax * 4 + b2n t.atVmin * 2 +
          b2n t.throttling)) ] ++ (List.range 57).map (fun m => (0x900 + 4 * m, mon m))
    | some .core => [(0x8D4, BitVec.ofNat 32 (s.unit i).bin.bins)]
    | some .dch => [(0x8C8, BitVec.ofNat 32 ((s.dch i).rfm * 65536 + (s.dch i).ce))]
    | some .netp => (List.range 8).map (fun k => (0x900 + 4 * k, BitVec.ofNat 32 (mgetD (s.port i).drops k 0)))
    | _ => []

/-- A capture (R86). TIMEBASE captures into its own registers, and its HELD stays 0 (R62). -/
def State.snapTake (s : State) (p : Nat) : State :=
  if pageKind p = some .timebase then
    { s with
        time := { s.time with
          snapLo := BitVec.ofNat 32 s.time.ns, snapHi := BitVec.ofNat 32 (s.time.ns / 2 ^ 32) } }.modPage p
      (fun x => { x with snapSeq := (x.snapSeq + 1) % 256 })
  else
    s.modPage p (fun x => { x with snapHeld := true, snapSeq := (x.snapSeq + 1) % 256, snap := s.snapRegs p })

/-- Snapshot registers show live values again (R86). -/
def State.snapRelease (s : State) (p : Nat) : State := s.modPage p (fun x => { x with snapHeld := false, snap := [] })

/-! ### Leaving service and returning (R71) -/

/-- FENCE = 1 (R71). -/
def State.fenceOn (s : State) (p : Nat) : State :=
  let g := s.page p
  let s1 := s.modPage p (fun x => { x with fence := true })
  match g.state with
  | .idle | .running => if g.draining ∧ g.cause ≠ .none then s1 else s1.fenceDrain p .software
  | _ => s1

/-- A core that returns to service applies CURRENT_EPOCH before it takes work (R71, R385). -/
def State.rejoined (s : State) (p : Nat) : State :=
  match pageCore p with
  | some n => if s.pageParked p then s else (s.applyEpoch n).coreState n
  | none => s

/-- FENCE = 0 (R71): only a software fence ends. -/
def State.fenceOff (s : State) (p : Nat) : State :=
  let g := s.page p
  let s1 := s.modPage p (fun x => { x with fence := false })
  if g.cause ≠ .software then s1
  else if g.state = .fenced then
    (s1.modPage p (fun x => { x with state := .idle, cause := .none })).rejoined p
  else if g.draining then
    (s1.modPage p (fun x => { x with draining := !x.enable && s.pageBusy p, cause := .none })).rejoined p
  else s1

/-- ENABLE = 0 (R71): the unit drains, and MODE does not wait for the core. -/
def State.enableOff (s : State) (p : Nat) : State :=
  let busy := s.pageBusy p
  (s.modPage p (fun x => { x with
    enable := false, draining := x.draining || (busy && (x.state == .idle || x.state == .running)) })).left p

/-- ENABLE = 1 (R71). -/
def State.enableOn (s : State) (p : Nat) : State :=
  let g := s.page p
  if g.enable then s
  else
    let s1 := s.modPage p (fun x => { x with enable := true, draining := x.draining && x.cause != .none })
    match g.state with
    | .idle | .running => s1.rejoined p
    | _ => s1

/-- UNIT_RESET = 1 (R71): only a FENCED unit is reset. -/
def State.unitReset (s : State) (p : Nat) : State :=
  if (s.pageState p) = .fenced then s.beginReset p else s.accessBad p

end Sys2Proof.Machine
end

