-- ==== Sys2Proof/Machine/Boundary.lean ====
section
/-!
DEFINITION. Two rows at whose start a pending commit of their unit hands over (R78): the tempo loop's period and the Placer's
decision.
-/
namespace Sys2Proof.Machine

/-- TEMPO_LOOP_PERIOD (R46 to R49, R78): a pending commit hands over at its start. The loop runs from stage 3 of an attempt,
while LOOP_EN is 1 and the regulator answers. -/
def execTempoLoopPeriod (a : AvsReply) (s : State) : Result :=
  act s fun s =>
    let s := s.boundary 2 0
    if s.tempo.loopStarted ∧ ¬s.tempo.avsLost ∧ fld (s.active 2 0x040) 0 0 = 1 then s.loopPass a else s

/-- JOB_PLACE (R78, R182 to R191, R219): a pending commit of the Placer hands over, and a ready job is placed, fails for want
of a core or a home, or waits. `p` is what the job's headers say of its picture. -/
def execJobPlace (job : Nat) (p : PlacePlan) (s : State) : Result :=
  act s fun s =>
   let s := s.boundary 5 0
   if !s.takes 5 then s
   else
    let s0 := match (s.job job).bind Job.stream with
      | some n => s.letInAll job n
      | none => s
    match s0.job job with
    | none => s0
    | some x =>
      if !s0.placeReady job x ∨ !s0.oldestReady job x then s0
      else
        match x.stream with
        | none => s0.placeOne job x
        | some n =>
          if (s0.stream n).homeless then s0.failFinal job 0x40 (faultDetail 0xFF 4 x.attempts 0)
          else if x.opcode = 0x50 then
            (match s0.streamCheck x n with
            | some e => s0.refuse job e
            | none => s0.placeOne job x)
          else if x.opcode = 0x21 then s0.placeOne job x
          else s0.placeFrame job x n p

end Sys2Proof.Machine
end

