-- ==== Sys2Proof/Machine/DmaCmds.lean ====
section
/-!
DEFINITION. The commands and events of the DMA channels (R447 to R464).
-/
namespace Sys2Proof.Machine

/-- A driver command to channel c: discarded with ACCESS_BAD on a channel that belongs to the pilot (R451). -/
def chanCmd (c : Nat) (s : State) (f : State → State) : Result :=
  if 256 ≤ c then .next s
  else hostCmd (chanPage c) s fun s => if s.chanHost c then f s else s.accessBad (chanPage c)

/-- The address in START_HI:START_LO. -/
def State.startAddr (s : State) (c : Nat) : Nat :=
  (s.reg (chanPage c) (chanReg c 0x10)).toNat * 2 ^ 32 + (s.reg (chanPage c) (chanReg c 0x0C)).toNat

/-- DMA_START (R451). -/
def execDmaStart (c : Nat) (s : State) : Result :=
  chanCmd c s fun s =>
    match (s.chan c).state with
    | .idle | .armed | .ended => if s.takes (chanPage c) then s.chanRun c (s.startAddr c) else s.accessBad (chanPage c)
    | _ => s.accessBad (chanPage c)

/-- DMA_APPEND (R454, R464): a held channel fetches its descriptor again; behind END_SEEN the last descriptor is reread;
anywhere else the doorbell is ignored. -/
def execDmaAppend (c : Nat) (s : State) : Result :=
  chanCmd c s fun s =>
    let x := s.chan c
    match x.state with
    | .held => (s.modChan c (fun y => { y with state := .running, refetch := false })).fetchDesc c x.curDesc
    | .running =>
      if x.endSeen ∧ (x.desc.isSome ∨ x.refetch) then s.modChan c (fun y => { y with appendMark := true }) else s
    | .ended =>
      if x.endSeen ∧ x.error = 0 then
        (s.modChan c (fun y => { y with
          state := .running, refetch := true, quiet := true, appendMark := false })).fetchDesc c x.curDesc
      else s
    | _ => s

/-- DMA_STOP (R452). -/
def execDmaStop (c : Nat) (s : State) : Result :=
  chanCmd c s fun s => s.chanStop c

/-- DMA_TRIGGER (R459): the TRIGGER command counts as one trigger; a channel that takes none discards it (log entry 23). -/
def execDmaTrigger (c : Nat) (s : State) : Result :=
  chanCmd c s fun s => if s.chanTrig c = 0 then s.accessBad (chanPage c) else s.trigger c

/-- A fetched descriptor that must wait for the running one, or begins at once (R448). -/
def State.takeFetch (s : State) (c addr : Nat) (l : List Byte) : State :=
  let d := parseDesc addr l
  let ok := addr % 64 == 0 && s.descFormat c d l
  if (s.chan c).desc.isSome ∧ ok then s.modChan c (fun y => { y with fetching := none, ahead := some d })
  else if (s.chan c).desc.isSome then s
  else (s.modChan c (fun y => { y with fetching := none })).beginDesc c d ok

/-- The reread of R464 consults only END and NEXT. A doorbell that came meanwhile rereads once more, and a channel that was ENDED
stays ENDED: no second run completes. -/
def State.takeRefetch (s : State) (c : Nat) (d : Desc) : State :=
  if d.isEnd then
    if (s.chan c).appendMark then (s.modChan c (fun y => { y with appendMark := false })).fetchDesc c d.addr
    else if (s.chan c).quiet then s.modChan c (fun y => { y with state := .ended, refetch := false, quiet := false, fetching := none })
    else (s.modChan c (fun y => { y with refetch := false })).runEnd c
  else (s.modChan c (fun y => { y with refetch := false, fetching := none, endSeen := false })).fetchDesc c d.next

/-- The job of a pilot's channel whose transfer ended on an error (R453): a frozen controller's memory error counts as a
fault of the freeze (R417), and any other ends the job with ERR_MEMORY. `s0` is the state before the error. -/
def State.pilotError (s0 s : State) (c : Nat) : State :=
  let x := s.chan c
  match x.job with
  | some j =>
    if x.state = .ended ∧ x.error ≠ 0 ∧ x.error ≠ 7 ∧ !s.chanHost c then
      let a := match (s0.chan c).desc with
        | some d => devOf (if x.error = 3 then d.src + (s0.chan c).rd else d.dst + (s0.chan c).wr)
        | none => 0
      let k := offsetDch (a / 2 ^ 35) (a % 2 ^ 35)
      let s1 := s.modChan c (fun y => { y with job := none })
      if (x.error = 3 ∨ x.error = 4) ∧ (s.page (dchPage k)).state = .frozen ∧ a / 2 ^ 35 < 4 then
        s1.refault j (97 + 8 * k) true 0
      else
        match s1.job j with
        | some y => s1.failFinal j 0x42 (faultDetail 0xFF 2 y.attempts 0xFF)
        | none => s1
    else s
  | none => s

/-- A failed descriptor read stops the channel (R100, R453); a fetch ahead is dropped while its predecessor still runs. -/
def State.fetchFail (s : State) (c : Nat) : State :=
  let host := !isDev ((s.chan c).fetching.getD 0)
  let s1 := if (s.chan c).desc.isSome then s else s.chanError c 1
  if host then s1.fault 8 0xFFFF (s.chan c).job 0 else s1

/-- An access of channel c's pilot lies outside every window of its job (R211, R212); the host's channels have none. -/
def State.chanOutside (s : State) (c t n : Nat) : Option Nat :=
  if s.chanHost c then none
  else
    match (s.chan c).job with
    | none => none
    | some j =>
      match s.job j with
      | some x => if s.inWindows j x t n then none else some j
      | none => none

/-- DESCRIPTOR_FETCH (R448, R453): a descriptor read returns. It waits while host memory cannot be reached. `host` is the
host's answer. A pilot's descriptor outside the windows of its job reads as zeros (R212). -/
def execDescriptorFetch (c : Nat) (host : Option (List Byte)) (s : State) : Result :=
  act s fun s =>
    match (s.chan c).state, (s.chan c).fetching with
    | .running, some a =>
      if !isDev a ∧ (!s.hostReach ∨ !s.onLink (.desc c)) then s
      else
        let out := s.chanOutside c a 64
        let s := match out with
          | some j => s.fault 66 (c / 4) (some j) 0
          | none => s
        (s.pilotError (match (if out.isSome then some (List.replicate 64 0) else s.readTagged a 64 host) with
        | none => s.fetchFail c
        | some l => if (s.chan c).refetch then s.takeRefetch c (parseDesc a l) else s.takeFetch c a l) c).readDone
    | _, _ => s

/-- The descriptor of channel c moves bytes between two addresses, or writes a pattern. -/
def State.chanBytes (d : Desc) (i n : Nat) : List Byte :=
  (List.range n).map (fun k => BitVec.ofNat 8 (bits d.src (8 * ((i + k) % 4) + 7) (8 * ((i + k) % 4))))

/-- The piece that the channel's alignment mode gives (R460, R461). -/
def State.chanPiece (s : State) (c : Nat) (d : Desc) (x n : Nat) : Nat :=
  if bit (s.chanCfg c) 8 ∧ d.op = 0 then roundPiece x n else funnelPiece x n

/-- What the channel can issue next. -/
inductive Beat | write (n : Nat) | read (n : Nat) | item | idle
  deriving DecidableEq, Repr

/-- The beat that channel c would issue now (R460, R462): a write piece that the funnel buffer covers, or a read piece that
fits its 128 bytes. -/
def State.nextBeat (s : State) (c : Nat) : Beat :=
  let x := s.chan c
  match x.state, x.desc with
  | .running, some d =>
    if (d.op = 3 ∨ d.op = 2) ∧ x.item = [] then .item
    else if d.op = 2 then .idle
    else if d.op = 4 then
      (if x.waitCell ∨ x.wr = x.total then .idle
       else if x.rd < x.total then .read (s.chanPiece c d (d.src + x.rd) (x.total - x.rd)) else .idle)
    else if x.wr = x.total then .idle
    else
      let w := s.chanPiece c d (d.dst + x.wr) (x.total - x.wr)
      if d.op = 1 ∨ w ≤ x.buf.length then .write w
      else if d.op = 0 ∧ x.rd < x.total then
        let r := s.chanPiece c d (d.src + x.rd) (x.total - x.rd)
        if x.buf.length + r ≤ 128 then .read r else .idle
      else .idle
  | _, _ => .idle

/-- A beat reaches host memory. -/
def State.beatHost (s : State) (c : Nat) (b : Beat) : Bool :=
  match (s.chan c).desc, b with
  | some d, .write _ => !isDev d.dst
  | some d, .read _ => !isDev d.src
  | some d, .item => d.op == 2 && !isDev d.dst
  | _, _ => false

/-- The channel is ready to issue (R453, R462): host accesses wait for D0 and BME. -/
def State.beatReady (s : State) (c : Nat) : Bool :=
  match s.nextBeat c with
  | .idle => false
  | b => !s.beatHost c b || s.hostReach

/-- HALF once the first ceil(N / 2) bytes are written (R455). -/
def State.halfMark (s : State) (c : Nat) (d : Desc) : State :=
  let x := s.chan c
  if !x.halfDone ∧ d.half ∧ (x.total + 1) / 2 ≤ x.wr then
    (s.modChan c (fun y => { y with halfDone := true })).chanEvt c 0
  else s

/-- After the last read of a descriptor its successor is fetched (R448). -/
def State.prefetch (s : State) (c : Nat) (d : Desc) : State :=
  let x := s.chan c
  let lastRead := match d.op with
    | 0 => decide (x.rd = x.total)
    | _ => true
  if lastRead && !d.isEnd && x.fetching.isNone && x.ahead.isNone && !(s.chanStep c && decide (s.chanTrig c ≠ 0)) then
    s.fetchDesc c d.next
  else s

/-- A source read of n bytes lands in the funnel buffer; of CLQ_OUT it goes straight into the open packet. A pilot's
read outside the windows of its job returns zeros and raises CORE_ADDR_BOUND (R212). -/
def State.beatRead (s : State) (c : Nat) (d : Desc) (n : Nat) (host : Option (List Byte)) : State :=
  match s.chanOutside c (d.src + (s.chan c).rd) n with
  | some j =>
    (s.modChan c (fun y => { y with rd := y.rd + n, buf := y.buf ++ List.replicate n 0 })).fault 66 (c / 4) (some j) 0
  | none =>
  match s.readTagged (d.src + (s.chan c).rd) n host with
  | none =>
    if isDev (d.src + (s.chan c).rd) then s.chanError c 3
    else (s.chanError c 3).fault 8 0xFFFF (s.chan c).job 0
  | some l =>
    let s1 := s.modChan c (fun y => { y with rd := y.rd + n })
    if d.op = 4 then
      let q := d.clq
      let mine := match (s1.clq q).opened with
        | some o => o.who == Producer.qdma (c - 192)
        | none => false
      let last := decide ((s.chan c).rd + n = (s.chan c).total)
      let cr : Crust := { typ := .data, lastRef := false, key := d.ctrl.getLsbD 18, auEnd := d.ctrl.getLsbD 17,
                          auStart := d.ctrl.getLsbD 16, tag := d.tag }
      let upd := fun (o : OpenPkt) => { o with left := o.left ++ l, closing := o.closing || last }
      if mine then
        let s2 := (s1.modClq q (fun k => { k with opened := k.opened.map upd })).pump q
        s2.modChan c (fun y => { y with
          waitCell := match (s2.clq q).opened with
            | some o => o.waitFrom.isSome && o.who == Producer.qdma (c - 192)
            | none => false })
      else if (s1.clq q).waiting.any (fun (o : OpenPkt) => o.who == Producer.qdma (c - 192)) then
        s1.modClq q (fun k => { k with
          waiting := k.waiting.map (fun (o : OpenPkt) => if o.who = Producer.qdma (c - 192) then upd o else o) })
      else
        let o : OpenPkt := { who := .qdma (c - 192), pkt := { crust := cr }, left := l, closing := last }
        if (s1.clq q).opened.isSome then (s1.waitOpen q o).modChan c (fun y => { y with waitCell := true })
        else s1.reserve q o
    else (s1.modChan c (fun y => { y with buf := y.buf ++ l })).prefetch c d

/-- A destination write of n bytes; a pilot's outside the windows of its job is dropped (R212). -/
def State.beatWrite (s : State) (c : Nat) (d : Desc) (n : Nat) : State :=
  let x := s.chan c
  let t := d.dst + x.wr
  let l := if d.op = 1 then State.chanBytes d x.wr n else x.buf.take n
  let on := fun (u : State) =>
    ((u.modChan c (fun y => { y with wr := y.wr + n, buf := if d.op = 1 then y.buf else y.buf.drop n })).halfMark c d).prefetch c d
  match s.chanOutside c t n with
  | some j => on (s.boundBlock (c / 4) j)
  | none => if s.writeTagOk t n then on (s.writeTagged t l) else s.chanError c 4

/-- CLQ_IN takes one item of its queue; what does not fit LENGTH is read and dropped (R458). -/
def State.beatItem (s : State) (c : Nat) (d : Desc) : State :=
  let s1 := s.readClq d.clq (2 ^ 24 + 8)
  let l := s1.qm.item
  s1.modChan c (fun y => { y with
    item := l, total := min l.length d.len, truncated := decide (d.len < l.length), buf := l.take d.len })

/-- The slot that a FRAME descriptor's surface code names for the job of the channel (R248). -/
def State.frameSlot (s : State) (c code : Nat) : Option (Stream × Nat) :=
  match ((s.chan c).job).bind s.job with
  | none => none
  | some x =>
    match x.stream with
    | none => none
    | some n =>
      let st := s.stream n
      if code < st.poolSlots then some (st, code) else if code = 0x22 then x.slot.map (fun k => (st, k)) else none

/-- FRAME (R447, R165): the frame-format unit writes the whole picture of a slot in one beat. -/
def State.beatFrame (s : State) (c : Nat) (d : Desc) : State :=
  match s.frameSlot c (bits d.src 7 0), fmtOf (bits d.src 15 8) with
  | some (st, k), some f =>
    let g := st.slotGeom k
    if !fmtFits f g.chroma ∨ !pitchOk f (devOf d.dst) d.pitch g.w then s.chanError c 2
    else if !g.headersOk s.mem then (s.chanError c 3).fault 75 (c / 4) (s.chan c).job 0
    else
      let l := g.runs s.mem f d.pitch
      let n := (l.map (fun r => r.2.length)).sum
      let inside := l.filter (fun r => (s.chanOutside c (d.dst + r.1) r.2.length).isNone)
      let s1 := match l.findSome? (fun r => s.chanOutside c (d.dst + r.1) r.2.length) with
        | some j => s.boundBlock (c / 4) j
        | none => s
      if s.runsOk d.dst inside then
        ((s1.writeRuns d.dst inside).modChan c (fun y => { y with item := [0], total := n, wr := n })).halfMark c d
      else s1.chanError c 4
  | _, _ => s.chanError c 2

/-- The page's channels, highest priority first and after the last one served (R462). -/
def State.chooseChan (s : State) (page : Nat) (cs : List Nat) : Option Nat :=
  let last := mgetD s.dma.lastServed page 255
  let after := cs.filter (fun c => decide (last < c)) ++ cs.filter (fun c => decide (c ≤ last))
  after.foldl (fun (o : Option Nat) c =>
    if !s.beatReady c then o
    else
      match o with
      | none => some c
      | some b => if bits (s.chanCfg b) 1 0 < bits (s.chanCfg c) 1 0 then some c else some b) none

/-- DMA_BEAT (R462): the engine of one CDMA or QDMA page serves one beat. `host` answers a read of host memory. -/
def execDmaBeat (page : Nat) (host : Option (List Byte)) (s : State) : Result :=
  act s fun s =>
    let cs := match pageKind page with
      | some .cdma => (List.range 4).map (fun g => 4 * pageInstance page + g)
      | some .qdma => (List.range 16).map (fun g => 192 + 16 * pageInstance page + g)
      | _ => []
    match s.chooseChan page cs with
    | none => s
    | some c =>
      let s1 := { s with dma := { s.dma with lastServed := mset s.dma.lastServed page c } }
      s1.pilotError (match (s1.chan c).desc, s1.nextBeat c with
      | some d, .read n => s1.beatRead c d n host
      | some d, .write n => s1.beatWrite c d n
      | some d, .item => if d.op = 2 then s1.beatFrame c d else s1.beatItem c d
      | _, _ => s1) c

/-- DESCRIPTOR_DONE (R455, R456): every write is acknowledged; STATUS goes out before FULL is raised, the buffer is
released and the channel goes on. A STATUS in host memory waits for D0 and BME (R104). -/
def execDescriptorDone (c : Nat) (s : State) : Result :=
  act s fun s =>
    let x := s.chan c
    match x.state, x.desc with
    | .running, some d =>
      if d.wb ∧ !isDev d.addr ∧ !s.hostReach then s
      else if x.wr = x.total ∧ !((d.op = 3 ∨ d.op = 2) ∧ x.item = []) then
        let s0 := s.halfMark c d
        let s1 := match d.wb, s0.chanOutside c (d.addr + 48) 4 with
          | true, none => s0.writeTagged (d.addr + 48) (leBytes 4 (statusWord x.truncated 0 x.wr))
          | true, some j => s0.boundBlock (c / 4) j
          | false, _ => s0
        let s2 := if d.full then s1.chanEvt c 1 else s1
        let s3 := (s2.dropDma c).modChan c (fun y => { y with descCount := (y.descCount + 1) % 256, buf := [] })
        s3.nextDesc c d
      else s
    | _, _ => s

end Sys2Proof.Machine
end

