-- ==== Sys2Proof/Machine/Dram.lean ====
section
/-!
DEFINITION. The events and commands of the memory controllers (R396 to R419).
-/
namespace Sys2Proof.Machine

/-- An event of controller k. -/
def dchAct (k : Nat) (s : State) (f : State → State) : Result := act s (fun s => if k < 12 then f s else s)

/-- A driver command to controller k. -/
def dchCmd (k : Nat) (s : State) (f : State → State) : Result :=
  if k < 12 then hostCmd (dchPage k) s f else .next s

/-- The groups of a controller that hand over at a command slot: 0, and 3 outside self-refresh entry and exit (R407). -/
def State.slotBoundary (s : State) (k : Nat) : State :=
  let t := s.boundary (dchPage k) 0
  if t.atBoundary (dchPage k) 3 then t.boundary (dchPage k) 3 else t

/-- DCH_COMMAND_SLOT (R30, R398 to R400, R404 to R409): requests that arrived join the queue, and the best ready, permitted one
issues. An access that finds another row open activates its own. `met` says which banks are busy and what error correction found in the access. -/
def execDchCommandSlot (k : Nat) (arrive : List DchReq) (met : SlotMet) (s : State) : Result :=
  dchAct k s fun s =>
    let s := s.slotBoundary k
    if !s.dchUp k then s
    else
      let s1 := s.modDch k (fun d => { d with reqs := d.reqs ++ arrive, ops := [] })
      if (s1.dch k).sr ≠ .active then s1
      else
        match s1.choose k met.busy with
        | none => s1
        | some r =>
          let l := s1.locate r.addr
          let s2 := (s1.modDch k (fun d => { d with reqs := d.reqs.erase r })).takeTokens k r.port
          ((if s1.rowHit k r then s2 else s2.activateRow k l r.port).eccAccess k r).eccFound k r.addr met.ecc

/-- AGE_PROMOTE (R404): every request that has waited longer than AGE_LIMIT becomes C0. -/
def execAgePromote (k : Nat) (s : State) : Result :=
  dchAct k s fun s =>
    let lim := 10 * fld (s.active (dchPage k) 0x040) 15 0
    s.modDch k (fun d => { d with
      reqs := d.reqs.map (fun r => if r.arrival + lim < s.time.ns then { r with promoted := true } else r) })

/-- REGULATOR_REFILL (R78, R406): group 1 hands over, and each port bucket gains RATE × 100 ns bytes, up to BURST. -/
def execRegulatorRefill (k : Nat) (s : State) : Result :=
  dchAct k s fun s =>
    let s := s.boundary (dchPage k) 1
    (List.range 16).foldl (fun t p =>
      match t.portLimit k p with
      | none => t
      | some r => t.modDch k (fun d => { d with
          tokens := mset d.tokens p (min (mgetD d.tokens p 0 + 10 * (r : Int)) (t.portBurst k p : Int)) })) s

/-- THROTTLE_END (R410). -/
def execThrottleEnd (k port : Nat) (s : State) : Result :=
  dchAct k s fun s =>
    (s.modDch k (fun d => { d with
      throttled := if bit d.throttled port then d.throttled - 2 ^ port else d.throttled })).throttleCond k

/-- REFRESH_WINDOW (R407, R408): group 2 hands over, and every activation count clears. -/
def execRefreshWindow (k : Nat) (s : State) : Result :=
  dchAct k s fun s => (s.boundary (dchPage k) 2).modDch k (fun d => { d with acts := [], window := d.window + 1 })

/-- REFRESH (R411): a per-bank refresh, in every state but the sealed one. The bank's row closes. -/
def execRefresh (k key : Nat) (s : State) : Result :=
  dchAct k s fun s =>
    s.modDch k (fun d => { d with
      refreshed := mset d.refreshed (key % 64) s.time.ns, rows := mdel d.rows (key % 64), ops := [.refresh (key % 64)] })

/-- Self-refresh entry is allowed: no request waits and the controller is in service (R412). -/
def State.srReady (s : State) (k : Nat) : Bool := (s.dch k).reqs.isEmpty && s.dchUp k

/-- SELF_REFRESH_ENTRY (R412, R413): the idle timer, or the ENTER command, starts the entry; the entry then completes. -/
def execSelfRefreshEntry (k : Nat) (s : State) : Result :=
  dchAct k s fun s =>
    let d := s.dch k
    match d.sr with
    | .active =>
      if s.srReady k ∧ ((s.active (dchPage k) 0x050).getLsbD 31 ∨ d.srAsked) then
        s.modDch k (fun x => { x with sr := .entering, srAsked := false, rows := [] })
      else s
    | .entering =>
      if s.srReady k then
        (s.modDch k (fun x => { x with sr := .selfRefresh })).setCond (dchPage k) 3 true
      else s
    | _ => s

/-- SR_ENTER (R412): the ENTER command, discarded on a fenced or frozen controller. -/
def execSrEnter (k : Nat) (v : Word) (s : State) : Result :=
  dchCmd k s fun s =>
    let s := s.rsv (dchPage k) 1 v
    if !v.getLsbD 0 then s
    else if !s.dchUp k then s.accessBad (dchPage k)
    else if (s.dch k).sr = .active ∧ s.srReady k then
      s.modDch k (fun x => { x with sr := .entering, rows := [] })
    else s.modDch k (fun x => { x with srAsked := true })

/-- SELF_REFRESH_EXIT (R413): a request cancels an entry not yet committed; a controller in self-refresh exits, and then
synchronises WCK. -/
def execSelfRefreshExit (k : Nat) (r : Option DchReq) (s : State) : Result :=
  dchAct k s fun s =>
    let s := match r with
      | some x => if s.dchUp k then s.modDch k (fun d => { d with reqs := d.reqs ++ [x] }) else s
      | none => s
    match (s.dch k).sr with
    | .entering => s.modDch k (fun x => { x with sr := .active })
    | .selfRefresh => (s.modDch k (fun x => { x with sr := .exiting })).setCond (dchPage k) 3 false
    | .exiting => s.modDch k (fun x => { x with sr := .active })
    | .active => s

/-- WCK_TRACKING (R415): one run on a sub-channel; a result the PHY cannot correct raises DCH_TRACK. Tracking pauses in
self-refresh. -/
def execWckTracking (k sub : Nat) (temp : Int) (ok : Bool) (s : State) : Result :=
  dchAct k s fun s =>
    if (s.dch k).sr = .selfRefresh then s
    else
      let s1 := s.modDch k (fun d => { d with tracked := mset d.tracked (sub % 2) (s.time.ns, temp) })
      if ok then s1 else (s1.raiseEvt (dchPage k) 5).fault (100 + 8 * k) k none 0

/-- The lines of a controller's part of the data space (R390, R401). -/
def State.scrubLines (s : State) : Nat := s.addressable / 192

/-- The device address of line n of a scrub pass of controller k; the order is the model's (log entry 104). -/
def scrubAddr (k n : Nat) : Nat := k / 3 * 2 ^ 35 + offsetOf (k % 3) (64 * n)

/-- PATROL_SCRUB (R401): the next line is read through MAINT; its errors are handled as any read's. A pass that has read every
line starts again. -/
def execPatrolScrub (k : Nat) (found : ScrubFound) (s : State) : Result :=
  dchAct k s fun s =>
    if fld (s.active (dchPage k) 0x044) 7 0 = 0 ∨ !s.dchUp k then s
    else
      let a := scrubAddr k (s.dch k).scrub
      let s1 := s.modDch k (fun d => { d with scrub := if d.scrub + 1 < s.scrubLines then d.scrub + 1 else 0, ops := [.read a] })
      match found with
      | .clean => s1
      | .corrected => s1.eccFound k a .single
      | .uncorrectable addr syn word =>
        s1.freezeDch k { source := 1, port := 16, cls := 4, command := 1, syndrome := syn, line := addr / 64 % 2 ^ 32,
                         loc := (s1.locate addr).freezeLoc word, seq := 0 } []

/-- CONTROLLER_FREEZE (R416 to R418): an uncorrectable error of a request, or a parity error on the command path. -/
def execControllerFreeze (k source port cls command syndrome addr word : Nat) (hits : List Nat) (s : State) : Result :=
  dchAct k s fun s =>
    if (s.page (dchPage k)).state = .fenced then s
    else
      let noAddr := decide (command = 6) || decide (command = 7)
      s.freezeDch k
        { source := if source = 2 then 2 else 1, port := port % 32, cls := cls % 8, command := command % 16,
          syndrome := if source = 2 then 0 else syndrome % 256, line := if noAddr then 0 else addr / 64 % 2 ^ 32,
          loc := if noAddr then 0 else (s.locate addr).freezeLoc (word % 8), seq := 0 } hits

/-- FREEZE_ACK (R88, R418). -/
def execFreezeAck (k : Nat) (seq : BitVec 8) (s : State) : Result :=
  dchCmd k s fun s =>
    match (s.dch k).freeze with
    | some c => if c.seq = seq.toNat then s.modDch k (fun d => { d with freeze := none }) else s.accessBad (dchPage k)
    | none => s.accessBad (dchPage k)

/-- DCH_RESET (R419): only from FROZEN, and only once the capture is consumed. -/
def execDchReset (k : Nat) (v : Word) (s : State) : Result :=
  dchCmd k s fun s =>
    let s := s.rsv (dchPage k) 1 v
    if !v.getLsbD 0 then s
    else if (s.page (dchPage k)).state = .frozen ∧ (s.dch k).freeze = none then
      ((s.modDch k (fun d => { d with reqs := [], freezeExtra := 0 })).modPage (dchPage k)
        (fun g => { g with state := .fenced, cause := .fault })).setCond (dchPage k) 2 false
    else s.accessBad (dchPage k)

/-- REGION_INIT_DONE (R396): the zero fill of a remapped region has ended. -/
def execRegionInitDone (q i : Nat) (s : State) : Result :=
  act s fun s =>
    let g := mgetD s.quads q {}
    let done := g.init.filter (fun r => r.1 == i)
    { done.foldl (fun t r => t.eccZero (q * 2 ^ 35 + r.2.1) r.2.2) s with
      mem := done.foldl (fun m r => zeroRun m (q * 2 ^ 35 + r.2.1) r.2.2) s.mem
      quads := mset s.quads q { g with init := g.init.filter (fun r => r.1 != i) } }

end Sys2Proof.Machine
end

