-- ==== Sys2Proof/Machine/FlowOps.lean ====
section
/-!
DEFINITION. The flow table and its commands' checks, the binding of flows to streams, and the fields of a flow entry (R491 to
R497).
-/
namespace Sys2Proof.Machine

/-! ### Fields of a flow entry (R493) -/

/-- n bytes from byte a of an entry, 48 ≤ a. -/
def dataAt (d : List Byte) (a n : Nat) : Nat := leNat ((d.drop (a - 48)).take n)

/-- DEPACK. -/
def Flow.depack (f : Flow) : Nat := dataAt f.data 48 1 / 16
/-- ACTION. -/
def Flow.action (f : Flow) : Nat := dataAt f.data 48 1 % 16
/-- A bit of FLAGS. -/
def Flow.flag (f : Flow) (b : Nat) : Bool := bit (dataAt f.data 49 1) b
/-- METER, none for 0xFFFF. -/
def Flow.meterNo (f : Flow) : Option Nat := let m := dataAt f.data 50 2; if m = 65535 then none else some m
/-- PAIR_GROUP, none for 0xFFFF. -/
def Flow.group (f : Flow) : Option Nat := let m := dataAt f.data 52 2; if m = 65535 then none else some m
/-- TARGET. -/
def Flow.target (f : Flow) : Nat := dataAt f.data 56 2
/-- CLQ. -/
def Flow.clq (f : Flow) : Nat := dataAt f.data 58 2
/-- PID. -/
def Flow.pid (f : Flow) : Nat := dataAt f.data 60 2 % 8192
/-- PT. -/
def Flow.pt (f : Flow) : Nat := dataAt f.data 62 1
/-- The flow fills a Caldera queue for a stream. -/
def Flow.feeds (f : Flow) : Bool := f.action == 2 || f.action == 3

/-! ### Lookup (R491, R492) -/

/-- The four entries of the bucket of a hash in a bank. -/
def bucket (bank h : Nat) : List Nat :=
  let b := if bank = 0 then bits h 11 0 else bits h 23 12
  (List.range 4).map (fun w => 16384 * bank + 4 * b + w)

/-- The entry that holds a key (R491, R492). -/
def State.findFlow (s : State) (key : List Byte) : Option Nat :=
  let h := crc32c key
  (bucket 0 h ++ bucket 1 h).find? (fun i => match s.flow i with
    | some f => f.key == key
    | none => false)

/-- How the table classifies a UDP datagram (R492). -/
inductive Found2
  | none
  | flow (i : Nat)
  | miss (i : Nat)
  deriving DecidableEq, Repr

/-- The lookup with its second probe (R492). -/
def State.lookup (s : State) (key pay : List Byte) : Found2 :=
  match s.findFlow key with
  | none => .none
  | some i =>
    match s.flow i with
    | none => .none
    | some f =>
      if f.flag 3 ∧ 12 ≤ pay.length ∧ byteAt pay 0 / 64 = 2 then
        match s.findFlow (ssrcKey key ((pay.drop 8).take 4)) with
        | some j => .flow j
        | none => .miss i
      else .flow i

/-! ### The commands' checks (R490, R493, R495) -/

/-- The key is canonical, its RSV bytes are 0 and PROTOCOL is 17 (R490). -/
def keyOk (k : List Byte) : Bool :=
  let lo := (k.drop 8).take 16 ++ (k.drop 40).take 2
  let hi := (k.drop 24).take 16 ++ (k.drop 42).take 2
  let v4 := fun (a : List Byte) => a.take 12 == List.replicate 10 0 ++ [255, 255]
  k.length == 48 && decide (leNat (k.take 2) < 4096) && decide (leNat ((k.drop 2).take 2) < 4096) && byteAt k 4 == 17 &&
  decide (byteAt k 5 < 4) && leNat ((k.drop 6).take 2) == 0 && decide (beNat lo ≤ beNat hi) &&
  (bit (byteAt k 5) 0 || (v4 lo && v4 hi)) && (bit (byteAt k 5) 1 || beAt k 44 4 == 0)

/-- Bytes 48 to 79 hold fields in their ranges, apart from what the stream decides (R493, R495 to R497). -/
def dataOk (d : List Byte) : Bool :=
  let f : Flow := { key := [], data := d }
  decide (f.action ≤ 4) && decide (f.depack ≤ 5) && dataAt d 49 1 / 16 == 0 &&
  (dataAt d 50 2 == 65535 || decide (dataAt d 50 2 < 4096)) &&
  (dataAt d 52 2 == 65535 || (decide (dataAt d 52 2 < 2048) && [1, 2, 4, 5].contains f.depack)) &&
  decide (dataAt d 54 2 ≤ 16000) && dataAt d 60 2 / 8192 == 0 && dataAt d 63 1 == 0 &&
  (match f.action with
   | 2 | 3 => decide (1 ≤ f.depack) && decide (f.depack ≤ 4) && decide (f.clq < 4096) && decide (f.target < 1024) &&
       (fmtOf (dataAt d 64 1)).isSome &&
       (decide (dataAt d 65 1 < 16) || dataAt d 65 1 == 255) && dataAt d 66 2 == 0 && dataAt d 76 4 == 0
   | 4 => f.depack == 5 && decide (f.target < 4) && dataAt d 72 8 == 0
   | _ => true)

/-- The other flows that share a pair group. -/
def State.groupFlows (s : State) (g i : Nat) : List (Nat × Flow) :=
  s.net.flows.filter (fun x => x.1 != i && x.2.group == some g)

/-- The pair partner of entry i. -/
def State.partner (s : State) (i : Nat) (f : Flow) : Option Nat :=
  match f.group with
  | some g => ((s.groupFlows g i).map Prod.fst).head?
  | none => none

/-- The queue and the stream of a DECODE or MIRROR flow fit (R493): WRONG_QUEUE otherwise. -/
def State.queueFits (s : State) (i : Nat) (f : Flow) : Bool :=
  let c := s.clq f.clq
  let t := s.stream f.target
  c.enabled && c.cfg.producer == 2 && c.cfg.consumer == 2 && t.state == .opened && !t.encode &&
  t.queue == c.cfg.consumerId &&
  s.net.flows.all (fun x => x.1 == i || !x.2.feeds || x.2.clq != f.clq || s.partner i f == some x.1)

/-- The codec of the stream fits DEPACK (R495). -/
def State.codecFits (s : State) (f : Flow) : Bool :=
  let c := codecOf (s.stream f.target).persId
  match f.depack with
  | 1 => c == 1
  | 2 => c == 2
  | _ => c == 1 || c == 2 || c == 5

/-- A raw descriptor as it reads (R508). -/
def rawOf (l : List Byte) : RawDepack :=
  let f := fun a n => leNat ((l.drop a).take n)
  { base := f 0 8, stride := f 8 4, count := f 12 2, pitch := f 14 2, width := f 16 2, height := f 18 2, rowAddr := f 24 8 }

/-- The raw descriptor is valid (R508). -/
def rawOk (l : List Byte) : Bool :=
  let r := rawOf l
  isDev r.base && tagOk r.base && r.base % 64 == 0 && r.stride % 64 == 0 &&
  decide (2 * r.pitch * r.height + 64 ≤ r.stride) && decide (2 ≤ r.count) && decide (r.count ≤ 16) && r.pitch % 64 == 0 &&
  decide (2 * r.width ≤ r.pitch) && decide (16 ≤ r.width) && decide (r.width ≤ 3840) && r.width % 2 == 0 &&
  decide (16 ≤ r.height) && decide (r.height ≤ 2160) && isDev r.rowAddr && tagOk r.rowAddr && r.rowAddr % 8 == 0 &&
  ((l.drop 20).take 4).all (· == 0) && ((l.drop 32).take 32).all (· == 0)

/-- No other flow but the pair partner names the raw depacketizer (R493). -/
def State.rawFree (s : State) (i : Nat) (f : Flow) : Bool :=
  s.net.flows.all (fun x => x.1 == i || x.2.action != 4 || x.2.target != f.target || s.partner i f == some x.1)

/-- What the rules of R495 answer for an entry at index i, 0 for none. `desc` is the raw descriptor
as it was read; `kept` says that the entry keeps the depacketizer it has. -/
def State.entryCheck (s : State) (i : Nat) (f : Flow) (desc : Option (List Byte)) (kept : Bool) : Nat :=
  if !dataOk f.data then 0x14
  else if f.feeds ∧ !s.queueFits i f then 0x15
  else if f.feeds ∧ !s.codecFits f then 0x14
  else
    let pair := match f.group with
      | none => 0
      | some g =>
        match s.groupFlows g i with
        | [] => 0
        | [(_, x)] =>
          if x.action ≠ f.action ∨ x.depack ≠ f.depack ∨ x.target ≠ f.target ∨ (f.feeds ∧ x.clq ≠ f.clq) ∨
              dataAt x.data 54 2 ≠ dataAt f.data 54 2 then 0x17
          else 0
        | _ => 0x16
    if pair ≠ 0 then pair
    else if f.action = 4 ∧ !kept ∧ (!s.rawFree i f ∨ !((desc.map rawOk).getD false)) then 0x18
    else 0

/-! ### Binding (R37, R494, R497) -/

/-- Clears what a merge holds and gives its cells back. -/
def State.dropMerge (s : State) (g : Nat) : State :=
  let m := mgetD s.net.merges g {}
  let s1 := m.held.foldl (fun (t : State) h =>
    match t.flow h.flow with
    | some f => if f.feeds then t.modClq f.clq (fun c => { c with merge := c.merge - cellsOf h.pay.length }) else t
    | none => t) s
  ({ s1 with net := { s1.net with merges := mdel s1.net.merges g } }).cellEvents

/-- A flow takes its stream, its place in its pair group or its raw depacketizer (R493, R497, R502). -/
def State.bindFlow (s : State) (i : Nat) (f : Flow) (desc : Option (List Byte)) : State :=
  let s1 := match f.group with
    | some g => s.dropMerge g
    | none => s
  if f.feeds then
    if (s.partner i f).isSome then s1
    else
      let c := s1.clq f.clq
      let src : Source := { clq := f.clq, stream := f.target, queue := c.cfg.consumerId, flow := i,
                            ready := !c.complete.isEmpty, out := f.data.drop 16 }
      { s1 with
          geyser := { s1.geyser with sources := mset s1.geyser.sources f.clq src }
          net := { s1.net with depacks := mset s1.net.depacks f.clq {} } }
  else if f.action = 4 ∧ (mget s1.net.raws f.target).isNone then
    { s1 with net := { s1.net with raws := mset s1.net.raws f.target (rawOf (desc.getD [])) } }
  else s1

/-- What an entry held is released: the unit in assembly is abandoned silently, and the merge loses its place (R494). -/
def State.unbindFlow (s : State) (i : Nat) (f : Flow) : State :=
  let alone := (s.partner i f).isNone
  let s1 := match f.group with
    | some g => s.dropMerge g
    | none => s
  if f.feeds then
    let s2 := { s1 with
      net := { s1.net with depacks := mupd s1.net.depacks f.clq (fun d => { count := d.count, next := d.next, cc := d.cc }) } }
    if alone then
      { s2 with
          geyser := { s2.geyser with sources := mdel s2.geyser.sources f.clq }
          net := { s2.net with depacks := mdel s2.net.depacks f.clq } }
    else s2
  else if f.action = 4 ∧ alone then { s1 with net := { s1.net with raws := mdel s1.net.raws f.target } }
  else s1

/-- A flow command finishes (FLOW_STATUS). -/
def State.flowDone (s : State) (result : Nat) (idx : Option Nat) : State :=
  { s with
      net := { s.net with
      flowResult := result, flowSeq := (s.net.flowSeq + 1) % 256, flowIndex := idx.getD s.net.flowIndex } }

/-- The key in the command registers (FLOW_KEY). -/
def State.cmdKey (s : State) : List Byte := (List.range 12).flatMap (fun j => leBytes 4 (s.reg 14 (0x100 + 4 * j)).toNat)

/-- Bytes 48 to 79 in the command registers (FLOW_DATA); VALID is ignored and reads as the entry's own. -/
def State.cmdData (s : State) : List Byte :=
  let d := (List.range 8).flatMap (fun j => leBytes 4 (s.reg 14 (0x140 + 4 * j)).toNat)
  d.set 1 (BitVec.ofNat 8 (byteAt d 1 / 2 * 2))

/-- The raw descriptor that an entry names, as a read gives it (R508). -/
def State.readDesc (s : State) (d : List Byte) (host : Option (List Byte)) : Option (List Byte) :=
  s.readTagged (dataAt d 64 8) 64 host

/-- The command needs host memory that the device cannot reach: it waits. -/
def State.descWaits (s : State) (d : List Byte) : Bool :=
  let f : Flow := { key := [], data := d }
  f.action == 4 && !isDev (dataAt d 64 8) && !s.hostReach

/-- FLOW_INSERT (R494, R495). `host` is the raw descriptor where it lies in host memory, none for a read that failed. -/
def execFlowInsert (host : Option (List Byte)) (s : State) : Result :=
  hostCmd 14 s fun s =>
    let key := s.cmdKey
    let d := s.cmdData
    let f : Flow := { key := key, data := d }
    let h := crc32c key
    let desc := s.readDesc d host
    let free := (bucket 0 h ++ bucket 1 h).find? (fun i => (s.flow i).isNone)
    if s.descWaits d then s
    else if !keyOk key then s.flowDone 0x13 none
    else if (s.findFlow key).isSome then s.flowDone 0x10 none
    else
      match free with
      | none =>
        let r := s.entryCheck 65536 f desc false
        s.flowDone (if r = 0 then 0x11 else r) none
      | some i =>
        let r := s.entryCheck i f desc false
        if r ≠ 0 then s.flowDone r none
        else
          let s1 := s.bindFlow i f desc
          ({ s1 with net := { s1.net with flows := mset s1.net.flows i f } }).flowDone 0x01 (some i)

/-- FLOW_DELETE (R494). -/
def execFlowDelete (s : State) : Result :=
  hostCmd 14 s fun s =>
    let key := s.cmdKey
    if !keyOk key then s.flowDone 0x13 none
    else
      match s.findFlow key with
      | none => s.flowDone 0x12 none
      | some i =>
        match s.flow i with
        | none => s.flowDone 0x12 none
        | some f =>
          let s1 := s.unbindFlow i f
          ({ s1 with net := { s1.net with flows := mdel s1.net.flows i } }).flowDone 0x01 none

/-- A change that releases what the entry held (R494). -/
def Flow.rebinds (f x : Flow) : Bool :=
  f.action != x.action || f.depack != x.depack || f.target != x.target || f.clq != x.clq || f.group != x.group

/-- FLOW_MODIFY (R494, R495). -/
def execFlowModify (host : Option (List Byte)) (s : State) : Result :=
  hostCmd 14 s fun s =>
    let key := s.cmdKey
    let d := s.cmdData
    let desc := s.readDesc d host
    if s.descWaits d then s
    else if !keyOk key then s.flowDone 0x13 none
    else
      match s.findFlow key with
      | none => s.flowDone 0x12 none
      | some i =>
        match s.flow i with
        | none => s.flowDone 0x12 none
        | some f =>
          let x := { f with data := d }
          let r := s.entryCheck i x desc (!f.rebinds x)
          if r ≠ 0 then s.flowDone r none
          else
            let s1 := if f.rebinds x then (s.unbindFlow i f).bindFlow i x desc
              else if x.feeds then
                { s with
                    geyser := { s.geyser with
                    sources := mupd s.geyser.sources x.clq (fun c => if c.flow = i then { c with out := d.drop 16 } else c) } }
              else s
            ({ s1 with net := { s1.net with flows := mset s1.net.flows i x } }).flowDone 0x01 (some i)

/-- FLOW_LOOKUP (R494). -/
def execFlowLookup (s : State) : Result :=
  hostCmd 14 s fun s =>
    let key := s.cmdKey
    if !keyOk key then s.flowDone 0x13 none
    else
      match s.findFlow key with
      | none => s.flowDone 0x12 none
      | some i => s.flowDone 0x01 (some i)

/-! ### Meters (R499 to R501) -/

/-- Meter m. -/
def State.meter (s : State) (m : Nat) : Meter := mgetD s.net.meters m {}

/-- Changes meter m. -/
def State.modMeter (s : State) (m : Nat) (f : Meter → Meter) : State :=
  { s with net := { s.net with meters := mset s.net.meters m (f (s.meter m)) } }

/-- METER_COMMIT (R501): the meter's configuration bytes become active with full buckets. -/
def execMeterCommit (m : Nat) (s : State) : Result :=
  hostCmd 15 s fun s =>
    let m := m % 4096
    if meterOk (s.meter m).cfg then
      s.modMeter m (fun x =>
        let c := { x with act := x.cfg }
        { c with tc := c.field 1 3 * 65536, te := c.field 12 3 * 65536, last := s.time.ns })
    else s.reject 15 1 0

/-- A frame of l bytes meets meter m, if there is one (R500). -/
def State.runMeter (s : State) (m : Option Nat) (l : Nat) : Colour × Bool × State :=
  match m with
  | none => (.green, true, s)
  | some k =>
    let r := (s.meter k).run s.time.ns l
    (r.1, r.2.passes r.1, s.modMeter k (fun _ => r.2.count r.1))

end Sys2Proof.Machine
end

