-- ==== Sys2Proof/Machine/Depack.lean ====
section
/-!
DEFINITION. The compressed and the raw depacketizers, the slow path and the packets they put into Caldera queues (R498, R503
to R510).
-/
namespace Sys2Proof.Machine

/-- A producer that never waits puts a whole packet into a queue (R426, R428): the state, and whether it was taken. A packet
that a refused cell loses is counted there. -/
def State.produce (s : State) (q : Nat) (who : Producer) (c : Crust) (bytes : List Byte) (times : Option (Nat × Nat)) :
    State × Bool :=
  let x := s.clq q
  if !x.enabled ∨ x.cfg.producer ≠ producerKind who then (s, false)
  else
    let t := s.openTry q { who := who, pkt := { crust := c, times := times }, left := bytes, closing := true }
    (t, (t.clq q).dropped == x.dropped)

/-! ### Counters -/

/-- A frame that the depacketizer refuses (DEPACK_ERRORS), with the port's event. -/
def State.depackError (s : State) (i port : Nat) : State :=
  (s.modFlow i (fun f => { f with errors := (f.errors + 1) % 2 ^ 32 })).raiseEvt (10 + port) 4

/-! ### Access units (R505 to R507) -/

/-- A 4-byte start code and a NAL unit. -/
def startCode (n : List Byte) : List Byte := [0, 0, 0, 1] ++ n

/-- The difference of two w-bit time values as a signed number. -/
def timeStep (w new old : Nat) : Int := signed w ((new + 2 ^ w - old) % 2 ^ w)

/-- Adds whole NAL units to the unit in assembly; one that grows past R506's limit is lost. -/
def Depack.add (d : Depack) (bytes : List Byte) : Depack :=
  if d.tooLong ∨ 16777215 < d.unit.length + bytes.length then { d with tooLong := true } else { d with unit := d.unit ++ bytes }

/-- The unit in assembly ends: it is closed as one packet, or dropped whole (R495, R506). -/
def State.closeUnit (s : State) (i q : Nat) (bytes : List Byte) : State :=
  let d := s.depack q
  let s1 := s.modDepack q (fun d => { d with active := false, unit := [], frag := none, marks := [], tooLong := false })
  let drop := fun (t : State) => t.modFlow i (fun f => { f with dropped := (f.dropped + 1) % 2 ^ 32 })
  match s.flow i with
  | none => s1
  | some f =>
    if d.tooLong ∨ bytes = [] ∨ (s.stream f.target).state ≠ .opened then drop s1
    else
      let pts := narrow 64 d.pts
      let c : Crust := { typ := .data, lastRef := false, key := false, auEnd := true, auStart := true,
                         tag := d.count % 65536 }
      if (s1.clq q).enabled ∧ (s1.clq q).cfg.producer = 2 then (s1.produce q (.depack i) c bytes (some (pts, pts))).1
      else drop s1

/-- Splits an aggregation packet into its NAL units (RFC 6184 STAP-A, RFC 7798 AP); none where the sizes do not fit. -/
def splitAgg : Nat → List Byte → Option (List (List Byte))
  | 0, _ => none
  | fuel + 1, l =>
    if l = [] then some []
    else
      let n := beAt l 0 2
      if l.length < 2 + n ∨ n = 0 then none else (splitAgg fuel (l.drop (2 + n))).map (fun r => (l.drop 2).take n :: r)

/-- What one RTP payload brings: whole NAL units, a fragment with its start and end bits and the NAL header it stands for, or
nothing that R505 accepts. -/
inductive NalPart
  | whole (l : List (List Byte))
  | piece (first last : Bool) (hdr pay : List Byte)
  | refused
  deriving DecidableEq, Repr

/-- Reads the payload format of RFC 6184 (R505). -/
def nalH264 (l : List Byte) : NalPart :=
  let t := byteAt l 0 % 32
  if l = [] then .refused
  else if 1 ≤ t ∧ t ≤ 23 then .whole [l]
  else if t = 24 then
    match splitAgg l.length (l.drop 1) with
    | some (n :: r) => .whole (n :: r)
    | _ => .refused
  else if t = 28 ∧ 2 < l.length then
    let h := byteAt l 1
    .piece (bit h 7) (bit h 6) (leBytes 1 (byteAt l 0 / 32 * 32 + h % 32)) (l.drop 2)
  else .refused

/-- Reads the payload format of RFC 7798 without DONL (R505). -/
def nalHevc (l : List Byte) : NalPart :=
  let t := byteAt l 0 / 2 % 64
  if l.length ≤ 2 then .refused
  else if t < 48 then .whole [l]
  else if t = 48 then
    match splitAgg l.length (l.drop 2) with
    | some (n :: r) => .whole (n :: r)
    | _ => .refused
  else if t = 49 ∧ 3 < l.length then
    let h := byteAt l 2
    .piece (bit h 7) (bit h 6) (leBytes 1 (byteAt l 0 / 128 * 128 + h % 64 * 2 + byteAt l 0 % 2) ++ (l.drop 1).take 1)
      (l.drop 3)
  else .refused

/-- One NAL part joins the unit in assembly (R505, R506): a fragment counts only as part of a run from its start to its
end. -/
def Depack.join (d : Depack) (p : NalPart) : Depack :=
  match p with
  | .refused => d
  | .whole l => { d.add (l.flatMap startCode) with frag := none }
  | .piece first last hdr pay =>
    let got := if first then some (hdr ++ pay) else d.frag.map (· ++ pay)
    match got with
    | none => d
    | some n => if last then { d.add (startCode n) with frag := none } else { d with frag := some n }

/-- An RTP packet of RTP_H264 or RTP_HEVC in sequence order (R505, R506). `lost` says that packets before it are missing. -/
def State.rtpUnit (s : State) (i port : Nat) (f : Flow) (r : Rtp) (lost : Bool) : State :=
  let q := f.clq
  let s0 := if lost then s.modDepack q (fun d => { d with frag := none }) else s
  let part := if f.depack = 1 then nalH264 r.pay else nalHevc r.pay
  if part = .refused then s0.depackError i port
  else
    let d0 := s0.depack q
    let s1 := if d0.active ∧ d0.ts ≠ some r.ts then s0.closeUnit i q d0.unit else s0
    let s2 := s1.modDepack q (fun d =>
      let pts := match d.ts with
        | some t => d.pts + timeStep 32 r.ts t
        | none => (r.ts : Int)
      ({ d with active := true, ts := some r.ts, pts := pts }).join part)
    if r.marker then s2.closeUnit i q (s2.depack q).unit else s2

/-- The offset of the first start code from an offset on; the end where there is none. -/
def codeFrom : Nat → List Byte → Nat → Nat
  | 0, _, a => a
  | fuel + 1, l, a =>
    match l.drop a with
    | 0 :: 0 :: 1 :: _ => a
    | [] => a
    | _ => codeFrom fuel l (a + 1)

/-- The offset of the last start code that lies whole before an offset; 0 where there is none. -/
def codeBefore (l : List Byte) (a : Nat) : Nat :=
  ((List.range (a - 2)).reverse.find? (fun i => (l.drop i).take 3 == [0, 0, 1])).getD 0

/-- Removes the NAL unit that spans each loss, last loss first (R507). -/
def cutLost (l : List Byte) (marks : List Nat) : List Byte :=
  marks.reverse.foldl (fun l m => l.take (codeBefore l m) ++ l.drop (codeFrom l.length l m)) l

/-- The header of a PES packet of a video stream (R507): its length and its PTS; none for another packet. -/
def pesHead (l : List Byte) : Option (Nat × Option Nat) :=
  if l.take 3 ≠ [0, 0, 1] ∨ byteAt l 3 / 16 ≠ 14 ∨ l.length < 9 then none
  else
    let p := fun k => byteAt l (9 + k)
    let pts := p 0 / 2 % 8 * 2 ^ 30 + p 1 * 2 ^ 22 + p 2 / 2 * 2 ^ 15 + p 3 * 2 ^ 7 + p 4 / 2
    some (9 + byteAt l 8, if bit (byteAt l 7) 7 then some pts else none)

/-- The PES packet in assembly ends and leaves its access unit (R507). -/
def State.closePes (s : State) (i q : Nat) : State :=
  let d := s.depack q
  match pesHead d.unit with
  | none => s.modDepack q (fun d => { d with active := false, unit := [], marks := [], tooLong := false })
  | some (h, t) =>
    let es := cutLost (d.unit.drop h) (d.marks.map (fun m => m - h))
    let s1 := s.modDepack q (fun d =>
      match t, d.ts with
      | some n, some o => { d with ts := some n, pts := d.pts + timeStep 33 n o }
      | some n, none => { d with ts := some n, pts := (n : Int) }
      | none, _ => d)
    s1.closeUnit i q (if codeFrom es.length es 0 < es.length then es else [])

/-- A loss at the end of the unit in assembly (R507). -/
def Depack.mark (d : Depack) : Depack :=
  if d.active ∧ d.marks.getLast? ≠ some d.unit.length then { d with marks := d.marks ++ [d.unit.length] } else d

/-- One transport packet of the flow's PID (R507). -/
def State.tsPacket (s : State) (i port : Nat) (f : Flow) (l : List Byte) : State :=
  let q := f.clq
  if beAt l 1 2 % 8192 ≠ f.pid then s
  else if byteAt l 3 / 64 ≠ 0 then s.depackError i port
  else
    let ctl := byteAt l 3 / 16 % 4
    let pay := if ctl = 1 then l.drop 4 else if ctl = 3 then l.drop (5 + byteAt l 4) else []
    let cc := byteAt l 3 % 16
    let old := (s.depack q).cc
    if ctl % 2 = 0 ∨ old = some cc then s
    else
      let lost : Bool := match old with
        | some o => (o + 1) % 16 != cc
        | none => false
      let start := bit (byteAt l 1) 6
      let s1 := s.modDepack q (fun d => { (if lost then d.mark else d) with cc := some cc })
      let s2 := if start ∧ (s1.depack q).active then s1.closePes i q else s1
      if start ∨ (s2.depack q).active then s2.modDepack q (fun d => { d.add pay with active := true }) else s2

/-- Cuts a datagram into its transport packets. -/
def tsSplit : Nat → List Byte → List (List Byte)
  | 0, _ => []
  | n + 1, l => l.take 188 :: tsSplit n (l.drop 188)

/-- A datagram payload of transport packets (R507). -/
def State.tsUnit (s : State) (i port : Nat) (f : Flow) (pay : List Byte) : State :=
  let n := pay.length / 188
  let ps := tsSplit n pay
  if pay.length % 188 ≠ 0 ∨ n = 0 ∨ 7 < n ∨ ps.any (fun p => byteAt p 0 != 0x47) then s.depackError i port
  else ps.foldl (fun t p => t.tsPacket i port f p) s

/-! ### The raw depacketizer (R508 to R510) -/

/-- Samples of a line that lie in a run. -/
def coverRuns : Nat → List (Nat × Nat) → Nat → Nat
  | 0, _, x => x
  | fuel + 1, l, x =>
    match l.find? (fun r => decide (r.1 ≤ x) && decide (x < r.1 + r.2)) with
    | some r => coverRuns fuel l (r.1 + r.2)
    | none => x

/-- Line y of a frame is complete. -/
def RawFrame.full (f : RawFrame) (width y : Nat) : Bool :=
  let l := mgetD f.cover y []
  decide (width ≤ coverRuns (l.length + 1) l 0)

/-- The leading complete lines of a frame (R510). -/
def RawFrame.rows (f : RawFrame) (width height : Nat) : Nat :=
  ((List.range height).find? (fun y => !f.full width y)).getD height

/-- The samples of whole pixel groups of 4:2:2 at 10 bits: Cb, Y, Cr, Y in five bytes (R508). -/
def pgroups : Nat → List Byte → List (Nat × Nat × Nat × Nat)
  | 0, _ => []
  | n + 1, l =>
    let w := beNat (l.take 5)
    (bits w 39 30, bits w 29 20, bits w 19 10, bits w 9 0) :: pgroups n (l.drop 5)

/-- Two bytes of a 10-bit sample in its 16-bit container (R163). -/
def sample16 (x : Nat) : List Byte := leBytes 2 (x * 64)

/-- Writes where the memory takes it; the depacketizer never waits (R509). -/
def State.rawWrite (s : State) (a : Nat) (bs : List Byte) : State := if s.writeRun a bs.length then s.write a bs else s

/-- Device address of buffer k mod COUNT (R509). -/
def RawDepack.buf (r : RawDepack) (k : Nat) : Nat := devOf r.base + k % r.count * r.stride

/-- Changes raw depacketizer d. -/
def State.modRaw (s : State) (d : Nat) (f : RawDepack → RawDepack) : State :=
  { s with net := { s.net with raws := mupd s.net.raws d f } }

/-- Writes the source row word (R510). -/
def State.rowWord (s : State) (r : RawDepack) (k rows : Nat) : State :=
  s.rawWrite (devOf r.rowAddr) (leBytes 8 (k % 2 ^ 32 * 2 ^ 32 + rows))

/-- The row word follows the first frame that has not closed, which may not have begun (R510). -/
def State.announce (s : State) (d : Nat) : State :=
  match mget s.net.raws d with
  | some r =>
    match r.frames with
    | f :: _ => s.rowWord r f.k (f.rows r.width r.height)
    | [] => s.rowWord r r.started 0
  | none => s

/-- Fills one line that misses samples with the line above it, or with 512 (R509). -/
def State.fillLine (s : State) (r : RawDepack) (k y : Nat) : State :=
  let a := r.buf k
  let line := fun (p : Nat) => if y = 0 then (List.range r.width).flatMap (fun _ => sample16 512)
    else memGetAll s.mem (a + p + (y - 1) * r.pitch) (2 * r.width)
  (s.rawWrite (a + y * r.pitch) (line 0)).rawWrite (a + r.pitch * r.height + y * r.pitch) (line (r.pitch * r.height))

/-- Frame k closes (R509, R510). -/
def State.closeRaw (s : State) (d i : Nat) (f : RawFrame) : State :=
  match mget s.net.raws d with
  | none => s
  | some r =>
    let missing := (List.range r.height).filter (fun y => !f.full r.width y)
    let s1 := missing.foldl (fun t y => t.fillLine r f.k y) s
    let rec_ := leBytes 4 f.k ++ leBytes 4 f.ts ++ leBytes 8 f.first ++ leBytes 2 missing.length ++ List.replicate 46 0
    let s2 := s1.rawWrite (r.buf f.k + 2 * r.pitch * r.height) rec_
    let s3 := if missing = [] then s2 else s2.raiseEvt (10 + d / 2) 5
    let first := (r.frames.head?.map RawFrame.k) == some f.k
    let s4 := (if first then s3.rowWord r f.k r.height else s3).modRaw d (fun r => { r with
      frames := r.frames.filter (fun x => x.k != f.k) })
    (s4.modFlow i (fun f => { f with delivered := (f.delivered + 1) % 2 ^ 32 })).announce d

/-- The sample row data headers of a packet: line, offset and length in bytes, with the field bit; none for more than three
(R508). -/
def srdHeads : Nat → List Byte → Option (List (Nat × Nat × Nat × Bool) × List Byte)
  | 0, _ => none
  | fuel + 1, l =>
    if l.length < 6 then none
    else
      let h := (beAt l 2 2 % 32768, beAt l 4 2 % 32768, beAt l 0 2, bit (byteAt l 2) 7)
      if bit (byteAt l 4) 7 then (srdHeads fuel (l.drop 6)).map (fun r => (h :: r.1, r.2)) else some ([h], l.drop 6)

/-- Every segment of a packet fits the picture and its data (R508). -/
def segsOk (r : RawDepack) (hs : List (Nat × Nat × Nat × Bool)) (dat : Nat) : Bool :=
  hs.all (fun h => !h.2.2.2 && h.2.2.1 % 5 == 0 && h.2.1 % 2 == 0 && decide (h.1 < r.height) &&
    decide (h.2.1 + h.2.2.1 / 5 * 2 ≤ r.width)) && decide ((hs.map (fun h => h.2.2.1)).sum ≤ dat)

/-- Places one segment of a line (R509). -/
def State.rawSeg (s : State) (d k : Nat) (r : RawDepack) (y x : Nat) (l : List Byte) : State :=
  let g := pgroups (l.length / 5) l
  let a := r.buf k + y * r.pitch + 2 * x
  let s1 := (s.rawWrite a (g.flatMap (fun p => sample16 p.2.1 ++ sample16 p.2.2.2))).rawWrite (a + r.pitch * r.height)
    (g.flatMap (fun p => sample16 p.1 ++ sample16 p.2.2.1))
  s1.modRaw d (fun r => { r with
    frames := r.frames.map (fun f => if f.k = k then { f with cover := mset f.cover y (mgetD f.cover y [] ++ [(x, 2 * g.length)]) }
      else f) })

/-- The segments of a packet, in order. -/
def State.rawSegs (s : State) (d k : Nat) (r : RawDepack) : List (Nat × Nat × Nat × Bool) → List Byte → State
  | [], _ => s
  | h :: t, l => State.rawSegs (s.rawSeg d k r h.1 h.2.1 (l.take h.2.2.1)) d k r t (l.drop h.2.2.1)

/-- A packet of an ST 2110-20 flow (R508 to R510). -/
def State.rawUnit (s : State) (i port : Nat) (f : Flow) (p : Rtp) : State :=
  let d := f.target
  match mget s.net.raws d, srdHeads 3 (p.pay.drop 2) with
  | some r, some (hs, dat) =>
    if !segsOk r hs dat.length then s.depackError i port
    else
      let newer := match r.lastTs with
        | none => true
        | some t => decide (0 < timeStep 32 p.ts t)
      let s1 := if newer then s.modRaw d (fun r => { r with
          frames := (r.frames.map (fun f => { f with late := true })) ++ [{ k := r.started, ts := p.ts, first := s.time.ns }]
          started := r.started + 1, lastTs := some p.ts }) else s
      match mget s1.net.raws d with
      | none => s1
      | some r1 =>
        match r1.frames.find? (fun x => x.ts == p.ts) with
        | none => s1.depackError i port
        | some x =>
          let s2 := s1.rawSegs d x.k r1 hs dat
          let now := ((mget s2.net.raws d).map RawDepack.frames).getD []
          match now.find? (fun y => y.k == x.k) with
          | some y => if y.rows r.width r.height = r.height then s2.closeRaw d i y else s2.announce d
          | none => s2
  | _, _ => s.depackError i port

/-! ### Frames in sequence (R503 to R505) -/

/-- A frame reaches its depacketizer, in the order that the merge gives or, without one, in arrival order. A compressed RTP
flow compares sequence numbers: a gap is a loss, and a frame that arrives behind is refused. -/
def State.release1 (s : State) (x : MergeFrame) : State :=
  match s.flow x.flow with
  | none => s
  | some f =>
    if f.depack = 3 then s.tsUnit x.flow x.port f x.pay
    else
      match parseRtp x.pay with
      | none => s.depackError x.flow x.port
      | some r =>
        if f.pt ≠ 255 ∧ r.pt ≠ f.pt then s.depackError x.flow x.port
        else if f.depack = 5 then s.rawUnit x.flow x.port f r
        else
          let step := match (s.depack f.clq).next with
            | some n => (r.seq + 65536 - n) % 65536
            | none => 0
          if 32768 ≤ step then s.depackError x.flow x.port
          else
            let s1 := s.modDepack f.clq (fun d => { d with next := some ((r.seq + 1) % 65536) })
            if f.depack = 4 then (if step = 0 then s1 else s1.modDepack f.clq Depack.mark).tsUnit x.flow x.port f r.pay
            else s1.rtpUnit x.flow x.port f r (step != 0)

/-! ### The merge (R502 to R504) -/

/-- Merge group g. -/
def State.merge (s : State) (g : Nat) : Merge := mgetD s.net.merges g {}

/-- Changes merge group g. -/
def State.modMerge (s : State) (g : Nat) (f : Merge → Merge) : State :=
  { s with net := { s.net with merges := mset s.net.merges g (f (s.merge g)) } }

/-- The distance of a sequence number ahead of S (R502). -/
def ahead (x n : Nat) : Nat := (x + 65536 - n) % 65536

/-- Changes the cells that the merge charges to a flow's queue. -/
def State.mergeCells (s : State) (i : Nat) (f : Nat → Nat) : State :=
  match s.flow i with
  | some x => (s.modClq x.clq (fun c => { c with merge := f c.merge })).cellEvents
  | none => s

/-- Releases the held frames that follow S in sequence (R503). -/
def State.releaseRun (s : State) (g : Nat) : Nat → State
  | 0 => s
  | n + 1 =>
    let m := s.merge g
    match m.next, m.held with
    | some k, h :: t =>
      if h.seq = k then
        (((s.modMerge g (fun m => { m with held := t, next := some ((k + 1) % 65536) })).mergeCells h.flow
          (fun c => c - cellsOf h.pay.length)).release1 h).releaseRun g n
      else s
    | _, _ => s

/-- The gap deadline runs exactly while frames are held; what is left after a release waits anew (R503). -/
def State.rearm (s : State) (g : Nat) : State := s.modMerge g (fun m => { m with waiting := !m.held.isEmpty })

/-- The gap deadline falls: S jumps to the lowest held frame and the run is released (R503). -/
def State.jumpGap (s : State) (g : Nat) : State :=
  let m := s.merge g
  match m.next, m.held with
  | some k, h :: _ =>
    let s1 := s.modFlow h.flow (fun f => { f with gaps := (f.gaps + ahead h.seq k) % 2 ^ 32 })
    ((s1.modMerge g (fun m => { m with next := some h.seq })).releaseRun g (m.held.length)).rearm g
  | _, _ => s

/-- Puts a frame among the held ones, in sequence order from S. -/
def insHeld (k : Nat) (x : MergeFrame) : List MergeFrame → List MergeFrame
  | [] => [x]
  | y :: t => if ahead x.seq k < ahead y.seq k then x :: y :: t else y :: insHeld k x t

/-- A frame that the merge discards as behind or as a second copy (R503). -/
def State.mergeDup (s : State) (i : Nat) : State := s.modFlow i (fun f => { f with dups := (f.dups + 1) % 2 ^ 32 })

/-- Takes the cells of a frame to be held, one grant at a time; none where one is refused (R427, R503). -/
def State.holdCells (s : State) (q : Nat) : Nat → Option State
  | 0 => some s.cellEvents
  | n + 1 => if s.grants q then (s.modClq q (fun c => { c with merge := c.merge + 1 })).holdCells q n else none

/-- A frame of a DECODE or MIRROR pair meets the merge (R503). A refused cell brings the deadline down at once; with nothing
held, S jumps to the frame itself. -/
def State.mergeFrame (s : State) (g : Nat) (x : MergeFrame) : Nat → State
  | 0 => s
  | fuel + 1 =>
    let m := s.merge g
    let k := m.next.getD x.seq
    let d := ahead x.seq k
    if d = 0 then
      let s1 := (s.modMerge g (fun m => { m with next := some ((k + 1) % 65536), behind := 0 })).release1 x
      (s1.releaseRun g (s1.merge g).held.length).rearm g
    else if 32768 ≤ d then
      let b := m.behind + 1
      (s.modMerge g (fun m => if 64 ≤ b then { m with behind := 0, next := none } else { m with behind := b })).mergeDup
        x.flow
    else if m.held.any (fun y => y.seq == x.seq) then s.mergeDup x.flow
    else
      match s.holdCells (((s.flow x.flow).map Flow.clq).getD 0) (cellsOf x.pay.length) with
      | some s1 =>
        let s2 := s1.modMerge g (fun m => { m with
          held := insHeld k x m.held, next := some k, behind := 0, waiting := true })
        if 4096 < (s2.merge g).held.length then s2.jumpGap g else s2
      | none =>
        if m.held = [] then
          ((s.modFlow x.flow (fun f => { f with gaps := (f.gaps + d) % 2 ^ 32 })).modMerge g (fun m => { m with
            next := some ((x.seq + 1) % 65536), behind := 0 })).release1 x
        else (s.jumpGap g).mergeFrame g x fuel

/-- The extended sequence number of an ST 2110-20 packet (R504). -/
def extSeq (r : Rtp) : Nat := beAt r.pay 0 2 * 65536 + r.seq

/-- A frame of a RAW pair meets the merge: first copies pass in arrival order (R504). -/
def State.mergeRaw (s : State) (g : Nat) (x : MergeFrame) : State :=
  match parseRtp x.pay with
  | none => s.depackError x.flow x.port
  | some r =>
    let e := extSeq r
    let m := s.merge g
    let top := m.passed.foldl max 0
    if m.passed.contains e ∨ (m.passed ≠ [] ∧ e + 32768 < top) then s.mergeDup x.flow
    else (s.modMerge g (fun m => { m with passed := (e :: m.passed).take 32768 })).release1 x

/-- A frame that passed its meter goes on to the merge, or straight to its depacketizer (R502, R503). A stopped device drops
what is bound to a device-side source and counts it (R542). -/
def State.toDepack (s : State) (i port : Nat) (f : Flow) (pay : List Byte) : State :=
  let x : MergeFrame := { flow := i, port := port, seq := beAt pay 2 2, pay := pay }
  if s.faults.stop = .stopped ∧ f.feeds then s.modFlow i (fun y => { y with dropped := (y.dropped + 1) % 2 ^ 32 })
  else
  match f.group, s.partner i f with
  | some g, some _ =>
    if f.action = 4 then s.mergeRaw g x
    else
      match parseRtp pay with
      | none => s.depackError i port
      | some _ => s.mergeFrame g x ((s.merge g).held.length + 2)
  | _, _ => s.release1 x

end Sys2Proof.Machine
end

