-- ==== Sys2Proof/Machine/Ingest.lean ====
section
/-!
DEFINITION. The ports' receive side: links, flow control, received frames and the merge and raw deadlines (R482 to R510).
-/
namespace Sys2Proof.Machine

/-- A link of the port that the command names, in service (R482). -/
def State.linkOk (s : State) (port lane : Nat) : Bool :=
  s.netUp && decide (port < 2) && decide (s.portMode port ≠ 0) && (decide (lane < 4)) &&
  (s.portMode port == 3 || lane == 0) && (s.page (10 + port)).state != .fenced && (s.page (12 + port)).state != .fenced

/-- SLOW_METER in force (R498). -/
def State.slowMeter (s : State) : Option Nat := let m := fld (s.active 14 0x240) 15 0; if m = 65535 then none else some (m % 4096)

/-- The 32 bytes of slow-path metadata (R498). -/
def slowMeta (time : Nat) (flow : Option Nat) (reason h : Nat) (c : Colour) : List Byte :=
  leBytes 8 time ++ leBytes 4 (flow.getD 0xFFFFFFFF) ++ leBytes 1 reason ++ leBytes 1 (c.code * 64 + bits h 25 24 * 16) ++
    [0, 0] ++ leBytes 4 h ++ List.replicate 12 0

/-- A frame that has passed its meter enters its ring (R498). -/
def State.slowRing (s : State) (port lane : Nat) (l : List Byte) (reason : Nat) (key : Option (List Byte)) (flow : Option Nat)
    (c : Colour) : State :=
  let h := (key.map crc32c).getD 0
  let w := s.active 14 (0x200 + 4 * bits h 31 28)
  let crust : Crust := { typ := .data, lastRef := false, key := false, auEnd := false, auStart := false,
                         tag := port * 16 + lane }
  if w.getLsbD 31 = false then s.rxDrop port 6 1
  else
    let r := s.produce (fld w 11 0) (.slowpath port lane) crust (slowMeta s.time.ns flow reason h c ++ l) none
    if r.2 then r.1 else r.1.rxDrop port 6 1

/-- A frame leaves for the slow path (R498): metered by its flow's own meter, or by SLOW_METER. -/
def State.slowPath (s : State) (port lane : Nat) (l : List Byte) (reason : Nat) (key : Option (List Byte)) (flow : Option Nat) :
    State :=
  let own := (flow.bind s.flow).bind Flow.meterNo
  let m := s.runMeter (own.orElse (fun _ => s.slowMeter)) (l.length + 4)
  let note := fun (t : State) => match flow, own with
    | some i, some _ => t.modFlow i (fun f =>
        if !m.2.1 then { f with meterDrops := (f.meterDrops + 1) % 2 ^ 32 }
        else if m.1 = Colour.green then f
        else { f with meterMarked := (f.meterMarked + 1) % 2 ^ 32 })
    | _, _ => t
  if m.2.1 then (note m.2.2).slowRing port lane l reason key flow m.1 else (note m.2.2).rxDrop port 5 1

/-- A frame matches an entry (R493). -/
def State.matched (s : State) (i len : Nat) : State :=
  s.modFlow i (fun f => { f with
    packets := (f.packets + 1) % 2 ^ 64, bytes := (f.bytes + len) % 2 ^ 64, last := s.time.ns / 1000 % 2 ^ 32 })

/-- A frame of a flow whose depacketizer reads RTP carries a header extension that the flow does not accept (R488). -/
def Flow.refusesExt (f : Flow) (pay : List Byte) : Bool :=
  [1, 2, 4, 5].contains f.depack && decide (2 ≤ f.action) && !f.flag 2 && byteAt pay 0 / 64 == 2 && bit (byteAt pay 0) 4

/-- The action of the frame's flow (R496). -/
def State.flowAction (s : State) (port lane : Nat) (l key pay : List Byte) (i : Nat) (f : Flow) : State :=
  let s := s.matched i (l.length + 4)
  if f.action = 0 then s
  else if f.refusesExt pay then s.slowPath port lane l 0x0D (some key) (some i)
  else if f.action = 1 then s.slowPath port lane l 0x02 (some key) (some i)
  else
    let m := s.runMeter f.meterNo (l.length + 4)
    let s1 := m.2.2
    if !m.2.1 then s1.modFlow i (fun f => { f with meterDrops := (f.meterDrops + 1) % 2 ^ 32 })
    else
      let s2 := if m.1 = .green then s1 else s1.modFlow i (fun f => { f with meterMarked := (f.meterMarked + 1) % 2 ^ 32 })
      let s3 := if f.action = 3 then s2.slowRing port lane l 0x03 (some key) (some i) m.1 else s2
      s3.toDepack i port f pay

/-- A frame that the MAC accepted passes the parser and the flow table (R485, R488 to R492). -/
def State.classify (s : State) (port lane : Nat) (l : List Byte) : State :=
  match parseFrame l with
  | .slow reason key => s.slowPath port lane l reason key none
  | .bad k => s.rxDrop port k 1
  | .udp key _ pay =>
    match s.lookup key pay with
    | .none => s.slowPath port lane l 0x01 (some key) none
    | .flow i =>
      match s.flow i with
      | some f => s.flowAction port lane l key pay i f
      | none => s
    | .miss i =>
      match s.flow i with
      | some f => if f.flag 1 then s.slowPath port lane l 0x04 (some key) none else s.depackError i port
      | none => s

/-- The priority of a frame (R487): PCP of its outer tag, or DEFAULT_PRIO. -/
def State.framePrio (s : State) (port : Nat) (l : List Byte) : Nat :=
  match (parseTags l).1 with
  | t :: _ => t / 8192
  | [] => fld (s.portCfg port) 25 23

/-- FRAME_RECEIVE (R484 to R510): a frame arrives on a link. MAC control frames never reach the parser (R486). -/
def execFrameReceive (port lane : Nat) (f : RxFrame) (s : State) : Result :=
  act s fun s =>
    let k := s.linkOf port lane
    if !s.linkOk port lane ∨ !(s.link k).up then s
    else
      let s0 := if f.fec = 0 then s else s.rxDrop port 7 f.fec
      let len := f.bytes.length + 4
      let prio := s0.framePrio port f.bytes
      let held := (List.range 8).map (fun p => f.held.getD p 0)
      if !f.fcsOk then s0.rxDrop port 0 1
      else if len < 64 ∨ s0.maxFrame port < len then s0.rxDrop port 1 1
      else if s0.rxRoom port < held.sum + len then
        (s0.modLink k (fun x => { x with held := held }) |>.rxDrop port 2 1).raiseEvt (10 + port) 2
      else
        let s1 := (s0.modLink k (fun x => { x with held := held.set prio (held.getD prio 0 + len) })).pfcCheck port k prio
        if beAt f.bytes 12 2 = 0x8808 then s1 else s1.classify port lane f.bytes

/-! ### Flow control (R486, R487) -/

/-- Nanoseconds of a pause: quanta of 512 bit times at the link's rate (R486). -/
def State.pauseNs (s : State) (port quanta : Nat) : Nat := quanta * 512 / (if s.portMode port = 3 then 25 else 100)

/-- Pauses the classes of a list on a link; a pause of 0 ends one. -/
def State.pauseLink (s : State) (k port : Nat) (l : List (Nat × Nat)) : State :=
  s.modLink k (fun x => { x with
    paused := l.foldl (fun (m : Map Nat) c =>
    if c.2 = 0 then mdel m c.1 else mset m c.1 (s.time.ns + s.pauseNs port c.2)) x.paused })

/-- PFC_FRAME_RECEIVE (R486): `mask` names the priorities, `quanta` their times. -/
def execPfcFrameReceive (port lane : Nat) (mask : BitVec 8) (quanta : List Nat) (s : State) : Result :=
  act s fun s =>
    let k := s.linkOf port lane
    if !s.linkOk port lane ∨ !(s.link k).up ∨ (s.portCfg port).getLsbD 21 = false then s
    else s.pauseLink k port (((List.range 8).filter (fun c => mask.getLsbD c)).map (fun c => (c, quanta.getD c 0 % 65536)))

/-- PAUSE_FRAME_RECEIVE (R486): every class of the link pauses. -/
def execPauseFrameReceive (port lane quanta : Nat) (s : State) : Result :=
  act s fun s =>
    let k := s.linkOf port lane
    if !s.linkOk port lane ∨ !(s.link k).up ∨ (s.portCfg port).getLsbD 22 = false then s
    else s.pauseLink k port ((List.range 8).map (fun c => (c, quanta % 65536)))

/-- PAUSE_EXPIRY (R486): a class's pause runs out. -/
def execPauseExpiry (port lane cls : Nat) (s : State) : Result :=
  act s fun s =>
    if s.linkOk port lane then s.modLink (s.linkOf port lane) (fun x => { x with paused := mdel x.paused cls }) else s

/-- PFC_XOFF_REPEAT (R487): 150 µs have passed for a priority that the device holds paused. `held` is what the receive
buffer now holds for it. -/
def execPfcXoffRepeat (port lane prio held : Nat) (s : State) : Result :=
  act s fun s =>
    let k := s.linkOf port lane
    if !s.linkOk port lane ∨ !(s.link k).xoff.contains prio then s
    else
      let l := (List.range 8).map (fun p => (s.link k).held.getD p 0)
      let s1 := s.modLink k (fun x => { x with held := l.set prio held })
      if (s1.xoffAt port).2 < held then s1.sendPfc k prio 0xFFFF else s1.pfcCheck port k prio

/-! ### Links (R482, R483, R528) -/

/-- LINK_UP (R483): a link finishes training. -/
def execLinkUp (port lane : Nat) (s : State) : Result :=
  act s fun s =>
    if !s.linkOk port lane ∨ (s.link (s.linkOf port lane)).up then s
    else ((s.modLink (s.linkOf port lane) (fun _ => { up := true })).raiseEvt (10 + port) 1).portConds port

/-- LINK_DOWN (R483, R486): a link goes down; its pauses end with it. -/
def execLinkDown (port lane : Nat) (s : State) : Result :=
  act s fun s =>
    if !s.linkOk port lane ∨ !(s.link (s.linkOf port lane)).up then s
    else ((s.modLink (s.linkOf port lane) (fun _ => {})).raiseEvt (10 + port) 1).portConds port

/-! ### Deadlines (R503, R509) -/

/-- MERGE_DEADLINE (R503): the gap deadline of pair group g. -/
def execMergeDeadline (g : Nat) (s : State) : Result :=
  act s fun s => if (s.merge g).waiting then s.jumpGap g else s

/-- RAW_FRAME_TIMEOUT (R509): MERGE_DELAY has passed since a later timestamp reached raw depacketizer d. -/
def execRawFrameTimeout (d : Nat) (s : State) : Result :=
  act s fun s =>
    match mget s.net.raws d with
    | none => s
    | some r =>
      match r.frames.find? RawFrame.late, s.net.flows.find? (fun x => x.2.action == 4 && x.2.target == d) with
      | some f, some (i, _) => s.closeRaw d i f
      | _, _ => s

end Sys2Proof.Machine
end

