-- ==== Sys2Proof/Machine/Egress.lean ====
section
/-!
DEFINITION. The commands and events of the egress side: enabling, packets taken, departures, stamps and shaper changes (R511
to R530).
-/
namespace Sys2Proof.Machine

/-- The link of egress queue x. -/
def State.eqLink (s : State) (x : EgressQ) : Nat := s.linkOf x.port x.lane

/-- A command of the NETE page finishes (EQ_STATUS). -/
def State.eqDone (s : State) (port result q : Nat) : State :=
  (s.modPort port (fun p => { p with result := result, cmdSeq := (p.cmdSeq + 1) % 256, queue := q })).raiseEvt (12 + port) 0

/-- Counts n discards of queue e (DISCARDED). -/
def State.eqDiscard (s : State) (e n : Nat) : State :=
  if n = 0 then s
  else (s.modEq e (fun x => { x with discarded := (x.discarded + n) % 2 ^ 32 })).raiseEvt (12 + (s.egressQ e).port) 1

/-- The egress port of queue e gives up buffers (R432, R444). -/
def State.eqRelease (s : State) (e : Nat) (hs : List Nat) : State :=
  hs.foldl (fun t h => t.release h (.egress (s.egressQ e).port)) s

/-! ### The scheduler (R526, R527) -/

/-- Length of the next frame of a queue. -/
def EgressQ.nextLen (x : EgressQ) : Nat :=
  match x.copies with
  | c :: _ => x.hdrLen - (if x.isRtp then 12 else 0) + c.length
  | [] =>
    let body := (x.nextPieces.map (fun p => p.bytes.length)).sum
    if x.kind = 0 then body else x.hdrLen + body

/-- The queue is eligible on its link (R527), whose NETE page is not fenced (R71). -/
def State.eligible (s : State) (x : EgressQ) : Bool :=
  let l := s.link (s.eqLink x)
  x.enabled && (s.page (12 + x.port)).state != .fenced && x.hasFrame && decide (0 < (x.fill s.time.ns).tokens) && l.up &&
      (mget l.paused x.cls).isNone

/-- The eligible queues of a class of a link, in ascending number. -/
def State.classQueues (s : State) (k c : Nat) : List Nat :=
  (s.net.egress.filter (fun e => s.eqLink e.2 == k && e.2.cls == c && s.eligible e.2)).map Prod.fst

/-- Members that are no longer eligible leave; new ones join at the tail in ascending number. -/
def rejoin (old : List Member) (now : List Nat) (quantum : Nat → Nat) : List Member :=
  old.filter (fun m => now.contains m.id) ++
    (now.filter (fun i => old.all (fun m => m.id != i))).map (fun i => { id := i, quantum := quantum i })

/-- Brings the lists of a link up to date. -/
def State.rejoinLink (s : State) (k : Nat) : State :=
  let sc := mgetD s.net.scheds k {}
  let qs := (List.range 8).map (fun c => (c, rejoin (mgetD sc.queues c []) (s.classQueues k c) (fun e => (s.egressQ e).at 6 2)))
  let cs := (qs.filter (fun q => !q.2.isEmpty)).map Prod.fst
  let sc' : Sched := {
    classes := rejoin sc.classes cs (fun c => fld (s.active (12 + k / 4) (0x140 + 4 * c)) 19 0)
    queues := qs }
  { s with net := { s.net with scheds := mset s.net.scheds k sc' } }

/-- pick of R526, for as many turns as any deficit can need. -/
def pickMember (need : Nat → Nat) : Nat → List Member → Option (Nat × List Member)
  | 0, _ => none
  | _, [] => none
  | fuel + 1, x :: t =>
    let y := if x.fresh then { x with deficit := x.deficit + x.quantum, fresh := false } else x
    if need y.id ≤ y.deficit then some (y.id, y :: t) else pickMember need fuel (t ++ [{ y with fresh := true }])

/-- Turns that suffice for the largest frame at the least quantum. -/
def pickFuel (l : List Member) : Nat := 160 * (l.length + 1)

/-- The counted length of the frame that queue e would send (R526). -/
def State.eqNeed (s : State) (e : Nat) : Nat := (s.egressQ e).counted (s.egressQ e).nextLen

/-- The queue that the second level picks in a class, with the class's list as the picking leaves it. -/
def State.pickQueue (s : State) (sc : Sched) (c : Nat) : Option (Nat × List Member) :=
  let l := mgetD sc.queues c []
  pickMember s.eqNeed (pickFuel l) l

/-- The member at the head pays for its frame. -/
def pay (n : Nat) : List Member → List Member
  | x :: t => { x with deficit := x.deficit - n } :: t
  | [] => []

/-! ### Departure (R513, R518 to R523, R529) -/

/-- A transmit stamp is written to the ring (R523). Without a way to host memory a stamp for a host ring is lost. -/
def State.txStamp (s : State) (port e tag t : Nat) : State :=
  let x := (s.port port).stamps
  if !x.en then s
  else
    let seq := if x.seq + 1 = 2 ^ 32 then 1 else x.seq + 1
    let s1 := s.modPort port (fun p => { p with stamps := { p.stamps with seq := seq } })
    if !isDev x.base ∧ !s.hostReach then s1
    else s1.writeTagged (x.base + (seq - 1) % 2 ^ x.log2 * 16) (leBytes 8 t ++ leBytes 2 (tag % 32768) ++ leBytes 2 e ++ leBytes 4 seq)

/-- A copy of a datagram reaches the twin (R529): from the RTP header onward, or the UDP payload. -/
def State.toTwin (s : State) (x : EgressQ) (body : List Byte) : State :=
  let w := x.twin
  let t := s.egressQ w
  if !x.twinEn ∨ !t.enabled then s
  else if t.copies.length < 64 then s.modEq w (fun t => { t with copies := t.copies ++ [body] })
  else (s.modEq w (fun t => { t with copies := t.copies.drop 1 ++ [body] })).eqDiscard w 1

/-- What follows the UDP header of the queue's next datagram (R513, R518 to R520). `t` is the instant at which the frame
starts on the wire. -/
def State.eqBody (s : State) (x : EgressQ) (t : Nat) : List Byte :=
  let tmpl := x.header.drop (x.hdrLen - 12)
  let ps := x.nextPieces
  match x.copies with
  | c :: _ => c
  | [] =>
    match x.kind with
    | 1 => s.stampPcr x x.port t x.hdrLen ps
    | 2 => rtpHead tmpl false x.rtpSeq (x.stcAt (t + s.byteNs x.port x.hdrLen) / 300) ++ s.stampPcr x x.port t x.hdrLen ps
    | _ =>
      match ps with
      | p :: _ => rtpHead tmpl p.auEnd x.rtpSeq p.ts ++ p.bytes
      | [] => []

/-- Queue e sends its next frame (R513, R522, R524, R529, R530). -/
def State.sendFrame (s : State) (k e t : Nat) : State :=
  let x := (s.egressQ e).fill s.time.ns
  let ps := if x.copies = [] then x.nextPieces else []
  let body := if x.kind = 0 then (ps.map Piece.bytes).flatten else s.eqBody x t
  let frame := if x.kind = 0 then body else dgramFrame x body
  let n := x.counted frame.length
  let s1 := (s.emit (.eth k frame)).modEq e (fun _ => ({ x with
    tokens := x.tokens - (n * 65536 : Nat), sent := (x.sent + 1) % 2 ^ 32, ipId := (x.ipId + 1) % 65536
    rtpSeq := if x.copies = [] then (x.rtpSeq + 1) % 65536 else x.rtpSeq
    copies := x.copies.drop 1
    build := if x.copies = [] then x.build.drop x.perDgram else x.build
    ready := if x.copies = [] then x.ready.drop 1 else x.ready
    pcrDue := x.pcrDue && !ps.any Piece.pcr }).work)
  let s2 := match ps.head?.bind Piece.stamp with
    | some tag => s1.txStamp x.port e tag (t + s.byteNs x.port 0)
    | none => s1
  let s3 := if x.kind = 0 ∨ x.copies ≠ [] then s2 else s2.toTwin x body
  s3.eqRelease e (ps.flatMap Piece.frees)

/-- The staging groups of a port whose queue departs on link k, and the class quanta, hand over before the decision (R78, R525). -/
def State.departBoundary (s : State) (port k : Nat) : State :=
  (List.range 16).foldl (fun t g =>
    let x := t.egressQ (fld (t.reg (12 + port) (0x040 + 0x10 * g)) 11 0)
    if g = 15 ∨ (x.enabled ∧ x.port = port ∧ t.linkOf x.port x.lane = k) then t.boundary (12 + port) g else t) s

/-- DEPARTURE_DECISION (R526): the link can start a frame. `delay` is the MAC's fixed latency in ns, from the decision to the
start of the frame on the wire. -/
def execDepartureDecision (port lane delay : Nat) (s : State) : Result :=
  act s fun s =>
    if !s.linkOk port lane then s
    else
      let k := s.linkOf port lane
      let s1 := (s.departBoundary port k).rejoinLink k
      let sc := mgetD s1.net.scheds k {}
      let picks := (List.range 8).map (fun c => s1.pickQueue sc c)
      let need := fun c => match picks.getD c none with
        | some (e, _) => s1.eqNeed e
        | none => 0
      match pickMember need (pickFuel sc.classes) sc.classes with
      | none => s1
      | some (c, cs) =>
        match picks.getD c none with
        | none => s1
        | some (e, qs) =>
          let n := s1.eqNeed e
          let sc' : Sched := { classes := pay n cs, queues := mset sc.queues c (pay n qs) }
          let s2 := ({ s1 with net := { s1.net with scheds := mset s1.net.scheds k sc' } }).sendFrame k e (s1.time.ns + delay)
          s2.rejoinLink k

/-! ### Commands (R512, R517, R523, R528) -/

/-- The twin of a queue meets R529. -/
def State.twinOk (s : State) (x : EgressQ) : Bool :=
  let t := s.egressQ x.twin
  t.enabled && t.port != x.port && t.kind == x.kind && bit (byteAt t.hdr 1) 1 == bit (byteAt x.hdr 1) 1 && !t.twinEn

/-- What ENABLE answers for a queue whose template is read (R512), 0x01 for an accepted one. -/
def State.enableCheck (s : State) (port : Nat) (x : EgressQ) (psi : Option (List Byte)) : Nat :=
  if x.kind = 0 then (if x.twinEn ∧ !s.twinOk x then 0x15 else 0x01)
  else if x.isTs ∧ psi = none then 0x14
  else if !templateOk x then 0x13
  else if x.twinEn ∧ !s.twinOk x then 0x15
  else if s.maxFrame port < x.largest + 4 then 0x16
  else 0x01

/-- The queue as ENABLE leaves it (R513, R517, R518, R524). -/
def enabledQ (x : EgressQ) (psi : List Byte) (now : Nat) : EgressQ :=
  let places := hdrPlaces x.header
  { cfg := x.cfg, enabled := true, rate := x.at 16 4, burst := x.at 20 4, overhead := signed 8 (x.at 24 1), hdr := x.hdr
    psi := (List.range (x.at 34 1)).map (fun i => (psi.drop (188 * i)).take 188), psiDue := x.isTs, pcrDue := x.isTs
    tokens := (x.at 20 4 * 65536 : Nat), filled := now, discarded := x.discarded
    ipId := match places with
      | some (ip, _, _, false) => beAt x.header (ip + 4) 2
      | _ => 0
    rtpSeq := if x.isRtp then beAt x.header (x.hdrLen - 10) 2 else 0 }

/-- EQ_ENABLE (R512). `hdr` and `psi` are what host memory holds at HDR_ADDR and PSI_ADDR, none for a read that failed. -/
def execEqEnable (port q : Nat) (hdr psi : Option (List Byte)) (s : State) : Result :=
  let port := port % 2
  hostCmd (12 + port) s fun s =>
    let q := q % 4096
    let x := s.egressQ q
    let needs := fun a => !isDev a && !s.hostReach
    if x.port ≠ port then s.eqDone port 0x10 q
    else if x.enabled then s.eqDone port 0x11 q
    else if !eqFieldsOk x then s.eqDone port 0x12 q
    else if x.kind ≠ 0 ∧ (needs (x.at 8 8) ∨ (x.isTs ∧ needs (x.at 40 8))) then s
    else
      match if x.kind = 0 then some [] else s.readTagged (x.at 8 8) 128 hdr with
      | none => s.eqDone port 0x14 q
      | some h =>
        let y := { x with hdr := h }
        let p := if x.isTs then s.readTagged (x.at 40 8) (188 * x.at 34 1) psi else some []
        let r := s.enableCheck port y p
        if r ≠ 0x01 then s.eqDone port r q
        else ((s.modEq q (fun _ => enabledQ y (p.getD []) s.time.ns)).eqDone port 0x01 q).rejoinLink (s.eqLink x)

/-- EQ_DISABLE (R528): accepted in every state; the datagram in build goes, with every buffer that its bytes held. -/
def execEqDisable (port q : Nat) (s : State) : Result :=
  let port := port % 2
  hostCmd (12 + port) s fun s =>
    let q := q % 4096
    let x := s.egressQ q
    if x.port ≠ port then s.eqDone port 0x10 q
    else
      let hs := (x.build ++ x.ready).flatMap Piece.frees ++ x.esFrees.map Prod.snd
      let n := b2n (!x.build.isEmpty) + x.ready.length + x.copies.length
      let s1 := (s.eqRelease q hs).eqDiscard q (if x.enabled then n else 0)
      ((s1.modEq q (fun y => { cfg := y.cfg, discarded := y.discarded, sent := y.sent, tokens := y.tokens })).eqDone port 0x01
        q).rejoinLink (s.eqLink x)

/-- PSI_UPDATE (R517): the PSI packets are read again at the next repetition. -/
def execPsiUpdate (port q : Nat) (s : State) : Result :=
  let port := port % 2
  hostCmd (12 + port) s fun s =>
    let q := q % 4096
    let x := s.egressQ q
    if x.port ≠ port then s.eqDone port 0x10 q
    else if !x.enabled ∨ !x.isTs then s.eqDone port 0x11 q
    else (s.modEq q (fun x => { x with psiAsked := true })).eqDone port 0x01 q

/-- PSI_REPEAT (R517): PSI_INTERVAL has passed. `psi` is what host memory holds at PSI_ADDR. -/
def execPsiRepeat (q : Nat) (psi : Option (List Byte)) (s : State) : Result :=
  act s fun s =>
    let q := q % 4096
    let x := s.egressQ q
    if !x.enabled ∨ !x.isTs then s
    else
      let l := if x.psiAsked ∧ (isDev (x.at 40 8) ∨ s.hostReach) then s.readTagged (x.at 40 8) (188 * x.at 34 1) psi else none
      (s.modEq q (fun x => ({ x with
        psiDue := true
        psiAsked := x.psiAsked && l.isNone
        psi := match l with
          | some l => (List.range (x.at 34 1)).map (fun i => (l.drop (188 * i)).take 188)
          | none => x.psi }).work)).rejoinLink (s.eqLink x)

/-- PCR_DUE (R518): PCR_INTERVAL has passed since the last PCR departed. -/
def execPcrDue (q : Nat) (s : State) : Result :=
  act s fun s =>
    let q := q % 4096
    let x := s.egressQ q
    if !x.enabled ∨ !x.isTs ∨ x.stc = none then s
    else (s.modEq q (fun x => ({ x with pcrDue := true }).work)).rejoinLink (s.eqLink x)

/-- TXSTAMP_ENABLE (R523): a write of TXSTAMP_CTRL. -/
def execTxstampEnable (port : Nat) (v : Word) (s : State) : Result :=
  let port := port % 2
  hostCmd (12 + port) s fun s =>
    let s := s.rsv (12 + port) 0x8000000F v
    let log := fld v 3 0
    let en := v.getLsbD 31
    if log < 4 ∨ 12 < log then
      (s.modPort port (fun p => { p with stamps := { p.stamps with en := false } })).accessBad (12 + port)
    else
      let base := (s.reg (12 + port) 0x304).toNat * 2 ^ 32 + (s.reg (12 + port) 0x300).toNat
      s.modPort port (fun p => { p with
        stamps :=
        if en && !p.stamps.en then { en := true, base := base / 64 * 64, log2 := log, seq := 0 }
        else { p.stamps with en := en, log2 := log } })

/-! ### Packets taken from Caldera queues (R514 to R516, R520 to R522, R528, R530) -/

/-- The queue takes data only from its primary (R529). -/
def State.isTwin (s : State) (e : Nat) : Bool := s.net.egress.any (fun x => x.2.enabled && x.2.twinEn && x.2.twin == e)

/-- The packetizer has use for another packet: its datagram is not full, and no ended unit waits in it. -/
def EgressQ.wants (x : EgressQ) : Bool :=
  if x.isTs then !x.dgramFull && !(x.esEnd && !x.es.isEmpty) else x.ready.isEmpty

/-- The handles that a packet lets go at its end (R432). -/
def Packet.lets (p : Packet) : List Nat := if p.crust.typ = .bufref ∧ p.crust.lastRef then [bufrefHandle p] else []

/-- Those of a DISCONT packet are the buffers of its frame that the port still owns (R444). -/
def State.letsOf (s : State) (e : Nat) (p : Packet) : List Nat :=
  if p.crust.typ = .discont then
    p.frees.filter (fun h => s.handleOk h && (s.owner (handlePool h) (handleIndex h)).names (.egress (s.egressQ e).port))
  else p.lets

/-- The bytes of a packet (R530): its payload, or the range of a pool buffer. -/
def State.packetData (s : State) (p : Packet) (host : Option (List Byte)) : Option (List Byte) :=
  if p.crust.typ ≠ .bufref then some p.payload
  else
    let h := bufrefHandle p
    let off := leNat ((p.payload.drop 4).take 4)
    let len := leNat ((p.payload.drop 8).take 4)
    s.readTagged (s.bufAddr (handlePool h) (handleIndex h) + off) len host

/-- A unit's bytes join a TS packetizer (R515, R518). -/
def EgressQ.takeTs (x : EgressQ) (p : Packet) (bytes : List Byte) (now : Nat) : EgressQ :=
  let pts := (p.times.map Prod.fst).getD x.pts
  let dts := (p.times.map Prod.snd).getD x.dts
  let head := if p.crust.auStart then pesBytes pts dts else []
  let es := x.es ++ head ++ bytes
  ({ x with
    pts := pts, dts := dts
    stc := match x.stc with
      | some c => some c
      | none => some (now, 300 * ((dts % 2 ^ 33 + 2 ^ 33 - x.at 36 4) % 2 ^ 33))
    es := es, esStart := x.esStart || p.crust.auStart, esEnd := p.crust.auEnd, inUnit := !p.crust.auEnd
    esFrees := x.esFrees ++ p.lets.map (fun h => (es.length, h)) }).work

/-- A packet reaches the packetizer. -/
def State.takePacket (s : State) (e : Nat) (p : Packet) (bytes : List Byte) : State :=
  let x := s.egressQ e
  let drop := fun (t : State) => (t.eqRelease e (t.letsOf e p)).eqDiscard e 1
  if p.crust.typ = .discont then
    (if x.isTs then s.modEq e (fun x => { x with discont := true, es := [], esFrees := [], esStart := false, inUnit := false })
     else if 3 ≤ x.kind then s.modEq e (fun x => { x with rtpSeq := (x.rtpSeq + 1) % 65536, inUnit := false })
     else s).eqRelease e (s.letsOf e p ++ x.esFrees.map Prod.snd)
  else if x.kind = 0 then
    (if s.maxFrame x.port < bytes.length + 4 then drop s
     else
      let l := bytes ++ List.replicate (60 - bytes.length) (0 : Byte)
      let piece : Piece := { bytes := l, frees := p.lets
                             stamp := if bit p.crust.tag 15 then some (p.crust.tag % 32768) else none }
      s.modEq e (fun x => { x with ready := x.ready ++ [piece] }))
  else if !p.crust.auStart ∧ !x.inUnit then drop s
  else if x.isTs then s.modEq e (fun x => x.takeTs p bytes s.time.ns)
  else
    let y := { x with pts := (p.times.map Prod.fst).getD x.pts, inUnit := !p.crust.auEnd }
    let ps := rtpPieces y bytes p.crust.auEnd p.lets
    let s1 := s.modEq e (fun _ => { y with ready := y.ready ++ ps })
    if ps = [] then s1.eqRelease e p.lets else s1

/-- EGRESS_PACKET_TAKE (R528, R530): the egress queue that consumes Caldera queue q takes its next packet, discards it, or
holds it. `host` is what host memory holds in the range of a BUFREF. -/
def execEgressPacketTake (q : Nat) (host : Option (List Byte)) (s : State) : Result :=
  act s fun s =>
    let q := q % 4096
    let c := s.clq q
    let e := c.cfg.consumerId
    let x := s.egressQ e
    match c.reading, c.complete with
    | none, p :: _ =>
      let up := (s.link (s.eqLink x)).up
      let read := fun (t : State) => t.readClq q (p.bytes q).length
      let far := p.crust.typ = .bufref ∧ !isDev (s.poolBase (handlePool (bufrefHandle p))) ∧ !s.hostReach
      if !c.enabled ∨ c.cfg.consumer ≠ 1 ∨ !s.netUp then s
      else if !x.enabled ∨ (!up ∧ (x.dropOnDown ∨ (s.page (10 + x.port)).state = .fenced ∨
          (s.page (12 + x.port)).state = .fenced)) ∨ s.isTwin e then ((read s).eqRelease e (s.letsOf e p)).eqDiscard e 1
      else if !up ∨ !x.wants ∨ far then s
      else
        match s.packetData p host with
        | none => ((read s).eqRelease e (s.letsOf e p)).eqDiscard e 1
        | some bytes => ((read s).takePacket e p bytes).rejoinLink (s.eqLink x)
    | _, _ => s

end Sys2Proof.Machine
end

