-- ==== Sys2Proof/Machine/Intc.lean ====
section
/-!
DEFINITION. The interrupt controller's commands (R466 to R481).
-/
namespace Sys2Proof.Machine

/-- INT_SOURCE_SET (R469): a write of 1 to SET of source `src`. Every field of a reserved source is RSV (R15, R466). -/
def execIntSourceSet (src : Nat) (s : State) : Result :=
  hostCmd 4 s fun s =>
    if !srcReal src then s.accessBad 4
    else if srcLevel src then s.modSrc src (fun x => { x with soft := true })
    else s.edge src

/-- INT_PENDING_CLEAR (R469): a write of 1 to PENDING, which clears an EDGE source only. -/
def execIntPendingClear (src : Nat) (s : State) : Result :=
  hostCmd 4 s fun s =>
    if !srcReal src then s.accessBad 4
    else if srcLevel src then s else s.modSrc src (fun x => { x with pending := false })

/-- INT_SOURCE_ENABLE (R469, R474): a write of ENABLE. -/
def execIntSourceEnable (src : Nat) (b : Bool) (s : State) : Result :=
  hostCmd 4 s fun s => if srcReal src then s.modSrc src (fun x => { x with enable := b }) else if b then s.accessBad 4 else s

/-- SOURCE_LEVEL_CHANGE (R467): the unit's condition reaches the controller. -/
def execSourceLevelChange (src : Nat) (s : State) : Result :=
  act s fun s => if srcLevel src then s.modSrc src (fun x => { x with level := s.unitLevel src }) else s

/-- Source n is claimed (R471). -/
def State.claimSource (s : State) (n : Nat) : State :=
  s.modSrc n (fun x => { x with inService := true, pending := false, soft := false })

/-- CLAIM (R471): a read of CLAIM[g]. A page that is not served answers 0 (R90). -/
def execClaim (g : Nat) (s : State) : Result :=
  let s := s.toL0
  if !s.linked then .next s
  else if !s.decodes then .next (s.emit .unsupportedRequest)
  else if s.serving 4 ≠ .served then .next (s.emit (.claimed false 0))
  else if 40 ≤ g then .next (s.accessBad 4)
  else
    match s.firstClaimable g with
    | none => .next (s.emit (.claimed false 0))
    | some n =>
      .next ((s.claimSource n).emit (.claimed true n))

/-- EOI (R472): ends the service of a source of group g. A level source takes the level that the controller sees. -/
def execEoi (g src : Nat) (s : State) : Result :=
  hostCmd 4 s fun s =>
    if g < 40 ∧ src / 8 = g ∧ (s.src src).inService then s.modSrc src (fun x => { x with inService := false })
    else s.accessBad 4

/-- HOLDOFF_EXPIRY (R475): the hold-off timer of group g has counted its time and ends. -/
def execHoldoffExpiry (g : Nat) (s : State) : Result :=
  act s fun s =>
    if g < 40 ∧ (s.grp g).timerRun ∧ (s.grp g).timerLeft = 0 then
      let s1 := s.modGrp g (fun y => { y with timerRun := false, timerLeft := 0 })
      if (s1.firstClaimable g).isSome then s1.issueGrp g
      else s1.modGrp g (fun y => { y with msgDue := false })
    else s

end Sys2Proof.Machine
end

