-- ==== Sys2Proof/Machine/LenBlock.lean ====
section
/-!
DEFINITION. Lenong block movement, the scoreboard and the motion field (R249 to R254).
-/
namespace Sys2Proof.Machine

/-- The shape of an M, K or W instruction, where it is legal (R241). -/
def kShape (x : Word) : Option (Nat × Nat) :=
  match shapeOf (kBw x), shapeOf (kBh x) with
  | some w, some h => some (w, h)
  | _, _ => none

/-- A sequencer instruction that needs its job and stream: without a stream it has no pictures, and its code is illegal. -/
def withJob (s : State) (n q : Nat) (f : Nat → Job → Nat → SeqRes) : SeqRes :=
  match s.seqJob n q with
  | some (j, x, st) => f j x st
  | none => .bad 2

/-- BLD (R249): loads W by H samples of PLANE of surface sC at (sA, sB) into b(D). `host` are the bytes of host memory that the
load reads, by host address; a missing one is a failed read. -/
def execBld (n q : Nat) (i : Ins) (host : List Host.Cell) (s : State) : Result :=
  act s fun s => runSeq s n q (.bld n q i host) i true false .block fun s =>
    match kShape i.x with
    | none => .bad 2
    | some (w, h) =>
      if 3 ≤ mPlane i.x ∨ mOx i.x ≠ 0 ∨ mOy i.x ≠ 0 ∨ fld i.x 11 0 ≠ 0 then .bad 2
      else
        withJob s n q fun j x st =>
          match s.surf x st ((s.seq n q).sreg i.c) with
          | none => .bad 2
          | some f =>
            match s.owned n q [i.d] with
            | some r => r
            | none =>
              let ox := s.sint n q i.a
              let oy := s.sint n q i.b
              match s.blockStop j x st f host (mPlane i.x) ox oy w h with
              | some k => s.stopRes n j x k
              | none =>
                let t := s.setB n i.d w h (fun dx dy => (s.surfSample x st f (mPlane i.x) host ox oy dx dy : Nat))
                .done (State.noteRead { t with free := s.free + 4096 } j x st f)

/-- Sample (px, py) of a plane lies in a concealed CTU of the job's picture: no filter changes it any more (R364). -/
def State.concealedAt (_ : State) (x : Job) (st : Stream) (k pl px py : Nat) : Bool :=
  let d := if pl = 0 then (1, 1) else chromaDiv (st.slotGeom k).chroma
  x.coveredAt (st.slot k) (px * d.1 / max 1 x.ctu) (py * d.2 / max 1 x.ctu) == 2

/-- BST (R250, R364): stores b(A) to PLANE of the job's own picture at (sA, sB), with A naming both registers: the block register
and, in B and C, the position's row and the surface. -/
def execBst (n q : Nat) (i : Ins) (s : State) : Result :=
  act s fun s => runSeq s n q (.bst n q i) i true false .block fun s =>
    match kShape i.x with
    | none => .bad 2
    | some (w, h) =>
      if 3 ≤ mPlane i.x ∨ i.d ≠ 0 ∨ fld i.x 11 0 ≠ 0 then .bad 2
      else
        withJob s n q fun j x stn =>
          match s.surf x stn ((s.seq n q).sreg i.c) with
          | none => .bad 2
          | some f =>
            match s.owned n q [i.a] with
            | some r => r
            | none =>
              match f with
              | .slot k true =>
                let st := s.stream stn
                let g := st.slotGeom k
                let pl := mPlane i.x
                let z := planeSize g.w g.h g.chroma pl
                let ox := s.sint n q i.a
                let oy := s.sint n q i.b
                if pl ≠ 0 ∧ g.chroma = 0 then .done s
                else
                match s.surfBad x stn f s.writeOk [] pl ox oy w h with
                | some a => .done (s.accessFail j x a)
                | none =>
                  .done { s with
                    mem := (List.range (w * h)).foldl (fun m e =>
                      let px := ox + (e % w : Nat)
                      let py := oy + (e / w : Nat)
                      if 0 ≤ px ∧ px < z.1 ∧ 0 ≤ py ∧ py < z.2 ∧ !s.concealedAt x st k pl px.toNat py.toNat then
                        let v := (max 0 (min (s.belem n i.a (e % w) (e / w)) (2 ^ g.depth - 1))).toNat
                        if pl = 0 then g.store m 0 px.toNat py.toNat v
                        else g.store m 1 (2 * px.toNat + (pl - 1)) py.toNat v
                      else m) s.mem }
              | _ => .done (s.boundBlock n j)

/-- OX and OY of BGET and BPUT run from 0 to 12, and BW, BH and PLANE read 0 (R251). -/
def getPutOk (x : Word) : Bool :=
  kBw x == 0 && kBh x == 0 && mPlane x == 0 && decide (mOx x ≤ 12) && decide (mOy x ≤ 12) && fld x 11 0 == 0

/-- BGET (R251): v(D) takes the 16 by 16 elements of b(A) from column 4 × OX and row 4 × OY. -/
def execBget (n q : Nat) (i : Ins) (s : State) : Result :=
  act s fun s => runSeq s n q (.bget n q i) i true false .block fun s =>
    if !getPutOk i.x then .bad 2
    else
      match s.owned n q [i.a] with
      | some r => r
      | none => .done (s.setV n q i.d (BitVec.allOnes 256)
          (fun e => s.belem n i.a (4 * mOx i.x + e % 16) (4 * mOy i.x + e / 16)))

/-- BPUT (R251): the part of b(D) takes v(A). -/
def execBput (n q : Nat) (i : Ins) (s : State) : Result :=
  act s fun s => runSeq s n q (.bput n q i) i true false .block fun s =>
    if !getPutOk i.x then .bad 2
    else
      match s.owned n q [i.d] with
      | some r => r
      | none => .done (s.modBlk n i.d (fun k => { k with
          data := (List.range 256).foldl (fun m e =>
            mset m (64 * (4 * mOy i.x + e / 16) + 4 * mOx i.x + e % 16) (elem ((s.seq n q).velem i.a e))) k.data }))

/-- BFILL (R251): sat(sA) in the top-left W by H elements of b(D). -/
def execBfill (n q : Nat) (i : Ins) (s : State) : Result :=
  act s fun s => runSeq s n q (.bfill n q i) i true false .block fun s =>
    match kShape i.x with
    | none => .bad 2
    | some (w, h) =>
      if fld i.x 11 0 ≠ 0 then .bad 2
      else
        match s.owned n q [i.d] with
        | some r => r
        | none => .done (s.setB n i.d w h (fun _ _ => sat24 (s.sint n q i.a)))

/-- SBWAIT (R252): the wait for rows 0 to sB of the luma plane of surface sA, without a load. -/
def execSbwait (n q : Nat) (i : Ins) (s : State) : Result :=
  act s fun s => runSeq s n q (.sbwait n q i) i true false .scalar fun s =>
    withJob s n q fun j x st =>
      match s.surf x st ((s.seq n q).sreg i.a) with
      | none => .bad 2
      | some f =>
        match s.surfWait j x st f 0 (s.sint n q i.b) 1 with
        | some k => .hold k
        | none =>
          match s.rowWordBad st f with
          | some a => .done (s.accessFail j x a)
          | none => .done s

/-- Posts a row count of one core on the job's own slot (R253, R170): ROWS_DONE is what every core of the frame has posted. -/
def State.postRows (s : State) (n j stn k c : Nat) : State :=
  (s.modJob j (fun y => { y with posts := mset y.posts n (max c (mgetD y.posts n 0)) })).countRows j stn k

/-- The cores that code the tiles beside core n's own. -/
def Job.beside (x : Job) (n : Nat) : List Nat :=
  let i := x.cores.idxOf n
  (if i = 0 then [] else (x.cores[i - 1]?).toList) ++ (x.cores[i + 1]?).toList

/-- ROWPOST (R223, R253): raises the posted row count, in 16-row units; a count above ceil(H / 16) is a program fault. Where filters
cross tile borders, the core posts its border samples of these rows first and waits for those of its neighbours. -/
def execRowpost (n q : Nat) (i : Ins) (s : State) : Result :=
  act s fun s => runSeq s n q (.rowpost n q i) i true false .scalar fun s =>
    withJob s n q fun j x stn =>
      match x.slot with
      | none => .bad 2
      | some k =>
        let c := ((s.seq n q).sreg i.a).toNat
        if ceilDiv ((s.stream stn).slotGeom k).h 16 < c then .bad 2
        else if c ≤ mgetD x.posts n 0 then .done s
        else
          let s1 := s.modJob j (fun y => { y with strips := mset y.strips n (max c (mgetD y.strips n 0)) })
          if x.borders && (x.beside n).any (fun m => decide (mgetD x.strips m 0 < c)) then .pause s1 .border
          else .done (s1.postRows n j stn k c)

/-- Four 32-bit words to s(D) to s(D + 3). -/
def State.setS4 (s : State) (n q d : Nat) (f : Nat → Word) : State :=
  (List.range 4).foldl (fun t k => t.setS n q (d + k) (f k)) s

/-- MFLD (R254): the motion field entry at (sA, sB) of surface sC. What it reads of a surface without a motion field is
open (log entry 10). -/
def execMfld (n q : Nat) (i : Ins) (s : State) : Result :=
  act s fun s => runSeq s n q (.mfld n q i) i true false .scalar fun s =>
    if 28 < i.d then .bad 2
    else
      withJob s n q fun j x stn =>
        match s.surf x stn ((s.seq n q).sreg i.c) with
        | none => .bad 2
        | some (.slot k own) =>
          match s.surfWait j x stn (.slot k own) 0 (s.sint n q i.b) 0 with
          | some w => .hold w
          | none =>
            let g := (s.stream stn).slotGeom k
            let a := g.motionAddr (clampTo (s.sint n q i.a) g.w) (clampTo (s.sint n q i.b) g.h)
            if !s.readOk a then .done (s.memFail j x a)
            else .done ((s.setS4 n q i.d (fun e => BitVec.ofNat 32 (memNat s.mem (a + 4 * e) 4))).noteRead j x stn (.slot k own))
        | some _ =>
          .done { s.setS4 n q i.d (fun e => BitVec.ofNat 32 (Config.freeValue (s.free + e))) with free := s.free + 4 }

/-- MFST (R254): s(D) to s(D + 3) to the own slot's entry for (sA, sB). -/
def execMfst (n q : Nat) (i : Ins) (s : State) : Result :=
  act s fun s => runSeq s n q (.mfst n q i) i true false .scalar fun s =>
    if 28 < i.d then .bad 2
    else
      withJob s n q fun j x stn =>
        match x.slot with
        | none => .bad 2
        | some k =>
          let g := (s.stream stn).slotGeom k
          let a := g.motionAddr (clampTo (s.sint n q i.a) g.w) (clampTo (s.sint n q i.b) g.h)
          if !s.writeOk a then .done (s.memFail j x a)
          else .done (s.write a ((List.range 4).flatMap (fun e => leBytes 4 ((s.seq n q).sreg (i.d + e)).toNat)))

end Sys2Proof.Machine
end

