-- ==== Sys2Proof/Machine/LenPilot.lean ====
section
/-!
DEFINITION. Lenong stage channels and pilot operations (R208, R209, R238, R270 to R272, R333, R334, R340).
-/
namespace Sys2Proof.Machine

/-- A channel instruction on channel C[2:0]; C[4:3] reads 0 (R270). -/
def chanOp (s : State) (n q : Nat) (ins : Instr) (i : Ins) (body : State → Nat → SeqRes) : Result :=
  act s fun s => runSeq s n q ins i true true .scalar fun s =>
    match (s.seq n q).job with
    | none => .bad 8
    | some j => if 8 ≤ i.c then .bad 2 else body s j

/-- The pilot of a core that is not the lead of its frame has no frame record yet, which it reads before its first row start
(R222). -/
def Job.noRecord (x : Job) (n q : Nat) : Bool :=
  q == 5 && decide (1 < x.cores.length) && x.cores.head? != some n && x.record.isNone

/-- CHSEND (R222, R238, R270): a token, and with IMM32[3] = 1 the ownership of b(IMM32[2:0]). -/
def execChsend (n q : Nat) (i : Ins) (s : State) : Result :=
  chanOp s n q (.chsend n q i) i fun s j =>
    let k := fld i.x 2 0
    match s.ends j i.c with
    | none => .bad 8
    | some (a, b) =>
      let pass := i.x.getLsbD 3
      if a ≠ q then .bad 8
      else if pass ∧ (5 ≤ a ∨ 5 ≤ b ∨ (s.blk n k).owner ≠ q) then .bad 7
      else if ((s.job j).map (fun x => x.noRecord n q)).getD false then .hold .memory
      else if s.chanFull n i.c ∨ s.undrained n i.c j then .hold .channel
      else
        let x := s.seq n q
        let s1 := if pass then s.modBlk n k (fun y => { y with owner := 7 }) else s
        .done (s1.pushToken n i.c { val := x.sreg i.b ++ x.sreg i.a, job := j, pass := if pass then some k else none })

/-- CHRECV (R238, R270): the next token to s(D) and s(D + 1), with the block register that it passes. -/
def execChrecv (n q : Nat) (i : Ins) (s : State) : Result :=
  chanOp s n q (.chrecv n q i) i fun s j =>
    if 30 < i.d then .bad 2
    else if (s.ends j i.c).map Prod.snd ≠ some q then .bad 8
    else
      match s.undrained n i.c j, s.chq n i.c with
      | false, t :: _ =>
        let s1 := ((s.popToken n i.c).setS n q i.d (t.val.setWidth 32)).setS n q (i.d + 1) ((t.val >>> 32).setWidth 32)
        .done (match t.pass with
          | some b => s1.modBlk n b (fun y => { y with owner := q })
          | none => s1)
      | _, _ => .hold .channel

/-- CHPOLL (R270): whether a CHRECV, or with IMM32[4] = 1 a CHSEND, would go on without a wait. -/
def execChpoll (n q : Nat) (i : Ins) (s : State) : Result :=
  chanOp s n q (.chpoll n q i) i fun s j =>
    let ready := !s.undrained n i.c j && (if i.x.getLsbD 4 then !s.chanFull n i.c else !(s.chq n i.c).isEmpty)
    .done (s.setP n q (i.d % 8) (allBits ready))

/-- A pilot instruction with its job (R271). -/
def pilotOp (s : State) (n q : Nat) (ins : Instr) (i : Ins) (body : State → Nat → SeqRes) : Result :=
  act s fun s => runSeq s n q ins i false true .scalar fun s =>
    match (s.seq n q).job with
    | none => .bad 2
    | some j => body s j

/-- The channel is idle or ENDED (R271, R449). -/
def State.chanFree (s : State) (c : Nat) : Bool := (s.chan c).state == .idle || (s.chan c).state == .ended

/-- DMASTART (R271, R451): starts core DMA channel C[1:0] on a descriptor chain in device memory. -/
def execDmastart (n q : Nat) (i : Ins) (s : State) : Result :=
  pilotOp s n q (.dmastart n q i) i fun s j =>
    let c := 4 * n + i.c % 4
    if s.chanHost c then .bad 2
    else if !s.chanFree c then .hold .memory
    else
      let x := s.seq n q
      let a := 2 ^ 63 + (x.sreg i.b).toNat % 256 * 2 ^ 32 + (x.sreg i.a).toNat
      .done ((s.chanRun c a).modChan c (fun y => { y with job := some j }))

/-- The code of a channel state (R449). -/
def ChState.code : ChState → Nat
  | .idle => 0
  | .running => 1
  | .armed => 2
  | .held => 3
  | .ended => 4

/-- CH_STATUS, the status word of a channel (R449). -/
def Channel.statusWord (c : Channel) : Nat :=
  c.state.code * 2 ^ 28 + c.error * 2 ^ 24 + c.pendTrig * 2 ^ 20 + b2n c.waitCell * 2 ^ 19 + c.trigLost * 2 ^ 8 +
  c.descCount % 256

/-- DMAWAIT (R271). -/
def execDmawait (n q : Nat) (i : Ins) (s : State) : Result :=
  pilotOp s n q (.dmawait n q i) i fun s _ =>
    let c := 4 * n + i.c % 4
    if s.chanHost c then .bad 2
    else if !s.chanFree c then .hold .memory
    else .done (s.setS n q i.d (BitVec.ofNat 32 (s.chan c).statusWord))

/-- The read of GRANT (R334, R336 to R339): the next CTU's grant, once CTU_CODED allows it. A failed map read ends the job
with ERR_MEMORY; one of host memory also raises PCIE_HOST_READ (R100). -/
def readGrant (s : State) (n q : Nat) (i : Ins) (j k : Nat) (host : Option Byte × Option Byte) : SeqRes :=
  let r := s.rcSet n k
  let c := r.grants
  if r.at 4 ≤ c then .bad 2
  else if r.latched.length + r.at 8 < c + 1 then .hold .entropy
  else
    let m0 := s.mapByte r 0x0C c host.1
    let m1 := s.mapByte r 0x0E c host.2
    let far := (m0.isNone && !isDev (r.mapBase 0x0C)) || (m1.isNone && !isDev (r.mapBase 0x0E))
    match m0, m1 with
    | some m0, some m1 =>
      let qp := r.qp c m0 m1
      let w := b2n (r.floors c) * 2 ^ 31 + c % 65536 * 256 + qp % 256
      .done ((s.modRc n k (fun r => r.grant c qp)).setS n q i.d (BitVec.ofNat 32 w))
    | _, _ =>
      match s.job j with
      | some x => .done (if far then s.hostFail j x else s.failFinal j 0x42 x.refused)
      | none => .bad 2

/-- RCRD of register IMM32[7:0] of the set that C[0] names (R332, R333). -/
def rateRead (s : State) (n q : Nat) (i : Ins) (j : Nat) (host : Option Byte × Option Byte) : SeqRes :=
  let idx := fld i.x 7 0
  match s.ownSet n j with
  | none => .bad 2
  | some own =>
    if i.c % 2 = 0 ∧ idx = 0x10 then readGrant s n q i j own host
    else
      match (s.rcSet n (if i.c % 2 = 0 then own else 1 - own)).read idx with
      | some w => .done (s.setS n q i.d w)
      | none => .bad 2

/-- RCRD (R333). -/
def execRcrd (n q : Nat) (i : Ins) (s : State) : Result :=
  pilotOp s n q (.rcrd n q i) i fun s j => rateRead s n q i j (none, none)

/-- GRANT_READ (R334): RCRD of GRANT, with the bytes of the maps that are in host memory. -/
def execGrantRead (n q : Nat) (i : Ins) (host : Option Byte × Option Byte) (s : State) : Result :=
  pilotOp s n q (.grantRead n q i host) i fun s j => rateRead s n q i j host

/-- A frame of the job's stream that is earlier in coding order still has its frame close before it (R341). -/
def State.closeAhead (s : State) (j : Nat) : Bool :=
  match s.job j with
  | some x => s.jobs.any (fun (y : Nat × Job) => y.1 != j && y.2.stream == x.stream && y.2.live && y.2.indexed &&
      decide (y.2.coding < x.coding) &&
      (match y.2.cores.head? with
        | some m => match s.ownSet m y.1 with
          | some k => (s.rcSet m k).final.isNone
          | none => true
        | none => true))
  | none => false

/-- The count at frame close: the engine's own while it works on the job, then what was latched last. -/
def State.frameCount (s : State) (n j k : Nat) : Nat :=
  let b := (s.unit n).bin
  if b.job = some j then b.counted else (s.rcSet n k).latched.getLast?.getD 0

/-- RCWR of register IMM32[7:0] of the own set (R333); FRAME_CLOSE waits for the close of the frame before (R340, R341). -/
def rateWrite (s : State) (n q : Nat) (i : Ins) (j : Nat) : SeqRes :=
  let idx := fld i.x 7 0
  match s.ownSet n j with
  | none => .bad 2
  | some k =>
    if i.c % 2 = 1 then .bad 2
    else if idx ≤ 0x0F ∨ idx = 0x16 ∨ idx = 0x18 then
      .done (s.modRc n k (fun r => { r with regs := mset r.regs idx ((s.seq n q).sreg i.a) }))
    else if idx = 0x17 then
      if s.closeAhead j then .hold .entropy else .done (s.modRc n k (fun r => r.close (s.frameCount n j k)))
    else .bad 2

/-- RCWR (R333). -/
def execRcwr (n q : Nat) (i : Ins) (s : State) : Result :=
  pilotOp s n q (.rcwr n q i) i fun s j => rateWrite s n q i j

/-- FRAME_CLOSE (R340): RCWR of register 0x17. -/
def execFrameClose (n q : Nat) (i : Ins) (s : State) : Result :=
  pilotOp s n q (.frameClose n q i) i fun s j => rateWrite s n q i j

/-- EVRAISE (R271): logs PERSONALITY_NOTE with code sA[15:0]. -/
def execEvraise (n q : Nat) (i : Ins) (s : State) : Result :=
  pilotOp s n q (.evraise n q i) i fun s j => .done (s.fault 16 n (some j) (((s.seq n q).sreg i.a).toNat % 65536))

/-- A job word (R272). -/
def State.jobWord (s : State) (n j : Nat) (x : Job) (w : Nat) : Nat :=
  let t := x.cores.idxOf n
  if w < 16 then x.at (4 * w) 4
  else
    match w with
    | 16 => b2n x.device * 2 ^ 17 + b2n (s.jobEncode j) * 2 ^ 16 + x.stream.getD 0 % 1024
    | 17 => x.slot.getD 0xFF
    | 18 => t % 12 * 16 + x.cores.length
    | 19 => x.widths.getD t 0 * 65536 + (x.widths.take t).sum
    | 20 => x.epoch
    | 21 => x.attempt
    | _ => 0

/-- JGET (R271, R272). -/
def execJget (n q : Nat) (i : Ins) (s : State) : Result :=
  pilotOp s n q (.jget n q i) i fun s j =>
    match s.job j with
    | some x => .done (s.setS n q i.d (BitVec.ofNat 32 (s.jobWord n j x (fld i.x 5 0))))
    | none => .bad 2

end Sys2Proof.Machine
end

