-- ==== Sys2Proof/Machine/LenVector.lean ====
section
/-!
DEFINITION. Lenong element arithmetic, select and compare (R241, R242, R245, R246).
-/
namespace Sys2Proof.Machine

/-- The X fields and operands that a row of R245 names; every other field is RSV (R240, R245). -/
structure EUse where
  sh : Bool := false
  wrap : Bool := false
  immb : Bool := false
  imm : Bool := false
  useB : Bool := true
  useC : Bool := false
  splat : Bool := false
  deriving DecidableEq, Repr

/-- The E-format fields keep their rules: SH up to 47, RSV bits 0, and the shape of vector registers 16 by 16 (R240, R241). -/
def eOk (x : Word) (u : EUse) : Bool :=
  !x.getLsbD 16 && (if u.sh then decide (xSh x < 48) else xSh x == 0) && (u.wrap || !xWrap x) && (u.immb || !xImmb x) &&
  (u.imm || xImmb x || fld x 15 0 == 0) &&
  (if xBlk x then (shapeOf (eBw x)).isSome && (shapeOf (eBh x)).isSome else eBw x == 2 && eBh x == 2)

/-- W of an E-format instruction. -/
def eW (x : Word) : Nat := (shapeOf (eBw x)).getD 16
/-- H of an E-format instruction. -/
def eH (x : Word) : Nat := (shapeOf (eBh x)).getD 16

/-- The block registers that an instruction with BLK = 1 names. -/
def eBlocks (i : Ins) (u : EUse) (dest : Bool) : List Nat :=
  (if dest then [i.d] else []) ++ (if u.splat then [] else [i.a]) ++
  (if u.useB && !xImmb i.x then [i.b] else []) ++ (if u.useC then [i.c] else [])

/-- Element (x, y) of register operand r of an E-format instruction: of a vector, or of a block register. -/
def State.eElem (s : State) (n q : Nat) (blk : Bool) (r x y : Nat) : Int :=
  if blk then s.belem n r x y else (s.seq n q).velem r (16 * y + x)

/-- The three operand values at (x, y): a, b or IMM, and c (R245). -/
def State.eArgs (s : State) (n q : Nat) (i : Ins) (u : EUse) (x y : Nat) : Int × Int × Int :=
  let blk := xBlk i.x
  (if u.splat then sat24 (s.sint n q i.a) else s.eElem n q blk i.a x y,
   if xImmb i.x then xImm i.x else if u.useB then s.eElem n q blk i.b x y else 0,
   if u.useC then s.eElem n q blk i.c x y else 0)

/-- The guard form of an E-format instruction (R242). -/
def eForm (x : Word) : GuardForm := if xBlk x then .block else .vector

/-- An element instruction: D receives f of the operand values at every position (R245). -/
def elemOp (s : State) (n q : Nat) (ins : Instr) (i : Ins) (u : EUse) (extra : Bool) (f : Int → Int → Int → Int) : Result :=
  act s fun s => runSeq s n q ins i true false (eForm i.x) fun s =>
    if !eOk i.x u || !extra then .bad 2
    else
      let g := fun x y => let v := s.eArgs n q i u x y; f v.1 v.2.1 v.2.2
      if xBlk i.x then
        match s.owned n q (eBlocks i u true) with
        | some r => r
        | none => .done (s.setB n i.d (eW i.x) (eH i.x) g)
      else .done (s.setV n q i.d ((s.seq n q).guard i) (fun e => g (e % 16) (e / 16)))

/-- VADD (R245): narrow(a + b). -/
def execVadd (n q : Nat) (i : Ins) (s : State) : Result :=
  elemOp s n q (.vadd n q i) i ({ wrap := true, immb := true } : EUse) true fun a b _ => narrow24 (xWrap i.x) (a + b)

/-- VSUB (R245): narrow(a - b). -/
def execVsub (n q : Nat) (i : Ins) (s : State) : Result :=
  elemOp s n q (.vsub n q i) i ({ wrap := true, immb := true } : EUse) true fun a b _ => narrow24 (xWrap i.x) (a - b)

/-- VABS (R245): narrow(the magnitude of a). -/
def execVabs (n q : Nat) (i : Ins) (s : State) : Result :=
  elemOp s n q (.vabs n q i) i ({ wrap := true, useB := false } : EUse) true fun a _ _ => narrow24 (xWrap i.x) (a.natAbs : Int)

/-- VMIN (R245): min(a, b). -/
def execVmin (n q : Nat) (i : Ins) (s : State) : Result :=
  elemOp s n q (.vmin n q i) i ({ immb := true } : EUse) true fun a b _ => min a b

/-- VMAX (R245): max(a, b). -/
def execVmax (n q : Nat) (i : Ins) (s : State) : Result :=
  elemOp s n q (.vmax n q i) i ({ immb := true } : EUse) true fun a b _ => max a b

/-- VAND (R245): bitwise and of the 24-bit patterns. -/
def execVand (n q : Nat) (i : Ins) (s : State) : Result :=
  elemOp s n q (.vand n q i) i ({ immb := true } : EUse) true fun a b _ => (elem a &&& elem b).toInt

/-- VOR (R245): bitwise or of the 24-bit patterns. -/
def execVor (n q : Nat) (i : Ins) (s : State) : Result :=
  elemOp s n q (.vor n q i) i ({ immb := true } : EUse) true fun a b _ => (elem a ||| elem b).toInt

/-- VXOR (R245): bitwise exclusive or of the 24-bit patterns. -/
def execVxor (n q : Nat) (i : Ins) (s : State) : Result :=
  elemOp s n q (.vxor n q i) i ({ immb := true } : EUse) true fun a b _ => (elem a ^^^ elem b).toInt

/-- VSHL (R245): narrow(a × 2^SH). -/
def execVshl (n q : Nat) (i : Ins) (s : State) : Result :=
  elemOp s n q (.vshl n q i) i ({ sh := true, wrap := true, useB := false } : EUse) true fun a _ _ => narrow24 (xWrap i.x) (a * 2 ^ xSh i.x)

/-- VSHR (R245): (a + rnd(SH)) >> SH, and with IMM[0] = 1 a >> SH. -/
def execVshr (n q : Nat) (i : Ins) (s : State) : Result :=
  elemOp s n q (.vshr n q i) i ({ sh := true, imm := true, useB :=
      false } : EUse) (decide (fld i.x 15 0 ≤ 1)) fun a _ _ => asr (a + (if i.x.getLsbD 0 then 0 else rnd (xSh i.x))) (xSh i.x)

/-- VMOV (R245): a. -/
def execVmov (n q : Nat) (i : Ins) (s : State) : Result :=
  elemOp s n q (.vmov n q i) i ({ useB := false } : EUse) true fun a _ _ => a

/-- VSPLAT (R245): sat(sA), or IMM, in every element. -/
def execVsplat (n q : Nat) (i : Ins) (s : State) : Result :=
  elemOp s n q (.vsplat n q i) i ({ immb := true, useB := false, splat := true } : EUse) true fun a b _ => if xImmb i.x then b else a

/-- VMUL (R245): narrow((a × b + rnd(SH)) >> SH). -/
def execVmul (n q : Nat) (i : Ins) (s : State) : Result :=
  elemOp s n q (.vmul n q i) i ({ sh := true, wrap := true, immb :=
      true } : EUse) true fun a b _ => narrow24 (xWrap i.x) (asr (a * b + rnd (xSh i.x)) (xSh i.x))

/-- VMAD (R245): narrow(((a × b + rnd(SH)) >> SH) + c). -/
def execVmad (n q : Nat) (i : Ins) (s : State) : Result :=
  elemOp s n q (.vmad n q i) i ({ sh := true, wrap := true, immb := true, useC :=
      true } : EUse) true fun a b c => narrow24 (xWrap i.x) (asr (a * b + rnd (xSh i.x)) (xSh i.x) + c)

/-- VAVG (R245): (a + b + 1) >> 1. -/
def execVavg (n q : Nat) (i : Ins) (s : State) : Result :=
  elemOp s n q (.vavg n q i) i ({ immb := true } : EUse) true fun a b _ => asr (a + b + 1) 1

/-- VABSD (R245): narrow(the magnitude of a - b). -/
def execVabsd (n q : Nat) (i : Ins) (s : State) : Result :=
  elemOp s n q (.vabsd n q i) i ({ wrap := true, immb := true } : EUse) true fun a b _ => narrow24 (xWrap i.x) ((a - b).natAbs : Int)

/-- VCLIP (R245): min(max(a, b), c). -/
def execVclip (n q : Nat) (i : Ins) (s : State) : Result :=
  elemOp s n q (.vclip n q i) i ({ useC := true } : EUse) true fun a b c => min (max a b) c

/-- VCLIPD (R245): min(max(a, 0), 2^IMM - 1), IMM 1 to 23. -/
def execVclipd (n q : Nat) (i : Ins) (s : State) : Result :=
  elemOp s n q (.vclipd n q i) i ({ imm := true, useB := false } : EUse) (decide (1 ≤ fld i.x 15 0) &&
      decide (fld i.x 15 0 ≤ 23)) fun a _ _ => min (max a 0) (2 ^ fld i.x 15 0 - 1)

/-- VSGN (R245): a when b is not negative, else narrow(-a). -/
def execVsgn (n q : Nat) (i : Ins) (s : State) : Result :=
  elemOp s n q (.vsgn n q i) i ({ wrap := true, immb := true } : EUse) true fun a b _ => if 0 ≤ b then a else narrow24 (xWrap i.x) (-a)

/-- VSEL (R246): a where bit e of p(C[2:0]) is 1, else b. For block registers the spec does not say which bit an element
takes; it is open (log entry 9). -/
def execVsel (n q : Nat) (i : Ins) (s : State) : Result :=
  act s fun s => runSeq s n q (.vsel n q i) i true false (eForm i.x) fun s =>
    let u : EUse := { immb := true }
    if !eOk i.x u || 8 ≤ i.c then .bad 2
    else if xBlk i.x then
      match s.owned n q (eBlocks i u true) with
      | some r => r
      | none =>
        let t := s.setB n i.d (eW i.x) (eH i.x) (fun x y =>
          let v := s.eArgs n q i u x y
          if bit (Config.freeValue (s.free + 64 * y + x)) 0 then v.1 else v.2.1)
        .done { t with free := s.free + 4096 }
    else
      let p := (s.seq n q).preg i.c
      .done (s.setV n q i.d ((s.seq n q).guard i) (fun e =>
        let v := s.eArgs n q i u (e % 16) (e / 16)
        if p.getLsbD e then v.1 else v.2.1))

/-- VCMP (R246): the condition SH[2:0] of a and b, combined by SH[4:3] with the old bits of p(D[2:0]). An element whose
guard bit is 0 keeps its bit. -/
def execVcmp (n q : Nat) (i : Ins) (s : State) : Result :=
  act s fun s => runSeq s n q (.vcmp n q i) i true false (eForm i.x) fun s =>
    let u : EUse := { sh := true, immb := true }
    if !eOk i.x u || xBlk i.x || 8 ≤ i.d || 32 ≤ xSh i.x then .bad 2
    else
      let x := s.seq n q
      let old := x.preg i.d
      let g := x.guard i
      .done (s.setP n q i.d (packBits (fun e =>
        let v := s.eArgs n q i u (e % 16) (e / 16)
        if g.getLsbD e then combine (xSh i.x / 8) (old.getLsbD e) (cond 24 (xSh i.x % 8) v.1 v.2.1) else old.getLsbD e)))

/-- VTRANS (R245): element (x, y) of D takes element (y, x) of A. BLK = 1 is illegal. -/
def execVtrans (n q : Nat) (i : Ins) (s : State) : Result :=
  act s fun s => runSeq s n q (.vtrans n q i) i true false (eForm i.x) fun s =>
    let u : EUse := { useB := false }
    if !eOk i.x u || xBlk i.x then .bad 2
    else
      let x := s.seq n q
      .done (s.setV n q i.d (x.guard i) (fun e => x.velem i.a (16 * (e % 16) + e / 16)))

end Sys2Proof.Machine
end

