-- ==== Sys2Proof/Machine/LenXform.lean ====
section
/-!
DEFINITION. Lenong filters, transforms and quantization (R255 to R260).
-/
namespace Sys2Proof.Machine

/-- A K-format instruction: SH up to 47, MODE below `modes`, a legal shape, and every table of `words` inside the store
(R240, R241, R258). -/
def tableOp (s : State) (n q : Nat) (ins : Instr) (i : Ins) (modes : Nat) (legal : Nat → Nat → Bool)
    (words : State → Nat → Nat → Nat) (bs : List Nat) (f : State → Nat → Nat → SeqRes) : Result :=
  act s fun s => runSeq s n q ins i true false .block fun s =>
    match kShape i.x with
    | none => .bad 2
    | some (w, h) =>
      if 48 ≤ kSh i.x ∨ modes ≤ kMode i.x ∨ !legal w h then .bad 2
      else if !tabFits (kTab i.x) (words s w h) then .bad 6
      else
        match s.owned n q bs with
        | some r => r
        | none => f s w h

/-- BFIR (R255): filters b(A) along rows or columns with the taps of phase sB. -/
def execBfir (n q : Nat) (i : Ins) (s : State) : Result :=
  let taps := kNt i.x + 1
  let phase := fun (s : State) => 4 * ((s.seq n q).sreg i.b).toNat
  tableOp s n q (.bfir n q i) i 2
    (fun w h => decide (1 < taps) && decide ((if kDir i.x then h else w) + taps ≤ 65))
    (fun s _ _ => phase s + 4) [i.d, i.a] fun s w h =>
      .done (s.setB n i.d w h fun x y =>
        let acc := (List.range taps).foldl (fun a k =>
          a + s.tabInt n (kTab i.x + phase s) k * (if kDir i.x then s.belem n i.a x (y + k) else s.belem n i.a (x + k) y)) 0
        narrow24 (bit (kMode i.x) 0) (asr (acc + rnd (kSh i.x)) (kSh i.x)))

/-- Element k of line l of block register b: along a row, or along a column (R256). -/
def State.lineElem (s : State) (n b : Nat) (dir : Bool) (l k : Nat) : Int :=
  if dir then s.belem n b l k else s.belem n b k l

/-- Writes W by H elements of b(D) from a function of line and position. -/
def State.setLines (s : State) (n d w h : Nat) (dir : Bool) (f : Nat → Nat → Int) : State :=
  s.setB n d w h (fun x y => if dir then f x y else f y x)

/-- Point k after a butterfly pass over a line of N points; a later pair stands over an earlier one (R256). -/
def State.butterfly (s : State) (n k0 size sh : Nat) (wrap : Bool) (line : Nat → Int) (k : Nat) : Int :=
  (List.range (size / 2)).foldl (fun v m =>
    let w := (s.tabWord n (k0 + m)).toNat
    let a := bits w 5 0
    let b := bits w 11 6
    let c := fun e => s.tabInt n (k0 + size / 2) (4 * m + e)
    let pt := fun e => narrow24 wrap (asr (c e * line a + c (e + 1) * line b + rnd sh) sh)
    if b = k then pt 2 else if a = k then pt 0 else v) (line k)

/-- BFLY (R256): one butterfly pass on every line. -/
def execBfly (n q : Nat) (i : Ins) (s : State) : Result :=
  let size := fun (w h : Nat) => if kDir i.x then h else w
  tableOp s n q (.bfly n q i) i 8 (fun _ _ => true) (fun _ w h => size w h / 2 * 3) [i.d, i.a] fun s w h =>
    let z := size w h
    let pairOk := fun m =>
      let p := (s.tabWord n (kTab i.x + m)).toNat
      decide (bits p 5 0 < z) && decide (bits p 11 6 < z) && decide (p < 4096)
    if !(List.range (z / 2)).all pairOk then .bad 2
    else .done (s.setLines n i.d w h (kDir i.x) fun l k =>
      s.butterfly n (kTab i.x) z (kSh i.x) (bit (kMode i.x) 0) (fun e => s.lineElem n i.a (kDir i.x) l e) k)

/-- BMAT (R257): every line times an N by N matrix, or its transpose, keeping N >> NT outputs. -/
def execBmat (n q : Nat) (i : Ins) (s : State) : Result :=
  let size := fun (w h : Nat) => if kDir i.x then h else w
  tableOp s n q (.bmat n q i) i 8 (fun _ _ => kNt i.x % 4 != 3) (fun _ w h => size w h * size w h / 2)
    [i.d, i.a] fun s w h =>
      let z := size w h
      .done (s.setLines n i.d w h (kDir i.x) fun l r =>
        if z / 2 ^ (kNt i.x % 4) ≤ r then 0
        else
          let acc := (List.range z).foldl (fun a k =>
            a + s.tabInt n (kTab i.x) (if bit (kMode i.x) 1 then z * k + r else z * r + k) *
              s.lineElem n i.a (kDir i.x) l k) 0
          narrow24 (bit (kMode i.x) 0) (asr (acc + rnd (kSh i.x)) (kSh i.x)))

/-- The scale m of one position (R259); its scalar is narrowed by sat, as one that feeds an element operation (R243). -/
def State.scaleAt (s : State) (n q : Nat) (i : Ins) (pos : Nat) : Int :=
  min ((s.tabHalf n (kTab i.x) pos : Int) * max (sat24 (s.sint n q i.b)) 0 / 16) 8388607

/-- DIR, NT and MODE of the quantization opcodes read 0 (R259). -/
def quantOk (x : Word) : Bool := !kDir x && kNt x == 0

/-- A quantization opcode: b(D) receives f of the element and its scale (R259). -/
def quantOp (s : State) (n q : Nat) (ins : Instr) (i : Ins) (f : State → Int → Int → Int) : Result :=
  tableOp s n q ins i 1 (fun _ _ => quantOk i.x) (fun _ w h => w * h / 2) [i.d, i.a] fun s w h =>
    .done (s.setB n i.d w h fun x y => f s (s.belem n i.a x y) (s.scaleAt n q i (y * w + x)))

/-- sign of R259. -/
def sgn (c : Int) : Int := if c < 0 then -1 else 1

/-- BQUANT (R243, R259): levels with the rounding offset sC, narrowed by sat. -/
def execBquant (n q : Nat) (i : Ins) (s : State) : Result :=
  quantOp s n q (.bquant n q i) i fun s c m =>
    sgn c * sat24 (asr ((c.natAbs : Int) * m + max (sat24 (s.sint n q i.c)) 0) (kSh i.x))

/-- BQCAND (R259): the floor level to b(D) and its remainder in 1/256 to b(C). -/
def execBqcand (n q : Nat) (i : Ins) (s : State) : Result :=
  tableOp s n q (.bqcand n q i) i 1 (fun _ _ => quantOk i.x && i.c != i.d && i.c != i.a)
    (fun _ w h => w * h / 2) [i.d, i.a, i.c] fun s w h =>
      let m := fun x y => s.scaleAt n q i (y * w + x)
      let lev := fun x y => let c := s.belem n i.a x y; sgn c * sat24 (asr ((c.natAbs : Int) * m x y) (kSh i.x))
      let frac := fun x y =>
        if kSh i.x < 8 then 0 else asr ((s.belem n i.a x y).natAbs * m x y) (kSh i.x - 8) % 256
      .done ((s.setB n i.d w h lev).setB n i.c w h frac)

/-- BDEQ (R259): the scaled coefficient. -/
def execBdeq (n q : Nat) (i : Ins) (s : State) : Result :=
  quantOp s n q (.bdeq n q i) i fun _ l m => sat24 (asr (l * m + rnd (kSh i.x)) (kSh i.x))

/-- BLAST (R260): the highest scan index whose element is not zero, or -1. -/
def execBlast (n q : Nat) (i : Ins) (s : State) : Result :=
  tableOp s n q (.blast n q i) i 8 (fun _ _ => true) (fun _ w h => w * h / 2) [i.a] fun s w h =>
    let e := fun k => s.tabHalf n (kTab i.x) k
    if !(List.range (w * h)).all (fun k => decide (bits (e k) 5 0 < w) && decide (bits (e k) 11 6 < h)) then .bad 2
    else .done (s.setS n q i.d (word ((List.range (w * h)).foldl (fun (m : Int) k =>
      if s.belem n i.a (bits (e k) 5 0) (bits (e k) 11 6) ≠ 0 then (k : Int) else m) (-1))))

end Sys2Proof.Machine
end

