-- ==== Sys2Proof/Machine/LenReduce.lean ====
section
/-!
DEFINITION. Lenong reductions and the motion search walker (R261 to R265).
-/
namespace Sys2Proof.Machine

/-- Sum of f over the positions of a shape. -/
def sumOver (w h : Nat) (f : Nat → Nat → Int) : Int :=
  (List.range (w * h)).foldl (fun a e => a + f (e % w) (e / w)) 0

/-- Entry (r, k) of the Sylvester Hadamard matrix: -1 when r and k share an odd number of set bits (R262). -/
def hadamard (r k : Nat) : Int :=
  if ((List.range 3).filter (fun e => bit r e && bit k e)).length % 2 = 0 then 1 else -1

/-- |T| summed over one g by g sub-block of d, divided and rounded (R262). -/
def satdBlock (g : Nat) (d : Nat → Nat → Int) : Int :=
  let mid := fun r x => (List.range g).foldl (fun a k => a + hadamard r k * d x k) 0
  let t := fun r c => (List.range g).foldl (fun a k => a + mid r k * hadamard k c) 0
  let k := if g = 4 then 1 else 2
  asr (sumOver g g (fun c r => ((t r c).natAbs : Int)) + rnd k) k

/-- RSATD of a shape (R262), before saturation. -/
def satd (g w h : Nat) (d : Nat → Nat → Int) : Int :=
  sumOver (w / g) (h / g) (fun bx cy => satdBlock g (fun x y => d (g * bx + x) (g * cy + y)))

/-- A reduction: s(D) and the registers after it receive what f makes of the operand elements over the shape (R261). -/
def reduceOp (s : State) (n q : Nat) (ins : Instr) (i : Ins) (u : EUse) (regs : Nat) (legal : Nat → Nat → Bool)
    (f : (Nat → Nat → Int × Int × Int) → Nat → Nat → List Int) : Result :=
  act s fun s => runSeq s n q ins i true false (eForm i.x) fun s =>
    if !eOk i.x u || !legal (eW i.x) (eH i.x) || decide (32 < i.d + regs) then .bad 2
    else
      let go := fun (_ : Unit) =>
        let vs := f (s.eArgs n q i u) (eW i.x) (eH i.x)
        SeqRes.done ((List.range regs).foldl (fun t k => t.setS n q (i.d + k) (word (vs.getD k 0))) s)
      if xBlk i.x then
        match s.owned n q (eBlocks i u false) with
        | some r => r
        | none => go ()
      else go ()

/-- RSAD (R261): the sum of |a - b|, saturated. -/
def execRsad (n q : Nat) (i : Ins) (s : State) : Result :=
  reduceOp s n q (.rsad n q i) i { immb := true } 1 (fun _ _ => true) fun v w h =>
    [sat32 (sumOver w h (fun x y => (((v x y).1 - (v x y).2.1).natAbs : Int)))]

/-- RSATD (R261, R262): over 4 by 4 or 8 by 8 sub-blocks. -/
def execRsatd (n q : Nat) (i : Ins) (s : State) : Result :=
  let g := if i.x.getLsbD 0 then 8 else 4
  reduceOp s n q (.rsatd n q i) i { imm := true } 1
    (fun w h => decide (g ≤ w) && decide (g ≤ h) && decide (fld i.x 15 0 ≤ 1)) fun v w h =>
      [sat32 (satd g w h (fun x y => (v x y).1 - (v x y).2.1))]

/-- RSSE (R261): the sum of squares, rounded and shifted. -/
def execRsse (n q : Nat) (i : Ins) (s : State) : Result :=
  reduceOp s n q (.rsse n q i) i { sh := true, immb := true } 1 (fun _ _ => true) fun v w h =>
    let acc := min (sumOver w h (fun x y => sat24 ((v x y).1 - (v x y).2.1) ^ 2)) (2 ^ 48 - 1)
    [min (asr (acc + rnd (xSh i.x)) (xSh i.x)) 2147483647]

/-- RSUM (R261): the sum of a, rounded, shifted and saturated. -/
def execRsum (n q : Nat) (i : Ins) (s : State) : Result :=
  reduceOp s n q (.rsum n q i) i { sh := true, useB := false } 1 (fun _ _ => true) fun v w h =>
    [sat32 (asr (sumOver w h (fun x y => (v x y).1) + rnd (xSh i.x)) (xSh i.x))]

/-- The least element and the lowest index y × W + x that holds it. -/
def argMin (w h : Nat) (f : Nat → Nat → Int) : Int × Nat :=
  (List.range (w * h)).foldl (fun a e => let v := f (e % w) (e / w); if v < a.1 then (v, e) else a) (f 0 0, 0)

/-- RMIN (R261): the minimum of a. -/
def execRmin (n q : Nat) (i : Ins) (s : State) : Result :=
  reduceOp s n q (.rmin n q i) i { useB := false } 1 (fun _ _ => true) fun v w h =>
    [(argMin w h (fun x y => (v x y).1)).1]

/-- RARGMIN (R261): the minimum of a and its lowest index. D is at most 30. -/
def execRargmin (n q : Nat) (i : Ins) (s : State) : Result :=
  reduceOp s n q (.rargmin n q i) i { useB := false } 2 (fun _ _ => true) fun v w h =>
    let r := argMin w h (fun x y => (v x y).1)
    [r.1, (r.2 : Int)]

/-! ### The walker (R263 to R265) -/

/-- A packed motion vector: x in [15:0], y in [31:16]. -/
def mvOf (w : Nat) : Int × Int := (signed 16 (bits w 15 0), signed 16 (bits w 31 16))

/-- A motion vector as a packed word. -/
def mvPack (v : Int × Int) : Word := BitVec.ofNat 32 (narrow 16 v.1 + 65536 * narrow 16 v.2)

/-- The walker's descriptor (R263). -/
structure Walk where
  pred : Int × Int
  lambda : Nat
  et : Nat
  hsr : Nat
  vsr : Nat
  steps : Nat
  points : Nat
  pats : List (Int × Int)
  once : Bool
  bx : Nat
  by' : Nat
  mvc : List Nat
  deriving DecidableEq, Repr

/-- Word k of the sequencer's local memory. -/
def Seq.lword (x : Seq) (k : Nat) : Nat := leNat ((List.range 4).map (fun e => mgetD x.mem (4 * k + e) 0))

/-- The descriptor at word k, where its tables lie inside local memory and its fields keep their rules. `none` in the
second place is a MEMORY_INDEX fault, and a wrong field one of BAD_FIELD. -/
def Seq.walk (x : Seq) (k : Nat) : Except Nat Walk :=
  let w := fun j => x.lword (k + j)
  let patBase := bits (w 5) 31 16
  let patLen := bits (w 5) 15 8
  let mvcBase := bits (w 7) 15 0
  if 1016 < k ∨ 1024 < patBase + patLen ∨ 1024 < mvcBase + 64 then .error (if 1016 < k then 2 else 5)
  else if patLen < 1 ∨ 64 < patLen ∨ 1 < bits (w 5) 7 0 ∨ bits (w 4) 31 16 = 0 ∨ bits (w 4) 15 0 = 0 ∨
      bits (w 7) 31 16 ≠ 0 then .error 2
  else .ok {
    pred := mvOf (w 0), lambda := w 1, et := w 2, hsr := bits (w 3) 15 0, vsr := bits (w 3) 31 16
    steps := bits (w 4) 31 16, points := bits (w 4) 15 0
    pats := (List.range patLen).map (fun e => mvOf (x.lword (patBase + e)))
    once := bits (w 5) 7 0 == 1, bx := bits (w 6) 15 0, by' := bits (w 6) 31 16
    mvc := (List.range 256).map (fun e => (mgetD x.mem (4 * mvcBase + e) 0).toNat) }

/-- The walker's running values, and the vectors evaluated, newest first. -/
structure WalkState where
  best : Int × Int
  cost : Nat
  points : Nat
  seen : List (Int × Int) := []
  deriving DecidableEq, Repr

/-- One pattern pass about a centre: a candidate is evaluated inside the range while points and ET allow. -/
def Walk.pass (d : Walk) (f : Nat → Int × Int → Nat) (centre : Int × Int) (a : WalkState) : WalkState :=
  d.pats.foldl (fun a p =>
    let c : Int × Int := (centre.1 + p.1, centre.2 + p.2)
    if c.1.natAbs ≤ d.hsr ∧ c.2.natAbs ≤ d.vsr ∧ a.points < d.points ∧ d.et < a.cost then
      let v := f a.points c
      let b := { a with points := a.points + 1, seen := c :: a.seen }
      if v < a.cost then { b with best := c, cost := v } else b
    else a) a

/-- The passes of R264, at most `fuel` of them. -/
def Walk.loop (d : Walk) (f : Nat → Int × Int → Nat) : Nat → Int × Int → WalkState → WalkState
  | 0, _, a => a
  | fuel + 1, centre, a =>
    if d.et < a.cost ∧ a.points < d.points then
      let r := d.pass f centre a
      if r.best ≠ centre ∧ !d.once then d.loop f fuel r.best r else r
    else a

/-- The whole search: f gives the cost of the vector evaluated after so many points (R264). -/
def Walk.run (d : Walk) (start : Int × Int) (f : Nat → Int × Int → Nat) : WalkState :=
  let c : Int × Int := (max (-(d.hsr : Int)) (min start.1 d.hsr), max (-(d.vsr : Int)) (min start.2 d.vsr))
  d.loop f d.steps c { best := c, cost := f 0 c, points := 1, seen := [c] }

/-- MSWALK (R263 to R265). Each reference load is one of R249, with its wait (R216), in the order in which the search makes
them; a load that cannot complete stops the search there. `host` are the bytes of host memory that the loads read. -/
def execMswalk (n q : Nat) (i : Ins) (host : List Host.Cell) (s : State) : Result :=
  act s fun s => runSeq s n q (.mswalk n q i host) i true false .block fun s =>
    match kShape i.x with
    | none => .bad 2
    | some (w, h) =>
      let met := wMetric i.x
      let g := if met = 2 then 8 else 4
      if 3 ≤ met ∨ (met ≠ 0 ∧ (w < g ∨ h < g)) ∨ fld i.x 23 12 ≠ 0 ∨ 29 < i.d then .bad 2
      else
        withJob s n q fun j x st =>
          match s.surf x st ((s.seq n q).sreg i.b), (s.seq n q).walk (wDesc i.x) with
          | none, _ => .bad 2
          | some _, .error c => .bad c
          | some f, .ok d =>
            match s.owned n q [i.a] with
            | some r => r
            | none =>
              let at' := fun (v : Int × Int) => ((d.bx : Int) + v.1, (d.by' : Int) + v.2)
              let cost := fun (_ : Nat) (v : Int × Int) =>
                let df := fun dx dy => s.belem n i.a dx dy - (s.surfSample x st f 0 host (at' v).1 (at' v).2 dx dy : Nat)
                let dist := sat32 (if met = 0 then sumOver w h (fun x y => ((df x y).natAbs : Int)) else satd g w h df)
                let b := fun a c => d.mvc.getD (min (a - c : Int).natAbs 255) 0
                min (dist.toNat + (d.lambda * (b v.1 d.pred.1 + b v.2 d.pred.2) + 128) / 256) 2147483647
              let r := d.run (mvOf ((s.seq n q).sreg i.c).toNat) cost
              match r.seen.reverse.findSome? (fun v => s.blockStop j x st f host 0 (at' v).1 (at' v).2 w h) with
              | some k => s.stopRes n j x k
              | none =>
                let t := ((s.setS n q i.d (mvPack r.best)).setS n q (i.d + 1) (BitVec.ofNat 32 r.cost)).setS n q (i.d + 2)
                  (BitVec.ofNat 32 r.points)
                .done (State.noteRead { t with free := s.free + 4096 } j x st f)

end Sys2Proof.Machine
end

