-- ==== Sys2Proof/Machine/LenScalar.lean ====
section
/-!
DEFINITION. Lenong control, scalar, memory and predicate instructions (R246, R247, R266 to R269).
-/
namespace Sys2Proof.Machine

/-- NOP (R244). -/
def execNop (n q : Nat) (i : Ins) (s : State) : Result :=
  act s fun s => runSeq s n q (.nop n q i) i true true .scalar fun s => .done s

/-- JMP (R268): every loop whose body does not hold the target ends, with the loops nested inside it. -/
def execJmp (n q : Nat) (i : Ins) (s : State) : Result :=
  act s fun s => runSeq s n q (.jmp n q i) i true true .scalar fun s =>
    let t := jTarget i.x
    let keep := fun (l : List LoopRec) => (l.reverse.takeWhile (fun r => decide (r.start ≤ t) && decide (t ≤ r.last))).reverse
    .jump (s.modSeq n q (fun x => { x with loops := keep x.loops })) t

/-- CALL (R268). -/
def execCall (n q : Nat) (i : Ins) (s : State) : Result :=
  act s fun s => runSeq s n q (.call n q i) i true true .scalar fun s =>
    let x := s.seq n q
    if 8 ≤ x.calls.length then .bad 4
    else .jump (s.modSeq n q (fun y => { y with calls := (x.pc + 1) % 32768 :: y.calls })) (jTarget i.x)

/-- RET (R268). -/
def execRet (n q : Nat) (i : Ins) (s : State) : Result :=
  act s fun s => runSeq s n q (.ret n q i) i true true .scalar fun s =>
    match (s.seq n q).calls with
    | [] => .bad 4
    | r :: t => .jump (s.modSeq n q (fun y => { y with calls := t })) r

/-- LOOP (R268). -/
def execLoop (n q : Nat) (i : Ins) (s : State) : Result :=
  act s fun s => runSeq s n q (.loop n q i) i true true .scalar fun s =>
    let x := s.seq n q
    let t := jTarget i.x
    let count := if jCnt i.x then jImm i.x else (x.sreg i.a).toNat
    if t ≤ x.pc then .bad 2
    else if count = 0 then .jump s (t + 1)
    else if 4 ≤ x.loops.length then .bad 4
    else .jump (s.modSeq n q (fun y => { y with
      loops := { start := x.pc + 1, last := t, left := count } :: y.loops })) (x.pc + 1)

/-- JEND (R238, R269): the sequencer's part of the job ends. -/
def execJend (n q : Nat) (i : Ins) (s : State) : Result :=
  act s fun s => runSeq s n q (.jend n q i) i true true .scalar fun s =>
    match (s.seq n q).job with
    | some j => .ended (s.endSeq n q j)
    | none => .done s

/-- Operand B of a scalar opcode: sB, or IMM32 when C[4] = 1 (R266). -/
def State.opB (s : State) (n q : Nat) (i : Ins) : Word := if bit i.c 4 then i.x else (s.seq n q).sreg i.b

/-- A scalar ALU instruction: C[3:0] reads 0, and s(D) receives a function of the operands (R266). -/
def scalarOp (s : State) (n q : Nat) (ins : Instr) (i : Ins) (f : Word → Word → Word) : Result :=
  act s fun s => runSeq s n q ins i true true .scalar fun s =>
    if i.c % 16 ≠ 0 then .bad 2 else .done (s.setS n q i.d (f ((s.seq n q).sreg i.a) (s.opB n q i)))

/-- SADD (R266): s(D) = a + b, modulo 2^32. -/
def execSadd (n q : Nat) (i : Ins) (s : State) : Result :=
  scalarOp s n q (.sadd n q i) i fun a b => a + b

/-- SSUB (R266): s(D) = a - b, modulo 2^32. -/
def execSsub (n q : Nat) (i : Ins) (s : State) : Result :=
  scalarOp s n q (.ssub n q i) i fun a b => a - b

/-- SMUL (R266): the low 32 bits of the product. -/
def execSmul (n q : Nat) (i : Ins) (s : State) : Result :=
  scalarOp s n q (.smul n q i) i fun a b => word (a.toInt * b.toInt)

/-- SMULH (R266): the high 32 bits of the signed product. -/
def execSmulh (n q : Nat) (i : Ins) (s : State) : Result :=
  scalarOp s n q (.smulh n q i) i fun a b => word (a.toInt * b.toInt / 2 ^ 32)

/-- SDIV (R266): signed, truncated toward zero; a divisor of 0 gives 0. -/
def execSdiv (n q : Nat) (i : Ins) (s : State) : Result :=
  scalarOp s n q (.sdiv n q i) i fun a b => if b = 0 then 0 else word (a.toInt.tdiv b.toInt)

/-- SAND (R266): bitwise and. -/
def execSand (n q : Nat) (i : Ins) (s : State) : Result :=
  scalarOp s n q (.sand n q i) i fun a b => a &&& b

/-- SOR (R266): bitwise or. -/
def execSor (n q : Nat) (i : Ins) (s : State) : Result :=
  scalarOp s n q (.sor n q i) i fun a b => a ||| b

/-- SXOR (R266): bitwise exclusive or. -/
def execSxor (n q : Nat) (i : Ins) (s : State) : Result :=
  scalarOp s n q (.sxor n q i) i fun a b => a ^^^ b

/-- SSHL (R266): left by b[5:0]. -/
def execSshl (n q : Nat) (i : Ins) (s : State) : Result :=
  scalarOp s n q (.sshl n q i) i fun a b => if 32 ≤ b.toNat % 64 then 0 else a <<< (b.toNat % 64)

/-- SSHR (R266): logical right by b[5:0]. -/
def execSshr (n q : Nat) (i : Ins) (s : State) : Result :=
  scalarOp s n q (.sshr n q i) i fun a b => if 32 ≤ b.toNat % 64 then 0 else a >>> (b.toNat % 64)

/-- SSRA (R266): arithmetic right by b[5:0]. -/
def execSsra (n q : Nat) (i : Ins) (s : State) : Result :=
  scalarOp s n q (.ssra n q i) i fun a b => word (asr a.toInt (b.toNat % 64))

/-- SMIN (R266): signed minimum. -/
def execSmin (n q : Nat) (i : Ins) (s : State) : Result :=
  scalarOp s n q (.smin n q i) i fun a b => word (min a.toInt b.toInt)

/-- SMAX (R266): signed maximum. -/
def execSmax (n q : Nat) (i : Ins) (s : State) : Result :=
  scalarOp s n q (.smax n q i) i fun a b => word (max a.toInt b.toInt)

/-- SADDS (R266): a + b saturated to 32 bits. -/
def execSadds (n q : Nat) (i : Ins) (s : State) : Result :=
  scalarOp s n q (.sadds n q i) i fun a b => word (sat32 (a.toInt + b.toInt))

/-- Leading zero bits of a word. -/
def leadZeros (a : Word) : Nat := ((List.range 32).takeWhile (fun k => !a.getLsbD (31 - k))).length

/-- SCLZ (R266): leading zero bits, 0 to 32. -/
def execSclz (n q : Nat) (i : Ins) (s : State) : Result :=
  scalarOp s n q (.sclz n q i) i fun a _ => BitVec.ofNat 32 (leadZeros a)

/-- SLI (R266): s(D) = IMM32. -/
def execSli (n q : Nat) (i : Ins) (s : State) : Result := scalarOp s n q (.sli n q i) i fun _ _ => i.x

/-- SCMP (R246): compares sA with sB, or IMM32 when C[4] = 1, and sets every bit of p(D[2:0]). -/
def execScmp (n q : Nat) (i : Ins) (s : State) : Result :=
  act s fun s => runSeq s n q (.scmp n q i) i true true .scalar fun s =>
    if bit i.c 3 then .bad 2
    else .done (s.setP n q (i.d % 8) (allBits (cond 32 (i.c % 8) (s.sint n q i.a) (s.opB n q i).toInt)))

/-- SSEL (R246): sA when bit 0 of p(C[2:0]) is 1, else sB. -/
def execSsel (n q : Nat) (i : Ins) (s : State) : Result :=
  act s fun s => runSeq s n q (.ssel n q i) i true true .scalar fun s =>
    if 8 ≤ i.c then .bad 2
    else
      let x := s.seq n q
      .done (s.setS n q i.d (if (x.preg i.c).getLsbD 0 then x.sreg i.a else x.sreg i.b))

/-- Bytes of local memory, or of pilot data memory (R233). -/
def memSize (q : Nat) : Nat := if q = 5 then 65536 else 4096

/-- The byte address of SLD and SST, if the access is aligned and inside the memory (R267). -/
def State.localAddr (s : State) (n q : Nat) (i : Ins) : Option Nat :=
  let a := ((s.seq n q).sreg i.a + i.x).toNat
  let w := 2 ^ (i.c % 4)
  if a % w = 0 ∧ a + w ≤ memSize q then some a else none

/-- Reads w bytes of a sequencer's memory. -/
def Seq.load (x : Seq) (a w : Nat) : Nat := leNat ((List.range w).map (fun k => mgetD x.mem (a + k) 0))

/-- SLD (R267): the width is C[1:0], and C[2] = 1 sign-extends. -/
def execSld (n q : Nat) (i : Ins) (s : State) : Result :=
  act s fun s => runSeq s n q (.sld n q i) i true true .scalar fun s =>
    if i.c % 4 = 3 ∨ 8 ≤ i.c then .bad 2
    else
      match s.localAddr n q i with
      | none => .bad 5
      | some a =>
        let w := 2 ^ (i.c % 4)
        let v := (s.seq n q).load a w
        .done (s.setS n q i.d (if bit i.c 2 then word (signed (8 * w) v) else BitVec.ofNat 32 v))

/-- SST (R267): the low bytes of sB go to memory. -/
def execSst (n q : Nat) (i : Ins) (s : State) : Result :=
  act s fun s => runSeq s n q (.sst n q i) i true true .scalar fun s =>
    if i.c % 4 = 3 ∨ 8 ≤ i.c then .bad 2
    else
      match s.localAddr n q i with
      | none => .bad 5
      | some a =>
        let bs := leBytes (2 ^ (i.c % 4)) ((s.seq n q).sreg i.b).toNat
        .done (s.modSeq n q (fun x => { x with
          mem := (List.range bs.length).foldl (fun m k => mset m (a + k) (bs.getD k 0)) x.mem }))

/-- TLD (R267): table store word sA + IMM32. -/
def execTld (n q : Nat) (i : Ins) (s : State) : Result :=
  act s fun s => runSeq s n q (.tld n q i) i true true .scalar fun s =>
    let k := ((s.seq n q).sreg i.a + i.x).toNat
    if tabFits k 1 then .done (s.setS n q i.d (s.tabWord n k)) else .bad 6

/-- VEXT (R267): element (sB + IMM32) mod 256 of v(A), sign-extended. -/
def execVext (n q : Nat) (i : Ins) (s : State) : Result :=
  act s fun s => runSeq s n q (.vext n q i) i true false .scalar fun s =>
    .done (s.setS n q i.d (word ((s.seq n q).velem i.a (((s.seq n q).sreg i.b + i.x).toNat % 256))))

/-- VINS (R267): sat(sA) to element (sB + IMM32) mod 256 of v(D). -/
def execVins (n q : Nat) (i : Ins) (s : State) : Result :=
  act s fun s => runSeq s n q (.vins n q i) i true false .scalar fun s =>
    let e := ((s.seq n q).sreg i.b + i.x).toNat % 256
    .done (s.setV n q i.d (1#256 <<< e) (fun _ => sat24 (s.sint n q i.a)))

/-- A predicate instruction: the upper bits of its three fields read 0 (R247). -/
def predOp (s : State) (n q : Nat) (ins : Instr) (i : Ins) (two : Bool) (f : BitVec 256 → BitVec 256 → BitVec 256) : Result :=
  act s fun s => runSeq s n q ins i true true .scalar fun s =>
    if 8 ≤ i.d ∨ 8 ≤ i.a ∨ (two = true ∧ 8 ≤ i.b) then .bad 2
    else .done (s.setP n q i.d (f ((s.seq n q).preg i.a) ((s.seq n q).preg i.b)))

/-- PAND (R247): p(A) and p(B). -/
def execPand (n q : Nat) (i : Ins) (s : State) : Result :=
  predOp s n q (.pand n q i) i true fun a b => a &&& b

/-- POR (R247): p(A) or p(B). -/
def execPor (n q : Nat) (i : Ins) (s : State) : Result :=
  predOp s n q (.por n q i) i true fun a b => a ||| b

/-- PXOR (R247): p(A) exclusive or p(B). -/
def execPxor (n q : Nat) (i : Ins) (s : State) : Result :=
  predOp s n q (.pxor n q i) i true fun a b => a ^^^ b

/-- PNOT (R247): the inverse of p(A). -/
def execPnot (n q : Nat) (i : Ins) (s : State) : Result :=
  predOp s n q (.pnot n q i) i false fun a _ => ~~~a

/-- PANY (R247): every bit is the OR of p(A). -/
def execPany (n q : Nat) (i : Ins) (s : State) : Result :=
  predOp s n q (.pany n q i) i false fun a _ => allBits (a != 0)

/-- PALL (R247): every bit is the AND of p(A). -/
def execPall (n q : Nat) (i : Ins) (s : State) : Result :=
  predOp s n q (.pall n q i) i false fun a _ => allBits (a == BitVec.allOnes 256)

/-- PPOP (R247): s(D) = the count of set bits of p(A). -/
def execPpop (n q : Nat) (i : Ins) (s : State) : Result :=
  act s fun s => runSeq s n q (.ppop n q i) i true true .scalar fun s =>
    if 8 ≤ i.a then .bad 2 else .done (s.setS n q i.d (BitVec.ofNat 32 (popCount ((s.seq n q).preg i.a))))

end Sys2Proof.Machine
end

