-- ==== Sys2Proof/Machine/Pages.lean ====
section
/-!
DEFINITION. The commands of the common header, commits, unit resets and the power-up of a quadrant (R69 to R86, R197).
-/
namespace Sys2Proof.Machine

/-! ### Commits and locks (R75 to R81) -/

/-- GO (R75, R79, R81). -/
def execGo (page : Nat) (mask : BitVec 16) (s : State) : Result := hostCmd page s fun s => s.goWrite page mask

/-- HAND_OVER (R76 to R79): the boundary of R78 for a pending group, where the unit stands at it; the rows that reach a boundary of
their own take the hand-over with them. `late` are the shadow writes that arrive while the copy runs. The groups of a core of a
parked quadrant stay pending. -/
def execHandOver (page group : Nat) (late : List (Nat × Word)) (s : State) : Result :=
  act s fun s =>
    if (s.page page).groups.getLsbD group = false ∨ 16 ≤ group ∨ s.pageParked page ∨ s.serving page ≠ .served ∨
        !s.atBoundary page group then s
    else late.foldl (fun t w => t.lateWrite page w) (s.handOver page group)

/-- PAGE_UNLOCK (R80, R81): KEY 0xC0DE. -/
def execPageUnlock (page : Nat) (s : State) : Result :=
  hostCmd page s fun s => s.modPage page (fun g => { g with unlocked := true })

/-- A KEY unlocks the page when it is 0xC0DE and locks it otherwise (R80, R81). -/
def State.writeKey (s : State) (p : Nat) (key : BitVec 16) : State :=
  s.modPage p (fun g => { g with unlocked := key == 0xC0DE })

/-- PAGE_RELOCK (R81): any other KEY. -/
def execPageRelock (page : Nat) (key : BitVec 16) (s : State) : Result := hostCmd page s fun s => s.writeKey page key

/-- PAGE_LOCK_TIMEOUT (R81): 1 ms after the unlock. -/
def execPageLockTimeout (page : Nat) (s : State) : Result :=
  act s fun s => s.modPage page (fun g => { g with unlocked := false })

/-! ### Service (R71) -/

/-- UNIT_FENCE (R71). -/
def execUnitFence (page : Nat) (s : State) : Result :=
  hostCmd page s fun s => if ((pageKind page).map noFence).getD true then s.accessBad page else s.fenceOn page

/-- UNIT_UNFENCE (R71): a write of FENCE = 0. -/
def execUnitUnfence (page : Nat) (s : State) : Result := hostCmd page s fun s => s.fenceOff page

/-- UNIT_DISABLE (R71). -/
def execUnitDisable (page : Nat) (s : State) : Result := hostCmd page s fun s => s.enableOff page

/-- UNIT_ENABLE (R71). -/
def execUnitEnable (page : Nat) (s : State) : Result := hostCmd page s fun s => s.enableOn page

/-- UNIT_DRAINED (R71): the last work of a draining unit has ended. -/
def execUnitDrained (page : Nat) (s : State) : Result :=
  act s fun s =>
    let g := s.page page
    if !g.draining ∨ s.pageBusy page then s
    else if g.cause = .none then s.modPage page (fun x => { x with draining := false, state := .idle })
    else (s.modPage page (fun x => { x.leaves with draining := false, state := .fenced })).left page

/-- UNIT_RESET (R71). -/
def execUnitReset (page : Nat) (s : State) : Result :=
  hostCmd page s fun s => if ((pageKind page).map noFence).getD true then s.accessBad page else s.unitReset page

/-- The verdict on core n: the lanes that its clusters' tests left and the golden streams (R26, R541). -/
def SelfTest_core (t : SelfTest) (n : Nat) : Option (Nat × Bool) := (t.cores.find? (fun c => c.1 == n)).map Prod.snd

/-- Ends the reset of one page of a self-test (R71, R541). A core without a healthy lane stays FENCED (R27). -/
def State.resetEnds (s : State) (p : Nat) (t : SelfTest) : State :=
  if !(s.page p).resetting then s
  else
    match pageCore p with
    | some n =>
      match SelfTest_core t n with
      | some (lanes, golden) => (s.modUnit n (fun u => { u with lanes := laneCount lanes })).endReset p (golden && laneCount lanes != 0)
      | none => s.endReset p t.ok
    | none => s.endReset p t.ok

/-- UNIT_RESET_DONE (R71, R541): a quadrant's test covers the cores and the router that its reset took with it. -/
def execUnitResetDone (page : Nat) (t : SelfTest) (s : State) : Result :=
  act s fun s =>
    if !(s.page page).resetting then s
    else
      let more := if pageKind page = some .quad then (List.range 12).map (fun i => page + 16 + i) ++ [page + 3] else []
      more.foldl (fun u p => u.resetEnds p t) (s.resetEnds page t)

/-! ### Power-up of a parked quadrant (R79, R197) -/

/-- The pending groups of a page hand over. -/
def State.handAll (s : State) (p : Nat) : State :=
  (List.range 16).foldl (fun t g => if (t.page p).groups.getLsbD g then t.handOver p g else t) s

/-- A core that fails its self-test at power-up is fenced, and its jobs are placed again (R197). -/
def State.coreFailed (s : State) (n : Nat) : State :=
  let c := s.core n
  let s1 := s.modPage (corePage n) (fun g => { g.leaves with state := .fenced, cause := .selftest, draining := false })
  (c.queue ++ c.side ++ c.inside).foldl (fun t j => t.requeue j false) (s1.dropLaggard n)

/-- Core n of a quadrant that powers up: it applies CURRENT_EPOCH before it takes work (R385), or is fenced, as it is without a
healthy lane (R27). -/
def State.coreWoken (s : State) (n : Nat) (t : SelfTest) : State :=
  if (s.page (corePage n)).state = .fenced then s
  else
    match SelfTest_core t n with
    | some (lanes, golden) =>
      let s1 := s.modUnit n (fun u => { u with lanes := laneCount lanes })
      if golden && laneCount lanes != 0 then s1.applyEpoch n else s1.coreFailed n
    | none => if t.ok then s.applyEpoch n else s.coreFailed n

/-- QUADRANT_POWER_UP (R79, R197): pending commits hand over, then the core self-tests decide. The cores' tempo follows the
monitors again after 100 µs (R180). -/
def execQuadrantPowerUp (q : Nat) (t : SelfTest) (s : State) : Result :=
  act s fun s =>
    if 4 ≤ q ∨ !(s.quad q).parked ∨ !(s.quad q).waking then s
    else
      let s1 := s.modQuad q (fun p => { p with parked := false, waking := false, liveAt := s.time.ns + 100000 })
      let s2 := (List.range 12).foldl (fun u i => (u.handAll (corePage (12 * q + i))).handAll (cdmaPage (12 * q + i))) s1
      (List.range 12).foldl (fun u i => u.coreWoken (12 * q + i) t) s2

/-! ### Snapshots and events (R72, R86) -/

/-- SNAP_TAKE (R86). -/
def execSnapTake (page : Nat) (s : State) : Result := hostCmd page s fun s => s.snapTake page

/-- SNAP_RELEASE (R86). -/
def execSnapRelease (page : Nat) (s : State) : Result := hostCmd page s fun s => s.snapRelease page

/-- Software sets event bits (R72); RSV bits are discarded with ACCESS_BAD (R15). -/
def State.setEvents (s : State) (p : Nat) (v : Word) : State :=
  let m := ((pageKind p).map evtMask).getD 0
  (s.modPage p (fun g => { g with evtPend := g.evtPend ||| (v &&& m) })).rsv p m v

/-- Software clears event bits (R72). -/
def State.clearEvents (s : State) (p : Nat) (v : Word) : State :=
  (s.modPage p (fun g => { g with evtPend := g.evtPend &&& ~~~v })).rsv p (((pageKind p).map evtMask).getD 0) v

/-- EVT_SET_WRITE (R72). -/
def execEvtSetWrite (page : Nat) (v : Word) (s : State) : Result := hostCmd page s fun s => s.setEvents page v

/-- EVT_PEND_CLEAR (R72). -/
def execEvtPendClear (page : Nat) (v : Word) (s : State) : Result := hostCmd page s fun s => s.clearEvents page v

end Sys2Proof.Machine
end

