-- ==== Sys2Proof/Machine/Pcie.lean ====
section
/-!
DEFINITION. The PCIe function: configuration, BAR2 and BAR4, power states, reads of host memory and the link (R93 to R109,
R476, R478).
-/
namespace Sys2Proof.Machine

/-! ### Configuration space (R93 to R97, R101, R106) -/

/-- Changes the PCIe function's own state. -/
def State.modPcie (s : State) (f : Pcie → Pcie) : State := { s with pcie := f s.pcie }

/-- A configuration request that is answered: the link is up, and the answer ends Retry Status (R95). It brings the link out
of L1. Configuration space works in every device state (R543). -/
def cfgAccess (s : State) (f : State → State) : Result :=
  .next (if s.linked then (f (s.toL0.modPcie (fun x => { x with cfgAnswered := true }))).settle else s)

/-- What configuration space reports of a feature: 0 for one that is absent (R93, R105, R107). Latencies are codes of the PCI
Express specification (log entry 89). -/
def cfgValue : CfgFeature → Nat
  | .functions => 1
  | .maxPayload => 512
  | .maxReadRequest => 4096
  | .msix => 128
  | .timeoutRanges => 0xF
  | .tag10Requester | .tag10Completer | .aer | .timeoutDisable | .aspmL1 | .pmeD0 | .pmeD3hot | .flr | .resizableBar2
  | .noSoftReset => 1
  | .l1ExitLatency => 3
  | .l1AcceptableLatency => 5
  | .sriov | .ari | .noSnoop | .idOrdering | .msi | .interruptPin | .ecrc | .aspmL0s | .l1Substates | .d1 | .d2 | .pmeD3cold
  | .resizableBar0 | .resizableBar4 | .atomicOps | .ats | .pasid | .pri | .tph | .ltr | .dpc | .ptm => 0

/-- The size of BAR2 in bytes. -/
def State.bar2Bytes (s : State) : Nat := 2 ^ (28 + s.pcie.bar2Size)

/-- The size of the BAR that base address register i belongs to (R97). -/
def State.barBytes (s : State) (i : Nat) : Nat :=
  match i / 2 with
  | 0 => 0x400000
  | 1 => s.bar2Bytes
  | _ => 0x2000

/-- Base address register i as it reads: the address bits above the size, and in an even one the type, 64-bit, with bit 3 for
the prefetchable BAR2 (R97, log entry 89). -/
def State.barWord (s : State) (i : Nat) : Nat :=
  let lo := (mgetD s.pcie.bars (i / 2 * 2) 0).toNat
  let hi := (mgetD s.pcie.bars (i / 2 * 2 + 1) 0).toNat
  let a := (hi * 2 ^ 32 + lo) / s.barBytes i * s.barBytes i
  if i % 2 = 1 then a / 2 ^ 32 else a % 2 ^ 32 + 4 + (if i = 2 then 8 else 0)

/-- The AER status bits as a number: bit k for the k-th error of R101's table, correctable ones first. -/
def aerList : List AerError :=
  [.receiverError, .badTlp, .badDllp, .replayRollover, .replayTimeout, .advisory, .correctedInternal, .dllProtocol,
   .surpriseDown, .poisonedTlp, .flowControl, .completionTimeout, .unexpectedCompletion, .receiverOverflow, .malformedTlp,
   .uncorrectableInternal]

/-- An error joins or leaves a list of errors. -/
def aerPut (l : List AerError) (e : AerError) (b : Bool) : List AerError :=
  if b then (if l.contains e then l else l ++ [e]) else l.filter (· != e)

/-- The MSI-X table word at BAR4 offset x below 0x800 and the PBA words at 0x1000 (R97, R478). -/
def State.bar4Word (s : State) (x : Nat) : Word :=
  let e := mgetD s.pcie.msix (x / 16) {}
  if x < 0x800 then
    match x % 16 / 4 with
    | 0 => BitVec.ofNat 32 e.addr
    | 1 => BitVec.ofNat 32 (e.addr / 2 ^ 32)
    | 2 => e.data
    | _ => if e.masked then 1 else 0
  else if 0x1000 ≤ x ∧ x < 0x1010 then (s.pcie.pba >>> (32 * ((x - 0x1000) / 4))).setWidth 32
  else 0

/-- Every write, read, set PBA bit and status word that waited for the bus goes on (R103, R104, R106, R152). -/
def State.busResumed (s : State) : State :=
  if !s.live then s
  else s.geyser.queues.foldl (fun t q => t.statusWord q.1) s.putHeld.readDone.flushPba

/-- One configuration write or read (R93, R94, R97). -/
def State.configure (s : State) (r : CfgReq) : State :=
  match r with
  | .readId => s.emit (.cfgDone 0x48241F3A)
  | .readSubsystem =>
    let x := s.fuse.subsystem.getD (0x1F3A, 0x4824)
    s.emit (.cfgDone (x.2 * 65536 + x.1))
  | .readClass => s.emit (.cfgDone (0x048000 * 256 + stepping))
  | .readFeature f => s.emit (.cfgDone (cfgValue f))
  | .readBar i => s.emit (.cfgDone (if i < 6 then s.barWord i else 0))
  | .writeBar i v => if i < 6 then s.modPcie (fun x => { x with bars := mset x.bars i v }) else s
  | .readAer => s.emit (.cfgDone ((aerList.zipIdx.map (fun e => b2n (s.pcie.aerStatus.contains e.1) * 2 ^ e.2)).sum))
  | .clearAer e => s.modPcie (fun x => { x with aerStatus := aerPut x.aerStatus e false })
  | .setAerMask e b => s.modPcie (fun x => { x with aerMask := aerPut x.aerMask e b })
  | .setAerFatal e b => if aerCorrectable e then s else s.modPcie (fun x => { x with aerFatal := aerPut x.aerFatal e b })
  | .setTimeoutRange n =>
    if [0, 1, 2, 5, 6, 9, 10, 13, 14].contains n then s.modPcie (fun x => { x with ctoRange := n }) else s
  | .setMse b => s.modPcie (fun x => { x with mse := b })
  | .setPmeEn b => s.modPcie (fun x => { x with pmeEn := b })
  | .setMsixEnable b => (s.modPcie (fun x => { x with msixEnable := b })).busResumed
  | .setRelaxed b => s.modPcie (fun x => { x with relaxedEn := b })
  | .setMps n => if [128, 256, 512].contains n then s.modPcie (fun x => { x with mps := n }) else s
  | .setMrrs n => if [128, 256, 512, 1024, 2048, 4096].contains n then s.modPcie (fun x => { x with mrrs := n }) else s
  | .setTag10 b => s.modPcie (fun x => { x with tag10 := b })
  | .setAspmL1 b => s.modPcie (fun x => { x with aspmL1 := b, inL1 := x.inL1 && b })
  | .resizeBar2 n => if n < 9 ∧ !s.pcie.mse then s.modPcie (fun x => { x with bar2Size := n }) else s
  | .setTimeoutDisable b => s.modPcie (fun x => { x with ctoDisable := b })

/-- CONFIG_REQUEST (R95): Retry Status is possible only until the first successful answer. -/
def execConfigRequest (req : CfgReq) (retry : Bool) (s : State) : Result :=
  if s.linked ∧ retry ∧ !s.pcie.cfgAnswered then .next (s.toL0.emit .cfgRetry).settle
  else cfgAccess s fun s => s.configure req

/-! ### BAR2 (R96, R97, R560) -/

/-- The device address of BAR2 offset x, or none behind a BASE that is misaligned for the size. -/
def State.bar2Addr (s : State) (x : Nat) : Option Nat :=
  let base := fld (s.active 16 0x040) 11 0
  if base % 2 ^ s.pcie.bar2Size = 0 then some (base * 2 ^ 28 + x) else none

/-- An access of n bytes at offset x lies in BAR2. -/
def State.inBar2 (s : State) (x n : Nat) : Bool := decide (x + n ≤ s.bar2Bytes)

/-- A frozen controller answers for part of a run (R97). -/
def State.frozenRun (s : State) (a n : Nat) : Bool :=
  (chunkPoints a n).any (fun b => decide (b / 2 ^ 35 < 4) && decide (b % 2 ^ 35 < s.addressable) &&
    (s.page (dchPage (offsetDch (b / 2 ^ 35) (b % 2 ^ 35)))).state == .frozen)

/-- A refused BAR2 access (R97). -/
def State.bar2Refused (s : State) : State := s.accessBad 16

/-- A memory request of the host to BAR2 or BAR4 (R102): one that no BAR takes, or that comes while memory decoding is off,
receives Unsupported Request in every state. A sealed part does nothing more (R543). -/
def memRequest (s : State) (inside : Bool) (f : State → State) : Result :=
  let s := s.toL0
  if !s.linked then .next s
  else if !s.decodes ∨ !inside then .next (s.emit .unsupportedRequest)
  else act s f

/-- BAR2_READ (R97, R560): `ue` says that the access met an uncorrectable memory error. A poisoned answer carries no data. -/
def execBar2Read (off len : Nat) (ue : Bool) (s : State) : Result :=
  memRequest s (s.inBar2 off len) fun s =>
    let zeros := fun (t : State) => t.bar2Refused.emit (.barRead (List.replicate len 0) false)
    match s.boot.state with
    | .booting => zeros s
    | .dormant =>
      if off + len ≤ 0x1000000 then s.emit (.barRead (memGetAll s.mem (0xE008000000 + off) len) false) else zeros s
    | .ready =>
      match s.bar2Addr off with
      | none => zeros s
      | some a =>
        if s.frozenRun a len ∨ (ue ∧ s.readRun a len) then (s.emit (.barRead [] true)).fault 9 0xFFFF none 0
        else if s.readRun a len then s.emit (.barRead (s.devBytes a len) false)
        else zeros s

/-- BAR2_WRITE (R97, R101, R560). -/
def execBar2Write (off : Nat) (bytes : List Byte) (poisoned : Bool) (s : State) : Result :=
  memRequest s (s.inBar2 off bytes.length) fun s =>
    let n := bytes.length
    if poisoned then s.report .poisonedTlp
    else
      match s.boot.state with
      | .booting => s.bar2Refused
      | .dormant =>
        if off + n ≤ 0x1000000 ∧ s.boot.windowOk ∧ !s.boot.busy then s.write (0xE008000000 + off) bytes else s.bar2Refused
      | .ready =>
        match s.bar2Addr off with
        | none => s.bar2Refused
        | some a => if s.writeRun a n then s.write a bytes else s.bar2Refused

/-! ### Reads of host memory (R100, R101) -/

/-- A read of host memory that is outstanding ends in an error (R100). -/
def State.readFailed (s : State) (what : HostRead) : State :=
  match what with
  | .ownerWord q => if q < 1024 ∧ (s.wq q).reading ∧ s.onLink (.owner q) then (s.ownerFail q).readDone else s
  | .entryBody q =>
    match (s.wq q).bodies with
    | j :: _ => if q < 1024 ∧ s.onLink (.body q j) then ((s.bodyFail q).settleBody j).readDone else s
    | [] => s
  | .jobInput j => if ((s.job j).map Job.live).getD false then s.fault 8 0xFFFF (some j) 0 else s
  | .descriptor c =>
    match (s.chan c).state, (s.chan c).fetching with
    | .running, some a => if isDev a ∨ !s.onLink (.desc c) then s else (s.pilotError (s.fetchFail c) c).readDone
    | _, _ => s
  | .poolHeader p => if p < 16 ∧ (s.pool p).state = .enabled ∧ !isDev (s.poolBase p) then s.headerFail p else s

/-- HOST_READ_COMPLETE (R100): a good completion carries its data to the command that asked for it. A poisoned one is
reported, and one that answers no read, is malformed, or overflows the receiver is only reported (R101). -/
def execHostReadComplete (what : HostRead) (result : ReadEnd) (s : State) : Result :=
  act s fun s =>
    if !s.linked then s
    else
      match result with
      | .ok => s.toL0
      | .unsupported | .aborted => s.toL0.readFailed what
      | .poisoned => (s.toL0.report .poisonedTlp).readFailed what
      | .unexpected => s.toL0.report .unexpectedCompletion
      | .malformed => s.toL0.report .malformedTlp
      | .overflow => s.toL0.report .receiverOverflow

/-- COMPLETION_TIMEOUT (R93, R100, R101): not while the Completion Timeout is disabled. -/
def execCompletionTimeout (what : HostRead) (s : State) : Result :=
  act s fun s =>
    if s.pcie.ctoDisable then s
    else (s.report .completionTimeout).readFailed what

/-! ### Power states (R103 to R107) -/

/-- D3HOT_ENTRY (R103): an entry body already asked for still arrives; nothing more is fetched. -/
def execD3hotEntry (s : State) : Result := cfgAccess s fun s => s.modPcie (fun x => { x with d3hot := true })

/-- D0_RETURN (R105, R106): everything is kept, and what the power state held back goes on. -/
def execD0Return (s : State) : Result := cfgAccess s fun s => (s.modPcie (fun x => { x with d3hot := false })).busResumed

/-- BME_CLEAR (R103). -/
def execBmeClear (s : State) : Result := cfgAccess s fun s => s.modPcie (fun x => { x with bme := false })

/-- BME_SET (R103, R106). -/
def execBmeSet (s : State) : Result := cfgAccess s fun s => (s.modPcie (fun x => { x with bme := true })).busResumed

/-- PME_STATUS_CLEAR (R106): WAKE_N is released. -/
def execPmeStatusClear (s : State) : Result := cfgAccess s fun s => s.modPcie (fun x => { x with pmeStatus := false })

/-- L1_ENTRY (R107). -/
def execL1Entry (s : State) : Result :=
  act s fun s =>
    if s.linked ∧ s.pcie.aspmL1 ∧ !s.pcie.inL1 then (s.modPcie (fun x => { x with inL1 := true })).emit .l1Request else s

/-! ### The link (R101, R107, R547) -/

/-- An error that the physical or the data link layer finds (R101). -/
def aerOfLink : AerError → Bool
  | .receiverError | .badTlp | .badDllp | .replayRollover | .replayTimeout | .dllProtocol | .flowControl => true
  | _ => false

/-- PCIE_LINK_DOWN (R101): no message can leave any more; the errors of the lower layers that led to it come with the next
training (log entry 14). -/
def execPcieLinkDown (s : State) : Result :=
  .next (
    if !s.linked then s
    else State.report (s.modPcie (fun x => { x with linkUp := false, speed := 0, width := 0, inL1 := false })) .surpriseDown)

/-- PCIE_LINK_TRAINED (R93, R101, R547): the speeds and widths that the part supports, and the errors that the lower layers met
since. It works in every device state. -/
def execPcieLinkTrained (speed : Nat) (met : LinkMet) (s : State) : Result :=
  .next (
    if !s.power.powered ∨ !s.power.perstHigh ∨ speed < 1 ∨ 5 < speed ∨ !([1, 4, 8, 16].contains met.width) then s
    else ((met.errs.filter aerOfLink).foldl State.report
      (s.modPcie (fun x => { x with linkUp := true, speed := speed, width := met.width, inL1 := false }))).busResumed)

/-! ### MSI-X (R97, R106, R476, R478) -/

/-- A host write to entry `vec` of BAR4's table (R97). -/
def bar4Write (vec : Nat) (s : State) (f : State → State) : Result :=
  memRequest s (decide (vec < 128)) f

/-- Changes MSI-X table entry v. -/
def State.modVec (s : State) (v : Nat) (f : MsixEntry → MsixEntry) : State :=
  s.modPcie (fun x => { x with msix := mset x.msix v (f (mgetD x.msix v {})) })

/-- VECTOR_MASK (R478): a vector's Mask bit, or Function Mask. -/
def execVectorMask (vec : Option Nat) (s : State) : Result :=
  match vec with
  | some v => bar4Write v s fun s => s.modVec v (fun e => { e with masked := true })
  | none => cfgAccess s fun s => s.modPcie (fun x => { x with funcMask := true })

/-- VECTOR_UNMASK (R106, R476): what the mask alone held back is sent, or raises PME. -/
def execVectorUnmask (vec : Option Nat) (s : State) : Result :=
  match vec with
  | some v => bar4Write v s fun s => (s.modVec v (fun e => { e with masked := false })).unmasked [v]
  | none => cfgAccess s fun s => (s.modPcie (fun x => { x with funcMask := false })).unmasked (List.range 128)

/-- MSIX_TABLE_WRITE (R101, R478): messages committed from now on use the new address or data. A write whose data is poisoned
has none. -/
def execMsixTableWrite (vec : Nat) (field : MsixField) (v : Option Word) (s : State) : Result :=
  bar4Write vec s fun s =>
    match v with
    | none => s.report .poisonedTlp
    | some v => s.modVec vec (fun e =>
      match field with
      | .addrLo => { e with addr := e.addr / 2 ^ 32 * 2 ^ 32 + v.toNat }
      | .addrHi => { e with addr := v.toNat * 2 ^ 32 + e.addr % 2 ^ 32 }
      | .data => { e with data := v })

end Sys2Proof.Machine
end

