-- ==== Sys2Proof/Machine/Pipeline.lean ====
section
/-!
DEFINITION. How placed jobs enter their cores, the context switch, the ends of waits and the limits of a core (R161, R162,
R208, R213 to R216, R225 to R232, R350, R358).
-/
namespace Sys2Proof.Machine

/-! ### Entry into a core (R161, R162, R213) -/

/-- The core takes work: it is powered and its page reads IDLE or RUNNING. -/
def State.corePowered (s : State) (n : Nat) : Bool :=
  let g := s.page (corePage n)
  !(s.quad (n / 12)).parked && (g.state == .idle || g.state == .running)

/-- The next job of core n may enter (R213): the core holds no job, or one whose LOAD has issued its last row. -/
def State.roomInCore (s : State) (n : Nat) : Bool :=
  match (s.core n).inside with
  | [] => true
  | [k] => (s.seq n 0).job != some k
  | _ => false

/-- The outgoing stream's context is saved, and its copy goes to the older save slot (R161). -/
def State.writeBack (s : State) (m : Nat) : State :=
  s.modStream m (fun t =>
    let fresh : SaveSlot := { complete := false, age := t.saves + 1 }
    if t.state = .closed then t
    else if t.saveA.age ≤ t.saveB.age then { t with saveA := fresh, saves := t.saves + 1 }
    else { t with saveB := fresh, saves := t.saves + 1 })

/-- The incoming stream's context is ready in the slice of core n's quadrant: staged, or rebuilt when it was lost (R161,
R162). -/
def State.fetchContext (s : State) (n m : Nat) : State :=
  let s1 := if (s.stream m).ctxLost then
      (s.modStream m (fun t => { t.rebuilt (n / 12) with ctxLost := false, rebuilds := (t.rebuilds + 1) % 2 ^ 32 })).raiseEvt
        (corePage n) 3
    else if (s.core n).lastStream = some m then s
    else s.stageContext m (n / 12)
  s1.modStream m (fun t => { t with ctxCore := some n })

/-- The context switch of core n to a job of stream m begins (R161, R215); none between jobs of one stream. Each part of the
core moves its own memory when it turns to the job. -/
def State.switchTo (s : State) (n m : Nat) : State :=
  match (s.core n).lastStream with
  | some o => if o = m then s.fetchContext n m else ((s.saveContext n o).writeBack o).fetchContext n m
  | none => s.fetchContext n m

/-- Every earlier job of the stream has started (R131); the frames of a reordering encode stream start in coding order. -/
def State.startTurn (s : State) (j n : Nat) : Bool :=
  let t := s.stream n
  (s.before j n).all (fun y => y.2.began || y.2.phase == .running || (y.2.opcode == 0x11 && y.2.framed) ||
    (t.encode && t.field 9 == 2 && y.2.opcode == 0x10))

/-- JOB_ENTER_CORE (R131, R213): the first job that waits on core n enters it; a pending commit of the core hands over first (R78). -/
def execJobEnterCore (job n : Nat) (s : State) : Result :=
  act s fun s =>
    match s.job job with
    | none => s
    | some x =>
      match x.stream with
      | none => s
      | some m =>
        if 48 ≤ n ∨ (s.core n).queue.head? ≠ some job ∨ !s.corePowered n ∨ !s.roomInCore n ∨ !s.startTurn job m then s
        else
          let s1 := ((s.boundary (corePage n) 0).switchTo n m).modPlace n (fun c => { c with
            inside := c.inside ++ [job], queue := c.queue.tail, lastStream := some m, ran := true })
          let s2 := (s1.enterUnit n job).modJob job (fun y => { y with
            phase := .running, started := true, began := true
            tStart := if y.started then y.tStart else s.time.ns / 1000 % 2 ^ 32 })
          s2.coreState n

/-- CONTEXT_WRITEBACK_DONE (R161, R162): the saved copy of a stream's context has landed whole, or has failed. -/
def execContextWritebackDone (n : Nat) (ok : Bool) (s : State) : Result :=
  act s fun s =>
    if (s.stream n).state = .closed then s
    else
      s.modStream n (fun t =>
        let c := ({ t with saveA := {}, saveB := {} }).newest.getD {}
        if !ok then { t with ctxLost := true }
        else if t.saveB.age < t.saveA.age then { t with saveA := { t.saveA with complete := decide (0 < t.saveA.age), held := c } }
        else { t with saveB := { t.saveB with complete := decide (0 < t.saveB.age), held := c } })

/-! ### Ends of waits (R208, R216, R226) -/

/-- The instruction that a sequencer waits on runs again when it is one that this wait can hold. -/
def rerun (n q : Nat) (kinds : List WaitKind) (s : State) : Result :=
  let x := s.seq n q
  if !kinds.contains x.wait then .next s
  else
    match x.waiting with
    | some (.bld _ _ i h) => execBld n q i h s
    | some (.sbwait _ _ i) => execSbwait n q i s
    | some (.mfld _ _ i) => execMfld n q i s
    | some (.mswalk _ _ i h) => execMswalk n q i h s
    | some (.chsend _ _ i) => execChsend n q i s
    | some (.chrecv _ _ i) => execChrecv n q i s
    | _ => .next s

/-- SCOREBOARD_WAIT_END (R216): the wait of sequencer q of core n is over once its rows are covered. -/
def execScoreboardWaitEnd (n q : Nat) (s : State) : Result := rerun n q [.scoreboard] s

/-- CHANNEL_WAIT_END (R208): the channel has gained a token or a free slot. -/
def execChannelWaitEnd (n q : Nat) (s : State) : Result := rerun n q [.channel] s

/-- SOURCE_ROW_POLL (R226): LOAD reads the source row word again. -/
def execSourceRowPoll (n : Nat) (s : State) : Result := rerun n 0 [.source] s

/-! ### Limits (R228, R232, R358) -/

/-- SOURCE_TIMEOUT (R228): the row word has not advanced for SRC_WAIT_LIMIT while LOAD waits on it. -/
def execSourceTimeout (n : Nat) (s : State) : Result :=
  act s fun s =>
    let x := s.seq n 0
    if 48 ≤ n ∨ x.wait ≠ .source then s else s.fault 74 n x.job 0

/-- The waits that do not count toward a stall (R232). -/
def stallFree (k : WaitKind) : Bool :=
  [WaitKind.scoreboard, .source, .border, .entropy, .memory, .staging].contains k

/-- CORE_STALL (R232): no part of core n has completed an instruction for STALL_LIMIT. The job that the core holds longest is
hit. -/
def execCoreStall (n : Nat) (s : State) : Result :=
  act s fun s =>
    match (s.core n).inside with
    | [] => s
    | j :: _ =>
      if 48 ≤ n ∨ (List.range 6).any (fun q => (s.seq n q).job.isSome && stallFree (s.seq n q).wait) then s
      else (s.raiseEvt (corePage n) 0).fault 65 n (some j) 0

/-- The step count of sequencer q has reached k × 4,096. -/
def State.stepsAt (s : State) (n q k : Nat) : Bool := decide (k * 4096 ≤ (s.seq n q).steps)

/-- The sequencer stops at its limit and CORE_STEP_LIMIT fires (R358). -/
def State.stepFault (s : State) (n q : Nat) : State :=
  (s.modSeq n q (fun x => { x with stopped := true, wait := .none, waiting := none })).fault 67 n (s.seq n q).job 0

/-- STEP_LIMIT_REACHED (R358): the pilot of a decode job in normal service goes to its limit entry, strict mode latches the
error, and any other sequencer stops. -/
def execStepLimitReached (n q : Nat) (s : State) : Result :=
  act s fun s =>
    let x := s.seq n q
    match x.job with
    | none => s
    | some j =>
      match s.job j, s.jobImage j with
      | some y, some e =>
        if 48 ≤ n ∨ 6 ≤ q ∨ x.stopped ∨ x.graced ∨ !s.stepsAt n q (fld (s.active (corePage n) 0x044) 15 0) then s
        else if q = 5 ∧ s.strict y then s.latch j { cls := 0, cause := 0x26, detector := 4 }
        else if q = 5 ∧ !s.jobEncode j then
          s.modSeq n q (fun x => { x with
            graced := true, steps := 0, pc := (e.progBase + e.params.limitEntry) % 32768, calls := [], loops := []
            wait := .none, waiting := none })
        else s.stepFault n q
      | _, _ => s

/-- GRACE_EXHAUSTED (R358): the pilot of core n has used up its grace. -/
def execGraceExhausted (n : Nat) (s : State) : Result :=
  act s fun s =>
    let x := s.seq n 5
    if 48 ≤ n ∨ x.job.isNone ∨ x.stopped ∨ !x.graced ∨ !s.stepsAt n 5 (fld (s.active (corePage n) 0x044) 23 16) then s
    else s.stepFault n 5

/-! ### Lookahead (R225, R350) -/

/-- A live frame of stream n has display index d: an ENCODE_FRAME, or the top rendition of a ladder. -/
def State.frameAt (s : State) (n d : Nat) : Bool :=
  s.jobs.any (fun (y : Nat × Job) => y.2.live && y.2.stream == some n && y.2.opcode == 0x10 && y.2.display == d &&
    y.2.phase != .body && y.2.phase != .parsing && y.2.phase != .waiting)

/-- LOOKAHEAD_PASS (R225, R350, R355): the pass of the frame with display index d ends on one core, with its copy and its
statistics. -/
def execLookaheadPass (n d : Nat) (pass : LookPass) (s : State) : Result :=
  act s fun s =>
    let t := s.stream n
    let keep := fun {α : Type} (l : Map α) => l.filter (fun y => decide (d < y.1 + 256))
    if 48 ≤ pass.core ∨ !s.corePowered pass.core ∨ t.state = .closed ∨ !t.encode ∨ t.field 55 = 2 ∨ t.field 32 = 0 ∨ !s.frameAt n d ∨
        (mget t.look d).isSome ∨
        (d ≠ 0 ∧ (mget t.look (d - 1)).isNone ∧ s.frameAt n (d - 1)) then s
    else s.modStream n (fun t => { t with
      look := keep (mset t.look d (lookCost pass.stats))
      passes := keep (mset t.passes d pass) })

end Sys2Proof.Machine
end

