-- ==== Sys2Proof/Machine/Windows.lean ====
section
/-!
DEFINITION. The eight indirect windows and the memories that they show (R66 to R68, R112, R277, R424, R493, R499, R511).
-/
namespace Sys2Proof.Machine

/-- Bytes of a memory that a window can show; 0 for NONE and the reserved targets (R66). -/
def targetSize : Nat → Nat
  | 0x01 => 0x40000
  | 0x02 => 0x20000
  | 0x03 => 0x10000
  | 0x04 => 0x8000
  | 0x05 => 0x10000
  | 0x10 => 0x400000
  | 0x11 => 0x40000
  | 0x12 => 0x40000
  | 0x13 => 0x10000
  | 0x14 => 0x20000
  | _ => 0

/-- The memory that a window offset of BAR0 reaches, as target, instance and byte, or none for an access that R67 refuses. -/
def State.windowAt (s : State) (off : Nat) : Option (Nat × Nat × Nat) :=
  let w := (off - 0x200000) / 0x40000
  let sel := s.reg 0 (0x100 + 4 * w)
  let t := fld sel 31 24
  let n := fld sel 23 16
  let a := fld sel 15 0 * 0x40000 + off % 0x40000
  if targetSize t ≤ a then none
  else if t < 0x10 ∧ (48 ≤ n ∨ s.pageParked (corePage n)) then none
  else some (t, n, a)

/-! ### Reading -/

/-- Instruction i of core n's program store: its own word, or that of the loaded images. -/
def State.progWord (s : State) (n i : Nat) : DWord := (mget (s.unit n).prog i).getD (mgetD s.pers.prog i 0)

/-- The 128 bytes of flow entry i (R493). -/
def State.flowBytes (s : State) (i : Nat) : List Byte :=
  match s.flow i with
  | none => List.replicate 128 0
  | some f =>
    f.key ++ f.data.zipIdx.map (fun b => if b.2 = 1 then b.1 ||| 1 else b.1) ++ leBytes 8 f.packets ++ leBytes 8 f.bytes ++
      leBytes 4 f.meterDrops ++ leBytes 4 f.meterMarked ++ leBytes 4 f.dups ++ leBytes 4 f.gaps ++ leBytes 4 f.delivered ++
      leBytes 4 f.dropped ++ leBytes 4 f.errors ++ leBytes 4 f.last

/-- The 64 bytes of meter m (R499). -/
def State.meterBytes (s : State) (m : Nat) : List Byte :=
  let x := s.meter m
  x.cfg ++ x.act ++ leBytes 4 (x.tc / 65536) ++ leBytes 4 (x.te / 65536) ++ leBytes 8 x.last ++ leBytes 4 x.green ++
    leBytes 4 x.yellow ++ leBytes 4 x.red ++ leBytes 4 x.dropped

/-- The 64 bytes of egress queue e (R511). -/
def State.eqBytes (s : State) (e : Nat) : List Byte :=
  let x := s.egressQ e
  let y := if x.enabled then x.fill s.time.ns else x
  let shaper := if x.enabled then leBytes 4 x.rate ++ leBytes 4 x.burst ++ leBytes 1 (narrow 8 x.overhead)
    else (x.cfg.drop 16).take 9
  x.cfg.take 16 ++ shaper ++ x.cfg.drop 25 ++ leBytes 2 (b2n x.enabled) ++ leBytes 4 x.sent ++ leBytes 4 x.discarded ++
    leBytes 4 (narrow 32 (y.tokens / 65536))

/-- The 64 bytes of work queue q (R112). -/
def State.wqBytes (s : State) (q : Nat) : List Byte :=
  let x := s.wq q
  x.cfg ++ leBytes 2 x.sqNext ++ leBytes 2 x.cqProd ++ leBytes 2 x.cqHead ++ leBytes 1 x.state.code ++ leBytes 1 x.haltReason ++
    leBytes 4 x.window.length ++ leBytes 4 x.accepted

/-- Bytes 0 to 15 of a Caldera queue's descriptor (R424). -/
def ClqCfg.bytes (c : ClqCfg) : List Byte :=
  leBytes 4 c.limit ++ leBytes 1 c.producer ++ leBytes 1 c.consumer ++ leBytes 1 c.flags ++ leBytes 1 c.fullWait ++
    leBytes 2 c.consumerId ++ leBytes 6 c.rsv

/-- The 32 bytes of Caldera queue q (R424). -/
def State.clqBytes (s : State) (q : Nat) : List Byte :=
  let c := s.clq q
  c.cfg.bytes ++ leBytes 1 (b2n c.enabled) ++ leBytes 3 (b2n c.flushPending * 2 + b2n c.opened.isSome) ++ leBytes 4 c.cells ++
    leBytes 4 (c.complete.length + b2n c.reading.isSome) ++ leBytes 4 c.dropped

/-- One byte of a memory that a window shows. -/
def State.targetByte (s : State) (t n a : Nat) : Byte :=
  let part := fun (w k : Nat) => BitVec.ofNat 8 (w / 256 ^ k)
  match t with
  | 0x01 => part (s.progWord n (a / 8)).toNat (a % 8)
  | 0x02 => part (s.tabWord n (a / 4)).toNat (a % 4)
  | 0x03 => mgetD (s.seq n 5).mem a 0
  | 0x04 => part (mgetD (s.unit n).bin.ctx (a / 4) 0).toNat (a % 4)
  | 0x05 => part (mgetD (s.unit n).bin.cdf (a / 2) 0) (a % 2)
  | 0x10 => (s.flowBytes (a / 128)).getD (a % 128) 0
  | 0x11 => (s.meterBytes (a / 64)).getD (a % 64) 0
  | 0x12 => (s.eqBytes (a / 64)).getD (a % 64) 0
  | 0x13 => (s.wqBytes (a / 64)).getD (a % 64) 0
  | 0x14 => (s.clqBytes (a / 32)).getD (a % 32) 0
  | _ => 0

/-! ### Writing -/

/-- Overwrites bytes of a list from position a. -/
def putBytes (l : List Byte) (a : Nat) (bs : List Byte) : List Byte := l.take a ++ bs ++ l.drop (a + bs.length)

/-- The descriptor fields that 16 bytes spell (R424). -/
def clqCfgOf (l : List Byte) : ClqCfg :=
  let f := fun a n => leNat ((l.drop a).take n)
  { limit := f 0 4, producer := f 4 1, consumer := f 5 1, flags := f 6 1, fullWait := f 7 1, consumerId := f 8 2, rsv := f 10 6 }

/-- Core n is FENCED (R68, R277). -/
def State.coreFenced (s : State) (n : Nat) : Bool := (s.page (corePage n)).state == .fenced

/-- A write of one 4-byte word to a memory behind a window; none where the write is refused (R67, R68, R112, R277, R424, R493,
R499, R511). The word at byte 48 of an egress queue keeps its first two bytes, and the refused rest sets ACCESS_BAD (log
entry 64). -/
def State.targetWrite (s : State) (t n a : Nat) (w : Word) : Option State :=
  let bs := leBytes 4 w.toNat
  match t with
  | 0x01 =>
    if s.fuse.secureBoot ∨ !s.coreFenced n then none
    else
      let l := (List.range 8).map (fun k => s.targetByte 1 n (a / 8 * 8 + k))
      some (s.modUnit n (fun u => { u with prog := mset u.prog (a / 8) (BitVec.ofNat 64 (leNat (putBytes l (a % 8) bs))) }))
  | 0x02 =>
    if s.fuse.secureBoot ∨ !s.coreFenced n then none
    else some (s.modUnit n (fun u => { u with tab := mset u.tab (a / 4) w }))
  | 0x03 => some (s.modSeq n 5 (fun x => { x with mem := bs.zipIdx.foldl (fun m b => mset m (a + b.2) b.1) x.mem }))
  | 0x04 => if s.coreFenced n then some (s.modBin n (fun b => { b with ctx := mset b.ctx (a / 4) w })) else none
  | 0x05 =>
    if s.coreFenced n then
      some (s.modBin n (fun b => { b with
        cdf := mset (mset b.cdf (a / 2) (w.toNat % 65536)) (a / 2 + 1) (w.toNat / 65536) }))
    else none
  | 0x11 =>
    if a % 64 < 16 then some (s.modMeter (a / 64) (fun x => { x with cfg := putBytes x.cfg (a % 64) bs })) else none
  | 0x12 =>
    if (s.egressQ (a / 64)).enabled then none
    else if a % 64 < 48 then some (s.modEq (a / 64) (fun x => { x with cfg := putBytes x.cfg (a % 64) bs }))
    else if a % 64 = 48 then
      some ((s.modEq (a / 64) (fun x => { x with cfg := putBytes x.cfg 48 (bs.take 2) })).accessBad 0)
    else none
  | 0x13 =>
    if a % 64 < 48 ∧ (s.wq (a / 64)).state = .disarmed then
      some (s.modWq (a / 64) (fun x => { x with cfg := putBytes x.cfg (a % 64) bs }))
    else none
  | 0x14 =>
    if a % 32 < 16 ∧ !(s.clq (a / 32)).enabled then
      some (s.modClq (a / 32) (fun c => { c with cfg := clqCfgOf (putBytes c.cfg.bytes (a % 32) bs) }))
    else none
  | _ => none

/-! ### Access (R64, R66, R67, R90) -/

/-- Windows are served: only in service (R90). -/
def State.windowsServed (s : State) : Bool := decide (s.faults.stop ≠ .sealed) && s.boot.state == .ready

/-- A 4-byte write through a window. -/
def State.windowWrite (s : State) (off : Nat) (w : Word) : State :=
  if !s.windowsServed then s
  else
    match (s.windowAt off).bind (fun x => s.targetWrite x.1 x.2.1 x.2.2 w) with
    | some t => t
    | none => s.accessBad 0

/-- An access that R64 refuses sets DEVICE's ACCESS_BAD. -/
def State.refusedAccess (s : State) : State := if s.faults.stop = .sealed then s else s.accessBad 0

/-- An access size and alignment that BAR0 accepts (R64). -/
def accessOk (off len : Nat) (write : Bool) : Bool :=
  (len == 4 && off % 4 == 0) || (len == 8 && off % 8 == 0) ||
    (!write && (len == 1 || len == 2) && decide (off % 4 + len ≤ 4))

/-- A read through a window: what it returns and the state after it. -/
def State.windowRead (s : State) (off len : Nat) : List Byte × State :=
  if !accessOk off len false then (List.replicate len 0, s.refusedAccess)
  else if !s.windowsServed then (List.replicate len 0, s)
  else
    match s.windowAt off with
    | some (t, n, a) => ((List.range len).map (fun k => s.targetByte t n (a + k)), s)
    | none => (List.replicate len 0, s.accessBad 0)

/-- A host request to BAR0 that needs a link and address decoding (R101, R102, R107). -/
def barRequest (s : State) (f : State → State) : Result :=
  let s := s.toL0
  .next (if !s.linked then s else if !s.decodes then s.emit .unsupportedRequest else f s)

/-- The low and high words of a write's data, as the 4-byte writes that it makes (R64). -/
def wordsOf (off len : Nat) (v : DWord) : List (Nat × Word) :=
  if len = 4 then [(off, v.setWidth 32)] else [(off, v.setWidth 32), (off + 4, (v >>> 32).setWidth 32)]

end Sys2Proof.Machine
end

