-- ==== Sys2Proof/Machine/RegWrite.lean ====
section
/-!
DEFINITION. A write to BAR0, taken apart into what its register does (R15, R63, R64, R69 to R74, R80, R85, R88).
-/
namespace Sys2Proof.Machine

/-! ### The header (R69 to R81, R86) -/

/-- PAGE_CTRL: UNIT_RESET meets the state before the write, then ENABLE and FENCE take their values (R71). -/
def State.writeCtrl (s : State) (p : Nat) (k : PageKind) (v : Word) : State :=
  let s1 := if !noFence k && v.getLsbD 2 then s.unitReset p else s
  let s2 := if noFence k then s1 else if v.getLsbD 1 then s1.fenceOn p else s1.fenceOff p
  if v.getLsbD 0 then s2.enableOn p else s2.enableOff p

/-- PAGE_ERR: each W1C bit takes its fields with it (R69). -/
def State.writeErr (s : State) (p : Nat) (v : Word) : State :=
  s.modPage p (fun g =>
    let g1 := if v.getLsbD 2 then { g with accessBad := false } else g
    let g2 := if v.getLsbD 1 then { g1 with commitReject := false, rejectReason := 0, rejectGroup := 0 } else g1
    if v.getLsbD 0 then { g2 with shadowLate := false, lateGroup := 0 } else g2)

/-- SNAP: RELEASE, then TAKE (R86). -/
def State.writeSnap (s : State) (p : Nat) (v : Word) : State :=
  let s1 := if v.getLsbD 1 then s.snapRelease p else s
  if v.getLsbD 0 then s1.snapTake p else s1

/-- A write to a register of the common header. A W1C bit that an RSV bit of the same write finds clear sets after it. -/
def State.writeHeader (s : State) (p off : Nat) (k : PageKind) (v : Word) : State :=
  let s1 :=
    match off with
    | 0x00C => s.writeCtrl p k v
    | 0x014 => s.goWrite p (v.setWidth 16)
    | 0x01C => s.writeErr p v
    | 0x024 => s.modPage p (fun g => { g with evtPend := g.evtPend &&& ~~~v })
    | 0x028 => s.modPage p (fun g => { g with evtPend := g.evtPend ||| (v &&& evtMask k) })
    | 0x02C => s.modPage p (fun g => { g with evtEnable := v &&& evtMask k })
    | 0x034 => s.writeSnap p v
    | 0x038 => s.modPage p (fun g => { g with scratch := v })
    | 0x03C => s.writeKey p (v.setWidth 16)
    | _ => s
  s1.rsv p (headerMask k off) v

/-! ### Registers that act when written (R74) -/

/-- A CMD value outside the register's table is discarded and sets ACCESS_BAD (R114 and the tables of the owning chapters). -/
def badCmd (p : Nat) (s : State) : Result := hostCmd p s fun s => s.accessBad p

/-- SRC_CTRL of a source: ENABLE, PENDING and SET of one write act together (R468, R469). -/
def State.srcCtrl (s : State) (src : Nat) (v : Word) : State :=
  if !srcReal src then s
  else
    s.modSrc src (fun x => { x with
      enable := v.getLsbD 0
      pending := if srcLevel src then x.pending else (x.pending && !v.getLsbD 1) || v.getLsbD 4
      soft := x.soft || (srcLevel src && v.getLsbD 4) })

/-- The command of a register that acts when written, by its page type, offset and value: each is the row of that command. -/
def actWrite (p off : Nat) (k : PageKind) (v : Word) (h : HostAnswers) (s : State) : Result :=
  let cmd := fld v 31 24
  let arg := fld v 11 0
  let ack := v.setWidth 8
  match k with
  | .boot => execHostGo v s
  | .dormant => execDormantRetryGo v s
  | .fault => if off = 0x200 then execRecAck v s else if off = 0x204 then execRecAckAll v s else execErrPinCtrlWrite v s
  | .intc =>
    if off < 0x200 then execEoi ((off - 0x0E0) / 4) (fld v 8 0) s
    else hostCmd 4 s fun s => s.srcCtrl ((off - 0x200) / 4) v
  | .placer => execRehomeReq v s
  | .mode => if off = 0x084 then execModeCommit v s else execModeDetailAck ack s
  | .geyser =>
    if off = 0x084 then execCqHead v s
    else if off = 0x088 then execAbortReq v s
    else if off = 0x0C8 then execAbortAck ack s
    else
      let q := fld v 9 0
      match cmd with
      | 1 => execWqArm q s
      | 2 => execWqPause q s
      | 3 => execWqResume q s
      | 4 => execWqKick q s
      | 5 => execWqDiscard q s
      | 6 => execWqDisarm q s
      | _ => badCmd p s
  | .qmgr =>
    match cmd with
    | 1 => execClqEnable arg s
    | 2 => execClqDisable arg s
    | 3 => execClqFlush arg s
    | _ => badCmd p s
  | .bpm =>
    if off = 0x304 then execBpmAllocReq v h.pool s
    else if off = 0x308 then execBpmRelease v s
    else if off = 0x318 then execBpmAllocAck ack s
    else
      match cmd with
      | 1 => execPoolEnable (fld v 3 0) s
      | 2 => execPoolDisable (fld v 3 0) s
      | 3 => execPoolRebuild (fld v 3 0) s
      | _ => badCmd p s
  | .nete =>
    if off = 0x308 then execTxstampEnable (p - 12) v s
    else
      match cmd with
      | 1 => execEqEnable (p - 12) arg h.hdr h.psi s
      | 2 => execEqDisable (p - 12) arg s
      | 3 => execPsiUpdate (p - 12) arg s
      | _ => badCmd p s
  | .flowwin =>
    match cmd with
    | 1 => execFlowInsert h.desc s
    | 2 => execFlowDelete s
    | 3 => execFlowModify h.desc s
    | 4 => execFlowLookup s
    | _ => badCmd p s
  | .meter => if cmd = 1 then execMeterCommit arg s else badCmd p s
  | .mgmt =>
    match cmd with
    | 1 => execPersLoad h.img s
    | 2 => execPersUnload (fld v 3 0) s
    | _ => badCmd p s
  | .dch =>
    let i := pageInstance p
    if off = 0x0C0 then execSrEnter i v s else if off = 0x0C4 then execDchReset i v s else execFreezeAck i ack s
  | .qcomp =>
    let c := (off - 0x048) / 0x10
    if v.getLsbD 31 then execComparatorArm (pageQuad p) c v s
    else if v.getLsbD 30 then execComparatorDisarm (pageQuad p) c v s
    else hostCmd p s fun s => (s.compCtrl (pageQuad p) c v false false).rsv p 0xEFFFFFFF v
  | _ =>
    let c := (pageChans p).getD ((off - 0x040) / 0x40) 0
    match cmd with
    | 1 => execDmaStart c s
    | 2 => execDmaAppend c s
    | 3 => execDmaStop c s
    | 4 => execDmaTrigger c s
    | _ => badCmd p s

/-- The bits of such a register that are not RSV, where the command's own row does not look at them (R15). -/
def actMask (k : PageKind) (off : Nat) : Word :=
  match k with
  | .intc => if off < 0x200 then 0x1FF else if srcReal ((off - 0x200) / 4) then 0x3F else 0
  | .mode => if off = 0x0C8 then 0xFF else 0xFFFFFFFF
  | .geyser => if off = 0x0C8 then 0xFF else if off = 0x080 then 0xFF0003FF else 0xFFFFFFFF
  | .qmgr | .meter => 0xFF000FFF
  | .nete => if off = 0x200 then 0xFF000FFF else 0xFFFFFFFF
  | .bpm => if off = 0x318 then 0xFF else if off = 0x300 then 0xFF00000F else 0xFFFFFFFF
  | .flowwin | .qdma | .cdma => 0xFF000000
  | .mgmt => 0xFF00000F
  | .dch => if off = 0x10C then 0xFF else 0xFFFFFFFF
  | _ => 0xFFFFFFFF

/-! ### The other registers -/

/-- The channel of a DMA page whose register lies at B + r, if the offset is one. -/
def chanOf (p off r : Nat) : Option Nat :=
  if 0x040 ≤ off ∧ (off - 0x040) % 0x40 = r then (pageChans p)[(off - 0x040) / 0x40]? else none

/-- A write below 0x800 to a register that neither acts nor belongs to the header. -/
def State.writePlain (s : State) (p off : Nat) (k : PageKind) (v : Word) : State :=
  match findReg k off with
  | some d =>
    let s1 := s.storeReg p off k d v
    match chanOf p off 0x18 with
    | some c => s1.chanCond c
    | none => s1
  | none =>
    match chanOf p off 0x1C with
    | some c =>
      ((s.modChan c (fun x => { x with evtPend := (BitVec.ofNat 32 x.evtPend &&& ~~~v).toNat })).chanCond c).rsv p 0x1F v
    | none => s.rsv p ((readOnlyMask k off).getD 0) v

/-- A 4-byte write to offset `off` of BAR0 (R63, R73, R91). -/
def writeWord (off : Nat) (v : Word) (h : HostAnswers) (s : State) : Result :=
  let p := off / 0x1000
  let o := off % 0x1000
  if 512 ≤ p then barRequest s fun s => s.windowWrite off v
  else
    match pageKind p with
    | none => hostCmd p s id
    | some k =>
      if 0x800 ≤ o then hostCmd p s fun s => s.accessBad p
      else if o < 0x040 then hostCmd p s fun s => s.writeHeader p o k v
      else if actsWhenWritten k o then
        match actWrite p o k v h s with
        | .next t => .next (if v &&& ~~~actMask k o = 0 then t else hostWrite p t fun t => t.accessBad p)
        | r => r
      else hostCmd p s fun s => s.writePlain p o k v

/-- REGISTER_WRITE (R64, R85): a write at a BAR0 offset; one of 8 bytes is two of 4, the lower first. One with poisoned data is
discarded whole and reported (R101), and one beyond the 4 MiB of BAR0 matches no BAR (R102). `h` holds what host
memory answers to the command that the write starts, where it starts one that reads it. -/
def execRegisterWrite (off len : Nat) (v : DWord) (h : HostAnswers) (s : State) : Result :=
  if !s.linked ∨ !s.decodes ∨ 0x400000 ≤ off ∨ h.poisoned ∨ !accessOk off len true then
    barRequest s fun s =>
      if 0x400000 ≤ off then s.emit .unsupportedRequest
      else if h.poisoned then s.report .poisonedTlp
      else s.refusedAccess
  else
    match wordsOf off len v with
    | [(a, x), (b, y)] =>
      match writeWord a x h s with
      | .next t => writeWord b y h t
      | r => r
    | [(a, x)] => writeWord a x h s
    | _ => .next s

end Sys2Proof.Machine
end

