-- ==== Sys2Proof/Machine/RegRead.lean ====
section
/-!
DEFINITION. What a read of BAR0 returns: the common header, the shadow and active views, the mailboxes and the status registers
of every page (R15, R17, R64, R65, R69 to R75, R83, R84, R86, R87, R90, and the register tables of the owning chapters).
-/
namespace Sys2Proof.Machine

/-! ### The header (R6, R26, R69 to R81) -/

/-- The code of PAGE_STATUS.STATE (R71). -/
def UnitState.code : UnitState → Nat
  | .offline => 0
  | .idle => 1
  | .running => 2
  | .fenced => 3
  | .frozen => 4

/-- The code of PAGE_STATUS.FENCE_CAUSE (R71). -/
def FenceCause.code : FenceCause → Nat
  | .none => 0
  | .software => 1
  | .selftest => 2
  | .fault => 3
  | .boot => 4
  | .monitor => 5
  | .placer => 6

/-- PAGE_CAPS: of a core its healthy lanes, its 4 DMA channels and its 5 stages (R26); 0 on every other page (R70). -/
def State.pageCaps (s : State) (p : Nat) : Nat :=
  match pageCore p with
  | some n => (s.unit n).lanes * 0x10000 + 0x45
  | none => 0

/-- PAGE_STATUS.STATE as a read returns it: a unit in service with work reads RUNNING (R71). -/
def State.stateRead (s : State) (p : Nat) : UnitState :=
  match s.pageState p with
  | .idle => if s.pageWorks p then .running else .idle
  | x => x

/-- PAGE_STATUS (R71). FENCE_CAUSE reads 0 unless the unit is fenced or drains towards a fence. -/
def State.pageStatus (s : State) (p : Nat) : Nat :=
  let g := s.page p
  let cause := if g.state == .fenced || g.draining then g.cause.code else 0
  b2n (s.quadParked p) * 2 ^ 11 + b2n g.draining * 2 ^ 10 + cause * 2 ^ 4 + (s.stateRead p).code

/-- A register of the common header as it reads. WO and W1S fields read 0 (R15). -/
def State.headerValue (s : State) (p : Nat) (k : PageKind) (o : Nat) : Nat :=
  let g := s.page p
  match o with
  | 0x000 => k.code * 2 ^ 24 + pageInstance p * 2 ^ 16 + 0x0100
  | 0x004 => if k = .device then s.fuse.grade % 16 * 0x100 + stepping else 0x0100
  | 0x008 => s.pageCaps p
  | 0x00C => b2n g.fence * 2 + b2n g.enable
  | 0x010 => s.pageStatus p
  | 0x014 => g.groups.toNat * 0x10000
  | 0x018 => if k = .core then g.epoch else s.modes.current
  | 0x01C => g.rejectReason * 2 ^ 24 + g.rejectGroup * 2 ^ 20 + g.lateGroup * 2 ^ 16 + b2n g.accessBad * 4 +
      b2n g.commitReject * 2 + b2n g.shadowLate
  | 0x020 => g.evtRaw.toNat
  | 0x024 => g.evtPend.toNat
  | 0x02C => g.evtEnable.toNat
  | 0x030 => (mgetD (s.snapRegs p) 0x030 0).toNat
  | 0x034 => g.snapSeq * 2 ^ 8 + b2n g.snapHeld * 4
  | 0x038 => g.scratch.toNat
  | 0x03C => b2n g.unlocked * 2 ^ 16
  | _ => 0

/-! ### Direct registers and mailboxes (R74, R87) -/

/-- The head register of a mailbox: VALID, its result fields and SEQ; 0 while nothing is present (R87). -/
def boxHead (result seq : Nat) : Nat := 2 ^ 31 + result * 2 ^ 8 + seq

/-- SRC_CTRL of an interrupt source (R467 to R469); every field of a reserved source is RSV. -/
def State.srcWord (s : State) (n : Nat) : Nat :=
  if !srcReal n then 0
  else
    let x := s.src n
    b2n (srcLevel n && x.level) * 32 + b2n (srcLevel n) * 8 + b2n x.inService * 4 + b2n (s.srcPending n) * 2 + b2n x.enable

/-- A direct register below 0x800 that is not one of the stored ones. A command register reads 0 (R15). -/
def State.directValue (s : State) (p : Nat) (k : PageKind) (o : Nat) : Nat :=
  match k with
  | .intc => if 0x200 ≤ o ∧ o < 0x700 then s.srcWord ((o - 0x200) / 4) else 0
  | .geyser =>
    match s.geyser.abort.current with
    | some (q, oc, info) => if o = 0x0C0 then boxHead oc q else if o = 0x0C4 then info else 0
    | none => 0
  | .mode =>
    match s.modes.box.current with
    | some (q, oc, info) =>
      if o = 0x0C0 then boxHead (oc * 16 + info / 2 ^ 32) q else if o = 0x0C4 then info % 2 ^ 32 else 0
    | none => 0
  | .bpm =>
    match s.bpm.box with
    | r :: _ => if o = 0x310 then boxHead (r.pool * 16 + r.outcome) r.seq else if o = 0x314 then r.handle else 0
    | [] => 0
  | .dch =>
    match (s.dch (pageInstance p)).freeze with
    | some f =>
      if o = 0x100 then 2 ^ 31 + f.source * 2 ^ 28 + f.port * 2 ^ 23 + f.cls * 2 ^ 20 + f.command * 2 ^ 16 + f.syndrome * 2 ^ 8 + f.seq
      else if o = 0x104 then f.line
      else if o = 0x108 then f.loc
      else 0
    | none => 0
  | .nete =>
    let t := (s.port (p - 12)).stamps
    if o = 0x308 then b2n t.en * 2 ^ 31 + t.log2 else 0
  | .qcomp =>
    if 0x040 ≤ o ∧ o < 0x0C0 ∧ o % 0x10 = 8 then
      let c := s.comp (8 * pageQuad p + (o - 0x048) / 0x10)
      b2n c.armed * 2 ^ 29 + c.period
    else 0
  | .cdma | .qdma =>
    match chanOf p o 0x1C with
    | some c => (s.chan c).evtPend
    | none => 0
  | _ => 0

/-! ### Status registers -/

/-- Entry k of an array of 32-bit registers `stride` apart from `base`, if the offset is one of `n`. -/
def entryOf (base stride n o : Nat) : Option Nat :=
  if base ≤ o ∧ (o - base) % stride = 0 ∧ (o - base) / stride < n then some ((o - base) / stride) else none

/-- A number with bit i set for each i below n with f i. -/
def bitsOf (n : Nat) (f : Nat → Bool) : Nat := (List.range n).foldl (fun m i => m + b2n (f i) * 2 ^ i) 0

/-- POLL_STATUS (R126): DEMAND rounded up, and STRETCH, 16 times the ratio of demand and budget, rounded up, 16 at rest. -/
def State.pollStatus (s : State) : Nat :=
  let d := s.pollDemand
  let b := fld (s.active 7 0x040) 15 8
  min 65535 (ceilDiv d.1 d.2) * 2 ^ 16 + min 255 (max 16 (ceilDiv (16 * d.1) (max 1 (b * d.2))))

/-- The code of a wait (PIPE_STATUS). The table has no code for a wait for another owner of a block register or unit: the model
shows the former as CHANNEL and the latter as NONE (DESIGN CHOICE, log entry 107). -/
def WaitKind.code : WaitKind → Nat
  | .none | .busy => 0
  | .scoreboard => 1
  | .source => 2
  | .border => 3
  | .entropy => 4
  | .memory => 5
  | .staging => 6
  | .channel | .block => 7

/-- The lead of a core's jobs is the one that entered last; with two, the other is the tail (R213). -/
def State.leadJob (s : State) (n : Nat) : Option Nat := (s.core n).inside.getLast?

/-- PIPE_STATUS of core n. A unit is busy while it holds a job and has not stopped; of several waits of the lead the first in the
order of the sequencers shows (DESIGN CHOICE, log entry 107). -/
def State.pipeStatus (s : State) (n : Nat) : Nat :=
  let c := s.core n
  let busy := fun q => (s.seq n q).job.isSome && !(s.seq n q).stopped
  let wait := (List.range 6).foldl (fun (w : Nat) q =>
    if w = 0 ∧ (s.seq n q).job = s.leadJob n ∧ (s.leadJob n).isSome then (s.seq n q).wait.code else w) 0
  let stream := (((s.leadJob n).bind s.job).bind Job.stream).getD 0
  wait * 2 ^ 28 + c.inside.length % 4 * 2 ^ 26 + stream * 2 ^ 16 + b2n (busy 5) * 64 + b2n (s.unit n).bin.job.isSome * 32 +
    bitsOf 5 busy

/-- PIPE_TAIL of core n. -/
def State.pipeTail (s : State) (n : Nat) : Nat :=
  match (s.core n).inside with
  | j :: _ :: _ => 2 ^ 10 + ((s.job j).bind Job.stream).getD 0
  | _ => 0

/-- The status registers of a core (09 to 11). -/
def State.coreStatus (s : State) (n o : Nat) : Nat :=
  let f := (s.unit n).fault
  let b := (s.unit n).bin
  match o with
  | 0x8C0 => s.pipeStatus n
  | 0x8C4 => s.pipeTail n
  | 0x8C8 => f.seq * 2 ^ 28 + f.cause * 2 ^ 24 + min 255 f.count * 2 ^ 16 + f.pc % 2 ^ 15
  | 0x8CC => b.cause * 2 ^ 24 + b.cls * 2 ^ 16 + min 255 b.errCount * 2 ^ 8 + b2n b.writer.full * 128 + b2n b.cfg.strict * 32 +
      b2n b.seg.isSome * 16 + ((b.seg.map Coder.kernel).getD 0) % 4 * 4 + b2n b.inError * 2 + b2n b.running
  | 0x8D0 => b.errPos
  | _ => 0

/-- MEM_CONFIG as the board configuration record gives it (R388), once the part is ready. -/
def State.memConfig (s : State) : Nat :=
  let c := s.fuse.boardCfg
  if s.boot.state ≠ .ready then 0
  else
    fld c 23 20 * 2 ^ 28 + fld c 19 16 * 2 ^ 24 + fld c 15 12 * 2 ^ 20 + fld c 11 10 * 2 ^ 18 + b2n s.inlineEcc * 2 ^ 17 +
      b2n s.linkEcc * 2 ^ 16

/-- The code of a self-refresh state (DCH.STATUS). -/
def SrState.code : SrState → Nat
  | .active => 0
  | .entering => 1
  | .selfRefresh => 2
  | .exiting => 3

/-- The code of a pool state (R436). -/
def PoolState.code : PoolState → Nat
  | .disabled => 0
  | .enabling => 1
  | .enabled => 2
  | .broken => 3
  | .rebuilding => 4

/-- MODE_STATUS (R382): a refusal whose result waits in the mailbox shows as REFUSED. -/
def State.modeStatus (s : State) : Nat :=
  let m := s.modes
  let under := match m.state with
    | .applied => 0
    | .validating => 1
    | .mixed => 2
  let refused := (m.box.current.map (fun b => b.2.1 == 2)).getD false
  m.current * 2 ^ 16 + ((List.range 48).filter (fun n => m.laggards.getLsbD n)).length * 2 ^ 8 +
    m.busy * 16 + (if refused then 3 else under)

/-- PLACER.QUAD_STATUS of quadrant q. -/
def State.quadStatus (s : State) (q : Nat) : Nat :=
  b2n (s.quad q).parked * 2 ^ 31 + b2n (s.noHomes q) * 2 ^ 30 + (s.homed q).length * 2 ^ 16 + (s.quad q).dramLoad

/-- BOOT_STATUS. -/
def State.bootStatus (s : State) : Nat :=
  let b := s.boot
  b.state.code * 2 ^ 30 + b2n b.degraded * 2 ^ 29 + b2n b.unsigned * 2 ^ 28 + b2n b.hostWait * 2 ^ 27 + b.source * 2 ^ 22 +
    b.stage * 2 ^ 16 + b.attempts

/-- LINK_STATUS of a network port: lanes in SPLIT, the one link in CR4 and CAUI4. -/
def State.linkStatus (s : State) (p : Nat) : Nat :=
  if s.portMode p = 3 then bitsOf 4 (fun l => (s.link (4 * p + l)).up) * 16
  else if s.portMode p = 0 then 0
  else b2n (s.link (4 * p)).up

/-- A status register of page p, at an offset from 0x840 that no active view takes. -/
def State.statusValue (s : State) (p : Nat) (k : PageKind) (o : Nat) : Nat :=
  let i := pageInstance p
  match k with
  | .boot =>
    match o with
    | 0x8C0 => s.bootStatus
    | 0x8C8 => s.boot.cause.word
    | 0x8E0 => s.boot.capCores.toNat % 2 ^ 32
    | 0x8E4 => s.boot.capCores.toNat / 2 ^ 32
    | 0x8E8 => s.boot.capQuads.toNat * 2 ^ 12 + s.boot.capDch.toNat
    | _ => match entryOf 0x8D0 4 4 o with
      | some e => ((s.boot.history[e]?).map BootHist.word).getD 0
      | none => 0
  | .fault =>
    match o with
    | 0x9E0 => 4 * b2n (decide (s.faults.stop = .sealed)) + 2 * b2n s.faults.pulsing + b2n s.errLow
    | 0x9E4 => s.faults.stopSource * 2 ^ 24 + s.faults.stop.code
    | 0x9E8 => s.faults.lost * 2 ^ 16 + s.faults.unacked.length * 2 ^ 8 + s.faults.newestSlot
    | 0x9EC => s.faults.newestSeq
    | _ => match entryOf 0xA00 4 384 o with
      | some e => leNat (((s.slotBytes32 (e / 8)).drop (4 * (e % 8))).take 4)
      | none => 0
  | .intc =>
    match entryOf 0xA00 4 40 o, entryOf 0x900 4 10 o, entryOf 0x940 4 10 o with
    | some g, _, _ =>
      let x := s.grp g
      b2n x.msgDue * 2 ^ 31 + b2n x.timerRun * 2 ^ 30 + (if x.timerRun then max 1 (ceilDiv x.timerLeft (250 * 2 ^ 40)) else 0)
    | _, some e, _ => bitsOf 32 (fun j => srcReal (32 * e + j) && s.srcPending (32 * e + j))
    | _, _, some e => bitsOf 32 (fun j => (s.src (32 * e + j)).inService)
    | _, _, _ => 0
  | .placer =>
    match entryOf 0x900 4 48 o, entryOf 0x9C0 4 4 o with
    | some n, _ => b2n (s.core n).slow * 2 ^ 31 + (s.core n).busy256 * 2 ^ 16 + s.ptOf n
    | _, some q => s.quadStatus q
    | _, _ => 0
  | .mode =>
    match o with
    | 0x8C0 => s.modeStatus
    | 0x8C4 => s.modes.laggards.toNat % 2 ^ 32
    | 0x8C8 => s.modes.laggards.toNat / 2 ^ 32
    | _ => 0
  | .geyser =>
    if o = 0x8C0 then s.pollStatus
    else match entryOf 0x900 4 32 o with
      | some e => bitsOf 32 (fun j => (s.wq (32 * e + j)).state == .halted || (s.wq (32 * e + j)).cqFull)
      | none => 0
  | .qmgr => if o = 0x8C0 ∧ s.boot.state = .ready then s.holdFree * 2 ^ 19 + s.freeCells else 0
  | .bpm =>
    match o with
    | 0xA80 => s.bpm.lastHandle
    | 0xA84 => min 255 s.bpm.refusals * 2 ^ 24 + s.bpm.lastKind * 2 ^ 8 + s.bpm.lastAgent
    | _ => match entryOf 0xA00 8 16 o, entryOf 0xA04 8 16 o with
      | some e, _ => (s.pool e).state.code * 2 ^ 28 + (s.pool e).cause * 2 ^ 26 + (s.pool e).free
      | _, some e => (s.pool e).owned
      | _, _ => 0
  | .netp => if o = 0x8C0 then s.linkStatus i else 0
  | .nete => if o = 0x980 then (s.port i).result * 2 ^ 24 + (s.port i).cmdSeq * 2 ^ 16 + (s.port i).queue else 0
  | .flowwin => if o = 0x8C0 then s.net.flowResult * 2 ^ 24 + s.net.flowSeq * 2 ^ 16 + s.net.flowIndex else 0
  | .pcie =>
    let x := s.pcie
    match o with
    | 0x8C0 => b2n x.inL1 * 2 ^ 17 + b2n x.linkUp * 2 ^ 16 + x.width * 2 ^ 8 + x.speed
    | 0x8C4 => b2n x.pmeStatus * 8 + b2n x.bme * 4 + (if x.d3hot then 3 else 0)
    | _ => 0
  | .mgmt =>
    if o = 0x8E0 then s.pers.result * 2 ^ 24 + s.pers.cmdSeq * 2 ^ 16 + s.pers.slot * 16 + b2n s.pers.busy.isSome
    else match entryOf 0xA00 8 16 o, entryOf 0xA04 8 16 o with
      | some e, _ => ((mget s.pers.dir e).map PersEntry.id).getD 0
      | _, some e => match mget s.pers.dir e with
        | some x => b2n x.unsigned * 2 ^ 31 + (s.streams.filter (fun (y : Nat × Stream) => y.2.state != .closed &&
            y.2.pers == e)).length * 2 ^ 16
        | none => 0
      | _, _ => 0
  | .timebase =>
    match o with
    | 0x8C0 => s.time.ns % 2 ^ 32
    | 0x8C4 => s.time.hiLatch.toNat
    | 0x8C8 => s.time.snapLo.toNat
    | 0x8CC => s.time.snapHi.toNat
    | _ => 0
  | .dch =>
    match o with
    | 0x8C0 => s.memConfig
    | 0x8C4 => (s.dch i).lastHammer * 2 ^ 27 + (s.dch i).sr.code * 2 ^ 24 + (s.dch i).freezeExtra * 2 ^ 16 + (s.dch i).throttled
    | _ => 0
  | .dormant =>
    if o = 0x8C0 then s.boot.entry * 64 + b2n s.boot.windowOk * 32 + b2n s.boot.busy * 16 + s.boot.lastResult else 0
  | .fuse =>
    match o with
    | 0x8E0 => s.fuse.boardCfg.toNat
    | 0x8E4 => b2n s.fuse.secureBoot
    | _ => match entryOf 0x900 4 8 o with
      | some e => (s.fuse.fwkeyHash.getD e 0).toNat
      | none => 0
  | .quad =>
    match o with
    | 0x8C0 => s.largestFree i * 2 ^ 16 + ((s.blocks i).map Prod.snd).sum
    | 0x8C4 => bitsOf 16 (fun r => (mgetD s.quads i {}).init.any (fun x => x.1 == r))
    | _ => 0
  | .core => s.coreStatus i o
  | .cdma | .qdma =>
    match chanOf p (o - 0x800) 0x20, chanOf p (o - 0x800) 0x24, chanOf p (o - 0x800) 0x28 with
    | some c, _, _ => (s.chan c).statusWord
    | _, some c, _ => (s.chan c).curDesc % 2 ^ 32
    | _, _, some c => (s.chan c).curDesc / 2 ^ 32
    | _, _, _ => 0
  | _ => 0

/-! ### One register (R73, R74, R86, R90) -/

/-- The live value of a register of a page that is served. -/
def State.liveValue (s : State) (p : Nat) (k : PageKind) (o : Nat) : Nat :=
  let snap := mget (s.snapRegs p) o
  if o < 0x040 then s.headerValue p k o
  else if o < 0x800 then
    match findReg k o with
    | some _ => (s.reg p o).toNat
    | none => s.directValue p k o
  else if o < 0x840 then s.headerValue p k (o - 0x800)
  else
    match findReg k (o - 0x800), snap with
    | _, some w => w.toNat
    | some d, none =>
      match d.grp with
      | .direct => s.statusValue p k o
      | .mode => s.devField s.modes.current (d.idx (o - 0x800))
      | _ => (s.active p (o - 0x800)).toNat
    | none, none => s.statusValue p k o

/-- The value of a register: a captured one while the page holds a snapshot (R86), and otherwise the live one. -/
def State.regValue (s : State) (p : Nat) (k : PageKind) (o : Nat) : Nat :=
  let live := s.liveValue p k o
  if (s.page p).snapHeld then ((mget (s.page p).snap (if o = 0x830 then 0x030 else o)).map BitVec.toNat).getD live else live

/-- What a 4-byte read at a BAR0 offset below the windows returns, and the state after it. Only a read of CLAIM and one of TIME_LO
change the state (R17). -/
def State.readWord (s : State) (off : Nat) : Word × State :=
  let p := off / 0x1000
  let o := off % 0x1000
  match pageKind p with
  | none => (0, s)
  | some k =>
    match s.serving p with
    | .zero => (0, s)
    | .resetValues => (BitVec.ofNat 32 (({ fuse := s.fuse } : State).liveValue p k o), s)
    | _ =>
      if k = .intc ∧ 0x040 ≤ o ∧ o < 0x0E0 then
        match s.firstClaimable ((o - 0x040) / 4) with
        | none => (0, s)
        | some n => (BitVec.ofNat 32 (2 ^ 31 + n), s.claimSource n)
      else if k = .timebase ∧ o = 0x8C0 then (BitVec.ofNat 32 s.time.ns, s.latchTime)
      else (BitVec.ofNat 32 (s.regValue p k o), s)

/-- A read of BAR0 below the windows (R64, R84): the bytes that it returns and the state after it. -/
def State.regRead (s : State) (off len : Nat) : List Byte × State :=
  if !accessOk off len false then (List.replicate len 0, s.refusedAccess)
  else
    let lo := s.readWord (off / 4 * 4)
    if len = 8 then
      let hi := lo.2.readWord (off + 4)
      (leBytes 4 lo.1.toNat ++ leBytes 4 hi.1.toNat, hi.2)
    else (((leBytes 4 lo.1.toNat).drop (off % 4)).take len, lo.2)

/-- WINDOW_ACCESS (R64, R66, R67): a read or a write of BAR0. In pages 512 to 1023 it is one through a window; the table has no
other row for a read, so that below them it is a read of a register, or the write that REGISTER_WRITE is (DESIGN CHOICE, log
entry 81). An offset beyond the 4 MiB of BAR0 matches no BAR (R102). -/
def execWindowAccess (off len : Nat) (wr : Option DWord) (s : State) : Result :=
  match wr with
  | some v =>
    if off < 0x200000 then execRegisterWrite off len v {} s
    else
      barRequest s fun s =>
        if 0x400000 ≤ off then s.emit .unsupportedRequest
        else if accessOk off len true then (wordsOf off len v).foldl (fun t w => t.windowWrite w.1 w.2) s
        else s.refusedAccess
  | none =>
    barRequest s fun s =>
      if 0x400000 ≤ off then s.emit .unsupportedRequest
      else
        let r := if off < 0x200000 then s.regRead off len else s.windowRead off len
        r.2.emit (.barRead r.1 false)

end Sys2Proof.Machine
end

