-- ==== Sys2Proof/Machine/Dispatch.lean ====
section
/-!
DEFINITION. What every command does: one arm per constructor, each one direct call of that command's meaning.
-/
namespace Sys2Proof.Machine

def exec (i : Instr) (s : State) : Host.Outcome State Fault Refusal :=
  match i with
  | .powerOn => Sys2Proof.Machine.execPowerOn s
  | .powerRemoval => Sys2Proof.Machine.execPowerRemoval s
  | .perstNRise straps => Sys2Proof.Machine.execPerstNRise straps s
  | .perstNAssert => Sys2Proof.Machine.execPerstNAssert s
  | .hotReset => Sys2Proof.Machine.execHotReset s
  | .flr => Sys2Proof.Machine.execFlr s
  | .thermalTrip mon => Sys2Proof.Machine.execThermalTrip mon s
  | .configRequest req retry => Sys2Proof.Machine.execConfigRequest req retry s
  | .bootStageEnd r => Sys2Proof.Machine.execBootStageEnd r s
  | .stageTimeout => Sys2Proof.Machine.execStageTimeout s
  | .hostGo v => Sys2Proof.Machine.execHostGo v s
  | .dormantRetryGo v => Sys2Proof.Machine.execDormantRetryGo v s
  | .monitorWindow mon count tj => Sys2Proof.Machine.execMonitorWindow mon count tj s
  | .tempoLoopPeriod a => Sys2Proof.Machine.execTempoLoopPeriod a s
  | .avsRetry a => Sys2Proof.Machine.execAvsRetry a s
  | .thermalSample => Sys2Proof.Machine.execThermalSample s
  | .tempoUnder => Sys2Proof.Machine.execTempoUnder s
  | .comparatorFire q k => Sys2Proof.Machine.execComparatorFire q k s
  | .comparatorArm q k v => Sys2Proof.Machine.execComparatorArm q k v s
  | .comparatorDisarm q k v => Sys2Proof.Machine.execComparatorDisarm q k v s
  | .timeLoRead => Sys2Proof.Machine.execTimeLoRead s
  | .registerWrite off len v h => Sys2Proof.Machine.execRegisterWrite off len v h s
  | .windowAccess off len wr => Sys2Proof.Machine.execWindowAccess off len wr s
  | .go page mask => Sys2Proof.Machine.execGo page mask s
  | .handOver page group late => Sys2Proof.Machine.execHandOver page group late s
  | .pageUnlock page => Sys2Proof.Machine.execPageUnlock page s
  | .pageRelock page key => Sys2Proof.Machine.execPageRelock page key s
  | .pageLockTimeout page => Sys2Proof.Machine.execPageLockTimeout page s
  | .unitReset page => Sys2Proof.Machine.execUnitReset page s
  | .unitResetDone page t => Sys2Proof.Machine.execUnitResetDone page t s
  | .unitFence page => Sys2Proof.Machine.execUnitFence page s
  | .unitUnfence page => Sys2Proof.Machine.execUnitUnfence page s
  | .unitDisable page => Sys2Proof.Machine.execUnitDisable page s
  | .unitEnable page => Sys2Proof.Machine.execUnitEnable page s
  | .unitDrained page => Sys2Proof.Machine.execUnitDrained page s
  | .snapTake page => Sys2Proof.Machine.execSnapTake page s
  | .snapRelease page => Sys2Proof.Machine.execSnapRelease page s
  | .evtSetWrite page v => Sys2Proof.Machine.execEvtSetWrite page v s
  | .evtPendClear page v => Sys2Proof.Machine.execEvtPendClear page v s
  | .bar2Read off len ue => Sys2Proof.Machine.execBar2Read off len ue s
  | .bar2Write off bytes poisoned => Sys2Proof.Machine.execBar2Write off bytes poisoned s
  | .hostReadComplete what result => Sys2Proof.Machine.execHostReadComplete what result s
  | .d3hotEntry => Sys2Proof.Machine.execD3hotEntry s
  | .d0Return => Sys2Proof.Machine.execD0Return s
  | .bmeClear => Sys2Proof.Machine.execBmeClear s
  | .bmeSet => Sys2Proof.Machine.execBmeSet s
  | .pmeStatusClear => Sys2Proof.Machine.execPmeStatusClear s
  | .l1Entry => Sys2Proof.Machine.execL1Entry s
  | .vectorMask vec => Sys2Proof.Machine.execVectorMask vec s
  | .vectorUnmask vec => Sys2Proof.Machine.execVectorUnmask vec s
  | .wqArm q => Sys2Proof.Machine.execWqArm q s
  | .wqPause q => Sys2Proof.Machine.execWqPause q s
  | .wqResume q => Sys2Proof.Machine.execWqResume q s
  | .wqKick q => Sys2Proof.Machine.execWqKick q s
  | .wqDiscard q => Sys2Proof.Machine.execWqDiscard q s
  | .wqDisarm q => Sys2Proof.Machine.execWqDisarm q s
  | .queuePoll q => Sys2Proof.Machine.execQueuePoll q s
  | .geyserVisit => Sys2Proof.Machine.execGeyserVisit s
  | .ownerWordRead q w => Sys2Proof.Machine.execOwnerWordRead q w s
  | .entryBodyRead q body => Sys2Proof.Machine.execEntryBodyRead q body s
  | .jobParse job table param => Sys2Proof.Machine.execJobParse job table param s
  | .jobRetire job => Sys2Proof.Machine.execJobRetire job s
  | .completionWrite q => Sys2Proof.Machine.execCompletionWrite q s
  | .cqHead v => Sys2Proof.Machine.execCqHead v s
  | .abortReq v => Sys2Proof.Machine.execAbortReq v s
  | .abortAck seq => Sys2Proof.Machine.execAbortAck seq s
  | .poolRetry job host => Sys2Proof.Machine.execPoolRetry job host s
  | .streamOpen job block verdict => Sys2Proof.Machine.execStreamOpen job block verdict s
  | .streamParams job block verdict => Sys2Proof.Machine.execStreamParams job block verdict s
  | .streamClose job => Sys2Proof.Machine.execStreamClose job s
  | .encodeFrame job r => Sys2Proof.Machine.execEncodeFrame job r s
  | .encodeLadder job overs => Sys2Proof.Machine.execEncodeLadder job overs s
  | .decodeUnit job r => Sys2Proof.Machine.execDecodeUnit job r s
  | .decodeDrain job => Sys2Proof.Machine.execDecodeDrain job s
  | .copy job host => Sys2Proof.Machine.execCopy job host s
  | .fill job => Sys2Proof.Machine.execFill job s
  | .barrier job => Sys2Proof.Machine.execBarrier job s
  | .mark job => Sys2Proof.Machine.execMark job s
  | .query job => Sys2Proof.Machine.execQuery job s
  | .invalidate job => Sys2Proof.Machine.execInvalidate job s
  | .markLong job => Sys2Proof.Machine.execMarkLong job s
  | .exportPic job => Sys2Proof.Machine.execExportPic job s
  | .releaseOutput job => Sys2Proof.Machine.execReleaseOutput job s
  | .jobPlace job p => Sys2Proof.Machine.execJobPlace job p s
  | .placerTempoRefresh load => Sys2Proof.Machine.execPlacerTempoRefresh load s
  | .coreSlow n => Sys2Proof.Machine.execCoreSlow n s
  | .slowClear n => Sys2Proof.Machine.execSlowClear n s
  | .rehomeStart n cause => Sys2Proof.Machine.execRehomeStart n cause s
  | .rehomeAllocate n => Sys2Proof.Machine.execRehomeAllocate n s
  | .rehomeDone n => Sys2Proof.Machine.execRehomeDone n s
  | .rehomeRetry n => Sys2Proof.Machine.execRehomeRetry n s
  | .rehomeReq v => Sys2Proof.Machine.execRehomeReq v s
  | .quadrantPark q => Sys2Proof.Machine.execQuadrantPark q s
  | .quadrantPowerUp q t => Sys2Proof.Machine.execQuadrantPowerUp q t s
  | .jobEnterCore job n => Sys2Proof.Machine.execJobEnterCore job n s
  | .contextWritebackDone n ok => Sys2Proof.Machine.execContextWritebackDone n ok s
  | .scoreboardWaitEnd n q => Sys2Proof.Machine.execScoreboardWaitEnd n q s
  | .channelWaitEnd n q => Sys2Proof.Machine.execChannelWaitEnd n q s
  | .sourceRowPoll n => Sys2Proof.Machine.execSourceRowPoll n s
  | .sourceTimeout n => Sys2Proof.Machine.execSourceTimeout n s
  | .coreStall n => Sys2Proof.Machine.execCoreStall n s
  | .stepLimitReached n q => Sys2Proof.Machine.execStepLimitReached n q s
  | .graceExhausted n => Sys2Proof.Machine.execGraceExhausted n s
  | .lookaheadPass n d pass => Sys2Proof.Machine.execLookaheadPass n d pass s
  | .nop n q ins => Sys2Proof.Machine.execNop n q ins s
  | .jmp n q ins => Sys2Proof.Machine.execJmp n q ins s
  | .call n q ins => Sys2Proof.Machine.execCall n q ins s
  | .ret n q ins => Sys2Proof.Machine.execRet n q ins s
  | .loop n q ins => Sys2Proof.Machine.execLoop n q ins s
  | .jend n q ins => Sys2Proof.Machine.execJend n q ins s
  | .sadd n q ins => Sys2Proof.Machine.execSadd n q ins s
  | .ssub n q ins => Sys2Proof.Machine.execSsub n q ins s
  | .smul n q ins => Sys2Proof.Machine.execSmul n q ins s
  | .smulh n q ins => Sys2Proof.Machine.execSmulh n q ins s
  | .sdiv n q ins => Sys2Proof.Machine.execSdiv n q ins s
  | .sand n q ins => Sys2Proof.Machine.execSand n q ins s
  | .sor n q ins => Sys2Proof.Machine.execSor n q ins s
  | .sxor n q ins => Sys2Proof.Machine.execSxor n q ins s
  | .sshl n q ins => Sys2Proof.Machine.execSshl n q ins s
  | .sshr n q ins => Sys2Proof.Machine.execSshr n q ins s
  | .ssra n q ins => Sys2Proof.Machine.execSsra n q ins s
  | .smin n q ins => Sys2Proof.Machine.execSmin n q ins s
  | .smax n q ins => Sys2Proof.Machine.execSmax n q ins s
  | .sadds n q ins => Sys2Proof.Machine.execSadds n q ins s
  | .sclz n q ins => Sys2Proof.Machine.execSclz n q ins s
  | .sli n q ins => Sys2Proof.Machine.execSli n q ins s
  | .scmp n q ins => Sys2Proof.Machine.execScmp n q ins s
  | .ssel n q ins => Sys2Proof.Machine.execSsel n q ins s
  | .sld n q ins => Sys2Proof.Machine.execSld n q ins s
  | .sst n q ins => Sys2Proof.Machine.execSst n q ins s
  | .tld n q ins => Sys2Proof.Machine.execTld n q ins s
  | .vext n q ins => Sys2Proof.Machine.execVext n q ins s
  | .vins n q ins => Sys2Proof.Machine.execVins n q ins s
  | .pand n q ins => Sys2Proof.Machine.execPand n q ins s
  | .por n q ins => Sys2Proof.Machine.execPor n q ins s
  | .pxor n q ins => Sys2Proof.Machine.execPxor n q ins s
  | .pnot n q ins => Sys2Proof.Machine.execPnot n q ins s
  | .pany n q ins => Sys2Proof.Machine.execPany n q ins s
  | .pall n q ins => Sys2Proof.Machine.execPall n q ins s
  | .ppop n q ins => Sys2Proof.Machine.execPpop n q ins s
  | .vadd n q ins => Sys2Proof.Machine.execVadd n q ins s
  | .vsub n q ins => Sys2Proof.Machine.execVsub n q ins s
  | .vabs n q ins => Sys2Proof.Machine.execVabs n q ins s
  | .vmin n q ins => Sys2Proof.Machine.execVmin n q ins s
  | .vmax n q ins => Sys2Proof.Machine.execVmax n q ins s
  | .vand n q ins => Sys2Proof.Machine.execVand n q ins s
  | .vor n q ins => Sys2Proof.Machine.execVor n q ins s
  | .vxor n q ins => Sys2Proof.Machine.execVxor n q ins s
  | .vshl n q ins => Sys2Proof.Machine.execVshl n q ins s
  | .vshr n q ins => Sys2Proof.Machine.execVshr n q ins s
  | .vmov n q ins => Sys2Proof.Machine.execVmov n q ins s
  | .vsplat n q ins => Sys2Proof.Machine.execVsplat n q ins s
  | .vmul n q ins => Sys2Proof.Machine.execVmul n q ins s
  | .vmad n q ins => Sys2Proof.Machine.execVmad n q ins s
  | .vavg n q ins => Sys2Proof.Machine.execVavg n q ins s
  | .vabsd n q ins => Sys2Proof.Machine.execVabsd n q ins s
  | .vclip n q ins => Sys2Proof.Machine.execVclip n q ins s
  | .vclipd n q ins => Sys2Proof.Machine.execVclipd n q ins s
  | .vsel n q ins => Sys2Proof.Machine.execVsel n q ins s
  | .vcmp n q ins => Sys2Proof.Machine.execVcmp n q ins s
  | .vtrans n q ins => Sys2Proof.Machine.execVtrans n q ins s
  | .vsgn n q ins => Sys2Proof.Machine.execVsgn n q ins s
  | .bld n q ins host => Sys2Proof.Machine.execBld n q ins host s
  | .bst n q ins => Sys2Proof.Machine.execBst n q ins s
  | .bget n q ins => Sys2Proof.Machine.execBget n q ins s
  | .bput n q ins => Sys2Proof.Machine.execBput n q ins s
  | .bfill n q ins => Sys2Proof.Machine.execBfill n q ins s
  | .sbwait n q ins => Sys2Proof.Machine.execSbwait n q ins s
  | .rowpost n q ins => Sys2Proof.Machine.execRowpost n q ins s
  | .mfld n q ins => Sys2Proof.Machine.execMfld n q ins s
  | .mfst n q ins => Sys2Proof.Machine.execMfst n q ins s
  | .bfir n q ins => Sys2Proof.Machine.execBfir n q ins s
  | .bfly n q ins => Sys2Proof.Machine.execBfly n q ins s
  | .bmat n q ins => Sys2Proof.Machine.execBmat n q ins s
  | .bquant n q ins => Sys2Proof.Machine.execBquant n q ins s
  | .bqcand n q ins => Sys2Proof.Machine.execBqcand n q ins s
  | .bdeq n q ins => Sys2Proof.Machine.execBdeq n q ins s
  | .blast n q ins => Sys2Proof.Machine.execBlast n q ins s
  | .rsad n q ins => Sys2Proof.Machine.execRsad n q ins s
  | .rsatd n q ins => Sys2Proof.Machine.execRsatd n q ins s
  | .rsse n q ins => Sys2Proof.Machine.execRsse n q ins s
  | .rsum n q ins => Sys2Proof.Machine.execRsum n q ins s
  | .rmin n q ins => Sys2Proof.Machine.execRmin n q ins s
  | .rargmin n q ins => Sys2Proof.Machine.execRargmin n q ins s
  | .mswalk n q ins host => Sys2Proof.Machine.execMswalk n q ins host s
  | .chsend n q ins => Sys2Proof.Machine.execChsend n q ins s
  | .chrecv n q ins => Sys2Proof.Machine.execChrecv n q ins s
  | .chpoll n q ins => Sys2Proof.Machine.execChpoll n q ins s
  | .dmastart n q ins => Sys2Proof.Machine.execDmastart n q ins s
  | .dmawait n q ins => Sys2Proof.Machine.execDmawait n q ins s
  | .rcrd n q ins => Sys2Proof.Machine.execRcrd n q ins s
  | .rcwr n q ins => Sys2Proof.Machine.execRcwr n q ins s
  | .grantRead n q ins host => Sys2Proof.Machine.execGrantRead n q ins host s
  | .frameClose n q ins => Sys2Proof.Machine.execFrameClose n q ins s
  | .evraise n q ins => Sys2Proof.Machine.execEvraise n q ins s
  | .jget n q ins => Sys2Proof.Machine.execJget n q ins s
  | .bectlConfig n q ins => Sys2Proof.Machine.execBectlConfig n q ins s
  | .ctxInit n q ins => Sys2Proof.Machine.execCtxInit n q ins s
  | .ctxMove n q ins => Sys2Proof.Machine.execCtxMove n q ins s
  | .cdfInit n q ins => Sys2Proof.Machine.execCdfInit n q ins s
  | .cdfMove n q ins => Sys2Proof.Machine.execCdfMove n q ins s
  | .readerSet n q ins host => Sys2Proof.Machine.execReaderSet n q ins host s
  | .writerSet n q ins => Sys2Proof.Machine.execWriterSet n q ins s
  | .bectlRun n q ins => Sys2Proof.Machine.execBectlRun n q ins s
  | .bectlWait n q ins => Sys2Proof.Machine.execBectlWait n q ins s
  | .bectlStatus n q ins => Sys2Proof.Machine.execBectlStatus n q ins s
  | .bectlPos n q ins => Sys2Proof.Machine.execBectlPos n q ins s
  | .findSync n q ins => Sys2Proof.Machine.execFindSync n q ins s
  | .unitClose n q ins => Sys2Proof.Machine.execUnitClose n q ins s
  | .jobEnd n q ins => Sys2Proof.Machine.execJobEnd n q ins s
  | .synEnd n w => Sys2Proof.Machine.execSynEnd n w s
  | .el n w => Sys2Proof.Machine.execEl n w s
  | .term n w => Sys2Proof.Machine.execTerm n w s
  | .segopen n w => Sys2Proof.Machine.execSegopen n w s
  | .segclose n w => Sys2Proof.Machine.execSegclose n w s
  | .raw n w => Sys2Proof.Machine.execRaw n w s
  | .align n w => Sys2Proof.Machine.execAlign n w s
  | .nalb n w => Sys2Proof.Machine.execNalb n w s
  | .nale n w => Sys2Proof.Machine.execNale n w s
  | .obub n w => Sys2Proof.Machine.execObub n w s
  | .obue n w => Sys2Proof.Machine.execObue n w s
  | .obun n w => Sys2Proof.Machine.execObun n w s
  | .synRecv n w => Sys2Proof.Machine.execSynRecv n w s
  | .synSend n w => Sys2Proof.Machine.execSynSend n w s
  | .li n w => Sys2Proof.Machine.execLi n w s
  | .synAdd n w => Sys2Proof.Machine.execSynAdd n w s
  | .andi n w => Sys2Proof.Machine.execAndi n w s
  | .synShl n w => Sys2Proof.Machine.execSynShl n w s
  | .synShr n w => Sys2Proof.Machine.execSynShr n w s
  | .synMin n w => Sys2Proof.Machine.execSynMin n w s
  | .bz n w => Sys2Proof.Machine.execBz n w s
  | .bnz n w => Sys2Proof.Machine.execBnz n w s
  | .blt n w => Sys2Proof.Machine.execBlt n w s
  | .synJmp n w => Sys2Proof.Machine.execSynJmp n w s
  | .synCall n w => Sys2Proof.Machine.execSynCall n w s
  | .synRet n w => Sys2Proof.Machine.execSynRet n w s
  | .synCtu n w => Sys2Proof.Machine.execSynCtu n w s
  | .ccopy n w => Sys2Proof.Machine.execCcopy n w s
  | .bits n w => Sys2Proof.Machine.execBits n w s
  | .modeCommit v => Sys2Proof.Machine.execModeCommit v s
  | .modeValidationDone verdict => Sys2Proof.Machine.execModeValidationDone verdict s
  | .epochApply n fault => Sys2Proof.Machine.execEpochApply n fault s
  | .modeDetailAck seq => Sys2Proof.Machine.execModeDetailAck seq s
  | .validatorTimeout job block => Sys2Proof.Machine.execValidatorTimeout job block s
  | .svcWatchdog => Sys2Proof.Machine.execSvcWatchdog s
  | .persLoad img => Sys2Proof.Machine.execPersLoad img s
  | .persUnload slot => Sys2Proof.Machine.execPersUnload slot s
  | .dchCommandSlot k arrive met => Sys2Proof.Machine.execDchCommandSlot k arrive met s
  | .agePromote k => Sys2Proof.Machine.execAgePromote k s
  | .regulatorRefill k => Sys2Proof.Machine.execRegulatorRefill k s
  | .throttleEnd k port => Sys2Proof.Machine.execThrottleEnd k port s
  | .refreshWindow k => Sys2Proof.Machine.execRefreshWindow k s
  | .refresh k key => Sys2Proof.Machine.execRefresh k key s
  | .selfRefreshEntry k => Sys2Proof.Machine.execSelfRefreshEntry k s
  | .srEnter k v => Sys2Proof.Machine.execSrEnter k v s
  | .selfRefreshExit k r => Sys2Proof.Machine.execSelfRefreshExit k r s
  | .wckTracking k sub temp ok => Sys2Proof.Machine.execWckTracking k sub temp ok s
  | .patrolScrub k found => Sys2Proof.Machine.execPatrolScrub k found s
  | .controllerFreeze k source port cls command syndrome addr word hits => Sys2Proof.Machine.execControllerFreeze k source port cls command syndrome addr word hits s
  | .freezeAck k seq => Sys2Proof.Machine.execFreezeAck k seq s
  | .dchReset k v => Sys2Proof.Machine.execDchReset k v s
  | .regionInitDone q ins => Sys2Proof.Machine.execRegionInitDone q ins s
  | .clqEnable q => Sys2Proof.Machine.execClqEnable q s
  | .clqDisable q => Sys2Proof.Machine.execClqDisable q s
  | .clqFlush q => Sys2Proof.Machine.execClqFlush q s
  | .packetOpen who q c bytes times => Sys2Proof.Machine.execPacketOpen who q c bytes times s
  | .cellGrant q => Sys2Proof.Machine.execCellGrant q s
  | .packetClose who q bytes => Sys2Proof.Machine.execPacketClose who q bytes s
  | .silentAbandon who q => Sys2Proof.Machine.execSilentAbandon who q s
  | .discontinuity who q tag => Sys2Proof.Machine.execDiscontinuity who q tag s
  | .clqRead q n => Sys2Proof.Machine.execClqRead q n s
  | .fullWaitExpiry q => Sys2Proof.Machine.execFullWaitExpiry q s
  | .poolEnable pool => Sys2Proof.Machine.execPoolEnable pool s
  | .poolDisable pool => Sys2Proof.Machine.execPoolDisable pool s
  | .poolRebuild pool => Sys2Proof.Machine.execPoolRebuild pool s
  | .poolThreadDone pool => Sys2Proof.Machine.execPoolThreadDone pool s
  | .poolAllocate job byPool arg host => Sys2Proof.Machine.execPoolAllocate job byPool arg host s
  | .bpmAllocReq v host => Sys2Proof.Machine.execBpmAllocReq v host s
  | .bpmAllocAck seq => Sys2Proof.Machine.execBpmAllocAck seq s
  | .bpmRelease handle => Sys2Proof.Machine.execBpmRelease handle s
  | .bufferRelease kind agent handle => Sys2Proof.Machine.execBufferRelease kind agent handle s
  | .dmaStart c => Sys2Proof.Machine.execDmaStart c s
  | .dmaAppend c => Sys2Proof.Machine.execDmaAppend c s
  | .dmaStop c => Sys2Proof.Machine.execDmaStop c s
  | .dmaTrigger c => Sys2Proof.Machine.execDmaTrigger c s
  | .descriptorFetch c host => Sys2Proof.Machine.execDescriptorFetch c host s
  | .descriptorDone c => Sys2Proof.Machine.execDescriptorDone c s
  | .dmaBeat page host => Sys2Proof.Machine.execDmaBeat page host s
  | .intSourceSet src => Sys2Proof.Machine.execIntSourceSet src s
  | .intPendingClear src => Sys2Proof.Machine.execIntPendingClear src s
  | .intSourceEnable src b => Sys2Proof.Machine.execIntSourceEnable src b s
  | .sourceLevelChange src => Sys2Proof.Machine.execSourceLevelChange src s
  | .claim g => Sys2Proof.Machine.execClaim g s
  | .eoi g src => Sys2Proof.Machine.execEoi g src s
  | .holdoffExpiry g => Sys2Proof.Machine.execHoldoffExpiry g s
  | .frameReceive port lane f => Sys2Proof.Machine.execFrameReceive port lane f s
  | .pfcFrameReceive port lane mask quanta => Sys2Proof.Machine.execPfcFrameReceive port lane mask quanta s
  | .pauseFrameReceive port lane quanta => Sys2Proof.Machine.execPauseFrameReceive port lane quanta s
  | .pauseExpiry port lane cls => Sys2Proof.Machine.execPauseExpiry port lane cls s
  | .pfcXoffRepeat port lane prio held => Sys2Proof.Machine.execPfcXoffRepeat port lane prio held s
  | .linkUp port lane => Sys2Proof.Machine.execLinkUp port lane s
  | .linkDown port lane => Sys2Proof.Machine.execLinkDown port lane s
  | .flowInsert host => Sys2Proof.Machine.execFlowInsert host s
  | .flowDelete => Sys2Proof.Machine.execFlowDelete s
  | .flowModify host => Sys2Proof.Machine.execFlowModify host s
  | .flowLookup => Sys2Proof.Machine.execFlowLookup s
  | .meterCommit m => Sys2Proof.Machine.execMeterCommit m s
  | .mergeDeadline g => Sys2Proof.Machine.execMergeDeadline g s
  | .rawFrameTimeout d => Sys2Proof.Machine.execRawFrameTimeout d s
  | .eqEnable port q hdr psi => Sys2Proof.Machine.execEqEnable port q hdr psi s
  | .eqDisable port q => Sys2Proof.Machine.execEqDisable port q s
  | .psiUpdate port q => Sys2Proof.Machine.execPsiUpdate port q s
  | .psiRepeat q psi => Sys2Proof.Machine.execPsiRepeat q psi s
  | .pcrDue q => Sys2Proof.Machine.execPcrDue q s
  | .departureDecision port lane delay => Sys2Proof.Machine.execDepartureDecision port lane delay s
  | .txstampEnable port v => Sys2Proof.Machine.execTxstampEnable port v s
  | .egressPacketTake q host => Sys2Proof.Machine.execEgressPacketTake q host s
  | .faultFire fires => Sys2Proof.Machine.execFaultFire fires s
  | .recAck seq => Sys2Proof.Machine.execRecAck seq s
  | .recAckAll v => Sys2Proof.Machine.execRecAckAll v s
  | .errPinCtrlWrite v => Sys2Proof.Machine.execErrPinCtrlWrite v s
  | .errPulseEnd => Sys2Proof.Machine.execErrPulseEnd s
  | .fecDegraded port => Sys2Proof.Machine.execFecDegraded port s
  | .smbTemp => Sys2Proof.Machine.execSmbTemp s
  | .smbVddCore => Sys2Proof.Machine.execSmbVddCore s
  | .smbThermState => Sys2Proof.Machine.execSmbThermState s
  | .smbFaultState => Sys2Proof.Machine.execSmbFaultState s
  | .smbFaultUnacked => Sys2Proof.Machine.execSmbFaultUnacked s
  | .smbFaultNewest => Sys2Proof.Machine.execSmbFaultNewest s
  | .smbFaultRecord slot => Sys2Proof.Machine.execSmbFaultRecord slot s
  | .smbErrPin => Sys2Proof.Machine.execSmbErrPin s
  | .smbBootState => Sys2Proof.Machine.execSmbBootState s
  | .smbBootAttempts => Sys2Proof.Machine.execSmbBootAttempts s
  | .smbBootCause => Sys2Proof.Machine.execSmbBootCause s
  | .smbBootHistory => Sys2Proof.Machine.execSmbBootHistory s
  | .smbTimeout => Sys2Proof.Machine.execSmbTimeout s
  | .jtagBypass => Sys2Proof.Machine.execJtagBypass s
  | .jtagIdcode => Sys2Proof.Machine.execJtagIdcode s
  | .jtagSamplePreload => Sys2Proof.Machine.execJtagSamplePreload s
  | .jtagExtest => Sys2Proof.Machine.execJtagExtest s
  | .jtagHighz => Sys2Proof.Machine.execJtagHighz s
  | .jtagClamp => Sys2Proof.Machine.execJtagClamp s
  | .jtagTestLogicReset => Sys2Proof.Machine.execJtagTestLogicReset s
  | .completionTimeout what => Sys2Proof.Machine.execCompletionTimeout what s
  | .pcieLinkDown => Sys2Proof.Machine.execPcieLinkDown s
  | .pcieLinkTrained speed met => Sys2Proof.Machine.execPcieLinkTrained speed met s
  | .msixTableWrite vec field v => Sys2Proof.Machine.execMsixTableWrite vec field v s

end Sys2Proof.Machine
end

