-- ==== Sys2Proof/Machine/Step.lean ====
section
/-!
DEFINITION. One step of the part: the command at the front of the queue, or one timebase cycle when none waits.
-/
namespace Sys2Proof.Machine

/-- Nothing is commanded: one cycle of the timebase clock (R59, R60, log entry 1). A part without power, or a sealed one,
does nothing (R543). -/
def State.idle (s : State) : State := if s.live then s.tick else s

/-- One step (log entry 1). -/
def step (s : State) : Host.Outcome State Fault Refusal :=
  match s.pending with
  | [] => .next s.idle
  | c :: t => exec c { s with pending := t }

/-- The state with the command that a word spells at the front of its queue. -/
def State.withFetchWord (s : State) (nbits w : Nat) : State :=
  match decodeTableWord nbits w with
  | some c => { s with pending := c :: s.pending }
  | none => s

end Sys2Proof.Machine
end

