-- ==== Sys2Proof/WellFormed.lean ====
section
/-!
DEFINITION. Which commands the hardware can be given: every number names a unit, page, queue or register that exists, and
every field of an instruction fits its place in the word.
-/
namespace Sys2Proof

/-- A number below a bound. -/
def below (b n : Nat) : Bool := decide (n < b)

/-- A number below a bound, where there is one. -/
def optBelow (b : Nat) : Option Nat → Bool
  | some n => below b n
  | none => true

/-- A register page of R65. -/
def pageExists (p : Nat) : Bool := (Machine.pageKind p).isSome

/-- The fields of a Lenong word fit their bits (R239). -/
def Ins_wf (i : Ins) : Bool := below 8 i.pg && below 32 i.d && below 32 i.a && below 32 i.b && below 32 i.c

/-- The fields of a syntax word fit their bits (R296). -/
def SynWord_wf (w : SynWord) : Bool := below 16 w.d && below 16 w.a && below 16 w.b && below 32768 w.imm

/-- The check of a command. -/
def Instr.wf : Instr → Bool
  | .powerOn => true
  | .powerRemoval => true
  | .perstNRise _ => true
  | .perstNAssert => true
  | .hotReset => true
  | .flr => true
  | .thermalTrip mon => below 57 mon
  | .configRequest _ _ => true
  | .bootStageEnd _ => true
  | .stageTimeout => true
  | .hostGo _ => true
  | .dormantRetryGo _ => true
  | .monitorWindow mon _ _ => below 57 mon
  | .tempoLoopPeriod _ => true
  | .avsRetry _ => true
  | .thermalSample => true
  | .tempoUnder => true
  | .comparatorFire q k => below 4 q && below 8 k
  | .comparatorArm q k _ => below 4 q && below 8 k
  | .comparatorDisarm q k _ => below 4 q && below 8 k
  | .timeLoRead => true
  | .registerWrite off _ _ _ => below 4194304 off
  | .windowAccess off _ _ => below 4194304 off
  | .go page _ => pageExists page
  | .handOver page group late => pageExists page && below 16 group && late.all (fun w => decide (w.1 < 0x800))
  | .pageUnlock page => pageExists page
  | .pageRelock page _ => pageExists page
  | .pageLockTimeout page => pageExists page
  | .unitReset page => pageExists page
  | .unitResetDone page _ => pageExists page
  | .unitFence page => pageExists page
  | .unitUnfence page => pageExists page
  | .unitDisable page => pageExists page
  | .unitEnable page => pageExists page
  | .unitDrained page => pageExists page
  | .snapTake page => pageExists page
  | .snapRelease page => pageExists page
  | .evtSetWrite page _ => pageExists page
  | .evtPendClear page _ => pageExists page
  | .bar2Read _ _ _ => true
  | .bar2Write _ _ _ => true
  | .hostReadComplete _ _ => true
  | .d3hotEntry => true
  | .d0Return => true
  | .bmeClear => true
  | .bmeSet => true
  | .pmeStatusClear => true
  | .l1Entry => true
  | .vectorMask vec => optBelow 128 vec
  | .vectorUnmask vec => optBelow 128 vec
  | .wqArm q => below 1024 q
  | .wqPause q => below 1024 q
  | .wqResume q => below 1024 q
  | .wqKick q => below 1024 q
  | .wqDiscard q => below 1024 q
  | .wqDisarm q => below 1024 q
  | .queuePoll q => below 1024 q
  | .geyserVisit => true
  | .ownerWordRead q _ => below 1024 q
  | .entryBodyRead q _ => below 1024 q
  | .jobParse _ _ _ => true
  | .jobRetire _ => true
  | .completionWrite q => below 1024 q
  | .cqHead _ => true
  | .abortReq _ => true
  | .abortAck _ => true
  | .poolRetry _ _ => true
  | .streamOpen _ _ verdict => below 65536 verdict
  | .streamParams _ _ verdict => below 65536 verdict
  | .streamClose _ => true
  | .encodeFrame _ _ => true
  | .encodeLadder _ _ => true
  | .decodeUnit _ _ => true
  | .decodeDrain _ => true
  | .copy _ _ => true
  | .fill _ => true
  | .barrier _ => true
  | .mark _ => true
  | .query _ => true
  | .invalidate _ => true
  | .markLong _ => true
  | .exportPic _ => true
  | .releaseOutput _ => true
  | .jobPlace _ _ => true
  | .placerTempoRefresh _ => true
  | .coreSlow n => below 48 n
  | .slowClear n => below 48 n
  | .rehomeStart n cause => below 1024 n && below 7 cause
  | .rehomeAllocate n => below 1024 n
  | .rehomeDone n => below 1024 n
  | .rehomeRetry n => below 1024 n
  | .rehomeReq _ => true
  | .quadrantPark q => below 4 q
  | .quadrantPowerUp q _ => below 4 q
  | .jobEnterCore _ n => below 48 n
  | .contextWritebackDone n _ => below 1024 n
  | .scoreboardWaitEnd n q => below 48 n && below 6 q
  | .channelWaitEnd n q => below 48 n && below 6 q
  | .sourceRowPoll n => below 48 n
  | .sourceTimeout n => below 48 n
  | .coreStall n => below 48 n
  | .stepLimitReached n q => below 48 n && below 6 q
  | .graceExhausted n => below 48 n
  | .lookaheadPass n _ _ => below 1024 n
  | .nop n q i => below 48 n && below 6 q && Ins_wf i
  | .jmp n q i => below 48 n && below 6 q && Ins_wf i
  | .call n q i => below 48 n && below 6 q && Ins_wf i
  | .ret n q i => below 48 n && below 6 q && Ins_wf i
  | .loop n q i => below 48 n && below 6 q && Ins_wf i
  | .jend n q i => below 48 n && below 6 q && Ins_wf i
  | .sadd n q i => below 48 n && below 6 q && Ins_wf i
  | .ssub n q i => below 48 n && below 6 q && Ins_wf i
  | .smul n q i => below 48 n && below 6 q && Ins_wf i
  | .smulh n q i => below 48 n && below 6 q && Ins_wf i
  | .sdiv n q i => below 48 n && below 6 q && Ins_wf i
  | .sand n q i => below 48 n && below 6 q && Ins_wf i
  | .sor n q i => below 48 n && below 6 q && Ins_wf i
  | .sxor n q i => below 48 n && below 6 q && Ins_wf i
  | .sshl n q i => below 48 n && below 6 q && Ins_wf i
  | .sshr n q i => below 48 n && below 6 q && Ins_wf i
  | .ssra n q i => below 48 n && below 6 q && Ins_wf i
  | .smin n q i => below 48 n && below 6 q && Ins_wf i
  | .smax n q i => below 48 n && below 6 q && Ins_wf i
  | .sadds n q i => below 48 n && below 6 q && Ins_wf i
  | .sclz n q i => below 48 n && below 6 q && Ins_wf i
  | .sli n q i => below 48 n && below 6 q && Ins_wf i
  | .scmp n q i => below 48 n && below 6 q && Ins_wf i
  | .ssel n q i => below 48 n && below 6 q && Ins_wf i
  | .sld n q i => below 48 n && below 6 q && Ins_wf i
  | .sst n q i => below 48 n && below 6 q && Ins_wf i
  | .tld n q i => below 48 n && below 6 q && Ins_wf i
  | .vext n q i => below 48 n && below 6 q && Ins_wf i
  | .vins n q i => below 48 n && below 6 q && Ins_wf i
  | .pand n q i => below 48 n && below 6 q && Ins_wf i
  | .por n q i => below 48 n && below 6 q && Ins_wf i
  | .pxor n q i => below 48 n && below 6 q && Ins_wf i
  | .pnot n q i => below 48 n && below 6 q && Ins_wf i
  | .pany n q i => below 48 n && below 6 q && Ins_wf i
  | .pall n q i => below 48 n && below 6 q && Ins_wf i
  | .ppop n q i => below 48 n && below 6 q && Ins_wf i
  | .vadd n q i => below 48 n && below 6 q && Ins_wf i
  | .vsub n q i => below 48 n && below 6 q && Ins_wf i
  | .vabs n q i => below 48 n && below 6 q && Ins_wf i
  | .vmin n q i => below 48 n && below 6 q && Ins_wf i
  | .vmax n q i => below 48 n && below 6 q && Ins_wf i
  | .vand n q i => below 48 n && below 6 q && Ins_wf i
  | .vor n q i => below 48 n && below 6 q && Ins_wf i
  | .vxor n q i => below 48 n && below 6 q && Ins_wf i
  | .vshl n q i => below 48 n && below 6 q && Ins_wf i
  | .vshr n q i => below 48 n && below 6 q && Ins_wf i
  | .vmov n q i => below 48 n && below 6 q && Ins_wf i
  | .vsplat n q i => below 48 n && below 6 q && Ins_wf i
  | .vmul n q i => below 48 n && below 6 q && Ins_wf i
  | .vmad n q i => below 48 n && below 6 q && Ins_wf i
  | .vavg n q i => below 48 n && below 6 q && Ins_wf i
  | .vabsd n q i => below 48 n && below 6 q && Ins_wf i
  | .vclip n q i => below 48 n && below 6 q && Ins_wf i
  | .vclipd n q i => below 48 n && below 6 q && Ins_wf i
  | .vsel n q i => below 48 n && below 6 q && Ins_wf i
  | .vcmp n q i => below 48 n && below 6 q && Ins_wf i
  | .vtrans n q i => below 48 n && below 6 q && Ins_wf i
  | .vsgn n q i => below 48 n && below 6 q && Ins_wf i
  | .bld n q i _ => below 48 n && below 6 q && Ins_wf i
  | .bst n q i => below 48 n && below 6 q && Ins_wf i
  | .bget n q i => below 48 n && below 6 q && Ins_wf i
  | .bput n q i => below 48 n && below 6 q && Ins_wf i
  | .bfill n q i => below 48 n && below 6 q && Ins_wf i
  | .sbwait n q i => below 48 n && below 6 q && Ins_wf i
  | .rowpost n q i => below 48 n && below 6 q && Ins_wf i
  | .mfld n q i => below 48 n && below 6 q && Ins_wf i
  | .mfst n q i => below 48 n && below 6 q && Ins_wf i
  | .bfir n q i => below 48 n && below 6 q && Ins_wf i
  | .bfly n q i => below 48 n && below 6 q && Ins_wf i
  | .bmat n q i => below 48 n && below 6 q && Ins_wf i
  | .bquant n q i => below 48 n && below 6 q && Ins_wf i
  | .bqcand n q i => below 48 n && below 6 q && Ins_wf i
  | .bdeq n q i => below 48 n && below 6 q && Ins_wf i
  | .blast n q i => below 48 n && below 6 q && Ins_wf i
  | .rsad n q i => below 48 n && below 6 q && Ins_wf i
  | .rsatd n q i => below 48 n && below 6 q && Ins_wf i
  | .rsse n q i => below 48 n && below 6 q && Ins_wf i
  | .rsum n q i => below 48 n && below 6 q && Ins_wf i
  | .rmin n q i => below 48 n && below 6 q && Ins_wf i
  | .rargmin n q i => below 48 n && below 6 q && Ins_wf i
  | .mswalk n q i _ => below 48 n && below 6 q && Ins_wf i
  | .chsend n q i => below 48 n && below 6 q && Ins_wf i
  | .chrecv n q i => below 48 n && below 6 q && Ins_wf i
  | .chpoll n q i => below 48 n && below 6 q && Ins_wf i
  | .dmastart n q i => below 48 n && below 6 q && Ins_wf i
  | .dmawait n q i => below 48 n && below 6 q && Ins_wf i
  | .rcrd n q i => below 48 n && below 6 q && Ins_wf i
  | .rcwr n q i => below 48 n && below 6 q && Ins_wf i
  | .grantRead n q i _ => below 48 n && below 6 q && Ins_wf i
  | .frameClose n q i => below 48 n && below 6 q && Ins_wf i
  | .evraise n q i => below 48 n && below 6 q && Ins_wf i
  | .jget n q i => below 48 n && below 6 q && Ins_wf i
  | .bectlConfig n q i => below 48 n && below 6 q && Ins_wf i
  | .ctxInit n q i => below 48 n && below 6 q && Ins_wf i
  | .ctxMove n q i => below 48 n && below 6 q && Ins_wf i
  | .cdfInit n q i => below 48 n && below 6 q && Ins_wf i
  | .cdfMove n q i => below 48 n && below 6 q && Ins_wf i
  | .readerSet n q i _ => below 48 n && below 6 q && Ins_wf i
  | .writerSet n q i => below 48 n && below 6 q && Ins_wf i
  | .bectlRun n q i => below 48 n && below 6 q && Ins_wf i
  | .bectlWait n q i => below 48 n && below 6 q && Ins_wf i
  | .bectlStatus n q i => below 48 n && below 6 q && Ins_wf i
  | .bectlPos n q i => below 48 n && below 6 q && Ins_wf i
  | .findSync n q i => below 48 n && below 6 q && Ins_wf i
  | .unitClose n q i => below 48 n && below 6 q && Ins_wf i
  | .jobEnd n q i => below 48 n && below 6 q && Ins_wf i
  | .synEnd n w => below 48 n && SynWord_wf w
  | .el n w => below 48 n && SynWord_wf w
  | .term n w => below 48 n && SynWord_wf w
  | .segopen n w => below 48 n && SynWord_wf w
  | .segclose n w => below 48 n && SynWord_wf w
  | .raw n w => below 48 n && SynWord_wf w
  | .align n w => below 48 n && SynWord_wf w
  | .nalb n w => below 48 n && SynWord_wf w
  | .nale n w => below 48 n && SynWord_wf w
  | .obub n w => below 48 n && SynWord_wf w
  | .obue n w => below 48 n && SynWord_wf w
  | .obun n w => below 48 n && SynWord_wf w
  | .synRecv n w => below 48 n && SynWord_wf w
  | .synSend n w => below 48 n && SynWord_wf w
  | .li n w => below 48 n && SynWord_wf w
  | .synAdd n w => below 48 n && SynWord_wf w
  | .andi n w => below 48 n && SynWord_wf w
  | .synShl n w => below 48 n && SynWord_wf w
  | .synShr n w => below 48 n && SynWord_wf w
  | .synMin n w => below 48 n && SynWord_wf w
  | .bz n w => below 48 n && SynWord_wf w
  | .bnz n w => below 48 n && SynWord_wf w
  | .blt n w => below 48 n && SynWord_wf w
  | .synJmp n w => below 48 n && SynWord_wf w
  | .synCall n w => below 48 n && SynWord_wf w
  | .synRet n w => below 48 n && SynWord_wf w
  | .synCtu n w => below 48 n && SynWord_wf w
  | .ccopy n w => below 48 n && SynWord_wf w
  | .bits n w => below 48 n && SynWord_wf w
  | .modeCommit _ => true
  | .modeValidationDone verdict => below 65536 verdict
  | .epochApply n _ => below 48 n
  | .modeDetailAck _ => true
  | .validatorTimeout _ _ => true
  | .svcWatchdog => true
  | .persLoad _ => true
  | .persUnload slot => below 16 slot
  | .dchCommandSlot k _ _ => below 12 k
  | .agePromote k => below 12 k
  | .regulatorRefill k => below 12 k
  | .throttleEnd k port => below 12 k && below 16 port
  | .refreshWindow k => below 12 k
  | .refresh k _ => below 12 k
  | .selfRefreshEntry k => below 12 k
  | .srEnter k _ => below 12 k
  | .selfRefreshExit k _ => below 12 k
  | .wckTracking k sub _ _ => below 12 k && below 2 sub
  | .patrolScrub k _ => below 12 k
  | .controllerFreeze k _ port cls command syndrome _ word _ => below 12 k && below 32 port && below 8 cls &&
      below 16 command && below 256 syndrome && below 8 word
  | .freezeAck k _ => below 12 k
  | .dchReset k _ => below 12 k
  | .regionInitDone q i => below 4 q && below 16 i
  | .clqEnable q => below 4096 q
  | .clqDisable q => below 4096 q
  | .clqFlush q => below 4096 q
  | .packetOpen _ q _ _ _ => below 4096 q
  | .cellGrant q => below 4096 q
  | .packetClose _ q _ => below 4096 q
  | .silentAbandon _ q => below 4096 q
  | .discontinuity _ q tag => below 4096 q && below 65536 tag
  | .clqRead q _ => below 4096 q
  | .fullWaitExpiry q => below 4096 q
  | .poolEnable pool => below 16 pool
  | .poolDisable pool => below 16 pool
  | .poolRebuild pool => below 16 pool
  | .poolThreadDone pool => below 16 pool
  | .poolAllocate _ _ _ _ => true
  | .bpmAllocReq _ _ => true
  | .bpmAllocAck _ => true
  | .bpmRelease _ => true
  | .bufferRelease kind _ _ => below 4 kind
  | .dmaStart c => below 256 c
  | .dmaAppend c => below 256 c
  | .dmaStop c => below 256 c
  | .dmaTrigger c => below 256 c
  | .descriptorFetch c _ => below 256 c
  | .descriptorDone c => below 256 c
  | .dmaBeat page _ => pageExists page
  | .intSourceSet src => below 320 src
  | .intPendingClear src => below 320 src
  | .intSourceEnable src _ => below 320 src
  | .sourceLevelChange src => below 320 src
  | .claim g => below 40 g
  | .eoi g src => below 40 g && below 320 src
  | .holdoffExpiry g => below 40 g
  | .frameReceive port lane _ => below 2 port && below 4 lane
  | .pfcFrameReceive port lane _ _ => below 2 port && below 4 lane
  | .pauseFrameReceive port lane quanta => below 2 port && below 4 lane && below 65536 quanta
  | .pauseExpiry port lane cls => below 2 port && below 4 lane && below 8 cls
  | .pfcXoffRepeat port lane prio _ => below 2 port && below 4 lane && below 8 prio
  | .linkUp port lane => below 2 port && below 4 lane
  | .linkDown port lane => below 2 port && below 4 lane
  | .flowInsert _ => true
  | .flowDelete => true
  | .flowModify _ => true
  | .flowLookup => true
  | .meterCommit m => below 4096 m
  | .mergeDeadline g => below 2048 g
  | .rawFrameTimeout d => below 4 d
  | .eqEnable port q _ _ => below 2 port && below 4096 q
  | .eqDisable port q => below 2 port && below 4096 q
  | .psiUpdate port q => below 2 port && below 4096 q
  | .psiRepeat q _ => below 4096 q
  | .pcrDue q => below 4096 q
  | .departureDecision port lane _ => below 2 port && below 4 lane
  | .txstampEnable port _ => below 2 port
  | .egressPacketTake q _ => below 4096 q
  | .faultFire _ => true
  | .recAck _ => true
  | .recAckAll _ => true
  | .errPinCtrlWrite _ => true
  | .errPulseEnd => true
  | .fecDegraded port => below 2 port
  | .smbTemp => true
  | .smbVddCore => true
  | .smbThermState => true
  | .smbFaultState => true
  | .smbFaultUnacked => true
  | .smbFaultNewest => true
  | .smbFaultRecord slot => below 256 slot
  | .smbErrPin => true
  | .smbBootState => true
  | .smbBootAttempts => true
  | .smbBootCause => true
  | .smbBootHistory => true
  | .smbTimeout => true
  | .jtagBypass => true
  | .jtagIdcode => true
  | .jtagSamplePreload => true
  | .jtagExtest => true
  | .jtagHighz => true
  | .jtagClamp => true
  | .jtagTestLogicReset => true
  | .completionTimeout _ => true
  | .pcieLinkDown => true
  | .pcieLinkTrained _ _ => true
  | .msixTableWrite vec _ _ => below 128 vec

/-- The core that a command names (R16): the core that runs an instruction, or to which an event belongs. -/
def Instr.coreOf : Instr → Option Nat
  | .powerOn => none
  | .powerRemoval => none
  | .perstNRise _ => none
  | .perstNAssert => none
  | .hotReset => none
  | .flr => none
  | .thermalTrip _ => none
  | .configRequest _ _ => none
  | .bootStageEnd _ => none
  | .stageTimeout => none
  | .hostGo _ => none
  | .dormantRetryGo _ => none
  | .monitorWindow _ _ _ => none
  | .tempoLoopPeriod _ => none
  | .avsRetry _ => none
  | .thermalSample => none
  | .tempoUnder => none
  | .comparatorFire _ _ => none
  | .comparatorArm _ _ _ => none
  | .comparatorDisarm _ _ _ => none
  | .timeLoRead => none
  | .registerWrite _ _ _ _ => none
  | .windowAccess _ _ _ => none
  | .go _ _ => none
  | .handOver _ _ _ => none
  | .pageUnlock _ => none
  | .pageRelock _ _ => none
  | .pageLockTimeout _ => none
  | .unitReset _ => none
  | .unitResetDone _ _ => none
  | .unitFence _ => none
  | .unitUnfence _ => none
  | .unitDisable _ => none
  | .unitEnable _ => none
  | .unitDrained _ => none
  | .snapTake _ => none
  | .snapRelease _ => none
  | .evtSetWrite _ _ => none
  | .evtPendClear _ _ => none
  | .bar2Read _ _ _ => none
  | .bar2Write _ _ _ => none
  | .hostReadComplete _ _ => none
  | .d3hotEntry => none
  | .d0Return => none
  | .bmeClear => none
  | .bmeSet => none
  | .pmeStatusClear => none
  | .l1Entry => none
  | .vectorMask _ => none
  | .vectorUnmask _ => none
  | .wqArm _ => none
  | .wqPause _ => none
  | .wqResume _ => none
  | .wqKick _ => none
  | .wqDiscard _ => none
  | .wqDisarm _ => none
  | .queuePoll _ => none
  | .geyserVisit => none
  | .ownerWordRead _ _ => none
  | .entryBodyRead _ _ => none
  | .jobParse _ _ _ => none
  | .jobRetire _ => none
  | .completionWrite _ => none
  | .cqHead _ => none
  | .abortReq _ => none
  | .abortAck _ => none
  | .poolRetry _ _ => none
  | .streamOpen _ _ _ => none
  | .streamParams _ _ _ => none
  | .streamClose _ => none
  | .encodeFrame _ _ => none
  | .encodeLadder _ _ => none
  | .decodeUnit _ _ => none
  | .decodeDrain _ => none
  | .copy _ _ => none
  | .fill _ => none
  | .barrier _ => none
  | .mark _ => none
  | .query _ => none
  | .invalidate _ => none
  | .markLong _ => none
  | .exportPic _ => none
  | .releaseOutput _ => none
  | .jobPlace _ _ => none
  | .placerTempoRefresh _ => none
  | .coreSlow n => some n
  | .slowClear n => some n
  | .rehomeStart _ _ => none
  | .rehomeAllocate _ => none
  | .rehomeDone _ => none
  | .rehomeRetry _ => none
  | .rehomeReq _ => none
  | .quadrantPark _ => none
  | .quadrantPowerUp _ _ => none
  | .jobEnterCore _ n => some n
  | .contextWritebackDone _ _ => none
  | .scoreboardWaitEnd n _ => some n
  | .channelWaitEnd n _ => some n
  | .sourceRowPoll n => some n
  | .sourceTimeout n => some n
  | .coreStall n => some n
  | .stepLimitReached n _ => some n
  | .graceExhausted n => some n
  | .lookaheadPass _ _ _ => none
  | .nop n _ _ => some n
  | .jmp n _ _ => some n
  | .call n _ _ => some n
  | .ret n _ _ => some n
  | .loop n _ _ => some n
  | .jend n _ _ => some n
  | .sadd n _ _ => some n
  | .ssub n _ _ => some n
  | .smul n _ _ => some n
  | .smulh n _ _ => some n
  | .sdiv n _ _ => some n
  | .sand n _ _ => some n
  | .sor n _ _ => some n
  | .sxor n _ _ => some n
  | .sshl n _ _ => some n
  | .sshr n _ _ => some n
  | .ssra n _ _ => some n
  | .smin n _ _ => some n
  | .smax n _ _ => some n
  | .sadds n _ _ => some n
  | .sclz n _ _ => some n
  | .sli n _ _ => some n
  | .scmp n _ _ => some n
  | .ssel n _ _ => some n
  | .sld n _ _ => some n
  | .sst n _ _ => some n
  | .tld n _ _ => some n
  | .vext n _ _ => some n
  | .vins n _ _ => some n
  | .pand n _ _ => some n
  | .por n _ _ => some n
  | .pxor n _ _ => some n
  | .pnot n _ _ => some n
  | .pany n _ _ => some n
  | .pall n _ _ => some n
  | .ppop n _ _ => some n
  | .vadd n _ _ => some n
  | .vsub n _ _ => some n
  | .vabs n _ _ => some n
  | .vmin n _ _ => some n
  | .vmax n _ _ => some n
  | .vand n _ _ => some n
  | .vor n _ _ => some n
  | .vxor n _ _ => some n
  | .vshl n _ _ => some n
  | .vshr n _ _ => some n
  | .vmov n _ _ => some n
  | .vsplat n _ _ => some n
  | .vmul n _ _ => some n
  | .vmad n _ _ => some n
  | .vavg n _ _ => some n
  | .vabsd n _ _ => some n
  | .vclip n _ _ => some n
  | .vclipd n _ _ => some n
  | .vsel n _ _ => some n
  | .vcmp n _ _ => some n
  | .vtrans n _ _ => some n
  | .vsgn n _ _ => some n
  | .bld n _ _ _ => some n
  | .bst n _ _ => some n
  | .bget n _ _ => some n
  | .bput n _ _ => some n
  | .bfill n _ _ => some n
  | .sbwait n _ _ => some n
  | .rowpost n _ _ => some n
  | .mfld n _ _ => some n
  | .mfst n _ _ => some n
  | .bfir n _ _ => some n
  | .bfly n _ _ => some n
  | .bmat n _ _ => some n
  | .bquant n _ _ => some n
  | .bqcand n _ _ => some n
  | .bdeq n _ _ => some n
  | .blast n _ _ => some n
  | .rsad n _ _ => some n
  | .rsatd n _ _ => some n
  | .rsse n _ _ => some n
  | .rsum n _ _ => some n
  | .rmin n _ _ => some n
  | .rargmin n _ _ => some n
  | .mswalk n _ _ _ => some n
  | .chsend n _ _ => some n
  | .chrecv n _ _ => some n
  | .chpoll n _ _ => some n
  | .dmastart n _ _ => some n
  | .dmawait n _ _ => some n
  | .rcrd n _ _ => some n
  | .rcwr n _ _ => some n
  | .grantRead n _ _ _ => some n
  | .frameClose n _ _ => some n
  | .evraise n _ _ => some n
  | .jget n _ _ => some n
  | .bectlConfig n _ _ => some n
  | .ctxInit n _ _ => some n
  | .ctxMove n _ _ => some n
  | .cdfInit n _ _ => some n
  | .cdfMove n _ _ => some n
  | .readerSet n _ _ _ => some n
  | .writerSet n _ _ => some n
  | .bectlRun n _ _ => some n
  | .bectlWait n _ _ => some n
  | .bectlStatus n _ _ => some n
  | .bectlPos n _ _ => some n
  | .findSync n _ _ => some n
  | .unitClose n _ _ => some n
  | .jobEnd n _ _ => some n
  | .synEnd n _ => some n
  | .el n _ => some n
  | .term n _ => some n
  | .segopen n _ => some n
  | .segclose n _ => some n
  | .raw n _ => some n
  | .align n _ => some n
  | .nalb n _ => some n
  | .nale n _ => some n
  | .obub n _ => some n
  | .obue n _ => some n
  | .obun n _ => some n
  | .synRecv n _ => some n
  | .synSend n _ => some n
  | .li n _ => some n
  | .synAdd n _ => some n
  | .andi n _ => some n
  | .synShl n _ => some n
  | .synShr n _ => some n
  | .synMin n _ => some n
  | .bz n _ => some n
  | .bnz n _ => some n
  | .blt n _ => some n
  | .synJmp n _ => some n
  | .synCall n _ => some n
  | .synRet n _ => some n
  | .synCtu n _ => some n
  | .ccopy n _ => some n
  | .bits n _ => some n
  | .modeCommit _ => none
  | .modeValidationDone _ => none
  | .epochApply n _ => some n
  | .modeDetailAck _ => none
  | .validatorTimeout _ _ => none
  | .svcWatchdog => none
  | .persLoad _ => none
  | .persUnload _ => none
  | .dchCommandSlot _ _ _ => none
  | .agePromote _ => none
  | .regulatorRefill _ => none
  | .throttleEnd _ _ => none
  | .refreshWindow _ => none
  | .refresh _ _ => none
  | .selfRefreshEntry _ => none
  | .srEnter _ _ => none
  | .selfRefreshExit _ _ => none
  | .wckTracking _ _ _ _ => none
  | .patrolScrub _ _ => none
  | .controllerFreeze _ _ _ _ _ _ _ _ _ => none
  | .freezeAck _ _ => none
  | .dchReset _ _ => none
  | .regionInitDone _ _ => none
  | .clqEnable _ => none
  | .clqDisable _ => none
  | .clqFlush _ => none
  | .packetOpen _ _ _ _ _ => none
  | .cellGrant _ => none
  | .packetClose _ _ _ => none
  | .silentAbandon _ _ => none
  | .discontinuity _ _ _ => none
  | .clqRead _ _ => none
  | .fullWaitExpiry _ => none
  | .poolEnable _ => none
  | .poolDisable _ => none
  | .poolRebuild _ => none
  | .poolThreadDone _ => none
  | .poolAllocate _ _ _ _ => none
  | .bpmAllocReq _ _ => none
  | .bpmAllocAck _ => none
  | .bpmRelease _ => none
  | .bufferRelease _ _ _ => none
  | .dmaStart _ => none
  | .dmaAppend _ => none
  | .dmaStop _ => none
  | .dmaTrigger _ => none
  | .descriptorFetch _ _ => none
  | .descriptorDone _ => none
  | .dmaBeat _ _ => none
  | .intSourceSet _ => none
  | .intPendingClear _ => none
  | .intSourceEnable _ _ => none
  | .sourceLevelChange _ => none
  | .claim _ => none
  | .eoi _ _ => none
  | .holdoffExpiry _ => none
  | .frameReceive _ _ _ => none
  | .pfcFrameReceive _ _ _ _ => none
  | .pauseFrameReceive _ _ _ => none
  | .pauseExpiry _ _ _ => none
  | .pfcXoffRepeat _ _ _ _ => none
  | .linkUp _ _ => none
  | .linkDown _ _ => none
  | .flowInsert _ => none
  | .flowDelete => none
  | .flowModify _ => none
  | .flowLookup => none
  | .meterCommit _ => none
  | .mergeDeadline _ => none
  | .rawFrameTimeout _ => none
  | .eqEnable _ _ _ _ => none
  | .eqDisable _ _ => none
  | .psiUpdate _ _ => none
  | .psiRepeat _ _ => none
  | .pcrDue _ => none
  | .departureDecision _ _ _ => none
  | .txstampEnable _ _ => none
  | .egressPacketTake _ _ => none
  | .faultFire _ => none
  | .recAck _ => none
  | .recAckAll _ => none
  | .errPinCtrlWrite _ => none
  | .errPulseEnd => none
  | .fecDegraded _ => none
  | .smbTemp => none
  | .smbVddCore => none
  | .smbThermState => none
  | .smbFaultState => none
  | .smbFaultUnacked => none
  | .smbFaultNewest => none
  | .smbFaultRecord _ => none
  | .smbErrPin => none
  | .smbBootState => none
  | .smbBootAttempts => none
  | .smbBootCause => none
  | .smbBootHistory => none
  | .smbTimeout => none
  | .jtagBypass => none
  | .jtagIdcode => none
  | .jtagSamplePreload => none
  | .jtagExtest => none
  | .jtagHighz => none
  | .jtagClamp => none
  | .jtagTestLogicReset => none
  | .completionTimeout _ => none
  | .pcieLinkDown => none
  | .pcieLinkTrained _ _ => none
  | .msixTableWrite _ _ _ => none

end Sys2Proof
end

