-- ==== Sys2Proof/Safety.lean ====
section
/-!
DEFINITION. What counts as a safe state and a safe step, in the terms that the claims use.
-/
namespace Sys2Proof.Machine

/-- The sealed state of R543, in a part that has power. -/
def State.isSealed (s : State) : Prop := s.power.powered = true ∧ s.faults.stop = .sealed

/-- Nothing of t differs from s but pins, the PCIe function, what the temperature sensors read (R580), faults not taken up, the draws
of open values, and what was sent. -/
def State.sealedLike (s t : State) : Prop :=
  t = { s with
    power := t.power, pcie := t.pcie, tempo := { s.tempo with mons := t.tempo.mons }, due := t.due, free := t.free, out := t.out } ∧
  t.power.powered = true

/-- The part acts, and no fault waits to be taken up: the next command is met on its own. -/
def State.calm (s : State) : Bool := s.live && s.due.isEmpty

/-- A host write to page p takes effect: the link is up and decodes, the page is served, and no fault waits to be taken up
(R90, R101, R102). -/
def State.hears (s : State) (p : Nat) : Bool :=
  s.linked && s.decodes && (pageKind p).isSome && s.serving p == .served && s.due.isEmpty

/-- The state once the present instruction of a sequencer has been counted (R358): one that waited was counted before. -/
def State.counted (s : State) (n q : Nat) (ins : Instr) : State :=
  if (s.seq n q).waiting = some ins then s else s.modSeq n q (fun x => { x with steps := x.steps + 1 })

/-- Sequencer q of core n may run its next instruction. -/
def State.runs (s : State) (n q : Nat) : Bool := s.calm && s.seqReady n q

/-- A scalar instruction's guard lets it act (R242). -/
def State.guarded (s : State) (n q : Nat) (i : Ins) : Bool := s.runs n q && ((s.seq n q).guard i).getLsbD 0

/-- The bin engine of core n may run its next word, outside its error entry and within its parse limits (R295, R306, R307). -/
def State.wordRuns (s : State) (n : Nat) : Bool :=
  s.calm && s.binReady n && !(s.unit n).bin.inError && ((s.unit n).bin.encode ||
      decide ((s.unit n).bin.ctuSteps < (s.unit n).bin.cfg.maxSteps))

/-- The state after a syntax word of core n that changes its engine by f and goes on to `pc`, or to the next word. The word
counts as one step unless it had waited. -/
def State.wordDone (s : State) (n : Nat) (c : Instr) (f : Bin → Bin) (pc : Option Nat) : State :=
  s.modBin n (fun b =>
    let b1 := f (s.capped (if b.waiting = some c then b else { b with ctuSteps := b.ctuSteps + 1 }))
    { b1 with pc := pc.getD ((b1.pc + 1) % 32768), waiting := none })

/-- A BECTL instruction of the pilot of core n on job j, which the engine has reached and no program of which runs. -/
def State.bectlReady (s : State) (n : Nat) (i : Ins) (j : Nat) (x : Job) : Bool :=
  s.guarded n 5 i && (s.seq n 5).job == some j && (s.unit n).bin.job == some j && !(s.unit n).bin.running && s.job j == some x

/-- Job j is before its retire point and holds no core, buffer, channel, reference, picture, stream or rendition. -/
def State.lone (s : State) (j : Nat) (x : Job) : Bool :=
  s.job j == some x && x.live && x.bufs.isEmpty && x.staging.isEmpty && x.cores.isEmpty && x.wins.isEmpty && x.refs.isEmpty &&
  x.undo.isEmpty && x.outSlot.isNone && x.slot.isNone && x.stream.isNone &&
  s.dma.chans.all (fun c => c.2.job != some j) && s.jobs.all (fun y => y.2.parent != some j)

/-- Job j is alone and has no packet: what ends it ends it alone. -/
def State.bare (s : State) (j : Nat) (x : Job) : Bool := s.lone j x && !x.opened && x.closedPkts == 0

/-- Job j is the side job whose turn it is on the one core that it holds, with no buffer, window or reference (R590). -/
def State.sideJob (s : State) (j : Nat) (x : Job) : Bool :=
  s.job j == some x && s.sideTurn j x && x.cores == [x.core] && x.bufs.isEmpty && x.staging.isEmpty && x.wins.isEmpty &&
  x.refs.isEmpty

/-- Job j is the stream operation `op` whose turn has come on stream n, in the state that it needs, and holds nothing. -/
def State.opJob (s : State) (j : Nat) (x : Job) (n op : Nat) : Bool :=
  s.job j == some x && x.stream == some n && x.opcode == op && x.phase == .waiting && !x.started && s.opTurn j x n &&
  (s.streamCheck x n).isNone && (op == 0x01 || !(s.stream n).homeless) && x.cores.isEmpty && x.bufs.isEmpty &&
      x.staging.isEmpty && x.wins.isEmpty && x.refs.isEmpty

/-- Job j is the REF_OP `sub` on stream n whose turn it is. -/
def State.refJob (s : State) (j : Nat) (x : Job) (n sub : Nat) : Bool :=
  s.sideJob j x && x.stream == some n && x.opcode == 0x50 && x.subop == sub

/-- A run is safe: the part has not been sealed and its memory is in canonical form. -/
def State.safe (s : State) : Prop := s.faults.stop ≠ .sealed ∧ Memory.wf s.mem = true

end Sys2Proof.Machine
end

