-- ==== Sys2Proof/Certificates/Slice0/Obligations.lean ====
section
/-!
DEFINITION. The statements about the model, for the provers. Each docstring says which rules of the spec it formalises.
-/
open Sys2Proof Sys2Proof.Machine

/-- A step runs the command at the front of the queue (Block contract of the row: pending commands, first in, first out).
For every command c and state s with c at the front of its queue, a step of s is exec of c on s with the queue's rest. -/
def Obligations.StepRunsHeadCommand : Prop :=
  ∀ (c : Instr) (rest : List Instr) (s : State), s.pending = c :: rest → step s = exec c { s with pending := rest }

/-- A step on an empty queue is one timebase cycle, and nothing at all without power or sealed (R59, R60, R475, log entry
1 (the model's choice: one timebase cycle for a step on an empty queue)). With no command waiting, a live part adds
the fixed increment to the timebase accumulator (whole ns modulo 2^64 and 2^-40 ns fractions), every hold-off timer
loses it, and nothing else changes; a part that is sealed or has no power does not change. That an idle step stands
for one cycle is the model's choice (log entry 1). -/
def Obligations.IdleStepCountsOneCycle : Prop :=
  ∀ s : State, s.pending = [] →
    (s.live = false → step s = .next s) ∧
    (s.live = true → step s = .next { s with
      time := { s.time with
        ns := (s.time.ns + (s.time.frac + s.time.inc) / 2 ^ 40) % 2 ^ 64, frac := (s.time.frac + s.time.inc) % 2 ^ 40 }
      intc := { s.intc with grps := s.intc.grps.map (fun g => (g.1, { g.2 with timerLeft := g.2.timerLeft - s.time.inc })) } })

/-- Only removal of power leaves the sealed state (R543, R90, R109). From every sealed state, a step whose command is not
POWER_REMOVAL ends in a next state that is sealed too, and that differs only in pins, the PCIe function, what the
temperature sensors read, faults not taken up, the draws of open values and what was sent: memory, registers, pages,
queues, jobs, streams and every unit stand. -/
def Obligations.OnlyPowerRemovalEndsSealedState : Prop :=
  ∀ (s : State), s.isSealed → s.pending.head? ≠ some .powerRemoval →
    ∃ t, step s = .next t ∧ t.isSealed ∧ { s with pending := s.pending.tail }.sealedLike t

/-- Without power only POWER_ON and POWER_REMOVAL change anything (R546, R571). In a part without power every command but
POWER_ON and POWER_REMOVAL ends in a next state that differs from the state before at most in the PCIe function's own
fields. -/
def Obligations.UnpoweredPartDoesNothing : Prop :=
  ∀ (c : Instr) (s : State), s.power.powered = false → c ≠ .powerOn → c ≠ .powerRemoval →
    ∃ t, exec c s = .next t ∧ t = { s with pcie := t.pcie }

/-- The state after power-on (R546, R59, R90, R71). Right after power-on: PERST_N is low and the link is down, the part is
booting with no attempt running, the timebase reads 0, memory lists nothing and the queue is empty, no page but
DEVICE, BOOT, FAULT and MGMT is served, and every page reports OFFLINE. -/
def Obligations.ResetStateServesOnlyBootPages : Prop :=
  State.reset.power.powered = true ∧ State.reset.power.perstHigh = false ∧ State.reset.pcie.linkUp = false ∧
    State.reset.boot.state = .booting ∧ State.reset.boot.running = false ∧ State.reset.time.ns = 0 ∧
    State.reset.mem = [] ∧ State.reset.pending = [] ∧
    ∀ p, (pageKind p).isSome = true →
      (State.reset.serving p = .served ↔ p = 0 ∨ p = 1 ∨ p = 3 ∨ p = 17) ∧ State.reset.pageState p = .offline

/-- POWER_ON, POWER_REMOVAL, PERST_N_RISE, PERST_N_ASSERT, HOT_RESET and FLR (R546, R547, R571, R59, R92, R108, R109).
Power removal leaves only the fuses; power-on gives the state after power-on; a rise of PERST_N samples the straps and
starts an attempt at stage 1; PERST_N low, a hot reset and FLR return every page, register (but BOOT_POLICY), job,
stream and queue to reset, keep device memory, the fuses and the boot record, and PERST_N alone clears the timebase;
hot reset and FLR start an attempt at once, and FLR keeps the link. -/
def Obligations.PowerAndResetRowsRestart : Prop :=
  (∀ s : State, exec .powerRemoval s =
      .next { power := { powered := false }, fuse := s.fuse, free := s.free, out := s.out, pending := s.pending }) ∧
    (∀ s : State, s.power.powered = false →
      exec .powerOn s = .next { fuse := s.fuse, free := s.free, out := s.out, pending := s.pending }) ∧
    (∀ (x : Straps) (s : State), s.live = true → s.power.perstHigh = false → s.jtag.instr.holds = false →
      ∃ t, exec (.perstNRise x) s = .next t ∧ t.power.perstHigh = true ∧ t.boot.straps = x ∧ t.boot.state = .booting ∧
        t.boot.running = true ∧ t.boot.stage = 1 ∧ t.boot.fromPerst = true ∧ t.mem = s.mem ∧ t.regs = s.regs) ∧
    (∀ s : State, s.live = true → s.power.perstHigh = true →
      ∃ t, exec .perstNAssert s = .next t ∧ t.power.perstHigh = false ∧ t.time = {} ∧ t.pcie.linkUp = false ∧
        t.pages = [] ∧ t.regs = [(regKey 1 0x040, s.reg 1 0x040)] ∧ t.jobs = [] ∧ t.streams = [] ∧ t.mem = s.mem ∧
        t.fuse = s.fuse ∧ t.boot.attempts = s.boot.attempts ∧ t.boot.running = false) ∧
    (∀ s : State, s.live = true → s.linked = true →
      ∃ t, exec .hotReset s = .next t ∧ t.boot.running = true ∧ t.boot.stage = 1 ∧ t.pcie.linkUp = false ∧ t.pages = [] ∧
        t.regs = [(regKey 1 0x040, s.reg 1 0x040)] ∧ t.jobs = [] ∧ t.streams = [] ∧ t.mem = s.mem ∧ t.fuse = s.fuse ∧
        t.time.ns = s.time.ns ∧ t.boot.attempts = s.boot.attempts) ∧
    (∀ s : State, s.live = true → s.linked = true →
      ∃ t, exec .flr s = .next t ∧ t.boot.running = true ∧ t.boot.stage = 1 ∧ t.pcie.linkUp = s.pcie.linkUp ∧ t.pages = [] ∧
        t.regs = [(regKey 1 0x040, s.reg 1 0x040)] ∧ t.jobs = [] ∧ t.streams = [] ∧ t.mem = s.mem ∧ t.fuse = s.fuse ∧
        t.time.ns = s.time.ns ∧ t.boot.attempts = s.boot.attempts)

/-- BOOT_STAGE_END, STAGE_TIMEOUT, HOST_GO, DORMANT_RETRY_GO and THERMAL_TRIP (R548, R549, R550, R556, R557, R561, R53,
R543). A stage 4 that ends well with a quadrant remaining goes to stage 5 and changes nothing else; a stage that times
out records a FAILED entry with its stage, counts one attempt (at most 15) and sets BOOT_CAUSE with sub-code 0x01, or
0x63 while stage 6 waits for HOST_GO, outside a retry from the window; an accepted HOST_GO gives stage 6 its host
source and ends the wait; an accepted DORMANT_RETRY starts an attempt from the window at stage 1; a thermal trip at
its severity S5 seals the part, asserts THERMTRIP_N and loses device memory. -/
def Obligations.BootRowsMoveTheAttempt : Prop :=
  (∀ (r : StageResult) (s : State), s.calm = true → s.boot.state = .booting → s.boot.running = true → s.boot.stage = 4 →
      r.fail = none → ((List.range 4).any fun q => s.remains q) = true →
      exec (.bootStageEnd r) s = .next { s with boot := { s.boot with stage := 5 } }) ∧
    (∀ s : State, s.calm = true → s.boot.running = true → s.boot.window = false →
      ∃ t e l, exec .stageTimeout s = .next t ∧ t.boot.history = e :: l ∧ e.outcome = 2 ∧ e.stage = s.boot.stage ∧
        t.boot.attempts = min (s.boot.attempts + 1) 15 ∧ t.boot.cause.stage = s.boot.stage ∧
        t.boot.cause.sub = (if s.boot.stage = 6 ∧ s.boot.hostWait = true then 0x63 else 0x01) ∧
        (t.boot.state = .booting ∧ t.boot.stage = 1 ∨ t.boot.state = .dormant)) ∧
    (∀ s : State, s.hears 1 = true → s.boot.state = .booting → s.boot.hostWait = true →
      ∃ t, exec (.hostGo 1) s = .next t ∧ t.boot.source = 2 ∧ t.boot.hostWait = false ∧
        t.boot.hostSrc = (s.reg 1 0x048).toNat * 2 ^ 32 + (s.reg 1 0x044).toNat ∧ t.boot.hostLen = fld (s.reg 1 0x04C) 24 0) ∧
    (∀ s : State, s.hears 32 = true → s.boot.windowOk = true → s.boot.busy = false →
      ∃ t, exec (.dormantRetryGo 1) s = .next t ∧ t.boot.running = true ∧ t.boot.stage = 1 ∧ t.boot.window = true ∧
        t.boot.busy = true ∧ t.boot.flash = 0) ∧
    (∀ (m : Nat) (s : State), s.calm = true → s.severity 0 = 5 →
      ∃ t, exec (.thermalTrip m) s = .next t ∧ t.faults.stop = .sealed ∧ t.power.thermtrip = true ∧ t.mem = [])

/-- MONITOR_WINDOW, TEMPO_LOOP_PERIOD, AVS_RETRY, THERMAL_SAMPLE and TEMPO_UNDER (R41, R46, R47, R48, R51, R52, R57). In
every live part: a monitor window joins the last 100 of its monitor and leaves the others, and TEMPO_UNDER falls once the
device tempo is 0x02CD or more. A loop period with LOOP_EN writes one voltage: the last one, brought within the limits, and
one step up when the tempo lies more than 0x0008 below the goal, one step down when it lies as far above, never past a limit;
AT_VMAX and AT_VMIN follow R47; a valid answer is kept and ends the count of bad ones, and the third bad one in a row loses
the regulator. A period with LOOP_EN 0 writes nothing. The first valid answer of a retry ends AVS_LOST and resumes from the
voltage read back; another leaves it lost. A thermal sample starts throttling, lowers the ceiling, raises it, holds it or
ends throttling as R51 says. TEMPO_UNDER sets its condition and raises its fault when the device tempo is below 0x02CD. A
loop without a core to read holds (log entry 91), one that has requested nothing starts from the voltage read back (log entry
5), and AT_VMAX takes the tempo before the step (log entry 92): these are the model's choices. -/
def Obligations.TempoRowsFollowTheLoopRules : Prop :=
  (∀ (m c : Nat) (tj : Int) (s : State), s.calm = true → m < 57 →
      ∃ t, exec (.monitorWindow m c tj) s = .next t ∧ t.mon m = { windows := (c :: (s.mon m).windows).take 100, tj := tj } ∧
        (∀ k, k ≠ m → t.mon k = s.mon k) ∧ t.tempo.under = (s.tempo.under && decide (t.deviceTempo < 0x02CD)) ∧
        t = { s with tempo := { s.tempo with mons := t.tempo.mons, under := t.tempo.under }, pages := t.pages } ∧
        ∀ p, p ≠ 2 → t.page p = s.page p) ∧
    (∀ (a : AvsReply) (v step vmin vmax : Nat) (s : State), s.calm = true → s.tempo.loopStarted = true → s.tempo.avsLost = false →
      (s.page 2).groups.getLsbD 0 = false → fld (s.active 2 0x040) 0 0 = 1 → step = fld (s.active 2 0x040) 11 8 →
      vmin = fld (s.active 2 0x048) 9 0 → vmax = fld (s.active 2 0x048) 25 16 → vmin ≤ vmax → s.loopCores ≠ [] →
      v = max vmin (min vmax (if s.tempo.vddReq = 0 then a.readback else s.tempo.vddReq)) →
      (a.writeOk = true ∧ a.statusOk = true ∨ s.tempo.avsBad < 2) →
      ∃ t, exec (.tempoLoopPeriod a) s = .next t ∧ t.out = .avsWrite t.tempo.vddReq :: s.out ∧
        t.tempo.vddReq = (if s.deviceTempo + 8 < s.goal then min (v + step) vmax
          else if s.goal + 8 < s.deviceTempo then max (v - step) vmin else v) ∧
        t.tempo.atVmax = decide (t.tempo.vddReq = vmax ∧ s.deviceTempo + 8 < s.goal ∨
          t.tempo.vddReq = s.tempo.vddReq ∧ s.tempo.atVmax = true) ∧
        t.tempo.atVmin = decide (t.tempo.vddReq = vmin ∧ s.goal + 8 < s.deviceTempo ∨
          t.tempo.vddReq = s.tempo.vddReq ∧ s.tempo.atVmin = true) ∧
        (t.page 2).evtRaw.getLsbD 2 = t.tempo.atVmax ∧ t.tempo.avsLost = false ∧
        (a.writeOk = true ∧ a.statusOk = true → t.tempo.vddRead = a.readback ∧ t.tempo.avsBad = 0) ∧
        (¬(a.writeOk = true ∧ a.statusOk = true) → t.tempo.vddRead = s.tempo.vddRead ∧ t.tempo.avsBad = s.tempo.avsBad + 1) ∧
        t = { s with tempo := t.tempo, pages := t.pages, out := t.out }) ∧
    (∀ (a : AvsReply) (s : State), s.calm = true → s.tempo.loopStarted = true → s.tempo.avsLost = false →
      (s.page 2).groups.getLsbD 0 = false → fld (s.active 2 0x040) 0 0 = 1 → ¬(a.writeOk = true ∧ a.statusOk = true) →
      2 ≤ s.tempo.avsBad → s.severity 6 = 1 →
      ∃ t, exec (.tempoLoopPeriod a) s = .next t ∧ t.tempo.avsLost = true ∧ (t.page 2).evtRaw.getLsbD 3 = true ∧ t.mem = s.mem) ∧
    (∀ (a : AvsReply) (s : State), s.calm = true → (s.page 2).groups.getLsbD 0 = false →
      (fld (s.active 2 0x040) 0 0 = 0 ∨ s.tempo.loopStarted = false ∨ s.tempo.avsLost = true) →
      exec (.tempoLoopPeriod a) s = .next s) ∧
    (∀ (a : AvsReply) (s : State), s.calm = true → s.tempo.avsLost = true →
      (a.statusOk = true ∨ a.writeOk = true ∧ fld (s.active 2 0x040) 0 0 = 1) →
      ∃ t, exec (.avsRetry a) s = .next t ∧ t.tempo.avsLost = false ∧ t.tempo.avsBad = 0 ∧ t.tempo.vddReq = a.readback ∧
        (t.page 2).evtRaw.getLsbD 3 = false ∧ t = { s with tempo := t.tempo, pages := t.pages, out := t.out } ∧
        t.out = (if fld (s.active 2 0x040) 0 0 = 1 then [Out.avsWrite s.tempo.vddReq] else []) ++ s.out) ∧
    (∀ (a : AvsReply) (s : State), s.calm = true → s.tempo.avsLost = true → a.statusOk = false → a.writeOk = false →
      exec (.avsRetry a) s = .next { s with
        out := (if fld (s.active 2 0x040) 0 0 = 1 then [Out.avsWrite s.tempo.vddReq] else []) ++ s.out }) ∧
    (∀ (thr hyst floor target : Nat) (s : State), s.calm = true → s.tempo.calibrated = true → thr = fld (s.active 2 0x04C) 7 0 →
      hyst = fld (s.active 2 0x04C) 11 8 → floor = fld (s.active 2 0x04C) 31 16 → target = fld (s.active 2 0x044) 15 0 →
      ∃ t, exec .thermalSample s = .next t ∧ t = { s with tempo := t.tempo, pages := t.pages } ∧ t.tempo.tjMax = s.tjMax ∧
        ((thr : Int) ≤ s.tjMax → s.tempo.throttling = false → t.tempo.throttling = true ∧
          t.tempo.ceiling = max floor (target - 0x10) ∧ (t.page 2).evtPend.getLsbD 0 = true) ∧
        ((thr : Int) ≤ s.tjMax → s.tempo.throttling = true → t.tempo.throttling = true ∧
          t.tempo.ceiling = max floor (min s.tempo.ceiling target - 0x10) ∧ t.pages = s.pages) ∧
        (s.tjMax < (thr : Int) → s.tempo.throttling = true →
          ∃ c, c = max floor (if s.tjMax ≤ (thr : Int) - (hyst : Int) then s.tempo.ceiling + 0x10 else s.tempo.ceiling) ∧
            (c < target → t.tempo.throttling = true ∧ t.tempo.ceiling = c ∧ t.pages = s.pages) ∧
            (target ≤ c → t.tempo.throttling = false ∧ (t.page 2).evtPend.getLsbD 1 = true)) ∧
        (s.tjMax < (thr : Int) → s.tempo.throttling = false → t.tempo = { s.tempo with tjMax := s.tjMax } ∧ t.pages = s.pages)) ∧
    (∀ s : State, s.calm = true → s.tempo.calibrated = true → s.tempo.under = false → s.deviceTempo < 0x02CD → s.loopCores ≠ [] →
      exec .tempoUnder s =
        .next ((({ s with tempo := { s.tempo with under := true } }.setCond 2 4 true).fault 7 0xFFFF none 0).settle) ∧
      (s.severity 7 = 1 → ∃ t, exec .tempoUnder s = .next t ∧ t.tempo.under = true ∧ (t.page 2).evtRaw.getLsbD 4 = true ∧
        t.mem = s.mem ∧ t.jobs = s.jobs ∧ t.faults.nextSeq = nextRecSeq s.faults.nextSeq))

/-- COMPARATOR_ARM, COMPARATOR_DISARM, COMPARATOR_FIRE and TIME_LO_READ (R61, R62, R459). ARM latches CMP_HI:CMP_LO and
PERIOD and arms; DISARM without ARM disarms and keeps the latched value; a firing disarms, or with a PERIOD other than
0 arms again PERIOD later, modulo 2^64; a read of TIME_LO returns the low word of the timebase and latches the high
word. -/
def Obligations.ComparatorsAndTimebaseReads : Prop :=
  (∀ (q k : Nat) (v : Word) (s : State), q < 4 → k < 8 → s.hears (qcompPage q) = true → v.getLsbD 31 = true →
      ∃ t, exec (.comparatorArm q k v) s = .next t ∧ t.comp (8 * q + k) =
        { value := (s.reg (qcompPage q) (0x044 + 0x10 * k)).toNat * 2 ^ 32 + (s.reg (qcompPage q) (0x040 + 0x10 * k)).toNat,
          armed := true, period := fld v 27 0 }) ∧
    (∀ (q k : Nat) (v : Word) (s : State), q < 4 → k < 8 → s.hears (qcompPage q) = true →
      ∃ t, exec (.comparatorDisarm q k v) s = .next t ∧
        t.comp (8 * q + k) = { value := (s.comp (8 * q + k)).value, armed := false, period := fld v 27 0 }) ∧
    (∀ (q k : Nat) (s : State), s.calm = true → q < 4 → k < 8 → (s.comp (8 * q + k)).armed = true →
      (s.comp (8 * q + k)).value ≤ s.time.ns →
      ∃ t, exec (.comparatorFire q k) s = .next t ∧
        t.comp (8 * q + k) = (if (s.comp (8 * q + k)).period = 0 then { s.comp (8 * q + k) with armed := false }
          else { s.comp (8 * q + k) with
            armed := true, value := ((s.comp (8 * q + k)).value + (s.comp (8 * q + k)).period) % 2 ^ 64 })) ∧
    (∀ s : State, s.hears 19 = true →
      exec .timeLoRead s = .next ({ s.toL0 with
        time := { s.time with hiLatch := BitVec.ofNat 32 (s.time.ns / 2 ^ 32) } }.emit (.timeLo (BitVec.ofNat 32 s.time.ns))))

/-- PAGE_UNLOCK, PAGE_RELOCK, PAGE_LOCK_TIMEOUT, EVT_SET_WRITE, EVT_PEND_CLEAR, SNAP_TAKE and SNAP_RELEASE (R72, R80, R81,
R86). On a served page each of these rows changes the header fields that its rule names and nothing else of the part:
the lock, the pending events within the page's event bits, and the capture with its sequence number modulo 256. -/
def Obligations.PageHeaderRowsWriteTheirFields : Prop :=
  (∀ (p : Nat) (s : State), s.hears p = true →
      exec (.pageUnlock p) s = .next (s.toL0.modPage p fun g => { g with unlocked := true })) ∧
    (∀ (p : Nat) (k : BitVec 16) (s : State), s.hears p = true →
      exec (.pageRelock p k) s = .next (s.toL0.modPage p fun g => { g with unlocked := k == 0xC0DE })) ∧
    (∀ (p : Nat) (s : State), s.calm = true →
      exec (.pageLockTimeout p) s = .next (s.modPage p fun g => { g with unlocked := false })) ∧
    (∀ (p : Nat) (k : PageKind) (v : Word) (s : State), s.hears p = true → pageKind p = some k → v &&& ~~~evtMask k = 0 →
      exec (.evtSetWrite p v) s = .next (s.toL0.modPage p fun g => { g with evtPend := g.evtPend ||| v })) ∧
    (∀ (p : Nat) (k : PageKind) (v : Word) (s : State), s.hears p = true → pageKind p = some k → v &&& ~~~evtMask k = 0 →
      exec (.evtPendClear p v) s = .next (s.toL0.modPage p fun g => { g with evtPend := g.evtPend &&& ~~~v })) ∧
    (∀ (p : Nat) (s : State), s.hears p = true → p ≠ 19 →
      ∃ m, exec (.snapTake p) s = .next (s.toL0.modPage p fun g => { g with
        snapHeld := true, snapSeq := (g.snapSeq + 1) % 256, snap := m })) ∧
    (∀ (p : Nat) (s : State), s.hears p = true →
      exec (.snapRelease p) s = .next (s.toL0.modPage p fun g => { g with snapHeld := false, snap := [] }))

/-- GO and HAND_OVER (R75, R76, R79, R81). GO for groups that the page has, on a page in service, locks the page and sets
their PENDING bits and nothing else. At its hand-over, at a boundary of its page, a pending group clears its PENDING bit;
accepted values become active, register by register, on every page but TIMEBASE; rejected ones leave every register as it
was and set COMMIT_REJECT with reason and group when none was set. -/
def Obligations.CommitTakesEffectAtHandOver : Prop :=
  (∀ (p : Nat) (mask : BitVec 16) (s : State), s.hears p = true → (s.pageState p).rejects = false →
      (∀ g, g < 16 → mask.getLsbD g = true → hasGroup p g = true) →
      ∃ t, exec (.go p mask) s = .next t ∧ t = s.toL0.modPage p (fun _ => t.page p) ∧ (t.page p).unlocked = false ∧
        (t.page p).groups = (s.page p).groups ||| mask) ∧
    (∀ (p g : Nat) (s : State), s.calm = true → g < 16 → (s.page p).groups.getLsbD g = true → s.pageParked p = false →
      s.serving p = .served → (s.pageState p).rejects = false → s.atBoundary p g = true → p ≠ 19 →
      ∃ t, exec (.handOver p g []) s = .next t ∧ (t.page p).groups.getLsbD g = false ∧
        (s.handReject p g = 0 → ∀ k o, pageKind p = some k → o ∈ groupOffs k g → t.active p o = s.reg p o) ∧
        (s.handReject p g ≠ 0 → t.regs = s.regs ∧ (t.page p).commitReject = true ∧
          ((s.page p).commitReject = false → (t.page p).rejectReason = s.handReject p g ∧ (t.page p).rejectGroup = g)))

/-- UNIT_FENCE, UNIT_UNFENCE, UNIT_DISABLE, UNIT_ENABLE, UNIT_RESET, UNIT_RESET_DONE and UNIT_DRAINED (R71, R92, R541). A
unit without work reads FENCED with cause SOFTWARE at FENCE = 1; a software-fenced unit other than a core returns to
IDLE at FENCE = 0; ENABLE follows what is written; UNIT_RESET of a FENCED unit makes it OFFLINE, and its end leaves it
IDLE, FENCED by software, or FENCED with cause SELFTEST; a drained unit reads FENCED, or IDLE when it was only
disabled. -/
def Obligations.UnitRowsEnterAndLeaveService : Prop :=
  (∀ (p : Nat) (k : PageKind) (s : State), s.hears p = true → pageKind p = some k → noFence k = false →
      ((s.page p).state = .idle ∨ (s.page p).state = .running) → (s.page p).draining = false → s.pageBusy p = false →
      ∃ t, exec (.unitFence p) s = .next t ∧ (t.page p).fence = true ∧ (t.page p).state = .fenced ∧
        (t.page p).cause = .software) ∧
    (∀ (p : Nat) (s : State), s.hears p = true → pageCore p = none → (s.page p).state = .fenced →
      (s.page p).cause = .software →
      exec (.unitUnfence p) s = .next (s.toL0.modPage p fun g => { g with fence := false, state := .idle, cause := .none })) ∧
    (∀ (p : Nat) (s : State), s.hears p = true →
      ∃ t, exec (.unitDisable p) s = .next t ∧ (t.page p).enable = false) ∧
    (∀ (p : Nat) (s : State), s.hears p = true → pageCore p = none →
      ∃ t, exec (.unitEnable p) s = .next t ∧ (t.page p).enable = true) ∧
    (∀ (p : Nat) (k : PageKind) (s : State), s.hears p = true → pageKind p = some k → noFence k = false → k ≠ .core → k ≠ .quad →
      s.pageState p = .fenced →
      ∃ t, exec (.unitReset p) s = .next t ∧ (t.page p).state = .offline ∧ (t.page p).resetting = true) ∧
    (∀ (p : Nat) (x : SelfTest) (s : State), s.calm = true → pageCore p = none → pageKind p ≠ some .quad →
      (s.page p).resetting = true →
      ∃ t, exec (.unitResetDone p x) s = .next t ∧ (t.page p).resetting = false ∧
        (t.page p).state = (if x.ok = true ∧ (s.page p).fence = false then .idle else .fenced) ∧
        (t.page p).cause = (if x.ok = false then .selftest else if (s.page p).fence = true then .software else .none)) ∧
    (∀ (p : Nat) (s : State), s.calm = true → (s.page p).draining = true → s.pageBusy p = false →
      ∃ t, exec (.unitDrained p) s = .next t ∧ (t.page p).draining = false ∧
        (t.page p).state = (if (s.page p).cause = .none then .idle else .fenced))

/-- REGISTER_WRITE and WINDOW_ACCESS (R64, R66, R67, R73, R277). A 4-byte write of PAGE_SCRATCH of a served page stores
the word there and changes nothing else, and a read of it returns the word; a read of any word of a served page answers
4 bytes and changes no register, memory, job, stream or core; a write with poisoned data is discarded whole and reported; a
write in the upper half of a page sets its ACCESS_BAD and changes nothing
else; a write of 1 or 2 bytes is discarded with DEVICE.ACCESS_BAD; an 8-byte write is two 4-byte writes, the lower
first. In service, a window with no target reads 0 with DEVICE.ACCESS_BAD, and a word written through a CONTEXT window
of a fenced core is the word that a read returns. -/
def Obligations.RegisterAndWindowAccesses : Prop :=
  (∀ (p : Nat) (v : DWord) (h : HostAnswers) (s : State), s.hears p = true → p < 192 → h.poisoned = false →
      exec (.registerWrite (p * 0x1000 + 0x038) 4 v h) s =
        .next (s.toL0.modPage p fun g => { g with scratch := v.setWidth 32 })) ∧
    (∀ (p o : Nat) (v : DWord) (h : HostAnswers) (s : State), s.hears p = true → p < 192 → 0x800 ≤ o → o < 0x1000 → o % 4 = 0 →
      h.poisoned = false → exec (.registerWrite (p * 0x1000 + o) 4 v h) s = .next (s.toL0.accessBad p)) ∧
    (∀ (off len : Nat) (v : DWord) (h : HostAnswers) (s : State), s.hears 0 = true → off < 0x400000 → (len = 1 ∨ len = 2) →
      h.poisoned = false → exec (.registerWrite off len v h) s = .next (s.toL0.accessBad 0)) ∧
    (∀ (off len : Nat) (v : DWord) (h : HostAnswers) (s : State), s.hears 0 = true → off < 0x400000 → h.poisoned = true →
      exec (.registerWrite off len v h) s = .next (s.toL0.report .poisonedTlp)) ∧
    (∀ (p o : Nat) (s : State), s.hears p = true → s.hears 0 = true → p < 192 → o < 0x1000 → o % 4 = 0 →
      ∃ t, exec (.windowAccess (p * 0x1000 + o) 4 none) s = .next t ∧
        (∃ l, l.length = 4 ∧ t.out = .barRead l false :: s.toL0.out) ∧
        t.regs = s.regs ∧ t.mem = s.mem ∧ t.jobs = s.jobs ∧ t.streams = s.streams ∧ t.cores = s.cores) ∧
    (∀ (p : Nat) (s : State), s.hears p = true → p < 192 → (s.page p).snapHeld = false →
      exec (.windowAccess (p * 0x1000 + 0x038) 4 none) s = .next (s.toL0.emit (.barRead (leBytes 4 (s.page p).scratch.toNat) false))) ∧
    (∀ (off : Nat) (v : DWord) (h : HostAnswers) (s t : State), s.hears 0 = true → off < 0x400000 → off % 8 = 0 →
      h.poisoned = false → exec (.registerWrite off 4 v h) s = .next t → t.linked = true → t.decodes = true →
      exec (.registerWrite off 8 v h) s = exec (.registerWrite (off + 4) 4 (v >>> 32) h) t) ∧
    (∀ (w x : Nat) (s : State), s.hears 0 = true → s.boot.state = .ready → w < 8 → x < 0x10000 →
      fld (s.reg 0 (0x100 + 4 * w)) 31 24 = 0 →
      exec (.windowAccess (0x200000 + w * 0x40000 + 4 * x) 4 none) s =
        .next ((s.toL0.accessBad 0).emit (.barRead [0, 0, 0, 0] false))) ∧
    (∀ (w x n : Nat) (v : DWord) (s : State), s.hears 0 = true → s.boot.state = .ready → w < 8 → x < 8192 → n < 48 →
      s.reg 0 (0x100 + 4 * w) = BitVec.ofNat 32 (4 * 2 ^ 24 + n * 2 ^ 16) → s.coreFenced n = true →
      s.pageParked (corePage n) = false →
      ∃ t, exec (.windowAccess (0x200000 + w * 0x40000 + 4 * x) 4 (some v)) s = .next t ∧
        mgetD (t.unit n).bin.ctx x 0 = v.setWidth 32 ∧ t = { s.toL0 with cores := t.cores })

/-- CONFIG_REQUEST, D3HOT_ENTRY, D0_RETURN, BME_CLEAR, BME_SET, PME_STATUS_CLEAR, L1_ENTRY, PCIE_LINK_DOWN and
PCIE_LINK_TRAINED (R93, R95, R101, R103, R105, R106, R107). Over an active link: Retry Status is possible only before
the first successful answer, an answer is remembered and a Memory Space Enable write takes effect; D3hot, Bus Master
Enable and PME_Status follow their rows; L1 is entered only with ASPM L1 enabled; a lost link is recorded as a
surprise down; and a trained link keeps its speed and width. -/
def Obligations.PcieConfigurationRows : Prop :=
  (∀ (r : CfgReq) (s : State), s.linked = true → s.due = [] → s.pcie.cfgAnswered = false →
      exec (.configRequest r true) s = .next (s.toL0.emit .cfgRetry)) ∧
    (∀ (b y : Bool) (s : State), s.linked = true → s.due = [] → (y = false ∨ s.pcie.cfgAnswered = true) →
      exec (.configRequest (.setMse b) y) s = .next (s.toL0.modPcie fun x => { x with cfgAnswered := true, mse := b })) ∧
    (∀ s : State, s.linked = true → s.due = [] →
      exec .d3hotEntry s = .next (s.toL0.modPcie fun x => { x with cfgAnswered := true, d3hot := true }) ∧
      exec .bmeClear s = .next (s.toL0.modPcie fun x => { x with cfgAnswered := true, bme := false }) ∧
      exec .pmeStatusClear s = .next (s.toL0.modPcie fun x => { x with cfgAnswered := true, pmeStatus := false })) ∧
    (∀ s : State, s.linked = true → s.due = [] →
      (∃ t, exec .d0Return s = .next t ∧ t.pcie.d3hot = false) ∧ (∃ t, exec .bmeSet s = .next t ∧ t.pcie.bme = true)) ∧
    (∀ s : State, s.calm = true → s.linked = true → s.pcie.aspmL1 = true → s.pcie.inL1 = false →
      exec .l1Entry s = .next ((s.modPcie fun x => { x with inL1 := true }).emit .l1Request)) ∧
    (∀ (s : State), s.linked = true →
      ∃ t, exec .pcieLinkDown s = .next t ∧ t = s.modPcie (fun _ => t.pcie) ∧ t.pcie.linkUp = false ∧
        t.pcie.speed = 0 ∧ t.pcie.width = 0 ∧ t.pcie.inL1 = false ∧ AerError.surpriseDown ∈ t.pcie.aerStatus) ∧
    (∀ (v w : Nat) (l : List AerError) (s : State), s.power.powered = true → s.power.perstHigh = true → 1 ≤ v → v ≤ 5 →
      (w = 1 ∨ w = 4 ∨ w = 8 ∨ w = 16) →
      ∃ t, exec (.pcieLinkTrained v { width := w, errs := l }) s = .next t ∧ t.pcie.linkUp = true ∧ t.pcie.speed = v ∧ t.pcie.width = w ∧
        (l = [] → s.pcie.pba = 0 → s.geyser.queues = [] → s.pcie.heldWrites = [] → s.pcie.waits = [] →
          t = s.modPcie fun x => { x with linkUp := true, speed := v, width := w, inL1 := false }))

/-- BAR2_READ, BAR2_WRITE, HOST_READ_COMPLETE and COMPLETION_TIMEOUT (R97, R100, R101, R102, R560). In service, a decoded
BAR2 read of readable bytes returns them and changes nothing; a write of writable bytes stores them at the mapped
address and leaves every other byte and everything else; a write before READY is refused with PCIE.ACCESS_BAD. A good
completion of a device read changes nothing but L1, and a completion timeout is reported once when nothing waits for
the read. -/
def Obligations.Bar2AndHostReadRows : Prop :=
  (∀ (off len a : Nat) (s : State), s.calm = true → s.linked = true → s.decodes = true → s.inBar2 off len = true →
      s.boot.state = .ready → s.bar2Addr off = some a → s.frozenRun a len = false → s.readRun a len = true →
      exec (.bar2Read off len false) s = .next (s.toL0.emit (.barRead (s.devBytes a len) false))) ∧
    (∀ (off a : Nat) (bs : List Byte) (s : State), s.calm = true → s.linked = true → s.decodes = true →
      s.inBar2 off bs.length = true → s.boot.state = .ready → s.bar2Addr off = some a → s.writeRun a bs.length = true →
      ∃ t, exec (.bar2Write off bs false) s = .next t ∧ t = { s.toL0 with mem := memPutAll s.mem a bs } ∧
        ∀ x, (x < a ∨ a + bs.length ≤ x) → memByte t.mem x = memByte s.mem x) ∧
    (∀ (off : Nat) (bs : List Byte) (s : State), s.calm = true → s.linked = true → s.decodes = true →
      s.inBar2 off bs.length = true → s.boot.state = .booting →
      exec (.bar2Write off bs false) s = .next (s.toL0.accessBad 16)) ∧
    (∀ (w : HostRead) (s : State), s.calm = true → s.linked = true → exec (.hostReadComplete w .ok) s = .next s.toL0) ∧
    (∀ (j : Nat) (s : State), s.calm = true → s.pcie.ctoDisable = false → s.job j = none →
      exec (.completionTimeout (.jobInput j)) s = .next (s.report .completionTimeout))

/-- INT_SOURCE_SET, INT_PENDING_CLEAR, INT_SOURCE_ENABLE, SOURCE_LEVEL_CHANGE, CLAIM, EOI and HOLDOFF_EXPIRY; VECTOR_MASK,
VECTOR_UNMASK and MSIX_TABLE_WRITE (R467, R469, R471, R472, R474, R475, R97, R106, R476, R478). SET makes an EDGE
source pending and gives a LEVEL source its software level; a PENDING write clears an EDGE source and leaves a LEVEL
source; ENABLE takes its value; a level change reaches the controller as the unit shows it; CLAIM answers the lowest
claimable source of its group and puts it in service, or answers none; EOI ends the service of a source of its group
and refuses any other; an expired hold-off with nothing claimable leaves the group idle and sends nothing, and one that still counts changes
nothing. Masking a
vector or the function, and writing a table entry's address halves or data, change only that bit or field. Unmasking
the one vector whose PBA bit is set, with nothing else in its way, sends its message with the entry's address and data
and clears the PBA bit. -/
def Obligations.InterruptSourceRows : Prop :=
  ((∀ (n : Nat) (s : State), s.hears 4 = true → srcReal n = true →
      ∃ t, exec (.intSourceSet n) s = .next t ∧
        t.src n = (if srcLevel n = true then { s.src n with soft := true } else { s.src n with pending := true })) ∧
    (∀ (n : Nat) (s : State), s.hears 4 = true → srcReal n = true →
      ∃ t, exec (.intPendingClear n) s = .next t ∧
        t.src n = (if srcLevel n = true then s.src n else { s.src n with pending := false })) ∧
    (∀ (n : Nat) (b : Bool) (s : State), s.hears 4 = true → srcReal n = true →
      ∃ t, exec (.intSourceEnable n b) s = .next t ∧ t.src n = { s.src n with enable := b }) ∧
    (∀ (n : Nat) (s : State), s.calm = true → srcLevel n = true →
      ∃ t, exec (.sourceLevelChange n) s = .next t ∧ t.src n = { s.src n with level := s.unitLevel n }) ∧
    (∀ (g n : Nat) (s : State), s.hears 4 = true → g < 40 → s.firstClaimable g = some n →
      ∃ t, exec (.claim g) s = .next t ∧ t.out = .claimed true n :: s.out ∧
        t.src n = { s.src n with inService := true, pending := false, soft := false }) ∧
    (∀ (g : Nat) (s : State), s.hears 4 = true → g < 40 → s.firstClaimable g = none →
      exec (.claim g) s = .next (s.toL0.emit (.claimed false 0))) ∧
    (∀ (g n : Nat) (s : State), s.hears 4 = true → g < 40 → n / 8 = g → (s.src n).inService = true →
      ∃ t, exec (.eoi g n) s = .next t ∧ t.src n = { s.src n with inService := false }) ∧
    (∀ (g n : Nat) (s : State), s.hears 4 = true → (40 ≤ g ∨ n / 8 ≠ g ∨ (s.src n).inService = false) →
      exec (.eoi g n) s = .next (s.toL0.accessBad 4)) ∧
    (∀ (g : Nat) (s : State), s.calm = true → g < 40 → (s.grp g).timerRun = true → (s.grp g).timerLeft = 0 →
      s.firstClaimable g = none →
      ∃ t, exec (.holdoffExpiry g) s = .next t ∧ (t.grp g).timerRun = false ∧ (t.grp g).msgDue = false ∧ t.out = s.out) ∧
    (∀ (g : Nat) (s : State), s.calm = true → ((s.grp g).timerRun = false ∨ (s.grp g).timerLeft ≠ 0) →
      exec (.holdoffExpiry g) s = .next s)) ∧
  ((∀ (v : Nat) (s : State), s.calm = true → s.linked = true → s.decodes = true → v < 128 →
      exec (.vectorMask (some v)) s = .next (s.toL0.modVec v fun e => { e with masked := true })) ∧
    (∀ s : State, s.linked = true → s.due = [] →
      exec (.vectorMask none) s = .next (s.toL0.modPcie fun x => { x with cfgAnswered := true, funcMask := true })) ∧
    (∀ (v : Nat) (s : State), s.calm = true → s.linked = true → s.decodes = true → v < 128 → s.boot.state = .ready →
      s.pcie.msixEnable = true → s.pcie.funcMask = false → s.pcie.bme = true → s.pcie.pba = 1#128 <<< v →
      ∃ t, exec (.vectorUnmask (some v)) s = .next t ∧ t.out = .msix (s.vec v).addr (s.vec v).data :: s.out ∧
        t.pcie.pba = 0 ∧ (t.vec v).masked = false) ∧
    (∀ (v : Nat) (f : MsixField) (w : Word) (s : State), s.calm = true → s.linked = true → s.decodes = true → v < 128 →
      ∃ t, exec (.msixTableWrite v f (some w)) s = .next t ∧
        t.vec v = (match f with
          | .addrLo => { s.vec v with addr := (s.vec v).addr / 2 ^ 32 * 2 ^ 32 + w.toNat }
          | .addrHi => { s.vec v with addr := w.toNat * 2 ^ 32 + (s.vec v).addr % 2 ^ 32 }
          | .data => { s.vec v with data := w }) ∧
        (∀ u, u ≠ v → t.vec u = s.vec u) ∧ t = s.toL0.modPcie (fun _ => t.pcie)))

/-- FAULT_FIRE, REC_ACK, REC_ACK_ALL, ERR_PIN_CTRL_WRITE, ERR_PULSE_END, FEC_DEGRADED and SVC_WATCHDOG (R531, R532, R533,
R534, R535, R542). A source that fires at S1 with no job writes one unacknowledged record with its source, instance,
severity, time, the next sequence number and reaction LOGGED into the slot of the slot rule, and takes that number up;
FEC_DEGRADED does so for the port's source. REC_ACK leaves no unacknowledged record of its number and refuses a number
that none has; REC_ACK_ALL leaves none at all. ERR_PIN_CTRL is stored, or discarded whole when PULSE_US or MIN_SEV is
out of range; the end of a pulse releases the pin. A missed watchdog at S4, with no job or queue in the part, stops
the device with that source. -/
def Obligations.FaultUnitRows : Prop :=
  (∀ (h : FaultHit) (i : Nat) (l : Bool) (s : State), s.calm = true → (sourceInfo h.source).isSome = true → h.job = none →
      s.severity h.source = 1 → s.faults.chooseSlot 1 = some (i, l) →
      ∃ t r, exec (.faultFire [h]) s = .next t ∧ mget t.faults.slots i = some r ∧ r.source = h.source ∧ r.inst = h.inst ∧
        r.sev = 1 ∧ r.acked = false ∧ r.reaction = .logged ∧ r.time = s.time.ns ∧ r.seq = s.faults.nextSeq ∧
        t.faults.nextSeq = nextRecSeq s.faults.nextSeq) ∧
    (∀ (p i : Nat) (l : Bool) (s : State), s.calm = true → p < 2 → s.severity (194 + 8 * p) = 1 →
      s.faults.chooseSlot 1 = some (i, l) →
      ∃ t r, exec (.fecDegraded p) s = .next t ∧ mget t.faults.slots i = some r ∧ r.source = 194 + 8 * p ∧ r.inst = p) ∧
    (∀ (q : Word) (s : State), s.hears 3 = true → (s.faults.unacked.any fun r => r.seq == q.toNat) = true →
      ∃ t, exec (.recAck q) s = .next t ∧ ∀ r ∈ t.faults.unacked, r.seq ≠ q.toNat) ∧
    (∀ (q : Word) (s : State), s.hears 3 = true → (s.faults.unacked.any fun r => r.seq == q.toNat) = false →
      exec (.recAck q) s = .next (s.toL0.accessBad 3)) ∧
    (∀ s : State, s.hears 3 = true → ∃ t, exec (.recAckAll 1) s = .next t ∧ t.faults.unacked = []) ∧
    (∀ (v : Word) (s : State), s.hears 3 = true → v &&& ~~~0x83FF0007 = 0 → 20 ≤ fld v 25 16 → fld v 25 16 ≤ 1000 →
      fld v 2 0 ≤ 5 → exec (.errPinCtrlWrite v) s = .next (s.toL0.setReg 3 0x400 v)) ∧
    (∀ (v : Word) (s : State), s.hears 3 = true → (fld v 25 16 < 20 ∨ 1000 < fld v 25 16 ∨ 5 < fld v 2 0) →
      ∃ t, exec (.errPinCtrlWrite v) s = .next t ∧ t.regs = s.regs ∧ (t.page 3).accessBad = true) ∧
    (∀ s : State, s.calm = true → exec .errPulseEnd s = .next { s with faults := { s.faults with pulsing := false } }) ∧
    (∀ s : State, s.calm = true → s.severity 3 = 4 → s.faults.stop = .normal → s.boot.running = false → s.jobs = [] →
      s.qm.queues = [] →
      ∃ t, exec .svcWatchdog s = .next t ∧ t.faults.stop = .stopped ∧ t.faults.stopSource = 3)

/-- The seven JTAG rows; The thirteen SMBus rows (R582, R545, R558, R580). On a live part whose TAP holds back no attempt,
BYPASS, IDCODE, SAMPLE/PRELOAD and Test-Logic-Reset set the TAP's instruction, IDCODE answers 0x24824A1F and SAMPLE
captures the balls; EXTEST, HIGHZ and CLAMP set it unless SECURE_BOOT is fused and PERST_N is high, when they change
nothing. While the part has power, in every device state, each SMBus read sends the bytes that its rule gives and
changes nothing else; a transaction that times out changes nothing. -/
def Obligations.JtagRowsSetTheInstruction : Prop :=
  (∀ s : State, s.calm = true → s.jtag.held = false →
    exec .jtagBypass s = .next { s with jtag := { s.jtag with instr := .bypass } } ∧
    exec .jtagIdcode s = .next ({ s with jtag := { s.jtag with instr := .idcode } }.emit (.jtag 0x24824A1F)) ∧
    exec .jtagSamplePreload s = .next { s with jtag := { s.jtag with instr := .sample, sampled := s.balls }, free := s.free + 1 } ∧
    exec .jtagTestLogicReset s = .next { s with jtag := { s.jtag with instr := .reset } } ∧
    ((s.fuse.secureBoot = false ∨ s.power.perstHigh = false) →
      exec .jtagExtest s = .next { s with jtag := { s.jtag with instr := .extest } } ∧
      exec .jtagHighz s = .next { s with jtag := { s.jtag with instr := .highz } } ∧
      exec .jtagClamp s = .next { s with jtag := { s.jtag with instr := .clamp } }) ∧
    (s.fuse.secureBoot = true → s.power.perstHigh = true →
      exec .jtagExtest s = .next s ∧ exec .jtagHighz s = .next s ∧ exec .jtagClamp s = .next s)) ∧
  (∀ s : State, s.power.powered = true →
    exec .smbTemp s = .next (s.emit (.smb [BitVec.ofNat 8 (narrow 8 s.tjMax)])) ∧
    exec .smbVddCore s = .next (s.emit (.smb (leBytes 2 (if s.tempo.loopStarted = true then s.tempo.vddRead else 0)))) ∧
    exec .smbThermState s =
      .next (s.emit (.smb [BitVec.ofNat 8 (128 * b2n s.power.thermtrip + 64 * b2n s.tempo.throttling)])) ∧
    exec .smbFaultState s = .next (s.emit (.smb [BitVec.ofNat 8 (128 * b2n (!s.faults.unacked.isEmpty) +
      16 * s.faults.unacked.foldl (fun m r => max m r.sev) 0 + s.faults.stop.code)])) ∧
    exec .smbFaultUnacked s = .next (s.emit (.smb [BitVec.ofNat 8 s.faults.unacked.length])) ∧
    exec .smbFaultNewest s = .next (s.emit (.smb (s.slotBytes32 s.faults.newestSlot))) ∧
    (∀ i, i < 48 → exec (.smbFaultRecord i) s = .next (s.emit (.smb (s.slotBytes32 i)))) ∧
    exec .smbErrPin s = .next (s.emit (.smb [BitVec.ofNat 8
      (4 * b2n (decide (s.faults.stop = .sealed)) + 2 * b2n s.faults.pulsing + b2n s.errLow)])) ∧
    exec .smbBootState s = .next (s.emit (.smb [BitVec.ofNat 8 (64 * s.boot.state.code + s.boot.stage)])) ∧
    exec .smbBootAttempts s = .next (s.emit (.smb [BitVec.ofNat 8 (16 * fld (s.reg 1 0x040) 2 0 + s.boot.attempts)])) ∧
    exec .smbBootCause s = .next (s.emit (.smb (leBytes 4 s.boot.cause.word))) ∧
    exec .smbBootHistory s = .next (s.emit (.smb
      ((List.range 4).flatMap fun i => leBytes 4 ((s.boot.history[i]?.map BootHist.word).getD 0)))) ∧
    exec .smbTimeout s = .next s)

/-- POOL_ENABLE, POOL_DISABLE, POOL_REBUILD and POOL_THREAD_DONE (R436, R437, R440). A DISABLED pool whose range and size
checks hold starts enabling and nothing else changes; a failed range check is rejected with RANGE and a failed size
check with COMBINATION; an ENABLED or BROKEN pool that owns nothing becomes DISABLED; only a BROKEN pool starts
rebuilding; a finished ENABLE threads every buffer, frees all of them and names buffer 0 first. -/
def Obligations.PoolLifeRows : Prop :=
  (∀ (p : Nat) (s : State), s.hears 9 = true → p < 16 → (s.pool p).state = .disabled → s.poolRangeOk p = true →
      s.poolSizeFree p = true → exec (.poolEnable p) s = .next (s.toL0.modPool p fun _ => { state := .enabling })) ∧
    (∀ (p : Nat) (s : State), s.hears 9 = true → p < 16 → (s.pool p).state = .disabled → s.poolRangeOk p = false →
      exec (.poolEnable p) s = .next (s.toL0.reject 9 1 p)) ∧
    (∀ (p : Nat) (s : State), s.hears 9 = true → p < 16 → (s.pool p).state = .disabled → s.poolRangeOk p = true →
      s.poolSizeFree p = false → exec (.poolEnable p) s = .next (s.toL0.reject 9 2 p)) ∧
    (∀ (p : Nat) (s : State), s.hears 9 = true → p < 16 → ((s.pool p).state = .enabled ∨ (s.pool p).state = .broken) →
      (s.pool p).owned = 0 → ∃ t, exec (.poolDisable p) s = .next t ∧ t.pool p = {}) ∧
    (∀ (p : Nat) (s : State), s.hears 9 = true → p < 16 → (s.pool p).state = .broken →
      ∃ t, exec (.poolRebuild p) s = .next t ∧ (t.pool p).state = .rebuilding ∧ (t.pool p).cause = 0) ∧
    (∀ (p : Nat) (s : State), s.hears 9 = true → p < 16 → (s.pool p).state ≠ .broken →
      exec (.poolRebuild p) s = .next (s.toL0.accessBad 9)) ∧
    (∀ (p : Nat) (s : State), s.calm = true → p < 16 → (s.pool p).state = .enabling →
      s.writeRun (s.poolOwner p) (8 * s.poolCount p) = true →
      ((List.range (s.poolCount p)).all fun i => s.headerOk (s.bufAddr p i)) = true →
      ∃ t, exec (.poolThreadDone p) s = .next t ∧
        t.pool p = { state := .enabled, head := s.bufAddr p 0, free := s.poolCount p })

/-- POOL_ALLOCATE, BPM_ALLOC_REQ, BPM_ALLOC_ACK, BPM_RELEASE and BUFFER_RELEASE (R88, R439, R441, R444, R445, R446, R589).
A request of the host posts exactly one result with the next sequence number, and a fifth outstanding request is
refused; an empty pool gives outcome 2 and no handle, and a good header at the head of the free list outcome 1 and
its handle. The present sequence number consumes the result shown, and any
other acknowledgement is refused. A release by an owner that is not the last one takes it off the owner record and
changes nothing else; the last owner's release puts the buffer at the head of the free list. A release that the record
does not allow changes no memory and records the handle and the agent. A job that asks a pool with no buffer free,
before its last retry, keeps its request and the pool's event sets; with a good header at the head of the free list
the job gets one more handle and its request ends, the header's NEXT becomes the head, one buffer fewer is free and
one more owned. -/
def Obligations.BufferAllocationRows : Prop :=
  (∀ (v : Word) (h : Option (List Byte)) (s : State), s.hears 9 = true → v &&& ~~~0x3FFFFFFF = 0 → s.bpm.box.length < 4 →
      v.getLsbD 29 = true → (s.page 9).fence = false → (s.pool (fld v 28 25)).state = .enabled →
      (s.pool (fld v 28 25)).head = 0 →
      ∃ t, exec (.bpmAllocReq v h) s = .next t ∧ t.bpm.box = s.bpm.box ++
        [{ pool := fld v 28 25, outcome := 2, handle := 0xFFFFFFFF, seq := nextSeq s.bpm.seq }] ∧ t.mem = s.mem) ∧
    (∀ (v : Word) (p i : Nat) (hd : List Byte) (h : Option (List Byte)) (s : State), s.hears 9 = true → v &&& ~~~0x3FFFFFFF = 0 →
      s.bpm.box.length < 4 → (s.page 9).fence = false →
      s.chosenPool (if v.getLsbD 29 = true then .byPool (fld v 28 25) else .bySize (fld v 24 0)) = some p → p < 16 →
      (s.pool p).state = .enabled → (s.pool p).head ≠ 0 → (isDev (s.pool p).head = true ∨ s.hostReach = true) →
      s.readTagged (s.pool p).head 16 h = some hd → s.headerGood p (s.pool p).head hd = true →
      i = ((s.pool p).head - s.poolBase p) / 2 ^ s.poolLog2 p → i < 2 ^ 24 →
      ∃ t, exec (.bpmAllocReq v h) s = .next t ∧ t.bpm.box = s.bpm.box ++
        [{ pool := p, outcome := 1, handle := mkHandle p (((s.owner p i).gen + 1) % 16) i, seq := nextSeq s.bpm.seq }] ∧
        (t.pool p).head = leNat (hd.take 8) ∧ (t.pool p).free = (s.pool p).free - 1 ∧ (t.pool p).owned = (s.pool p).owned + 1) ∧
    (∀ (v : Word) (h : Option (List Byte)) (s : State), s.hears 9 = true → v &&& ~~~0x3FFFFFFF = 0 → 4 ≤ s.bpm.box.length →
      exec (.bpmAllocReq v h) s = .next (s.toL0.accessBad 9)) ∧
    (∀ (q : BitVec 8) (r : AllocResult) (l : List AllocResult) (s : State), s.hears 9 = true → s.bpm.box = r :: l →
      r.seq = q.toNat → ∃ t, exec (.bpmAllocAck q) s = .next t ∧ t.bpm = { s.bpm with box := l }) ∧
    (∀ (q : BitVec 8) (s : State), s.hears 9 = true → (s.bpm.box.head?.map AllocResult.seq) ≠ some q.toNat →
      exec (.bpmAllocAck q) s = .next (s.toL0.accessBad 9)) ∧
    (∀ (w : Word) (s : State), s.hears 9 = true → s.handleOk w.toNat = true →
      (s.owner (handlePool w.toNat) (handleIndex w.toNat)).owners = 3 →
      exec (.bpmRelease w) s = .next (s.toL0.setOwner (handlePool w.toNat) (handleIndex w.toNat)
        ((s.owner (handlePool w.toNat) (handleIndex w.toNat)).drop 0))) ∧
    (∀ (w : Word) (s : State), s.hears 9 = true → s.handleOk w.toNat = true →
      (s.owner (handlePool w.toNat) (handleIndex w.toNat)).owners = 1 → (s.pool (handlePool w.toNat)).state = .enabled →
      s.headerOk (s.bufAddr (handlePool w.toNat) (handleIndex w.toNat)) = true →
      ∃ t, exec (.bpmRelease w) s = .next t ∧ (t.pool (handlePool w.toNat)).free = (s.pool (handlePool w.toNat)).free + 1 ∧
        (t.pool (handlePool w.toNat)).owned = (s.pool (handlePool w.toNat)).owned - 1 ∧
        (t.pool (handlePool w.toNat)).head = s.bufAddr (handlePool w.toNat) (handleIndex w.toNat)) ∧
    (∀ (p : Nat) (w : Word) (s : State), s.calm = true → s.handleOk w.toNat = true →
      (s.owner (handlePool w.toNat) (handleIndex w.toNat)).owners = 3 →
      (s.owner (handlePool w.toNat) (handleIndex w.toNat)).port = p →
      exec (.bufferRelease 1 p w) s = .next (s.setOwner (handlePool w.toNat) (handleIndex w.toNat)
        ((s.owner (handlePool w.toNat) (handleIndex w.toNat)).drop 1))) ∧
    (∀ (k a : Nat) (w : Word) (s : State), s.calm = true → k < 4 → s.handleOk w.toNat = false → s.severity 14 ≤ 1 →
      ∃ t, exec (.bufferRelease k a w) s = .next t ∧ t.mem = s.mem ∧ t.bpm.lastHandle = w.toNat ∧ t.bpm.lastKind = k ∧
        t.bpm.refusals = min (s.bpm.refusals + 1) 255) ∧
    (∀ (j a p : Nat) (b : Bool) (x : Job) (h : Option (List Byte)) (s : State), s.calm = true → s.job j = some x →
      x.live = true → x.request = some (b, a) → x.phase ≠ .parsing → (s.page 9).fence = false →
      s.chosenPool (if b = true then .byPool a else .bySize a) = some p → (s.pool p).state = .enabled → (s.pool p).head = 0 →
      x.tries < s.devField x.epoch 2 →
      exec (.poolAllocate j b a h) s = .next (s.raiseEvt 9 2)) ∧
    (∀ (j a p i : Nat) (b : Bool) (x : Job) (hd : List Byte) (h : Option (List Byte)) (s : State), s.calm = true →
      s.job j = some x → x.live = true → x.request = some (b, a) → x.forStage = false → x.phase ≠ .parsing →
      (s.page 9).fence = false → s.chosenPool (if b = true then .byPool a else .bySize a) = some p →
      (s.pool p).state = .enabled → (s.pool p).head ≠ 0 → (isDev (s.pool p).head = true ∨ s.hostReach = true) →
      s.readTagged (s.pool p).head 16 h = some hd → s.headerGood p (s.pool p).head hd = true →
      i = ((s.pool p).head - s.poolBase p) / 2 ^ s.poolLog2 p →
      ∃ t, exec (.poolAllocate j b a h) s = .next t ∧ (t.job j).map (fun y => (y.bufs, y.request)) =
          some (x.bufs ++ [mkHandle p (((s.owner p i).gen + 1) % 16) i], none) ∧ (t.pool p).head = leNat (hd.take 8) ∧
        (t.pool p).free = (s.pool p).free - 1 ∧ (t.pool p).owned = (s.pool p).owned + 1)

/-- CLQ_ENABLE, CLQ_DISABLE and CLQ_FLUSH (R425, R433, R434). ENABLE of a disabled queue whose descriptor passes its
checks enables it with PKT_DROPPED 0, and one that fails them is rejected with RANGE; DISABLE of an empty enabled
queue disables it and any other is refused; FLUSH of a queue being read stays pending, and of one that is not read
discards its complete packets at once and counts them, leaving at most one discontinuity; a disabled queue refuses it.
Nothing but the queue, the page and, for FLUSH, the events change. -/
def Obligations.CalderaQueueAdministration : Prop :=
  ∀ (q : Nat) (s : State), q < 4096 → s.hears 8 = true →
    ((s.clq q).enabled = false → (s.clq q).cfg.ok = true →
      exec (.clqEnable q) s = .next (s.toL0.modClq q fun c => { c with enabled := true, dropped := 0 })) ∧
    ((s.clq q).enabled = false → (s.clq q).cfg.ok = false → exec (.clqEnable q) s = .next (s.toL0.reject 8 1 0)) ∧
    ((s.clq q).enabled = true → exec (.clqEnable q) s = .next (s.toL0.accessBad 8)) ∧
    ((s.clq q).enabled = true → (s.clq q).cells = 0 → (s.clq q).opened = none → (s.clq q).flushPending = false →
      exec (.clqDisable q) s = .next (s.toL0.modClq q fun c => { c with enabled := false })) ∧
    (((s.clq q).enabled = false ∨ (s.clq q).cells ≠ 0 ∨ (s.clq q).opened.isSome = true ∨ (s.clq q).flushPending = true) →
      exec (.clqDisable q) s = .next (s.toL0.accessBad 8)) ∧
    ((s.clq q).enabled = true → (s.clq q).reading.isSome = true →
      exec (.clqFlush q) s = .next (s.toL0.modClq q fun c => { c with flushPending := true })) ∧
    ((s.clq q).enabled = true → (s.clq q).reading = none → (∀ p ∈ (s.clq q).complete, p.crust.typ ≠ .bufref) →
      ∃ t, exec (.clqFlush q) s = .next t ∧ t = { s.toL0 with qm := t.qm, pages := t.pages } ∧
        (t.clq q).flushPending = false ∧ (t.clq q).complete.length ≤ 1 ∧ (∀ p ∈ (t.clq q).complete, p.crust.typ = .discont) ∧
        (t.clq q).dropped = ((s.clq q).dropped + (s.clq q).complete.length) % 2 ^ 32) ∧
    ((s.clq q).enabled = false → exec (.clqFlush q) s = .next (s.toL0.accessBad 8))

/-- PACKET_OPEN, CELL_GRANT, PACKET_CLOSE, SILENT_ABANDON, DISCONTINUITY and CLQ_READ; FULL_WAIT_EXPIRY (R422, R426, R427,
R428, R429, R430, R431, R140). An open that the binding allows and the manager grants opens the packet with the bytes
that fit its first cell, and one that a depacketizer may not have is counted as dropped; a granted cell takes the next
bytes; a close whose bytes fit appends the packet behind the complete ones; an abandon leaves no open packet and
nothing to read; a discontinuity ends the open packet as DISCONT; a read of a whole packet returns its crust and
payload, a shorter one its first bytes, and a read of a queue with nothing to give returns the wafer. When a core's
open packet has waited its FULL_WAIT for a cell, the job that has it open fails with status 0x30 and detail 0x020000
and its packet ends as a discontinuity; a queue in which nobody waits for a cell does not change. The first part is
stated for a job that holds no core, buffer, channel or picture. -/
def Obligations.CalderaPacketRows : Prop :=
  ((∀ (w : Producer) (q : Nat) (c : Crust) (l : List Byte) (x : Option (Nat × Nat)) (s : State), s.calm = true → q < 4096 →
      (s.clq q).enabled = true → (s.clq q).cfg.producer = producerKind w → (s.clq q).opened = none → (s.clq q).waiting = [] →
      s.grants q = true → l.length ≤ 56 →
      ∃ t, exec (.packetOpen w q c l x) s = .next t ∧ t = { s with qm := t.qm, jobs := t.jobs } ∧
        t.clq q = { s.clq q with opened := some { who := w, pkt := { crust := c, payload := l, times := x } } }) ∧
    (∀ (f q : Nat) (c : Crust) (l : List Byte) (x : Option (Nat × Nat)) (s : State), s.calm = true → q < 4096 →
      (s.clq q).enabled = true → (s.clq q).cfg.producer = 2 → (s.clq q).opened = none → (s.clq q).waiting = [] →
      s.grants q = false → c.typ ≠ .discont →
      exec (.packetOpen (.depack f) q c l x) s = .next (s.countDrop q)) ∧
    (∀ (q : Nat) (o : OpenPkt) (s : State), s.calm = true → q < 4096 → (s.clq q).opened = some o → (s.clq q).waiting = [] →
      s.grants q = true → o.closing = false → o.left ≠ [] → o.left.length ≤ 64 →
      o.pkt.cells * 64 = 8 + o.pkt.payload.length →
      ∃ t, exec (.cellGrant q) s = .next t ∧ t = { s with qm := t.qm } ∧
        t.clq q = { s.clq q with opened := some { o with
          pkt := { o.pkt with payload := o.pkt.payload ++ o.left }, left := [], waitFrom := none } }) ∧
    (∀ (w : Producer) (q : Nat) (l : List Byte) (o : OpenPkt) (s : State), s.calm = true → q < 4096 →
      (s.clq q).opened = some o → o.who = w → o.left = [] → (s.clq q).waiting = [] → (s.clq q).cfg.consumer = 1 →
      o.pkt.crust.typ = .data → 8 + o.pkt.payload.length + l.length ≤ o.pkt.cells * 64 →
      ∃ t p, exec (.packetClose w q l) s = .next t ∧ (t.clq q).opened = none ∧ t.mem = s.mem ∧
        (t.clq q).complete = (s.clq q).complete ++ [p] ∧ p.payload = o.pkt.payload ++ l ∧ p.times = o.pkt.times ∧
        p.crust = (if producerKind w = 2 then { o.pkt.crust with tag := (s.depack q).count % 65536 } else o.pkt.crust)) ∧
    (∀ (w : Producer) (q : Nat) (o : OpenPkt) (s : State), s.calm = true → q < 4096 → (s.clq q).opened = some o → o.who = w →
      (s.clq q).waiting = [] →
      ∃ t, exec (.silentAbandon w q) s = .next t ∧ (t.clq q).opened = none ∧ (t.clq q).complete = (s.clq q).complete ∧
        (t.clq q).dropped = (if producerKind w = 2 ∨ producerKind w = 3 then ((s.clq q).dropped + 1) % 2 ^ 32
          else (s.clq q).dropped)) ∧
    (∀ (w : Producer) (q g : Nat) (o : OpenPkt) (s : State), s.calm = true → q < 4096 → (s.clq q).enabled = true →
      (s.clq q).cfg.producer = producerKind w → (s.clq q).cfg.consumer = 1 → (s.clq q).opened = some o → o.who = w →
      (s.clq q).waiting = [] →
      ∃ t p, exec (.discontinuity w q g) s = .next t ∧ (t.clq q).opened = none ∧
        (t.clq q).complete = (s.clq q).complete ++ [p] ∧ p.crust = { o.pkt.crust with typ := .discont } ∧ p.payload = []) ∧
    (∀ (q n : Nat) (p : Packet) (l : List Packet) (s : State), s.calm = true → q < 4096 → (s.clq q).enabled = true →
      (s.clq q).reading = none → (s.clq q).complete = p :: l → (s.clq q).flushPending = false → 0 < n →
      ∃ t, exec (.clqRead q n) s = .next t ∧ t.qm.item = (p.bytes q).take n ∧ (t.clq q).complete = l ∧
        (t.clq q).reading = (if n < (p.bytes q).length then some (p, n) else none)) ∧
    (∀ (q n : Nat) (s : State), s.calm = true → q < 4096 →
      ((s.clq q).enabled = false ∨ (s.clq q).reading = none ∧ (s.clq q).complete = []) →
      exec (.clqRead q n) s = .next { s with qm := { s.qm with item := waferBytes q } })) ∧
  ((∀ (q j : Nat) (o : OpenPkt) (x : Job) (s : State), s.calm = true → q < 4096 → (s.clq q).opened = some o →
      o.who = .core j → o.waitFrom.isSome = true → x.clq = q → s.lone j x = true → (s.clq q).cfg.consumer = 1 →
      ∃ t p, exec (.fullWaitExpiry q) s = .next t ∧ (t.clq q).opened = none ∧
        (t.clq q).complete = (s.clq q).complete ++ [p] ∧ p.crust.typ = .discont ∧
        (t.job j).map (fun y => (y.phase, y.status, y.detail)) = some (.retired, 0x30, 0x020000)) ∧
    (∀ (q : Nat) (s : State), s.calm = true → q < 4096 → (s.clq q).opened = none → (s.clq q).waiting = [] →
      exec (.fullWaitExpiry q) s = .next s))

/-- DMA_START, DMA_APPEND, DMA_STOP and DMA_TRIGGER (R451, R452, R454, R459, R464). On a host channel: START in IDLE,
ARMED or ENDED starts a run at START_HI:START_LO, and in RUNNING or HELD is refused; APPEND makes a held channel fetch
its descriptor again, and a channel that ended well behind END reread its last one; STOP ends an armed or held channel
with STOPPED and leaves an idle or ended one; TRIGGER starts a run of an armed channel and is counted while the
channel runs. Every one of them is refused on a channel that belongs to the pilot. -/
def Obligations.DmaCommandRows : Prop :=
  ∀ (c : Nat) (s : State), c < 256 → s.hears (chanPage c) = true →
    (s.chanHost c = true → s.takes (chanPage c) = true →
      ((s.chan c).state = .idle ∨ (s.chan c).state = .armed ∨ (s.chan c).state = .ended) →
      ∃ t, exec (.dmaStart c) s = .next t ∧ t = { s.toL0 with dma := t.dma, pcie := t.pcie, out := t.out } ∧
        t.chan c = { s.chan c with
          state := .running, error := 0, refetch := false, ahead := none, desc := none, endSeen := false, appendMark := false
          stopAsked := false, quiet := false, curDesc := s.startAddr c, fetching := some (s.startAddr c) } ∧
        (∀ e, e ≠ c → t.chan e = s.chan e) ∧ (isDev (s.startAddr c) = true → t = { s.toL0 with dma := t.dma })) ∧
    (s.chanHost c = true → ((s.chan c).state = .running ∨ (s.chan c).state = .held) →
      exec (.dmaStart c) s = .next (s.toL0.accessBad (chanPage c))) ∧
    (s.chanHost c = true → (s.chan c).state = .held →
      ∃ t, exec (.dmaAppend c) s = .next t ∧ t = { s.toL0 with dma := t.dma, pcie := t.pcie, out := t.out } ∧
        t.chan c = { s.chan c with state := .running, fetching := some (s.chan c).curDesc, refetch := false } ∧
        ∀ e, e ≠ c → t.chan e = s.chan e) ∧
    (s.chanHost c = true → (s.chan c).state = .ended → (s.chan c).endSeen = true → (s.chan c).error = 0 →
      ∃ t, exec (.dmaAppend c) s = .next t ∧ t = { s.toL0 with dma := t.dma, pcie := t.pcie, out := t.out } ∧
        t.chan c = { s.chan c with
          state := .running, fetching := some (s.chan c).curDesc, refetch := true, quiet := true, appendMark := false } ∧
        ∀ e, e ≠ c → t.chan e = s.chan e) ∧
    (s.chanHost c = true → (s.chan c).state = .running → (s.chan c).endSeen = true → (s.chan c).desc.isSome = true →
      exec (.dmaAppend c) s = .next (s.toL0.modChan c fun y => { y with appendMark := true })) ∧
    (s.chanHost c = true → ((s.chan c).state = .idle ∨ (s.chan c).state = .armed) → exec (.dmaAppend c) s = .next s.toL0) ∧
    (s.chanHost c = true → ((s.chan c).state = .armed ∨ (s.chan c).state = .held) →
      exec (.dmaStop c) s = .next (s.toL0.modChan c fun y => { y with
        state := .ended, error := 7, pendTrig := 0, fetching := none })) ∧
    (s.chanHost c = true → ((s.chan c).state = .idle ∨ (s.chan c).state = .ended) → exec (.dmaStop c) s = .next s.toL0) ∧
    (s.chanHost c = true → s.chanTrig c ≠ 0 → s.takes (chanPage c) = true → (s.chan c).state = .armed →
      ∃ t a, exec (.dmaTrigger c) s = .next t ∧ t = { s.toL0 with dma := t.dma, pcie := t.pcie, out := t.out } ∧
        (t.chan c).state = .running ∧ (t.chan c).error = 0 ∧ (t.chan c).fetching = some a ∧ (t.chan c).curDesc = a ∧
        a = (if s.chanStep c = true then ((s.chan c).stepNext).getD (s.chainHead c) else s.chainHead c) ∧
        ∀ e, e ≠ c → t.chan e = s.chan e) ∧
    (s.chanHost c = true → s.chanTrig c ≠ 0 → s.takes (chanPage c) = true → (s.chan c).state = .running →
      (s.chan c).pendTrig < 15 →
      exec (.dmaTrigger c) s = .next (s.toL0.modChan c fun y => { y with pendTrig := y.pendTrig + 1 })) ∧
    (s.chanHost c = false → exec (.dmaStart c) s = .next (s.toL0.accessBad (chanPage c)) ∧
      exec (.dmaAppend c) s = .next (s.toL0.accessBad (chanPage c)) ∧
      exec (.dmaStop c) s = .next (s.toL0.accessBad (chanPage c)) ∧
      exec (.dmaTrigger c) s = .next (s.toL0.accessBad (chanPage c)))

/-- DESCRIPTOR_FETCH, DMA_BEAT and DESCRIPTOR_DONE (R448, R453, R456, R460, R462). A fetched descriptor that passes its
checks and names no buffer, no queue and no hold begins: nothing read, nothing written, LENGTH bytes to move. A write
beat of the chosen channel stores the next bytes of its funnel buffer at the destination and nowhere else; a read beat
appends what it read; with no channel ready a beat changes nothing. The end of a last descriptor without events or
buffer writes STATUS only when WRITEBACK asks for it, counts the descriptor and leaves an untriggered channel ENDED
without error. -/
def Obligations.DmaEngineRows : Prop :=
  (∀ (c a : Nat) (l : List Byte) (h : Option (List Byte)) (s : State), s.calm = true → (s.chan c).state = .running →
      (s.chan c).fetching = some a → (s.chan c).refetch = false → (s.chan c).desc = none → (s.chan c).job = none →
      (isDev a = true ∨ s.hostReach = true) → s.readTagged a 64 h = some l → a % 64 = 0 →
      s.descFormat c (parseDesc a l) l = true → (parseDesc a l).op ≤ 1 → (parseDesc a l).holds = false →
      (parseDesc a l).handle = 0xFFFFFFFF →
      ∃ t, exec (.descriptorFetch c h) s = .next t ∧ t = { s with dma := t.dma } ∧ (t.chan c).state = .running ∧
        (t.chan c).desc = some (parseDesc a l) ∧ (t.chan c).fetching = none ∧ (t.chan c).rd = 0 ∧ (t.chan c).wr = 0 ∧
        (t.chan c).total = (parseDesc a l).len) ∧
    (∀ (p c n : Nat) (d : Desc) (h : Option (List Byte)) (s : State), s.calm = true → pageKind p = some .qdma →
      s.chooseChan p ((List.range 16).map fun g => 192 + 16 * pageInstance p + g) = some c → (s.chan c).desc = some d →
      d.op = 0 → (s.chan c).job = none → s.nextBeat c = .write n → isDev (d.dst + (s.chan c).wr) = true →
      s.writeTagOk (d.dst + (s.chan c).wr) n = true →
      ∃ t, exec (.dmaBeat p h) s = .next t ∧ (t.chan c).wr = (s.chan c).wr + n ∧ (t.chan c).buf = (s.chan c).buf.drop n ∧
        t.mem = memPutAll s.mem (devOf (d.dst + (s.chan c).wr)) ((s.chan c).buf.take n) ∧
        t = { s with dma := t.dma, pages := t.pages, mem := t.mem }) ∧
    (∀ (p c n : Nat) (d : Desc) (l : List Byte) (h : Option (List Byte)) (s : State), s.calm = true →
      pageKind p = some .cdma → s.chooseChan p ((List.range 4).map fun g => 4 * pageInstance p + g) = some c →
      (s.chan c).desc = some d → d.op = 0 → (s.chan c).job = none → s.nextBeat c = .read n →
      s.readTagged (d.src + (s.chan c).rd) n h = some l →
      ∃ t, exec (.dmaBeat p h) s = .next t ∧ (t.chan c).rd = (s.chan c).rd + n ∧ (t.chan c).buf = (s.chan c).buf ++ l ∧
        t = { s with dma := t.dma }) ∧
    (∀ (p : Nat) (h : Option (List Byte)) (s : State), s.calm = true → pageKind p = some .qdma →
      s.chooseChan p ((List.range 16).map fun g => 192 + 16 * pageInstance p + g) = none →
      exec (.dmaBeat p h) s = .next s) ∧
    (∀ (c : Nat) (d : Desc) (s : State), s.calm = true → c < 192 → (s.chan c).state = .running → (s.chan c).desc = some d →
      (s.chan c).wr = (s.chan c).total → d.op ≤ 1 → d.isEnd = true → d.half = false → d.full = false →
      (s.chan c).owns = false → (s.chan c).appendMark = false → (s.chan c).stopAsked = false →
      ∃ t, exec (.descriptorDone c) s = .next t ∧ (t.chan c).state = .ended ∧ (t.chan c).error = 0 ∧ (t.chan c).desc = none ∧
        (t.chan c).descCount = ((s.chan c).descCount + 1) % 256 ∧
        t.mem = (if d.wb = true then
          (s.writeTagged (d.addr + 48) (leBytes 4 (statusWord (s.chan c).truncated 0 (s.chan c).wr))).mem else s.mem))

/-- DCH_COMMAND_SLOT, AGE_PROMOTE, REGULATOR_REFILL, THROTTLE_END, REFRESH_WINDOW and REFRESH (R398, R400, R404, R406, R408,
R410, R411). While no commit is pending: with no permitted request whose bank is ready, a command slot only accepts what
arrived; a chosen request leaves the queue, and on an open row, without inline ECC, its one command is a read, a masked
write of whole words or a read-modify-write, and it takes its tokens; one whose row is not open activates it first; a
corrected link error counts and raises its event. A request older than AGE_LIMIT is promoted. A refill gives each
regulated port its bytes of 100 ns up to BURST and leaves an unregulated one. The end of a throttle clears the port's
bit and THROTTLE follows; a refresh window clears every activation count; a refresh notes its time and closes the
bank's row. Nothing else of the part changes. -/
def Obligations.DramSchedulingRows : Prop :=
  ∀ (k : Nat) (s : State), s.calm = true → k < 12 →
    (∀ a b e, (s.page (dchPage k)).groups = 0 → s.dchUp k = true → (s.dch k).sr = .active →
      (s.modDch k fun d => { d with reqs := d.reqs ++ a }).choose k b = none →
      exec (.dchCommandSlot k a { busy := b, ecc := e }) s = .next (s.modDch k fun d => { d with reqs := d.reqs ++ a, ops := [] })) ∧
    (∀ a b r, (s.page (dchPage k)).groups = 0 → s.dchUp k = true → (s.dch k).sr = .active → s.inlineEcc = false →
      (s.modDch k fun d => { d with reqs := d.reqs ++ a }).choose k b = some r → s.rowHit k r = true →
      ∃ t, exec (.dchCommandSlot k a { busy := b }) s = .next t ∧ t = { s with dchs := t.dchs } ∧
        (t.dch k).reqs = ((s.dch k).reqs ++ a).erase r ∧ (t.dch k).rows = (s.dch k).rows ∧
        (t.dch k).ops = [if r.write = false then .read r.addr
          else if DchReq_whole r = true then .maskedWrite r.addr else .readModifyWrite r.addr] ∧
        mgetD (t.dch k).tokens r.port 0 = (if 16 ≤ r.port ∨ s.portLimit k r.port = none then mgetD (s.dch k).tokens r.port 0
          else max (mgetD (s.dch k).tokens r.port 0 - 64) (-(s.portBurst k r.port : Int)))) ∧
    (∀ a b r, (s.page (dchPage k)).groups = 0 → s.dchUp k = true → (s.dch k).sr = .active → s.severity (99 + 8 * k) = 1 →
      (s.modDch k fun d => { d with reqs := d.reqs ++ a }).choose k b = some r → s.rowHit k r = false →
      ∃ t, exec (.dchCommandSlot k a { busy := b }) s = .next t ∧ (t.dch k).reqs = ((s.dch k).reqs ++ a).erase r ∧
        mget (t.dch k).rows (s.locate r.addr).bankKey = some (s.locate r.addr).row ∧
        (t.dch k).ops.head? = some (.activate (s.locate r.addr).bankKey (s.locate r.addr).row) ∧
        t.mem = s.mem ∧ t.jobs = s.jobs) ∧
    (∀ a b r, (s.page (dchPage k)).groups = 0 → s.dchUp k = true → (s.dch k).sr = .active → s.linkEcc = true →
      (s.modDch k fun d => { d with reqs := d.reqs ++ a }).choose k b = some r → s.rowHit k r = true →
      ∃ t, exec (.dchCommandSlot k a { busy := b, ecc := .link }) s = .next t ∧ (t.dch k).ce = min ((s.dch k).ce + 1) 65535 ∧
        (t.page (dchPage k)).evtPend.getLsbD 1 = true ∧ t.mem = s.mem) ∧
    exec (.agePromote k) s = .next (s.modDch k fun d => { d with
      reqs := d.reqs.map fun r =>
        if r.arrival + 10 * fld (s.active (dchPage k) 0x040) 15 0 < s.time.ns then { r with promoted := true } else r }) ∧
    ((s.page (dchPage k)).groups = 0 →
      ∃ t, exec (.regulatorRefill k) s = .next t ∧ t = { s with dchs := t.dchs } ∧ ∀ p, p < 16 →
      mgetD (t.dch k).tokens p 0 = (match s.portLimit k p with
        | none => mgetD (s.dch k).tokens p 0
        | some r => min (mgetD (s.dch k).tokens p 0 + 10 * (r : Int)) (s.portBurst k p : Int))) ∧
    (∀ p, p < 16 → ∃ t, exec (.throttleEnd k p) s = .next t ∧ t = { s with dchs := t.dchs, pages := t.pages } ∧
      t.dch k = { s.dch k with throttled := (t.dch k).throttled } ∧ bit (t.dch k).throttled p = false ∧
      (∀ r, r ≠ p → bit (t.dch k).throttled r = bit (s.dch k).throttled r) ∧
      (t.page (dchPage k)).evtRaw.getLsbD 4 = decide ((t.dch k).throttled ≠ 0)) ∧
    ((s.page (dchPage k)).groups = 0 →
      exec (.refreshWindow k) s = .next (s.modDch k fun d => { d with acts := [], window := d.window + 1 })) ∧
    (∀ b, b < 64 → ∃ t, exec (.refresh k b) s = .next t ∧ t = { s with dchs := t.dchs } ∧
      mgetD (t.dch k).refreshed b 0 = s.time.ns ∧ ∀ c, c ≠ b →
      mgetD (t.dch k).refreshed c 0 = mgetD (s.dch k).refreshed c 0 ∧
      mget (t.dch k).rows c = mget (s.dch k).rows c) ∧
    (∀ b t, b < 64 → msorted (s.dch k).rows = true → exec (.refresh k b) s = .next t → mget (t.dch k).rows b = none)

/-- SELF_REFRESH_ENTRY, SR_ENTER, SELF_REFRESH_EXIT, WCK_TRACKING, PATROL_SCRUB, CONTROLLER_FREEZE, FREEZE_ACK and
DCH_RESET; REGION_INIT_DONE (R399, R401, R412, R413, R415, R416, R418, R419, R396). Self-refresh is entered from ACTIVE over
ENTERING, by the idle timer or the command, and left over EXITING; a fenced or frozen controller refuses the command.
A good WCK run is noted with its time and temperature; a clean patrol step reads one line and counts it, and begins
again after the last; a correctable error found there, within 1 ms of the last report, is also counted and written back
at class C4 without a new fault. A request's uncorrectable error freezes a controller in service with cause FAULT (when its
severity is S3) and captures its port, class, command, syndrome and line under the next sequence number; the
acknowledgement of that number consumes the capture, any other is refused, and only then a reset leaves the controller
FENCED with no request. At the end of the zero fill of a remapped region every byte of its ranges reads 0, every other
byte of device memory reads as before, the quadrant no longer lists the region as under initialisation, and nothing
else changes. -/
def Obligations.DramStateRows : Prop :=
  (∀ (k : Nat) (s : State), k < 12 →
    (s.calm = true → (s.dch k).sr = .active → s.srReady k = true →
      (s.active (dchPage k) 0x050).getLsbD 31 = true ∨ (s.dch k).srAsked = true →
      exec (.selfRefreshEntry k) s = .next (s.modDch k fun x => { x with sr := .entering, srAsked := false, rows := [] })) ∧
    (s.calm = true → (s.dch k).sr = .entering → s.srReady k = true →
      ∃ t, exec (.selfRefreshEntry k) s = .next t ∧ t.dch k = { s.dch k with sr := .selfRefresh } ∧
        (t.page (dchPage k)).evtRaw.getLsbD 3 = true ∧ t = { s with dchs := t.dchs, pages := t.pages }) ∧
    (s.hears (dchPage k) = true → s.dchUp k = true → (s.dch k).sr = .active → s.srReady k = true →
      exec (.srEnter k 1) s = .next (s.toL0.modDch k fun x => { x with sr := .entering, rows := [] })) ∧
    (s.hears (dchPage k) = true → s.dchUp k = false → exec (.srEnter k 1) s = .next (s.toL0.accessBad (dchPage k))) ∧
    (s.calm = true → ((s.dch k).sr = .entering ∨ (s.dch k).sr = .exiting) →
      exec (.selfRefreshExit k none) s = .next (s.modDch k fun x => { x with sr := .active })) ∧
    (s.calm = true → (s.dch k).sr = .selfRefresh →
      ∃ t, exec (.selfRefreshExit k none) s = .next t ∧ t.dch k = { s.dch k with sr := .exiting } ∧
        (t.page (dchPage k)).evtRaw.getLsbD 3 = false ∧ t = { s with dchs := t.dchs, pages := t.pages }) ∧
    (∀ u j, s.calm = true → u < 2 → (s.dch k).sr ≠ .selfRefresh → exec (.wckTracking k u j true) s =
      .next (s.modDch k fun d => { d with tracked := mset d.tracked u (s.time.ns, j) })) ∧
    (s.calm = true → fld (s.active (dchPage k) 0x044) 7 0 ≠ 0 → s.dchUp k = true →
      exec (.patrolScrub k .clean) s = .next (s.modDch k fun d =>
        { d with scrub := if d.scrub + 1 < s.scrubLines then d.scrub + 1 else 0, ops := [.read (scrubAddr k d.scrub)] })) ∧
    (∀ e, s.calm = true → fld (s.active (dchPage k) 0x044) 7 0 ≠ 0 → s.dchUp k = true → s.inlineEcc = true →
      (s.dch k).lastCe = some e → s.time.ns < e + 1000000 →
      ∃ t, exec (.patrolScrub k .corrected) s = .next t ∧ (t.dch k).ce = min ((s.dch k).ce + 1) 65535 ∧
        (t.page (dchPage k)).evtPend.getLsbD 1 = true ∧ (t.dch k).ops = [.read (scrubAddr k (s.dch k).scrub)] ∧
        (t.dch k).reqs = (s.dch k).reqs ++ [
          { port := 16, cls := 4, src := 16, write := true, addr := scrubAddr k (s.dch k).scrub / 64 * 64,
            mask := BitVec.allOnes 64, promoted := false, arrival := s.time.ns }] ∧
        t.faults = s.faults ∧ t.mem = s.mem) ∧
    (∀ p c m y a w, s.calm = true → p < 17 → c < 8 → m < 6 → y < 256 → a < 2 ^ 38 → s.severity (97 + 8 * k) = 3 →
      (s.page (dchPage k)).state = .idle ∨ (s.page (dchPage k)).state = .running →
      ∃ t z, exec (.controllerFreeze k 1 p c m y a w []) s = .next t ∧ (t.page (dchPage k)).state = .frozen ∧
        (t.page (dchPage k)).cause = .fault ∧ (t.dch k).freeze = some z ∧ (t.dch k).reqs = [] ∧ z.port = p ∧ z.cls = c ∧
        z.command = m ∧ z.syndrome = y ∧ z.line = a / 64 ∧ z.seq = nextSeq (s.dch k).freezeSeq ∧ t.mem = s.mem) ∧
    (∀ (z : Freeze) (q : BitVec 8), s.hears (dchPage k) = true → (s.dch k).freeze = some z → z.seq = q.toNat →
      exec (.freezeAck k q) s = .next (s.toL0.modDch k fun d => { d with freeze := none })) ∧
    (∀ q : BitVec 8, s.hears (dchPage k) = true → (s.dch k).freeze.map Freeze.seq ≠ some q.toNat →
      exec (.freezeAck k q) s = .next (s.toL0.accessBad (dchPage k))) ∧
    (s.hears (dchPage k) = true → (s.page (dchPage k)).state = .frozen → (s.dch k).freeze = none →
      ∃ t, exec (.dchReset k 1) s = .next t ∧ (t.page (dchPage k)).state = .fenced ∧ (t.page (dchPage k)).cause = .fault ∧
        t.dch k = { s.dch k with reqs := [], freezeExtra := 0 } ∧ t = { s.toL0 with dchs := t.dchs, pages := t.pages }) ∧
    (s.hears (dchPage k) = true → (s.page (dchPage k)).state ≠ .frozen →
      exec (.dchReset k 1) s = .next (s.toL0.accessBad (dchPage k)))) ∧
  (∀ (q i : Nat) (s : State), s.calm = true →
    ∃ t, exec (.regionInitDone q i) s = .next t ∧ t = { s with mem := t.mem, quads := t.quads } ∧
      (mgetD t.quads q {}).init = (mgetD s.quads q {}).init.filter (fun r => r.1 != i) ∧
      (∀ r ∈ (mgetD s.quads q {}).init, r.1 = i → ∀ o, r.2.1 ≤ o → o < r.2.1 + r.2.2 → memByte t.mem (q * 2 ^ 35 + o) = 0) ∧
      (∀ a, (∀ r ∈ (mgetD s.quads q {}).init, r.1 = i → a < q * 2 ^ 35 + r.2.1 ∨ q * 2 ^ 35 + r.2.1 + r.2.2 ≤ a) →
        memByte t.mem a = memByte s.mem a))

/-- NOP, JMP, CALL, RET, LOOP and JEND; A scalar instruction whose guard bit is 0 (R242, R244, R268, R269). An instruction
whose guard bit is 1, on a sequencer that may run: NOP only goes on; JMP goes to its target and every loop whose body
does not hold the target ends; CALL pushes the address after it and goes to its target; RET goes to the newest return
address and drops it; LOOP with a count opens a loop over its body, and with count 0 goes behind the body; JEND with
no following job leaves the sequencer without a job, call or loop. Nothing outside the core changes. A scalar, control
or pilot instruction whose guard bit is 0 only goes on to the next instruction: it is counted as a step, the program
counter and the loops move as R268 says, and nothing else changes, not even for one that is not allowed on this
sequencer. -/
def Obligations.LenongControlRows : Prop :=
  (∀ (n q : Nat) (i : Ins) (s : State), s.guarded n q i = true →
    exec (.nop n q i) s = .next ((s.counted n q (.nop n q i)).advance n q) ∧
    (∃ t, exec (.jmp n q i) s = .next t ∧ t = { s with cores := t.cores } ∧ (t.seq n q).pc = jTarget i.x ∧
      (∀ r ∈ (t.seq n q).loops, r ∈ (s.seq n q).loops ∧ r.start ≤ jTarget i.x ∧ jTarget i.x ≤ r.last)) ∧
    ((s.seq n q).calls.length < 8 →
      ∃ t, exec (.call n q i) s = .next t ∧ t = { s with cores := t.cores } ∧ (t.seq n q).pc = jTarget i.x ∧
        (t.seq n q).calls = ((s.seq n q).pc + 1) % 32768 :: (s.seq n q).calls ∧ (t.seq n q).loops = (s.seq n q).loops) ∧
    (∀ r l, (s.seq n q).calls = r :: l →
      ∃ t, exec (.ret n q i) s = .next t ∧ t = { s with cores := t.cores } ∧ (t.seq n q).pc = r % 32768 ∧
        (t.seq n q).calls = l ∧ (t.seq n q).loops = (s.seq n q).loops) ∧
    (∀ c, c = (if jCnt i.x = true then jImm i.x else ((s.seq n q).sreg i.a).toNat) → (s.seq n q).pc < jTarget i.x →
      (c = 0 ∨ (s.seq n q).loops.length < 4) →
      ∃ t, exec (.loop n q i) s = .next t ∧ t = { s with cores := t.cores } ∧
        (t.seq n q).pc = (if c = 0 then jTarget i.x + 1 else (s.seq n q).pc + 1) % 32768 ∧
        (t.seq n q).loops = (if c = 0 then (s.seq n q).loops
          else { start := (s.seq n q).pc + 1, last := jTarget i.x, left := c } :: (s.seq n q).loops)) ∧
    (∀ j, (s.seq n q).job = some j → s.following n j = none →
      ∃ t, exec (.jend n q i) s = .next t ∧ t = { s with cores := t.cores } ∧ (t.seq n q).job = none ∧
        (t.seq n q).calls = [] ∧ (t.seq n q).loops = [])) ∧
  (∀ (n q : Nat) (i : Ins) (s : State), s.runs n q = true → ((s.seq n q).guard i).getLsbD 0 = false →
    ∀ c ∈ [Instr.sadd n q i, .sli n q i, .scmp n q i, .ssel n q i, .sld n q i, .sst n q i, .tld n q i, .pand n q i, .ppop n q i,
      .jmp n q i, .call n q i, .loop n q i, .jend n q i, .chsend n q i, .dmastart n q i, .evraise n q i, .bectlRun n q i],
      exec c s = .next ((s.counted n q c).advance n q))

/-- The sixteen scalar arithmetic opcodes (R234, R266, R242). With its guard bit 1 and C[3:0] = 0, each of SADD, SSUB,
SMUL, SMULH, SDIV, SAND, SOR, SXOR, SSHL, SSHR, SSRA, SMIN, SMAX, SADDS, SCLZ and SLI writes its function of sA and of
sB (IMM32 when C[4] = 1) to s(D), which discards a write when D is 0, and goes on; nothing else changes. -/
def Obligations.LenongScalarAluRows : Prop :=
  ∀ (n q : Nat) (i : Ins) (s : State), s.guarded n q i = true → i.c % 16 = 0 →
    ∀ p ∈ ([(.sadd n q i, fun a b => a + b), (.ssub n q i, fun a b => a - b), (.smul n q i, fun a b => a * b),
      (.smulh n q i, fun a b => BitVec.ofInt 32 (a.toInt * b.toInt / 2 ^ 32)),
      (.sdiv n q i, fun a b => if b = 0 then 0 else BitVec.ofInt 32 (a.toInt.tdiv b.toInt)),
      (.sand n q i, fun a b => a &&& b), (.sor n q i, fun a b => a ||| b), (.sxor n q i, fun a b => a ^^^ b),
      (.sshl n q i, fun a b => a <<< (b.toNat % 64)), (.sshr n q i, fun a b => a >>> (b.toNat % 64)),
      (.ssra n q i, fun a b => a.sshiftRight (b.toNat % 64)), (.smin n q i, fun a b => if b.slt a then b else a),
      (.smax n q i, fun a b => if a.slt b then b else a),
      (.sadds n q i, fun a b => BitVec.ofInt 32 (max (-(2 ^ 31)) (min (2 ^ 31 - 1) (a.toInt + b.toInt)))),
      (.sclz n q i, fun a _ => BitVec.ofNat 32 ((List.range 32).takeWhile fun k => !a.getLsbD (31 - k)).length),
      (.sli n q i, fun _ _ => i.x)] : List (Instr × (Word → Word → Word))),
      exec p.1 s = .next (((s.counted n q p.1).setS n q i.d (p.2 ((s.seq n q).sreg i.a) (s.opB n q i))).advance n q)

/-- SCMP, SSEL, SLD, SST, TLD, VEXT and VINS (R246, R267, R242, R258). With the guard bit 1: SCMP sets every bit of
p(D[2:0]) to its condition; SSEL takes sA or sB by bit 0 of p(C); an aligned SLD inside the memory reads its bytes,
lowest first, zero- or sign-extended; an aligned SST makes them read as sB and leaves every other byte; TLD reads a
word of the table store; VEXT reads one element; VINS writes one element, saturated, and leaves the others. Nothing
outside the sequencer changes. -/
def Obligations.LenongScalarOtherRows : Prop :=
  ∀ (n q : Nat) (i : Ins) (s : State), s.guarded n q i = true →
    (bit i.c 3 = false → exec (.scmp n q i) s = .next (((s.counted n q (.scmp n q i)).setP n q (i.d % 8)
      (if cond 32 (i.c % 8) ((s.seq n q).sreg i.a).toInt (s.opB n q i).toInt = true then BitVec.allOnes 256 else 0)).advance n q)) ∧
    (i.c < 8 → exec (.ssel n q i) s = .next (((s.counted n q (.ssel n q i)).setS n q i.d
      (if ((s.seq n q).preg i.c).getLsbD 0 = true then (s.seq n q).sreg i.a else (s.seq n q).sreg i.b)).advance n q)) ∧
    (∀ a, i.c < 7 → i.c ≠ 3 → s.localAddr n q i = some a →
      exec (.sld n q i) s = .next (((s.counted n q (.sld n q i)).setS n q i.d
        (if i.c < 4 then BitVec.ofNat 32 ((s.seq n q).load a (2 ^ (i.c % 4)))
          else BitVec.ofInt 32 (signed (8 * 2 ^ (i.c % 4)) ((s.seq n q).load a (2 ^ (i.c % 4)))))).advance n q)) ∧
    (∀ a, i.c < 7 → i.c ≠ 3 → s.localAddr n q i = some a →
      ∃ t, exec (.sst n q i) s = .next t ∧ t = { s with cores := t.cores } ∧
        (t.seq n q).load a (2 ^ (i.c % 4)) = ((s.seq n q).sreg i.b).toNat % 2 ^ (8 * 2 ^ (i.c % 4)) ∧
        ∀ b, (b < a ∨ a + 2 ^ (i.c % 4) ≤ b) → mgetD (t.seq n q).mem b 0 = mgetD (s.seq n q).mem b 0) ∧
    (((s.seq n q).sreg i.a + i.x).toNat < 32768 →
      exec (.tld n q i) s = .next (((s.counted n q (.tld n q i)).setS n q i.d
        (s.tabWord n ((s.seq n q).sreg i.a + i.x).toNat)).advance n q)) ∧
    (q < 5 → exec (.vext n q i) s = .next (((s.counted n q (.vext n q i)).setS n q i.d
      (BitVec.ofInt 32 ((s.seq n q).velem i.a (((s.seq n q).sreg i.b + i.x).toNat % 256)))).advance n q)) ∧
    (q < 5 → ∃ t, exec (.vins n q i) s = .next t ∧ t = { s with cores := t.cores } ∧
      ∀ e, e < 256 → (t.seq n q).velem i.d e =
        (if e = ((s.seq n q).sreg i.b + i.x).toNat % 256 then sat24 ((s.seq n q).sreg i.a).toInt
          else (s.seq n q).velem i.d e))

/-- PAND, POR, PXOR, PNOT, PANY, PALL and PPOP (R247, R234, R242). With the guard bit 1 and the upper bits of the
predicate fields 0, each of the six writes its function of p(A) and p(B) to p(D), which discards a write when D is 0;
PPOP writes the count of the bits set in p(A) to s(D). Nothing else changes. -/
def Obligations.LenongPredicateRows : Prop :=
  ∀ (n q : Nat) (i : Ins) (s : State), s.guarded n q i = true → i.a < 8 →
    (i.d < 8 → i.b < 8 → ∀ p ∈ ([(.pand n q i, fun a b => a &&& b), (.por n q i, fun a b => a ||| b), (.pxor n q i, fun a b => a ^^^ b),
      (.pnot n q i, fun a _ => ~~~a), (.pany n q i, fun a _ => if a = 0 then 0 else BitVec.allOnes 256),
      (.pall n q i, fun a _ => if a = BitVec.allOnes 256 then BitVec.allOnes 256 else 0)] :
        List (Instr × (BitVec 256 → BitVec 256 → BitVec 256))),
      exec p.1 s = .next (((s.counted n q p.1).setP n q i.d (p.2 ((s.seq n q).preg i.a) ((s.seq n q).preg i.b))).advance n q)) ∧
    exec (.ppop n q i) s = .next (((s.counted n q (.ppop n q i)).setS n q i.d
      (BitVec.ofNat 32 ((List.range 256).filter fun e => ((s.seq n q).preg i.a).getLsbD e).length)).advance n q)

/-- The nineteen element opcodes (R240, R241, R242, R245). On a stage sequencer, with fields that keep their rules, each
element opcode gives every element of v(D) whose guard bit is 1 its function of the operand elements and leaves the
others; with BLK = 1, no guard and every named block register owned, it does so for the top-left W by H elements of
b(D). It then goes on and nothing else changes. -/
def Obligations.LenongElementRows : Prop :=
  ∀ (n q : Nat) (i : Ins) (s : State), s.runs n q = true → q < 5 →
    ∀ p ∈ ([(.vadd n q i, { wrap := true, immb := true }, true, fun a b _ => narrow24 (xWrap i.x) (a + b)),
      (.vsub n q i, { wrap := true, immb := true }, true, fun a b _ => narrow24 (xWrap i.x) (a - b)),
      (.vabs n q i, { wrap := true, useB := false }, true, fun a _ _ => narrow24 (xWrap i.x) (a.natAbs : Int)),
      (.vmin n q i, { immb := true }, true, fun a b _ => min a b), (.vmax n q i, { immb := true }, true, fun a b _ => max a b),
      (.vand n q i, { immb := true }, true, fun a b _ => (BitVec.ofInt 24 a &&& BitVec.ofInt 24 b).toInt),
      (.vor n q i, { immb := true }, true, fun a b _ => (BitVec.ofInt 24 a ||| BitVec.ofInt 24 b).toInt),
      (.vxor n q i, { immb := true }, true, fun a b _ => (BitVec.ofInt 24 a ^^^ BitVec.ofInt 24 b).toInt),
      (.vshl n q i, { sh := true, wrap := true, useB := false }, true, fun a _ _ => narrow24 (xWrap i.x) (a * 2 ^ xSh i.x)),
      (.vshr n q i, { sh := true, imm := true, useB := false }, decide (fld i.x 15 0 ≤ 1),
        fun a _ _ => (a + if fld i.x 15 0 = 1 then 0 else rnd (xSh i.x)) / 2 ^ xSh i.x),
      (.vmov n q i, { useB := false }, true, fun a _ _ => a),
      (.vsplat n q i, { immb := true, useB := false, splat := true }, true, fun a b _ => if xImmb i.x = true then b else a),
      (.vmul n q i, { sh := true, wrap := true, immb := true }, true,
        fun a b _ => narrow24 (xWrap i.x) ((a * b + rnd (xSh i.x)) / 2 ^ xSh i.x)),
      (.vmad n q i, { sh := true, wrap := true, immb := true, useC := true }, true,
        fun a b c => narrow24 (xWrap i.x) ((a * b + rnd (xSh i.x)) / 2 ^ xSh i.x + c)),
      (.vavg n q i, { immb := true }, true, fun a b _ => (a + b + 1) / 2),
      (.vabsd n q i, { wrap := true, immb := true }, true, fun a b _ => narrow24 (xWrap i.x) ((a - b).natAbs : Int)),
      (.vclip n q i, { useC := true }, true, fun a b c => min (max a b) c),
      (.vclipd n q i, { imm := true, useB := false }, decide (1 ≤ fld i.x 15 0 ∧ fld i.x 15 0 ≤ 23),
        fun a _ _ => min (max a 0) (2 ^ fld i.x 15 0 - 1)),
      (.vsgn n q i, { wrap := true, immb := true }, true, fun a b _ => if 0 ≤ b then a else narrow24 (xWrap i.x) (-a))] :
        List (Instr × EUse × Bool × (Int → Int → Int → Int))),
      eOk i.x p.2.1 = true → p.2.2.1 = true →
      (xBlk i.x = false → exec p.1 s = .next (((s.counted n q p.1).setV n q i.d ((s.seq n q).guard i) fun e =>
        let v := s.eArgs n q i p.2.1 (e % 16) (e / 16)
        p.2.2.2 v.1 v.2.1 v.2.2).advance n q)) ∧
      (xBlk i.x = true → i.pg = 0 → i.pn = false → s.owned n q (eBlocks i p.2.1 true) = none →
        exec p.1 s = .next (((s.counted n q p.1).setB n i.d (eW i.x) (eH i.x) fun x y =>
          let v := s.eArgs n q i p.2.1 x y
          p.2.2.2 v.1 v.2.1 v.2.2).advance n q))

/-- VSEL, VCMP and VTRANS (R242, R245, R246). On a stage sequencer, for vector registers: VSEL gives each guarded element
a or b by the bit of p(C); VCMP gives each guarded bit of p(D) its condition combined with the old bit, and leaves an
unguarded one; VTRANS transposes. VSEL on owned block registers ends in a next state that changes no memory: which bit
of p(C) selects an element is open there (log entry 9). -/
def Obligations.LenongSelectRows : Prop :=
  ∀ (n q : Nat) (i : Ins) (s : State), s.runs n q = true → q < 5 →
    (xBlk i.x = false → eOk i.x { immb := true } = true → i.c < 8 →
      exec (.vsel n q i) s = .next (((s.counted n q (.vsel n q i)).setV n q i.d ((s.seq n q).guard i) fun e =>
        let v := s.eArgs n q i { immb := true } (e % 16) (e / 16)
        if ((s.seq n q).preg i.c).getLsbD e = true then v.1 else v.2.1).advance n q)) ∧
    (xBlk i.x = true → eOk i.x { immb := true } = true → i.c < 8 → i.pg = 0 → i.pn = false →
      s.owned n q (eBlocks i { immb := true } true) = none →
      ∃ t, exec (.vsel n q i) s = .next t ∧ t = { s with cores := t.cores, free := s.free + 4096 }) ∧
    (xBlk i.x = false → eOk i.x { sh := true, immb := true } = true → i.d < 8 → i.d ≠ 0 → xSh i.x < 32 →
      ∃ t, exec (.vcmp n q i) s = .next t ∧ t = { s with cores := t.cores } ∧ ∀ e, e < 256 →
        ((t.seq n q).preg i.d).getLsbD e =
          (if ((s.seq n q).guard i).getLsbD e = true then
            combine (xSh i.x / 8) (((s.seq n q).preg i.d).getLsbD e) (cond 24 (xSh i.x % 8)
              (s.eArgs n q i { sh := true, immb := true } (e % 16) (e / 16)).1
              (s.eArgs n q i { sh := true, immb := true } (e % 16) (e / 16)).2.1)
          else ((s.seq n q).preg i.d).getLsbD e)) ∧
    (xBlk i.x = false → eOk i.x { useB := false } = true →
      exec (.vtrans n q i) s = .next (((s.counted n q (.vtrans n q i)).setV n q i.d ((s.seq n q).guard i) fun e =>
        (s.seq n q).velem i.a (16 * (e % 16) + e / 16)).advance n q))

/-- BLD, BST, BGET, BPUT and BFILL (R216, R248, R249, R250, R251). On a stage sequencer without a guard, with the block
register owned: BLD makes each of the W by H elements of b(D) the sample of the surface at its place; BST stores the
clipped elements of b(A) that lie inside the plane of the own picture, one after another, and changes no other byte;
BGET and BPUT move 16 by 16 elements between a vector and a block register; BFILL fills the top-left elements with
sat(sA). -/
def Obligations.LenongBlockRows : Prop :=
  ∀ (n q : Nat) (i : Ins) (s : State), s.runs n q = true → q < 5 → i.pg = 0 → i.pn = false →
    (∀ l w h j x m f, kShape i.x = some (w, h) → mPlane i.x < 3 → mOx i.x = 0 → mOy i.x = 0 → fld i.x 11 0 = 0 →
      s.seqJob n q = some (j, x, m) → s.surf x m ((s.seq n q).sreg i.c) = some f → s.owned n q [i.d] = none →
      s.blockStop j x m f l (mPlane i.x) (s.sint n q i.a) (s.sint n q i.b) w h = none →
      ∃ t, exec (.bld n q i l) s = .next t ∧ t.mem = s.mem ∧ t.regs = s.regs ∧ ∀ dx dy, dx < w → dy < h →
        t.belem n i.d dx dy =
          (BitVec.ofNat 24 (s.surfSample x m f (mPlane i.x) l (s.sint n q i.a) (s.sint n q i.b) dx dy)).toInt) ∧
    (∀ w h j x m k, kShape i.x = some (w, h) → mPlane i.x < 3 → i.d = 0 → fld i.x 11 0 = 0 → s.seqJob n q = some (j, x, m) →
      s.surf x m ((s.seq n q).sreg i.c) = some (.slot k true) → s.owned n q [i.a] = none →
      (mPlane i.x ≠ 0 → ((s.stream m).slotGeom k).chroma ≠ 0) →
      s.surfBad x m (.slot k true) s.writeOk [] (mPlane i.x) (s.sint n q i.a) (s.sint n q i.b) w h = none →
      ∃ t, exec (.bst n q i) s = .next t ∧ t = { s with cores := t.cores, mem := t.mem } ∧
        t.mem = (List.range (w * h)).foldl (fun m' e =>
          let g := (s.stream m).slotGeom k
          let z := planeSize g.w g.h g.chroma (mPlane i.x)
          let px := s.sint n q i.a + (e % w : Nat)
          let py := s.sint n q i.b + (e / w : Nat)
          if 0 ≤ px ∧ px < z.1 ∧ 0 ≤ py ∧ py < z.2 ∧ s.concealedAt x (s.stream m) k (mPlane i.x) px.toNat py.toNat = false then
            g.store m' (min (mPlane i.x) 1) (if mPlane i.x = 0 then px.toNat else 2 * px.toNat + (mPlane i.x - 1)) py.toNat
              (max 0 (min (s.belem n i.a (e % w) (e / w)) (2 ^ g.depth - 1))).toNat
          else m') s.mem) ∧
    (getPutOk i.x = true → s.owned n q [i.a] = none →
      ∃ t, exec (.bget n q i) s = .next t ∧ t = { s with cores := t.cores } ∧ ∀ e, e < 256 →
        (t.seq n q).velem i.d e = s.belem n i.a (4 * mOx i.x + e % 16) (4 * mOy i.x + e / 16)) ∧
    (getPutOk i.x = true → s.owned n q [i.d] = none →
      ∃ t, exec (.bput n q i) s = .next t ∧ t = { s with cores := t.cores } ∧ ∀ x y, x < 64 → y < 64 →
        t.belem n i.d x y =
          (if 4 * mOx i.x ≤ x ∧ x < 4 * mOx i.x + 16 ∧ 4 * mOy i.x ≤ y ∧ y < 4 * mOy i.x + 16 then
            (s.seq n q).velem i.a (16 * (y - 4 * mOy i.x) + (x - 4 * mOx i.x)) else s.belem n i.d x y)) ∧
    (∀ w h, kShape i.x = some (w, h) → fld i.x 11 0 = 0 → s.owned n q [i.d] = none →
      ∃ t, exec (.bfill n q i) s = .next t ∧ t = { s with cores := t.cores } ∧ ∀ x y, x < 64 → y < 64 →
        t.belem n i.d x y = (if x < w ∧ y < h then sat24 ((s.seq n q).sreg i.a).toInt else s.belem n i.d x y))

/-- SBWAIT, ROWPOST, MFLD and MFST (R170, R252, R253, R254). On a stage sequencer with the guard bit 1: SBWAIT goes on
once its rows are there and otherwise waits for the scoreboard; a ROWPOST that raises nothing goes on; one that raises
the count of a frame on this core alone raises ROWS_DONE of the own slot to it; MFLD reads the four words of a slot's
motion field entry; MFST stores them at the own slot's entry and leaves every other byte. -/
def Obligations.LenongScoreboardRows : Prop :=
  ∀ (n q : Nat) (i : Ins) (s : State) (j m : Nat) (x : Job), s.guarded n q i = true → q < 5 → s.seqJob n q = some (j, x, m) →
    (∀ f, s.surf x m ((s.seq n q).sreg i.a) = some f → s.surfWait j x m f 0 (s.sint n q i.b) 1 = none →
      s.rowWordBad m f = none → exec (.sbwait n q i) s = .next ((s.counted n q (.sbwait n q i)).advance n q)) ∧
    (∀ f k, s.surf x m ((s.seq n q).sreg i.a) = some f → s.surfWait j x m f 0 (s.sint n q i.b) 1 = some k →
      exec (.sbwait n q i) s = .next ((s.counted n q (.sbwait n q i)).modSeq n q fun y => { y with
        wait := k, waiting := some (.sbwait n q i) })) ∧
    (∀ k, x.slot = some k → ((s.seq n q).sreg i.a).toNat ≤ ceilDiv ((s.stream m).slotGeom k).h 16 →
      ((s.seq n q).sreg i.a).toNat ≤ mgetD x.posts n 0 →
      exec (.rowpost n q i) s = .next ((s.counted n q (.rowpost n q i)).advance n q)) ∧
    (∀ k y, x.slot = some k → mget (s.stream m).slots k = some y → x.cores = [n] →
      ((s.seq n q).sreg i.a).toNat < ceilDiv ((s.stream m).slotGeom k).h 16 →
      mgetD x.posts n 0 < ((s.seq n q).sreg i.a).toNat → y.rowsDone ≤ ((s.seq n q).sreg i.a).toNat →
      ((s.stream m).encode = true ∨ ((s.seq n q).sreg i.a).toNat ≤ x.coveredRows y) →
      ∃ t, exec (.rowpost n q i) s = .next t ∧ t.mem = s.mem ∧
        (mget (t.stream m).slots k).map Slot.rowsDone = some ((s.seq n q).sreg i.a).toNat ∧
        (t.job j).map (fun z => mgetD z.posts n 0) = some ((s.seq n q).sreg i.a).toNat) ∧
    (∀ k own g, i.d ≤ 28 → i.d ≠ 0 → s.surf x m ((s.seq n q).sreg i.c) = some (.slot k own) →
      s.surfWait j x m (.slot k own) 0 (s.sint n q i.b) 0 = none → g = (s.stream m).slotGeom k →
      s.readOk (g.motionAddr (clampTo (s.sint n q i.a) g.w) (clampTo (s.sint n q i.b) g.h)) = true →
      ∃ t, exec (.mfld n q i) s = .next t ∧ t.mem = s.mem ∧ ∀ e, e < 4 → (t.seq n q).sreg (i.d + e) =
        BitVec.ofNat 32 (memNat s.mem
          (g.motionAddr (clampTo (s.sint n q i.a) g.w) (clampTo (s.sint n q i.b) g.h) + 4 * e) 4)) ∧
    (∀ k g a, i.d ≤ 28 → x.slot = some k → g = (s.stream m).slotGeom k →
      a = g.motionAddr (clampTo (s.sint n q i.a) g.w) (clampTo (s.sint n q i.b) g.h) → s.writeOk a = true →
      ∃ t, exec (.mfst n q i) s = .next t ∧ t = { s with cores := t.cores, mem := t.mem } ∧
        t.mem = memPutAll s.mem a ((List.range 4).flatMap fun e => leBytes 4 ((s.seq n q).sreg (i.d + e)).toNat) ∧
        ∀ b, (b < a ∨ a + 16 ≤ b) → memByte t.mem b = memByte s.mem b)

/-- BFIR, BFLY, BMAT, BQUANT, BQCAND, BDEQ and BLAST (R255, R256, R257, R258, R259, R260). On a stage sequencer without a
guard, with legal fields, tables inside the store and the block registers owned, each element of b(D) becomes: BFIR,
the rounded sum of taps times neighbours; BMAT, the rounded row of the matrix times its line, 0 beyond the outputs
kept; BQUANT, the level with its rounding offset; BDEQ, the scaled coefficient. BFLY ends in its butterfly of every
line, BQCAND in floor levels and remainders, and BLAST in the highest scan index whose element is not zero, or -1.
Elements outside the shape and everything outside the core stay. -/
def Obligations.LenongTransformRows : Prop :=
  ∀ (n q w h : Nat) (i : Ins) (s : State), s.runs n q = true → q < 5 → i.pg = 0 → i.pn = false → kShape i.x = some (w, h) →
    kSh i.x < 48 →
    (kMode i.x < 2 → 1 ≤ kNt i.x → (if kDir i.x = true then h else w) + kNt i.x + 1 ≤ 65 →
      kTab i.x + 4 * ((s.seq n q).sreg i.b).toNat + 4 ≤ 32768 → s.owned n q [i.d, i.a] = none →
      exec (.bfir n q i) s = .next (((s.counted n q (.bfir n q i)).setB n i.d w h fun x y =>
        narrow24 (bit (kMode i.x) 0) (((List.range (kNt i.x + 1)).foldl (fun a k =>
          a + s.tabInt n (kTab i.x + 4 * ((s.seq n q).sreg i.b).toNat) k *
            (if kDir i.x = true then s.belem n i.a x (y + k) else s.belem n i.a (x + k) y)) 0 + rnd (kSh i.x)) /
              2 ^ kSh i.x)).advance n q)) ∧
    (∀ z, z = (if kDir i.x = true then h else w) → kTab i.x + z / 2 * 3 ≤ 32768 → s.owned n q [i.d, i.a] = none →
      (∀ m, m < z / 2 → fld (s.tabWord n (kTab i.x + m)) 5 0 < z ∧ fld (s.tabWord n (kTab i.x + m)) 11 6 < z ∧
        (s.tabWord n (kTab i.x + m)).toNat < 4096) →
      exec (.bfly n q i) s = .next (((s.counted n q (.bfly n q i)).setLines n i.d w h (kDir i.x) fun l k =>
        s.butterfly n (kTab i.x) z (kSh i.x) (bit (kMode i.x) 0) (fun e => s.lineElem n i.a (kDir i.x) l e) k).advance n q)) ∧
    (∀ z, z = (if kDir i.x = true then h else w) → kNt i.x % 4 ≠ 3 → kTab i.x + z * z / 2 ≤ 32768 →
      s.owned n q [i.d, i.a] = none →
      exec (.bmat n q i) s = .next (((s.counted n q (.bmat n q i)).setLines n i.d w h (kDir i.x) fun l r =>
        if z / 2 ^ (kNt i.x % 4) ≤ r then 0
        else narrow24 (bit (kMode i.x) 0) (((List.range z).foldl (fun a k =>
          a + s.tabInt n (kTab i.x) (if bit (kMode i.x) 1 = true then z * k + r else z * r + k) *
            s.lineElem n i.a (kDir i.x) l k) 0 + rnd (kSh i.x)) / 2 ^ kSh i.x)).advance n q)) ∧
    (kMode i.x = 0 → kDir i.x = false → kNt i.x = 0 → kTab i.x + w * h / 2 ≤ 32768 → s.owned n q [i.d, i.a] = none →
      exec (.bquant n q i) s = .next (((s.counted n q (.bquant n q i)).setB n i.d w h fun x y =>
        (if s.belem n i.a x y < 0 then -1 else 1) * sat24 (((s.belem n i.a x y).natAbs *
          s.scaleAt n q i (y * w + x) + max (s.sint n q i.c) 0) / 2 ^ kSh i.x)).advance n q) ∧
      exec (.bdeq n q i) s = .next (((s.counted n q (.bdeq n q i)).setB n i.d w h fun x y =>
        sat24 ((s.belem n i.a x y * s.scaleAt n q i (y * w + x) + rnd (kSh i.x)) / 2 ^ kSh i.x)).advance n q) ∧
      (i.c ≠ i.d → i.c ≠ i.a → s.owned n q [i.d, i.a, i.c] = none →
        ∃ t, exec (.bqcand n q i) s = .next t ∧ t = { s with cores := t.cores } ∧ ∀ x y, x < w → y < h →
          t.belem n i.d x y = (if s.belem n i.a x y < 0 then -1 else 1) *
            sat24 ((s.belem n i.a x y).natAbs * s.scaleAt n q i (y * w + x) / 2 ^ kSh i.x) ∧
          t.belem n i.c x y = (if kSh i.x < 8 then 0 else
            (s.belem n i.a x y).natAbs * s.scaleAt n q i (y * w + x) / 2 ^ (kSh i.x - 8) % 256))) ∧
    (kTab i.x + w * h / 2 ≤ 32768 → s.owned n q [i.a] = none → i.d ≠ 0 →
      (∀ k, k < w * h → bits (s.tabHalf n (kTab i.x) k) 5 0 < w ∧ bits (s.tabHalf n (kTab i.x) k) 11 6 < h) →
      ∃ t, exec (.blast n q i) s = .next t ∧ t = { s with cores := t.cores } ∧
        ((∀ k, k < w * h →
            s.belem n i.a (bits (s.tabHalf n (kTab i.x) k) 5 0) (bits (s.tabHalf n (kTab i.x) k) 11 6) = 0) →
          (t.seq n q).sreg i.d = BitVec.allOnes 32) ∧
        (∀ k, k < w * h →
          s.belem n i.a (bits (s.tabHalf n (kTab i.x) k) 5 0) (bits (s.tabHalf n (kTab i.x) k) 11 6) ≠ 0 →
          (∀ m, k < m → m < w * h →
            s.belem n i.a (bits (s.tabHalf n (kTab i.x) m) 5 0) (bits (s.tabHalf n (kTab i.x) m) 11 6) = 0) →
          (t.seq n q).sreg i.d = BitVec.ofNat 32 k))

/-- RSAD, RSATD, RSSE, RSUM, RMIN and RARGMIN (R261, R262, R240). On a stage sequencer, for vector operands with fields
that keep their rules, each reduction writes its value over the W by H positions to s(D), and RARGMIN also the lowest
index of the minimum to s(D + 1); then it goes on, and nothing outside the sequencer changes. -/
def Obligations.LenongReductionRows : Prop :=
  ∀ (n q : Nat) (i : Ins) (s : State), s.runs n q = true → q < 5 → xBlk i.x = false → 1 ≤ i.d → i.d ≤ 30 →
    ∀ p ∈ ([(.rsad n q i, { immb := true }, true, fun v => sat32 (sumOver 16 16 fun x y => (((v x y).1 - (v x y).2.1).natAbs : Int))),
      (.rsatd n q i, { imm := true }, decide (fld i.x 15 0 ≤ 1), fun v => sat32 (satd (if fld i.x 15 0 = 1 then 8 else 4) 16 16
        fun x y => (v x y).1 - (v x y).2.1)),
      (.rsse n q i, { sh := true, immb := true }, true, fun v => min 2147483647 ((min (2 ^ 48 - 1)
        (sumOver 16 16 fun x y => sat24 ((v x y).1 - (v x y).2.1) ^ 2) + rnd (xSh i.x)) / 2 ^ xSh i.x)),
      (.rsum n q i, { sh := true, useB := false }, true, fun v => sat32 ((sumOver 16 16 (fun x y => (v x y).1) + rnd (xSh i.x)) /
        2 ^ xSh i.x)),
      (.rmin n q i, { useB := false }, true, fun v => (argMin 16 16 fun x y => (v x y).1).1),
      (.rargmin n q i, { useB := false }, true, fun v => (argMin 16 16 fun x y => (v x y).1).1)] :
        List (Instr × EUse × Bool × ((Nat → Nat → Int × Int × Int) → Int))),
      eOk i.x p.2.1 = true → p.2.2.1 = true →
      ∃ t, exec p.1 s = .next t ∧ t = { s with cores := t.cores } ∧
        (t.seq n q).sreg i.d = BitVec.ofInt 32 (p.2.2.2 (s.eArgs n q i p.2.1)) ∧
        (p.1 = .rargmin n q i → (t.seq n q).sreg (i.d + 1) =
          BitVec.ofNat 32 (argMin 16 16 fun x y => (s.eArgs n q i p.2.1 x y).1).2)

/-- MSWALK (R263, R264, R265). A motion search whose fields and descriptor keep their rules, with its block register owned
and its surface ready, writes a vector within HSR and VSR to s(D), its cost to s(D + 1) and the points evaluated, at
least 1 and at most POINTS, to s(D + 2), and changes no memory. -/
def Obligations.MotionSearchStaysInRange : Prop :=
  ∀ (n q w h j m : Nat) (i : Ins) (l : List Host.Cell) (x : Job) (f : Surf) (d : Walk) (s : State), s.runs n q = true → q < 5 →
    i.pg = 0 → i.pn = false → kShape i.x = some (w, h) → wMetric i.x < 3 → (wMetric i.x = 2 → 8 ≤ w ∧ 8 ≤ h) →
    fld i.x 23 12 = 0 → 1 ≤ i.d → i.d ≤ 29 → s.seqJob n q = some (j, x, m) → s.jobEncode j = true →
    s.surf x m ((s.seq n q).sreg i.b) = some f → (∃ k o, f = .slot k o) → ((s.seq n q).walk (wDesc i.x)).toOption = some d →
        s.owned n q [i.a] = none →
    (∀ v : Int × Int, v.1.natAbs ≤ d.hsr → v.2.natAbs ≤ d.vsr →
      s.blockStop j x m f l 0 ((d.bx : Int) + v.1) ((d.by' : Int) + v.2) w h = none) →
    ∃ (t : State) (r : WalkState), exec (.mswalk n q i l) s = .next t ∧ t.mem = s.mem ∧ (t.seq n q).sreg i.d = mvPack r.best ∧
      (t.seq n q).sreg (i.d + 1) = BitVec.ofNat 32 r.cost ∧ (t.seq n q).sreg (i.d + 2) = BitVec.ofNat 32 r.points ∧
      r.best.1.natAbs ≤ d.hsr ∧ r.best.2.natAbs ≤ d.vsr ∧ 1 ≤ r.points ∧ r.points ≤ d.points

/-- Program faults (R273, R235, R536, R540). A RET without a return address, a stage opcode in the pilot, a pilot opcode
in a stage, and a misplaced SLD stop the sequencer with their cause in PROG_FAULT, and at severity S2 the job of the
sequencer, which here holds nothing else, ends with ERR_UNIT_FAULT. -/
def Obligations.LenongProgramFaultEndsJob : Prop :=
  ∀ (n q j : Nat) (i : Ins) (x : Job) (s : State), s.guarded n q i = true → (s.seq n q).job = some j → s.bare j x = true →
    s.severity 64 = 2 → s.faults.stop = .normal → (s.page (corePage n)).state = .running →
    ∀ p ∈ ([(.ret n q i, 4, decide ((s.seq n q).calls = [])), (.vext n q i, 3, q == 5), (.dmastart n q i, 3, decide (q < 5)),
      (.sld n q i, 5, decide (i.c < 3) && (s.localAddr n q i).isNone)] : List (Instr × Nat × Bool)), p.2.2 = true →
      ∃ t, exec p.1 s = .next t ∧ t.mem = s.mem ∧
        (t.unit n).fault = { seq := q, cause := p.2.1, count := min ((s.unit n).fault.count + 1) 255, pc := (s.seq n q).pc } ∧
        (t.job j).map (fun y => (y.phase, y.status, y.detail)) = some (.retired, 0x40, faultDetail 64 2 x.attempts p.2.1)

/-- CHSEND, CHRECV and CHPOLL (R208, R238, R270). With the guard bit 1, C below 8 and a job: CHSEND by the sending end of
a channel that is neither full nor holding an earlier job's tokens puts its token last, and one that passes an owned
block register leaves it without an owner until it is received; CHRECV by the receiving end takes the oldest token
into s(D) and s(D + 1) and the block register with it; CHPOLL says whether either would go on. -/
def Obligations.LenongChannelRows : Prop :=
  ∀ (n q j : Nat) (i : Ins) (s : State), s.guarded n q i = true → (s.seq n q).job = some j → i.c < 8 →
    (∀ b, s.ends j i.c = some (q, b) → i.x.getLsbD 3 = false → s.chanFull n i.c = false → s.undrained n i.c j = false →
      ∃ t, exec (.chsend n q i) s = .next t ∧ t = { s with cores := t.cores } ∧
        t.chq n i.c = s.chq n i.c ++ [{ val := (s.seq n q).sreg i.b ++ (s.seq n q).sreg i.a, job := j }]) ∧
    (∀ b, s.ends j i.c = some (q, b) → i.x.getLsbD 3 = true → q < 5 → b < 5 → (s.blk n (fld i.x 2 0)).owner = q →
      s.chanFull n i.c = false → s.undrained n i.c j = false →
      ∃ t, exec (.chsend n q i) s = .next t ∧ (t.blk n (fld i.x 2 0)).owner = 7 ∧ t.chq n i.c = s.chq n i.c ++
        [{ val := (s.seq n q).sreg i.b ++ (s.seq n q).sreg i.a, job := j, pass := some (fld i.x 2 0) }]) ∧
    (∀ a k l, s.ends j i.c = some (a, q) → s.undrained n i.c j = false → s.chq n i.c = k :: l → 1 ≤ i.d → i.d ≤ 30 →
      ∃ t, exec (.chrecv n q i) s = .next t ∧ t = { s with cores := t.cores } ∧ t.chq n i.c = l ∧
        (t.seq n q).sreg i.d = k.val.setWidth 32 ∧ (t.seq n q).sreg (i.d + 1) = (k.val >>> 32).setWidth 32 ∧
        ∀ b, k.pass = some b → (t.blk n b).owner = q) ∧
    exec (.chpoll n q i) s = .next (((s.counted n q (.chpoll n q i)).setP n q (i.d % 8)
      (if (!s.undrained n i.c j && (if i.x.getLsbD 4 = true then !s.chanFull n i.c else !(s.chq n i.c).isEmpty)) = true
        then BitVec.allOnes 256 else 0)).advance n q)

/-- DMASTART, DMAWAIT, EVRAISE and JGET (R271, R272, R449). A pilot instruction with its guard bit 1 and a job: DMASTART
on a free pilot channel starts a run at the device address of sB and sA for the job, and waits while the channel is
busy; DMAWAIT writes the status word of a channel that has ended; EVRAISE at severity S1 writes a record of source
PERSONALITY_NOTE with its code; JGET writes a word of the entry, the attempt number or 0. -/
def Obligations.LenongPilotRows : Prop :=
  ∀ (n j c : Nat) (x : Job) (i : Ins) (s : State), s.guarded n 5 i = true → (s.seq n 5).job = some j → s.job j = some x →
    c = 4 * n + i.c % 4 →
    (s.chanHost c = false → s.chanFree c = true →
      exec (.dmastart n 5 i) s = .next ((((s.counted n 5 (.dmastart n 5 i)).chanRun c (2 ^ 63 + ((s.seq n 5).sreg i.b).toNat % 256 *
        2 ^ 32 + ((s.seq n 5).sreg i.a).toNat)).modChan c fun y => { y with job := some j }).advance n 5)) ∧
    (s.chanHost c = false → s.chanFree c = false →
      exec (.dmastart n 5 i) s = .next ((s.counted n 5 (.dmastart n 5 i)).modSeq n 5 fun y => { y with
        wait := .memory, waiting := some (.dmastart n 5 i) })) ∧
    (s.chanHost c = false → s.chanFree c = true →
      exec (.dmawait n 5 i) s = .next (((s.counted n 5 (.dmawait n 5 i)).setS n 5 i.d (BitVec.ofNat 32
        ((s.chan c).state.code * 2 ^ 28 + (s.chan c).error * 2 ^ 24 + (s.chan c).pendTrig * 2 ^ 20 +
          b2n (s.chan c).waitCell * 2 ^ 19 + (s.chan c).trigLost * 2 ^ 8 + (s.chan c).descCount % 256))).advance n 5)) ∧
    (∀ k l, s.severity 16 = 1 → s.faults.chooseSlot 1 = some (k, l) →
      ∃ t r, exec (.evraise n 5 i) s = .next t ∧ t.mem = s.mem ∧ t.jobs = s.jobs ∧ mget t.faults.slots k = some r ∧
        r.source = 16 ∧ r.inst = n ∧ r.info = ((s.seq n 5).sreg i.a).toNat % 65536 ∧ r.reaction = .logged) ∧
    exec (.jget n 5 i) s = .next (((s.counted n 5 (.jget n 5 i)).setS n 5 i.d (BitVec.ofNat 32
      (s.jobWord n j x (fld i.x 5 0)))).advance n 5) ∧
    (∀ w, w < 16 → s.jobWord n j x w = leNat ((x.body.drop (4 * w)).take 4)) ∧ s.jobWord n j x 21 = x.attempt ∧
    (∀ w, 22 ≤ w → s.jobWord n j x w = 0)

/-- RCRD, GRANT_READ, RCWR and FRAME_CLOSE (R333, R334, R336, R337, R340). For the frame set that the pilot's job holds:
RCRD writes the register it names; a read of GRANT with no QP map writes the next CTU's number and a QP that does not
pass the upper limit, and counts one grant, whichever of the two rows reads it; RCWR stores a writable register;
FRAME_CLOSE ends the count, moves DEBT by the frame's size less its target within its bounds, and sets OVERSHOOT when
the size exceeds the budget. Nothing outside the core changes. -/
def Obligations.RateControlRows : Prop :=
  ∀ (n j k : Nat) (i : Ins) (s : State), s.guarded n 5 i = true → (s.seq n 5).job = some j → s.ownSet n j = some k →
    i.c % 2 = 0 →
    (∀ w, fld i.x 7 0 ≠ 0x10 → (s.rcSet n k).read (fld i.x 7 0) = some w →
      exec (.rcrd n 5 i) s = .next (((s.counted n 5 (.rcrd n 5 i)).setS n 5 i.d w).advance n 5)) ∧
    (∀ h, ∀ c ∈ [Instr.rcrd n 5 i, .grantRead n 5 i h], fld i.x 7 0 = 0x10 → i.d ≠ 0 →
      (s.rcSet n k).grants < (s.rcSet n k).at 4 →
      (s.rcSet n k).grants + 1 ≤ (s.rcSet n k).latched.length + (s.rcSet n k).at 8 →
      (∀ e ∈ [0x0C, 0x0D, 0x0E, 0x0F], (s.rcSet n k).at e = 0) →
      ∃ t qp, exec c s = .next t ∧ t = { s with cores := t.cores } ∧ qp ≤ fld (mgetD (s.rcSet n k).regs 10 0) 15 8 ∧
        (t.rcSet n k).grants = (s.rcSet n k).grants + 1 ∧ (t.rcSet n k).qpSum = (s.rcSet n k).qpSum + qp ∧
        (t.seq n 5).sreg i.d = BitVec.ofNat 32 (b2n ((s.rcSet n k).floors (s.rcSet n k).grants) * 2 ^ 31 +
          (s.rcSet n k).grants % 65536 * 256 + qp)) ∧
    ((fld i.x 7 0 ≤ 0x0F ∨ fld i.x 7 0 = 0x16 ∨ fld i.x 7 0 = 0x18) →
      ∃ t, exec (.rcwr n 5 i) s = .next t ∧ t = { s with cores := t.cores } ∧
        mgetD (t.rcSet n k).regs (fld i.x 7 0) 0 = (s.seq n 5).sreg i.a ∧
        ∀ e, e ≠ fld i.x 7 0 → mgetD (t.rcSet n k).regs e 0 = mgetD (s.rcSet n k).regs e 0) ∧
    (∀ z, fld i.x 7 0 = 0x17 → s.closeAhead j = false → z = (s.rcSet n k).at 2 + s.frameCount n j k →
      ∃ t, exec (.frameClose n 5 i) s = .next t ∧ t = { s with cores := t.cores } ∧
        (t.rcSet n k).final = some (s.frameCount n j k) ∧
        mgetD (t.rcSet n k).regs 0x16 0 = BitVec.ofInt 32 (max (-2147483647) (min ((mgetD (s.rcSet n k).regs 0x16 0).toInt +
          (z : Int) - ((s.rcSet n k).at 1 : Int)) 2147483647)) ∧
        (t.rcSet n k).overshoot = ((s.rcSet n k).overshoot || decide ((s.rcSet n k).at 0 < z)))

/-- BECTL_CONFIG, CTX_INIT, CDF_INIT, CTX_MOVE, CDF_MOVE, READER_SET and WRITER_SET (R282, R298, R299, R303, R305, R310).
Once the engine has reached the job and runs no program: CONFIG stores a value in range, clamping a parse limit to the
job's device value; CTX_INIT gives each context of its range the word that its init word and QP make, CDF_INIT each
entry its half word, and both leave the others; a load of contexts or CDFs takes them from the slot's side data;
READER_SET of a device-side job takes the input bytes of its range; WRITER_SET chooses staging and insertion. -/
def Obligations.BectlSetupRows : Prop :=
  ∀ (n j : Nat) (x : Job) (i : Ins) (s : State), s.bectlReady n i j x = true →
    (barg i % 256 = 0 → s.bopA n i < 32768 → exec (.bectlConfig n 5 i) s = .next (((s.counted n 5 (.bectlConfig n 5 i)).modBin n
      fun b => { b with cfg := { b.cfg with descBase := s.bopA n i } }).advance n 5)) ∧
    (barg i % 256 = 3 → 1 ≤ s.bopA n i → s.bopA n i < 2 ^ 24 → exec (.bectlConfig n 5 i) s = .next (((s.counted n 5
      (.bectlConfig n 5 i)).modBin n fun b => { b with
        cfg := { b.cfg with maxBins := min (s.bopA n i) b.cfg.devBins } }).advance n 5)) ∧
    (∀ c f, c = bits (s.bopA n i) 29 16 → f = bits (s.bopA n i) 12 0 → barg i % 4 < 2 → 1 ≤ c → f + c ≤ 8192 →
      bits (s.bopB n i) 30 16 + c ≤ 32768 →
      ∃ t, exec (.ctxInit n 5 i) s = .next t ∧ t = { s with cores := t.cores } ∧
        (∀ k, k < c → mgetD (t.unit n).bin.ctx (f + k) 0 = BitVec.ofNat 32 (initCtx (barg i % 4) (bits (s.bopB n i) 7 0)
          (s.tabWord n (bits (s.bopB n i) 30 16 + k)).toNat)) ∧
        ∀ k, (k < f ∨ f + c ≤ k) → mgetD (t.unit n).bin.ctx k 0 = mgetD (s.unit n).bin.ctx k 0) ∧
    (∀ c f, c = bits (s.bopA n i) 27 16 → f = bits (s.bopA n i) 10 0 → bits (s.bopA n i) 31 28 = 0 →
      bits (s.bopA n i) 15 11 = 0 → 1 ≤ c → f + c ≤ 2048 → bits (s.bopB n i) 14 0 + 8 * c ≤ 32768 →
      ∃ t, exec (.cdfInit n 5 i) s = .next t ∧ t = { s with cores := t.cores } ∧
        (∀ k, k < 16 * c → mgetD (t.unit n).bin.cdf (16 * f + k) 0 = s.tabHalf n (bits (s.bopB n i) 14 0) k) ∧
        ∀ k, (k < 16 * f ∨ 16 * (f + c) ≤ k) → mgetD (t.unit n).bin.cdf k 0 = mgetD (s.unit n).bin.cdf k 0) ∧
    (∀ m k c f a, x.stream = some m → k = bits (barg i) 20 16 → bit (barg i) 23 = true → k < (s.stream m).poolSlots →
      (x.slot = some k ∨ (mgetD (s.stream m).slots k {}).entropyReady = true) → s.bopB n i % 4 = 0 →
      a = ((s.stream m).slotGeom k).sideAddr + s.bopB n i →
      (c = bits (s.bopA n i) 29 16 → f = bits (s.bopA n i) 12 0 → 1 ≤ c → f + c ≤ 8192 → s.bopB n i + 4 * c ≤ 65536 →
        ∃ t, exec (.ctxMove n 5 i) s = .next t ∧ t = { s with cores := t.cores } ∧ ∀ e, e < c →
          mgetD (t.unit n).bin.ctx (f + e) 0 = BitVec.ofNat 32 (memNat s.mem (a + 4 * e) 4)) ∧
      (c = bits (s.bopA n i) 27 16 → f = bits (s.bopA n i) 10 0 → 1 ≤ c → f + c ≤ 2048 → s.bopB n i + 32 * c ≤ 65536 →
        ∃ t, exec (.cdfMove n 5 i) s = .next t ∧ t = { s with cores := t.cores } ∧ ∀ e, e < 16 * c →
          mgetD (t.unit n).bin.cdf (16 * f + e) 0 = memNat s.mem (a + 2 * e) 2)) ∧
    (∀ h, (s.unit n).bin.encode = false → x.device = true → s.bopA n i ≤ s.bopB n i → s.bopB n i ≤ x.input.length →
      ∃ t, exec (.readerSet n 5 i h) s = .next t ∧ t = { s with cores := t.cores } ∧
        (t.unit n).bin.reader.input = (x.input.drop (s.bopA n i)).take (s.bopB n i - s.bopA n i) ∧
        (t.unit n).bin.reader.start = s.bopA n i ∧ (t.unit n).bin.reader.stop = s.bopB n i ∧
        (t.unit n).bin.reader.pos = 0 ∧ (t.unit n).bin.reader.consumed = (s.unit n).bin.reader.consumed) ∧
    exec (.writerSet n 5 i) s = .next (((s.counted n 5 (.writerSet n 5 i)).modBin n fun b => { b with
      writer := { b.writer with staging := bit (barg i) 1, insertion := bit (barg i) 0 } }).advance n 5)

/-- BECTL_RUN, BECTL_WAIT, BECTL_STATUS, BECTL_POS, FIND_SYNC, UNIT_CLOSE and JOB_END; BECTL rows while a program runs
(R295, R302, R303, R304). Once the engine has reached the job and runs no program: RUN starts one at sA with x1 = sB
and status 0; WAIT and STATUS write the program status; POS writes the bits consumed, or written; FIND_SYNC writes the
offset behind the next start code at or after the reader's position, or -1; UNIT_CLOSE changes nothing for an output
without a queue; JOB_END writes the bytes still held behind those already written to OUT_ADDR, counts them, and the
engine's part of the job ends. While a program runs, WAIT waits. While a program of the job runs, BECTL_WAIT and the
BECTL rows that need the engine idle wait with reason BUSY, and BECTL_STATUS and BECTL_POS go on; nothing but the
sequencer changes. -/
def Obligations.BectlRunRows : Prop :=
  (∀ (n j : Nat) (x : Job) (i : Ins) (s : State), s.bectlReady n i j x = true →
    (s.bopA n i < 32768 → exec (.bectlRun n 5 i) s = .next (((s.counted n 5 (.bectlRun n 5 i)).modBin n fun b =>
      { b with running := true, inError := false, status := 0, pc := s.bopA n i }.setX 1 (BitVec.ofNat 32 (s.bopB n i))).advance n 5)) ∧
    exec (.bectlWait n 5 i) s = .next (((s.counted n 5 (.bectlWait n 5 i)).setS n 5 i.d
      (BitVec.ofNat 32 (s.unit n).bin.status)).advance n 5) ∧
    exec (.bectlStatus n 5 i) s = .next (((s.counted n 5 (.bectlStatus n 5 i)).setS n 5 i.d
      (BitVec.ofNat 32 (s.unit n).bin.status)).advance n 5) ∧
    exec (.bectlPos n 5 i) s = .next (((s.counted n 5 (.bectlPos n 5 i)).setS n 5 i.d (BitVec.ofNat 32
      (if bit (barg i) 0 = true then 8 * (s.unit n).bin.writer.total + (s.unit n).bin.writer.bits.length
        else (s.unit n).bin.reader.consumed))).advance n 5) ∧
    (bit (barg i) 0 = false → exec (.findSync n 5 i) s = .next (((s.counted n 5 (.findSync n 5 i)).setS n 5 i.d
      (match nextStart (s.unit n).bin.reader.offset ((s.unit n).bin.reader.input.drop
          ((s.unit n).bin.reader.offset - (s.unit n).bin.reader.start)) with
        | some o => BitVec.ofNat 32 o
        | none => BitVec.allOnes 32)).advance n 5)) ∧
    (x.outMode < 2 → exec (.unitClose n 5 i) s = .next ((s.counted n 5 (.unitClose n 5 i)).advance n 5)) ∧
    (∀ l, l = (s.unit n).bin.writer.bytes → l ≠ [] → (s.unit n).bin.seg = none → (s.unit n).bin.writer.bits = [] →
      (s.unit n).bin.writer.staging = false → x.outMode = 0 → isDev (x.at 24 8) = true → x.stream = none →
      x.outBytes + l.length ≤ x.at 32 4 → s.writeTagOk (x.at 24 8 + x.outBytes) l.length = true →
      s.packetHeld j x = false → s.following n j = none →
      ∃ t, exec (.jobEnd n 5 i) s = .next t ∧ t.mem = (s.writeTagged (x.at 24 8 + x.outBytes) l).mem ∧
        (t.job j).map Job.outBytes = some (x.outBytes + l.length) ∧ (t.unit n).bin.job = none ∧ t.regs = s.regs)) ∧
  (∀ (n j : Nat) (x : Job) (i : Ins) (s : State), s.guarded n 5 i = true → (s.seq n 5).job = some j →
    (s.unit n).bin.job = some j → s.job j = some x → (s.unit n).bin.running = true →
    (∀ h, ∀ c ∈ [Instr.bectlWait n 5 i, .bectlConfig n 5 i, .ctxInit n 5 i, .cdfInit n 5 i, .ctxMove n 5 i, .cdfMove n 5 i,
      .readerSet n 5 i h, .writerSet n 5 i, .bectlRun n 5 i, .findSync n 5 i, .jobEnd n 5 i],
      exec c s = .next ((s.counted n 5 c).modSeq n 5 fun y => { y with wait := .busy, waiting := some c })) ∧
    exec (.bectlStatus n 5 i) s = .next (((s.counted n 5 (.bectlStatus n 5 i)).setS n 5 i.d
      (BitVec.ofNat 32 (s.unit n).bin.status)).advance n 5))

/-- LI, ADD, ANDI, SHL, SHR, MIN, BITS, CCOPY and CTU (R295, R296, R281). On an engine that runs, with the unused fields
0: each register word writes its function to x(D), x0 staying 0, and goes on; CCOPY gives IMM contexts from x(B) on
the words that stood from x(A) on before it; CTU closes a CTU of the job's frame set with the count and clears the
per-CTU counters. -/
def Obligations.SyntaxRegisterWords : Prop :=
  ∀ (n : Nat) (w : SynWord) (s : State), s.wordRuns n = true →
    (∀ p ∈ ([(.li n w, fields w true false false true, fun _ => BitVec.ofInt 32 (signed 15 w.imm)),
      (.synAdd n w, true, fun b => b.x_ w.a + b.x_ w.b + BitVec.ofInt 32 (signed 15 w.imm)),
      (.andi n w, fields w true true false true, fun b => b.x_ w.a &&& BitVec.ofNat 32 w.imm),
      (.synShl n w, fields w true true false true && decide (w.imm < 32), fun b => b.x_ w.a <<< w.imm),
      (.synShr n w, fields w true true false true && decide (w.imm < 32), fun b => (b.x_ w.a).sshiftRight w.imm),
      (.synMin n w, fields w true true true false, fun b => if (b.x_ w.b).slt (b.x_ w.a) then b.x_ w.b else b.x_ w.a),
      (.bits n w, fields w true false false false, fun b => BitVec.ofNat 32
        (if b.encode = true then 8 * b.writer.total + b.writer.bits.length else b.reader.consumed))] :
        List (Instr × Bool × (Bin → Word))), p.2.1 = true →
      exec p.1 s = .next (s.wordDone n p.1 (fun b => b.setX w.d (p.2.2 (s.unit n).bin)) none)) ∧
    (fields w false true true true = true → 1 ≤ w.imm → ((s.unit n).bin.x_ w.a).toNat + w.imm ≤ 8192 →
      ((s.unit n).bin.x_ w.b).toNat + w.imm ≤ 8192 →
      ∃ t, exec (.ccopy n w) s = .next t ∧ t = { s with cores := t.cores } ∧ ∀ k, k < w.imm →
        mgetD (t.unit n).bin.ctx (((s.unit n).bin.x_ w.b).toNat + k) 0 =
          mgetD (s.unit n).bin.ctx (((s.unit n).bin.x_ w.a).toNat + k) 0) ∧
    (∀ j k, fields w false false false false = true → (s.unit n).bin.job = some j → s.ownSet n j = some k →
      ∃ t, exec (.synCtu n w) s = .next t ∧ t = { s with cores := t.cores } ∧ (t.unit n).bin.ctuBins = 0 ∧
        (t.unit n).bin.ctuSteps = 0 ∧ (t.rcSet n k).latched = (s.rcSet n k).latched ++ [(s.capped (s.unit n).bin).counted])

/-- END, BZ, BNZ, BLT, JMP, CALL, RET, RECV and SEND (R296, R297, R208). On an engine that runs, with the unused fields 0:
END stops the program; each branch goes to IMM when its condition holds and on otherwise; CALL pushes the address
after it, and RET goes to the newest one and drops it; RECV by channel's receiver takes the oldest token into x(D) and
x(D + 1), and SEND by its sender puts x(A) and x(A + 1) behind the tokens it holds. -/
def Obligations.SyntaxControlWords : Prop :=
  ∀ (n : Nat) (w : SynWord) (s : State), s.wordRuns n = true →
    (fields w false false false false = true →
      exec (.synEnd n w) s = .next (s.wordDone n (.synEnd n w) (fun b => { b with running := false }) none)) ∧
    (∀ p ∈ ([(.bz n w, fields w false true false true, decide ((s.unit n).bin.x_ w.a = 0)),
      (.bnz n w, fields w false true false true, decide ((s.unit n).bin.x_ w.a ≠ 0)),
      (.blt n w, fields w false true true true, ((s.unit n).bin.x_ w.a).slt ((s.unit n).bin.x_ w.b)),
      (.synJmp n w, fields w false false false true, true)] : List (Instr × Bool × Bool)), p.2.1 = true →
      exec p.1 s = .next (s.wordDone n p.1 id (if p.2.2 = true then some w.imm else none))) ∧
    (fields w false false false true = true → (s.unit n).bin.calls.length < 8 →
      exec (.synCall n w) s = .next (s.wordDone n (.synCall n w)
        (fun b => { b with calls := (b.pc + 1) % 32768 :: b.calls }) (some w.imm))) ∧
    (∀ r l, fields w false false false false = true → (s.unit n).bin.calls = r :: l →
      exec (.synRet n w) s = .next (s.wordDone n (.synRet n w) (fun b => { b with calls := l }) (some r))) ∧
    (∀ j a k l, fields w true false false true = true → w.imm < 8 → 1 ≤ w.d → w.d ≤ 14 → (s.unit n).bin.job = some j →
      s.ends j w.imm = some (a, 6) → s.undrained n w.imm j = false → s.chq n w.imm = k :: l →
      ∃ t, exec (.synRecv n w) s = .next t ∧ t = { s with cores := t.cores } ∧ t.chq n w.imm = l ∧
        (t.unit n).bin.x_ w.d = k.val.setWidth 32 ∧ (t.unit n).bin.x_ (w.d + 1) = (k.val >>> 32).setWidth 32) ∧
    (∀ j b, fields w false true false true = true → w.imm < 8 → w.a ≤ 14 → (s.unit n).bin.job = some j →
      s.ends j w.imm = some (6, b) → s.undrained n w.imm j = false → s.chanFull n w.imm = false →
      ∃ t, exec (.synSend n w) s = .next t ∧ t = { s with cores := t.cores } ∧ t.chq n w.imm = s.chq n w.imm ++
        [{ val := (s.unit n).bin.x_ (w.a + 1) ++ (s.unit n).bin.x_ w.a, job := j }])

/-- EL, TERM, SEGOPEN, SEGCLOSE, RAW, ALIGN, NALB, NALE, OBUB, OBUE and OBUN (R278, R279, R287, R288, R289, R290, R291,
R300, R301). On an engine that runs: in an encode job EL of a FIXED descriptor outside a segment writes the value's
bits and counts one bin for each, RAW writes IMM bits, ALIGN pads to a byte, SEGOPEN opens a segment of its kernel
with its initial range, SEGCLOSE ends a flushed one, TERM of a 0 takes 2 off the range and renormalizes, NALB writes a
start code and header, NALE the stop bit and padding, OBUB a header and four bytes for the size, and OBUE the size
into them; in a decode job TERM reads 1 where the offset reaches the last two of the range, and OBUN of a header
without extension and size field gives the header and the bytes that remain. -/
def Obligations.SyntaxCodingWords : Prop :=
  ∀ (n : Nat) (w : SynWord) (s : State), s.wordRuns n = true →
    (∀ e v, (s.unit n).bin.encode = true → w.imm < 1023 → (s.unit n).bin.seg = none →
      (s.unit n).bin.cfg.descBase + 4 * w.imm + 4 ≤ 32768 → e = readElt (s.tab n) (s.unit n).bin.cfg.descBase w.imm →
      e.bin = 0 → e.sign = false → 1 ≤ e.p1 → e.p1 ≤ 32 → v = ((s.unit n).bin.x_ w.d).toNat → v < 2 ^ e.p1 →
      (e.maxValue = 0xFFFFFF ∨ v ≤ e.maxValue) →
      ∃ t, exec (.el n w) s = .next t ∧ t = { s with cores := t.cores } ∧
        (t.unit n).bin.writer = (s.capped (s.unit n).bin).writer.putBits (msbBits e.p1 v) ∧
        (t.unit n).bin.ctuBins = (s.unit n).bin.ctuBins + e.p1 ∧ (t.unit n).bin.pc = ((s.unit n).bin.pc + 1) % 32768) ∧
    (∀ c, fields w true true false false = true → (s.unit n).bin.seg = some c → c.kernel < 2 →
      (s.unit n).bin.encode = true → ((s.unit n).bin.x_ w.a).getLsbD 0 = false →
      exec (.term n w) s = .next (s.wordDone n (.term n w) (fun b => Bin.renormEnc 9 { b with
        ctuBins := b.ctuBins + 1, bins := b.bins % 2 ^ 32, seg := some { c with r := c.r - 2 } }) none)) ∧
    (∀ c, fields w true true false false = true → (s.unit n).bin.seg = some c → c.kernel < 2 →
      (s.unit n).bin.encode = false → (s.unit n).bin.ctuBins < (s.unit n).bin.cfg.maxBins → c.r - 2 ≤ c.off →
      exec (.term n w) s = .next (s.wordDone n (.term n w) (fun b => Bin.setX { b with
        ctuBins := b.ctuBins + 1, bins := b.bins % 2 ^ 32, seg := some { c with term := true } } w.d 1) none)) ∧
    (fields w false false false true = true → w.imm < 4 → (s.unit n).bin.seg = none → (s.unit n).bin.encode = true →
      exec (.segopen n w) s = .next (s.wordDone n (.segopen n w) (fun b => { b with
        ctuBins := 0, ctuSteps := 0,
        seg := some { kernel := w.imm, r := if w.imm = 2 then 32768 else if w.imm = 3 then 255 else 510 } }) none)) ∧
    (∀ c, fields w false false false false = true → (s.unit n).bin.seg = some c → c.kernel < 2 → c.term = true →
      exec (.segclose n w) s = .next (s.wordDone n (.segclose n w) (fun b => { b with seg := none }) none)) ∧
    (fields w true true false true = true → 1 ≤ w.imm → w.imm ≤ 32 → (s.unit n).bin.seg = none → (s.unit n).bin.encode = true →
      exec (.raw n w) s = .next (s.wordDone n (.raw n w) (fun b => { b with
        writer := b.writer.putBits (msbBits w.imm (b.x_ w.a).toNat) }) none)) ∧
    (fields w false false false false = true → (s.unit n).bin.encode = true →
      exec (.align n w) s = .next (s.wordDone n (.align n w) (fun b => { b with writer := b.writer.pad }) none)) ∧
    (fields w false true false true = true → w.imm = 1 → (s.unit n).bin.encode = true → (s.unit n).bin.writer.nal = false →
      exec (.nalb n w) s = .next (s.wordDone n (.nalb n w) (fun b => { b with
        writer := { b.writer.octets [0, 0, 0, 1, BitVec.ofNat 8 (b.x_ w.a).toNat] with nal := true, zeros := 0 } })
        none)) ∧
    (fields w false false false true = true → w.imm = 1 → (s.unit n).bin.encode = true → (s.unit n).bin.writer.nal = true →
      (s.unit n).bin.writer.insertion = false →
      exec (.nale n w) s = .next (s.wordDone n (.nale n w) (fun b => { b with
        writer := { (b.writer.putBits [true]).pad with nal := false, zeros := 0 } }) none)) ∧
    (fields w false true false true = true → w.imm = 0 → (s.unit n).bin.encode = true → (s.unit n).bin.writer.obu = none →
      exec (.obub n w) s = .next (s.wordDone n (.obub n w) (fun b => { b with
        writer := { (b.writer.octets [BitVec.ofNat 8 (b.x_ w.a).toNat]).octets [0, 0, 0, 0] with
          obu := some (b.writer.octets [BitVec.ofNat 8 (b.x_ w.a).toNat]).total } }) none)) ∧
    (∀ p, fields w false false false false = true → (s.unit n).bin.encode = true → (s.unit n).bin.writer.obu = some p →
      p + 4 ≤ (s.unit n).bin.writer.total → (s.unit n).bin.writer.total - (p + 4) < 2 ^ 28 →
      (s.unit n).bin.writer.bytes.length = (s.unit n).bin.writer.total →
      ∃ t, exec (.obue n w) s = .next t ∧ t = { s with cores := t.cores } ∧ (t.unit n).bin.writer.obu = none ∧
        ((t.unit n).bin.writer.bytes.drop p).take 4 = obuSize ((s.unit n).bin.writer.total - (p + 4)) ∧
        (t.unit n).bin.writer.bytes.take p = (s.unit n).bin.writer.bytes.take p) ∧
    (∀ k h o, fields w true false false false = true → 1 ≤ w.d → w.d ≤ 14 → (s.unit n).bin.encode = false →
      (s.unit n).bin.reader.pos = 8 * k → (s.unit n).bin.reader.bytes[k]? = some (h, o) → h.getLsbD 1 = false →
      h.getLsbD 2 = false → (s.unit n).bin.reader.bytes.length < 2 ^ 32 →
      ∃ t, exec (.obun n w) s = .next t ∧ t = { s with cores := t.cores } ∧ (t.unit n).bin.x_ w.d = h.setWidth 32 ∧
        (t.unit n).bin.x_ (w.d + 1) = BitVec.ofNat 32 ((s.unit n).bin.reader.bytes.length - (k + 1)) ∧
        (t.unit n).bin.reader.pos = 8 * k + 8)

/-- WQ_ARM, WQ_PAUSE, WQ_RESUME, WQ_KICK, WQ_DISCARD, WQ_DISARM and QUEUE_POLL (R110, R113, R114, R115, R116, R117, R124).
ARM of a disarmed queue whose entry passes its checks arms it with every index 0, and one that fails them is rejected;
PAUSE of an armed queue pauses it and keeps its window, raising the drained event when that is empty; RESUME of a
paused one arms it again; KICK, and a poll, of an idle armed queue read the owner word of slot SQ_NEXT, and do nothing to
one that is ready or being read, or while nothing is fetched; DISCARD of a paused or
halted queue flushes its one job that has not started and leaves started ones; DISARM of a paused or halted queue with
an empty window disarms it. A command that the present state does not allow changes nothing but ACCESS_BAD. Only the
Geyser, events and what is sent change, but for DISCARD. -/
def Obligations.WorkQueueCommands : Prop :=
  ∀ (q : Nat) (s : State), q < 1024 → s.hears 7 = true →
    ((s.wq q).state = .disarmed → s.armOk q = true →
      ∃ t, exec (.wqArm q) s = .next t ∧ t = { s.toL0 with geyser := t.geyser, pages := t.pages, out := t.out } ∧
        (t.wq q).state = .armed ∧ (t.wq q).cfg = (s.wq q).cfg ∧ (t.wq q).sqNext = 0 ∧ (t.wq q).cqProd = 0 ∧
        (t.wq q).cqHead = 0 ∧ (t.wq q).accepted = 0 ∧ (t.wq q).haltReason = 0) ∧
    ((s.wq q).state = .disarmed → s.armOk q = false → exec (.wqArm q) s = .next (s.toL0.reject 7 1 0)) ∧
    ((s.wq q).state = .armed →
      ∃ t, exec (.wqPause q) s = .next t ∧ t = { s.toL0 with geyser := t.geyser, pages := t.pages, out := t.out } ∧
        (t.wq q).state = .paused ∧ (t.wq q).window = (s.wq q).window ∧ (t.wq q).sqNext = (s.wq q).sqNext ∧
        ((s.wq q).window = [] → (t.page 7).evtPend.getLsbD 4 = true)) ∧
    ((s.wq q).state = .paused →
      ∃ t, exec (.wqResume q) s = .next t ∧ t = { s.toL0 with geyser := t.geyser, pages := t.pages, out := t.out } ∧
        (t.wq q).state = .armed ∧ (t.wq q).window = (s.wq q).window ∧ (t.wq q).sqNext = (s.wq q).sqNext) ∧
    ((s.wq q).state = .armed → (s.wq q).ready = false → (s.wq q).reading = false → s.fetches = true →
      ∀ c ∈ [Instr.wqKick q, .queuePoll q],
        ∃ t, exec c s = .next t ∧ t = { s with geyser := t.geyser, pcie := t.pcie, out := t.out } ∧
          t.wq q = { s.wq q with reading := true } ∧ (∀ p, p ≠ q → t.wq p = s.wq p) ∧
          (s.tagFree = true → (s.wq q).at 0 8 % 64 = 0 → 8 ≤ s.pcie.mrrs →
            t.out = .hostRead ((s.wq q).at 0 8 + 64 * ((s.wq q).sqNext % (s.wq q).sqSize) + 56) 8 false :: s.out)) ∧
    ((s.wq q).state = .armed → ((s.wq q).ready = true ∨ (s.wq q).reading = true ∨ s.fetches = false) →
      exec (.wqKick q) s = .next s.toL0 ∧ exec (.queuePoll q) s = .next s) ∧
    (((s.wq q).state = .paused ∨ (s.wq q).state = .halted) →
      (∀ j ∈ (s.wq q).window, ∀ x, s.job j = some x → x.began = true) → exec (.wqDiscard q) s = .next s.toL0) ∧
    (∀ j x, ((s.wq q).state = .paused ∨ (s.wq q).state = .halted) → (s.wq q).window = [j] → s.bare j x = true →
      x.began = false → s.holdsOpen j x.clq = false →
      ∃ t, exec (.wqDiscard q) s = .next t ∧ (t.wq q).window = [j] ∧ (t.wq q).state = (s.wq q).state ∧ t.mem = s.mem ∧
        (t.job j).map (fun y => (y.phase, y.status, y.detail, y.outBytes)) = some (.retired, 0x11, 0, 0)) ∧
    (((s.wq q).state = .paused ∨ (s.wq q).state = .halted) → (s.wq q).window = [] →
      ∃ t, exec (.wqDisarm q) s = .next t ∧ t = { s.toL0 with geyser := t.geyser, pages := t.pages, out := t.out } ∧
        (t.wq q).state = .disarmed ∧ (t.wq q).haltReason = 0) ∧
    ((s.wq q).state ≠ .disarmed → exec (.wqArm q) s = .next (s.toL0.accessBad 7)) ∧
    ((s.wq q).state ≠ .armed → exec (.wqPause q) s = .next (s.toL0.accessBad 7) ∧
      exec (.wqKick q) s = .next (s.toL0.accessBad 7)) ∧
    ((s.wq q).state ≠ .paused → exec (.wqResume q) s = .next (s.toL0.accessBad 7)) ∧
    ((s.wq q).state ≠ .paused → (s.wq q).state ≠ .halted → exec (.wqDiscard q) s = .next (s.toL0.accessBad 7)) ∧
    ((s.wq q).window ≠ [] → exec (.wqDisarm q) s = .next (s.toL0.accessBad 7))

/-- OWNER_WORD_READ, ENTRY_BODY_READ, GEYSER_VISIT, COMPLETION_WRITE and CQ_HEAD; ABORT_REQ and ABORT_ACK (R120, R121,
R125, R136, R142, R143, R144, R145, R88, R146, R147, R149). An owner word that is valid and names SQ_NEXT, with room
in the window, accepts the entry: a new job of the current epoch joins the window and SQ_NEXT and ACCEPTED move on; an
empty slot accepts nothing and ends the visit; any other sequence number halts the armed queue with reason 1. A body
read gives the oldest job that waits for it its 56 bytes, tag and stream. A visit reads the owner word of the queue
that the round robin picks. A completion writes the 32 bytes of the oldest job of the window at slot CQ_PROD of the
ring, EPOCH_CHANGED set where the epoch differs from that of the completion before, moves CQ_PROD on and marks the queue
when that fills the ring; with a full ring nothing is written. CQ_HEAD moves within the ring's span, and any other head
is refused. A request that the arbiter does not accept posts its outcome in the mailbox and aborts nothing; one for a
job whose entry is still being read waits for it (the model's choice, log entry 113); one for a job that holds nothing
ends that job with status ABORTED and posts outcome 1; with eight requests outstanding it is refused. A write of the present
SEQ consumes the result, and the next one that waits shows with the
next SEQ; any other ACK write is refused. -/
def Obligations.GeyserRows : Prop :=
  ((∀ (q : Nat) (v : DWord) (s : State), s.calm = true → q < 1024 → (s.wq q).reading = true → s.onLink (.owner q) = true →
      v.getLsbD 16 = true → v.toNat % 65536 = (s.wq q).sqNext → s.fetches = true → (s.wq q).window.length < 256 →
      ∃ t y, exec (.ownerWordRead q (some v)) s = .next t ∧
        t = { s with geyser := t.geyser, jobs := t.jobs, nextJob := s.nextJob + 16, pcie := t.pcie, out := t.out } ∧
        t.job s.nextJob = some y ∧ y.queue = q ∧ y.seq = (s.wq q).sqNext ∧ y.epoch = s.modes.current ∧ y.phase = .body ∧
        y.indirect = v.getLsbD 17 ∧ (t.wq q).window = (s.wq q).window ++ [s.nextJob] ∧
        (t.wq q).bodies = (s.wq q).bodies ++ [s.nextJob] ∧ (t.wq q).sqNext = ((s.wq q).sqNext + 1) % 65536 ∧
        (t.wq q).accepted = ((s.wq q).accepted + 1) % 2 ^ 32) ∧
    (∀ (q : Nat) (v : DWord) (s : State), s.calm = true → q < 1024 → (s.wq q).reading = true → s.onLink (.owner q) = true →
      (v.getLsbD 16 = false ∨ v.toNat % 65536 ≠ (s.wq q).sqNext ∧
        v.toNat % 65536 = ((s.wq q).sqNext + 65536 - (s.wq q).sqSize) % 65536) →
      ∃ t, exec (.ownerWordRead q (some v)) s = .next t ∧ t = { s with geyser := t.geyser, pcie := t.pcie, out := t.out } ∧
        (t.wq q).reading = false ∧ (t.wq q).ready = false ∧ (t.wq q).sqNext = (s.wq q).sqNext ∧
        t.geyser.visit = s.geyser.visit.filter (fun v => v.1 != q) ∧ (t.wq q).window = (s.wq q).window) ∧
    (∀ (q : Nat) (v : DWord) (s : State), s.calm = true → q < 1024 → (s.wq q).reading = true → s.onLink (.owner q) = true →
      (s.wq q).state = .armed → v.getLsbD 16 = true → v.toNat % 65536 ≠ (s.wq q).sqNext →
      v.toNat % 65536 ≠ ((s.wq q).sqNext + 65536 - (s.wq q).sqSize) % 65536 →
      ∃ t, exec (.ownerWordRead q (some v)) s = .next t ∧ t.jobs = s.jobs ∧ (t.wq q).state = .halted ∧
        (t.wq q).haltReason = 1 ∧ (t.wq q).reading = false ∧ (t.wq q).window = (s.wq q).window) ∧
    (∀ (q j : Nat) (r : List Nat) (l : List Byte) (x : Job) (s : State), s.calm = true → (s.wq q).bodies = j :: r →
      s.job j = some x → s.onLink (.body q j) = true → (∀ a ∈ s.geyser.asked, a.1 ≠ j) → x.phase = .body → l.length = 56 →
      l.head? ≠ some 0x02 →
      ∃ t y, exec (.entryBodyRead q (some l)) s = .next t ∧ t.job j = some y ∧ y.body = l ++ x.body.drop 56 ∧
        y.phase = .parsing ∧ y.tag = leNat ((l.drop 4).take 4) ∧
        y.stream = (if leNat ((l.drop 2).take 2) < 1024 then some (leNat ((l.drop 2).take 2)) else none) ∧
        (t.wq q).bodies = r ∧ (t.wq q).window = (s.wq q).window ∧ t.streams = s.streams ∧ t.mem = s.mem) ∧
    (∀ (q : Nat) (s : State), s.calm = true → s.geyser.visit = none → s.fetches = true → s.pickVisit = some (q, none) →
      ∃ t, exec .geyserVisit s = .next t ∧ t = { s with geyser := t.geyser, pcie := t.pcie, out := t.out } ∧
        (t.wq q).reading = true ∧ t.geyser.visit = some (q, 0, none) ∧ t.geyser.lastVisit = placeOf (q, none) ∧
        t.geyser.sources = s.geyser.sources) ∧
    (∀ (q j : Nat) (w : List Nat) (y : Job) (s : State), s.calm = true → (s.wq q).window = j :: w → s.job j = some y →
      y.live = false → (s.wq q).bodies.contains j = false → s.hostReach = true → s.completionsEnd = false →
      (s.wq q).full = false → (s.wq q).at 8 8 % 32 = 0 → 32 ≤ s.pcie.mps →
      ∃ t, exec (.completionWrite q) s = .next t ∧ (t.wq q).window = w ∧ (t.wq q).cqProd = ((s.wq q).cqProd + 1) % 65536 ∧
        (t.wq q).cqFull = (t.wq q).full ∧ (t.wq q).lastEpoch = some y.epoch ∧
        Out.hostWrite ((s.wq q).at 8 8 + 32 * ((s.wq q).cqProd % (s.wq q).cqSize))
          (completionBytes y (s.wq q).cqProd ((s.wq q).at 25 1)
            (if (∃ e, (s.wq q).lastEpoch = some e ∧ e ≠ y.epoch) ∧ bit y.flags 6 = false then y.flags + 64 else y.flags))
          false ∈ t.out ∧
        t.jobs = (s.children j).foldl mdel (mdel s.jobs j) ∧ t.mem = s.mem ∧ t.streams = s.streams) ∧
    (∀ (q : Nat) (s : State), s.calm = true → (s.wq q).full = true → exec (.completionWrite q) s = .next s) ∧
    (∀ (v : Word) (s : State), s.hears 7 = true → fld v 31 26 = 0 →
      ((fld v 15 0 + 65536 - (s.wq (fld v 25 16)).cqHead) % 65536 ≤
          ((s.wq (fld v 25 16)).cqProd + 65536 - (s.wq (fld v 25 16)).cqHead) % 65536 →
        ∃ t, exec (.cqHead v) s = .next t ∧ t = { s.toL0 with geyser := t.geyser, pages := t.pages } ∧
          (t.wq (fld v 25 16)).cqHead = fld v 15 0 ∧ (t.wq (fld v 25 16)).cqProd = (s.wq (fld v 25 16)).cqProd ∧
          (t.wq (fld v 25 16)).cqFull = (t.wq (fld v 25 16)).full) ∧
      (((s.wq (fld v 25 16)).cqProd + 65536 - (s.wq (fld v 25 16)).cqHead) % 65536 <
          (fld v 15 0 + 65536 - (s.wq (fld v 25 16)).cqHead) % 65536 →
        exec (.cqHead v) s = .next (s.toL0.accessBad 7)))) ∧
  ((∀ (v : Word) (n : Nat) (s : State), s.hears 7 = true → fld v 31 26 = 0 → s.geyser.requests < 8 →
      s.arbiter (fld v 25 16) (fld v 15 0) = (n, none) →
      exec (.abortReq v) s = .next (s.toL0.setAbort (s.geyser.abort.post n (fld v 25 0)))) ∧
    (∀ (v : Word) (j : Nat) (s : State), s.hears 7 = true → fld v 31 26 = 0 → s.geyser.requests < 8 →
      s.arbiter (fld v 25 16) (fld v 15 0) = (1, some j) → (s.wq (fld v 25 16)).bodies.contains j = true →
      ∃ t, exec (.abortReq v) s = .next t ∧ t = { s.toL0 with geyser := t.geyser } ∧
        t.geyser = { s.geyser with asked := s.geyser.asked ++ [(j, fld v 25 16, fld v 15 0)] }) ∧
    (∀ (v : Word) (j : Nat) (x : Job) (s : State), s.hears 7 = true → fld v 31 26 = 0 → s.geyser.requests < 8 →
      s.arbiter (fld v 25 16) (fld v 15 0) = (1, some j) → (s.wq (fld v 25 16)).bodies.contains j = false →
      s.bare j x = true → s.holdsOpen j x.clq = false →
      ∃ t, exec (.abortReq v) s = .next t ∧ t.geyser.abort = s.geyser.abort.post 1 (fld v 25 0) ∧ t.mem = s.mem ∧
        (t.job j).map (fun y => (y.phase, y.status, y.detail, y.outBytes)) = some (.retired, 0x10, 0, 0)) ∧
    (∀ (v : Word) (s : State), s.hears 7 = true → fld v 31 26 = 0 → 8 ≤ s.geyser.requests →
        exec (.abortReq v) s = .next (s.toL0.accessBad 7)) ∧
    (∀ (a : BitVec 8) (o i : Nat) (s : State), s.hears 7 = true → s.geyser.abort.current = some (a.toNat, o, i) →
      ∃ t, exec (.abortAck a) s = .next t ∧ t = { s.toL0 with geyser := t.geyser, pages := t.pages } ∧
        t.geyser.queues = s.geyser.queues ∧
        (s.geyser.abort.waiting = [] → t.geyser.abort = { s.geyser.abort with current := none }) ∧
        (∀ p r, s.geyser.abort.waiting = p :: r → t.geyser.abort.waiting = r ∧
          t.geyser.abort.current = some (nextSeq s.geyser.abort.seq, p.1, p.2))) ∧
    (∀ (a : BitVec 8) (s : State), s.hears 7 = true → s.geyser.abort.current.map Prod.fst ≠ some a.toNat →
      exec (.abortAck a) s = .next (s.toL0.accessBad 7)))

/-- JOB_PARSE, JOB_PLACE, JOB_ENTER_CORE, POOL_RETRY and JOB_RETIRE (R35, R127, R138, R182, R185, R213, R442). A parsed
entry that passes every check waits for its stream's turn, or is ready without a stream; one that fails a check and
holds nothing completes with ERR_DESCRIPTOR and the check's reason. A ready job without a stream is placed on the core
that the search gives and joins its side queue. The first job that waits on a powered core with room enters it and
runs. A retry that is granted a buffer adds it and ends the request; with the pool empty it counts, and the last one that
POOL_RETRIES allows ends a job that holds nothing with OUT_OVERFLOW and detail 0x010000 plus the pool. A running decode
unit or encode frame whose parts have all ended retires with OK, and its stream counts the frame. -/
def Obligations.JobFlowRows : Prop :=
  (∀ (j : Nat) (a b : Option (List Byte)) (x : Job) (s : State), s.calm = true → s.job j = some x → x.phase = .parsing →
      x.device = false → x.indirect = false → s.entryReason x = none → x.opcode ≠ 0x11 → (x.opcode = 0x10 → x.at 48 8 = 0) →
      ∃ t, exec (.jobParse j a b) s = .next t ∧ t = { s with jobs := t.jobs, placer := t.placer } ∧
        (t.job j).map Job.phase = some (if x.stream.isSome = true then .waiting else .ready)) ∧
    (∀ (j r : Nat) (a b : Option (List Byte)) (x : Job) (s : State), s.calm = true → s.bare j x = true → x.phase = .parsing →
      x.device = false → s.entryReason x = some r → s.holdsOpen j x.clq = false →
      ∃ t, exec (.jobParse j a b) s = .next t ∧ t.mem = s.mem ∧
        (t.job j).map (fun y => (y.phase, y.status, y.detail)) = some (.retired, 0x50, r)) ∧
    (∀ (j c : Nat) (p : PlacePlan) (x : Job) (w : Choice) (s : State), s.calm = true → s.takes 5 = true → s.job j = some x →
      (s.page 5).groups = 0 → x.stream = none → s.placeReady j x = true → s.oldestReady j x = true → s.findOne x = .cores w →
      w.cores = [c] → x.bufs = [] → x.opcode ≠ 0x21 →
      ∃ t, exec (.jobPlace j p) s = .next t ∧ (t.core c).side = (s.core c).side ++ [j] ∧
        (t.job j).map (fun y => (y.phase, y.cores, y.core)) = some (.placed, [c], c) ∧ t.mem = s.mem ∧ t.streams = s.streams) ∧
    (∀ (j n m : Nat) (l : List Nat) (x : Job) (s : State), s.calm = true → n < 48 → s.job j = some x → x.stream = some m →
      (s.core n).queue = j :: l → s.corePowered n = true → s.roomInCore n = true → s.startTurn j m = true →
      ∃ t, exec (.jobEnterCore j n) s = .next t ∧ (t.core n).inside = (s.core n).inside ++ [j] ∧ (t.core n).queue = l ∧
        (t.core n).lastStream = some m ∧ (t.job j).map (fun y => (y.phase, y.started)) = some (.running, true) ∧
        t.mem = s.mem) ∧
    (∀ (j a p i : Nat) (b : Bool) (x : Job) (hd : List Byte) (h : Option (List Byte)) (s : State), s.calm = true →
      s.job j = some x → x.live = true → x.request = some (b, a) → x.forStage = false → (s.page 9).fence = false →
      s.chosenPool (if b = true then .byPool a else .bySize a) = some p → (s.pool p).state = .enabled → (s.pool p).head ≠ 0 →
      (isDev (s.pool p).head = true ∨ s.hostReach = true) → s.readTagged (s.pool p).head 16 h = some hd →
      s.headerGood p (s.pool p).head hd = true → i = ((s.pool p).head - s.poolBase p) / 2 ^ s.poolLog2 p →
      ∃ t, exec (.poolRetry j h) s = .next t ∧ (t.job j).map (fun y => (y.bufs, y.request, y.tries)) =
          some (x.bufs ++ [mkHandle p (((s.owner p i).gen + 1) % 16) i], none, 0) ∧ (t.pool p).head = leNat (hd.take 8) ∧
        (t.pool p).free = (s.pool p).free - 1 ∧ (t.pool p).owned = (s.pool p).owned + 1) ∧
    (∀ (j a p : Nat) (b : Bool) (x : Job) (h : Option (List Byte)) (s : State), s.calm = true → s.job j = some x →
      x.live = true → x.request = some (b, a) → (s.page 9).fence = false →
      s.chosenPool (if b = true then .byPool a else .bySize a) = some p → (s.pool p).state = .enabled → (s.pool p).head = 0 →
      (x.tries + 1 < s.devField x.epoch 2 →
        exec (.poolRetry j h) s = .next ((s.modJob j fun y => { y with tries := y.tries + 1 }).raiseEvt 9 2)) ∧
      (s.devField x.epoch 2 ≤ x.tries + 1 → s.bare j x = true → s.holdsOpen j x.clq = false →
        ∃ t, exec (.poolRetry j h) s = .next t ∧ t.mem = s.mem ∧
          (t.job j).map (fun y => (y.phase, y.status, y.detail)) = some (.retired, 0x30, 0x010000 + p))) ∧
    (∀ (j n : Nat) (x : Job) (s : State), s.calm = true → s.job j = some x → x.stream = some n → x.phase = .running →
      x.reported = true → s.partsEnded j x n = true →
      (x.opcode = 0x20 → ∃ t, exec (.jobRetire j) s = .next t ∧ (x.bufs = [] → x.staging = [] → t.mem = s.mem) ∧
        (t.job j).map (fun y => (y.phase, y.status, y.detail, y.bufs)) = some (.retired, 0, x.detail, []) ∧
        (t.stream n).framesDone = ((s.stream n).framesDone + 1) % 2 ^ 32) ∧
      (x.opcode = 0x10 → x.overflow = false → s.earlierCoding n x.coding = false →
        ∃ t, exec (.jobRetire j) s = .next t ∧ (x.bufs = [] → x.staging = [] → t.mem = s.mem) ∧
          (t.job j).map (fun y => (y.phase, y.status, y.detail, y.bufs)) = some (.retired, 0, s.meanQp j x, []) ∧
          (t.stream n).framesDone = ((s.stream n).framesDone + 1) % 2 ^ 32))

/-- COPY, FILL, BARRIER and MARK (R129, R132, R133, R135, R185, R590). A COPY or FILL that is the first of its core's side
jobs, on addresses that answer, stores the gathered bytes, or PATTERN over the length, at its destination and nowhere
else, and retires with OK and that many bytes. A BARRIER retires once no earlier job of its queue is live; a MARK
behind no barrier stores MARK_VALUE in 8 bytes at MARK_ADDR, or nothing when that is 0, and retires. -/
def Obligations.SideJobRows : Prop :=
  (∀ (j : Nat) (h : Option (List Byte)) (fs : List (Nat × Nat)) (l : List Byte) (x : Job) (s : State), s.calm = true →
      s.sideJob j x = true → x.opcode = 0x30 → x.stream = none → fs = (if x.indirect = true then x.frags else [(x.at 8 8, x.at 24 4)]) →
      ((∀ f ∈ fs, isDev f.1 = true) ∧ isDev (x.at 16 8) = true ∨ s.hostReach = true ∧ h.isSome = true) →
      (s.begin j).gather fs (h.getD []) = some l → s.writeTagOk (x.at 16 8) l.length = true →
      ∃ t, exec (.copy j h) s = .next t ∧ t.mem = (s.writeTagged (x.at 16 8) l).mem ∧
        ((∀ f ∈ fs, isDev f.1 = true) → t.out = (s.writeTagged (x.at 16 8) l).out) ∧ t.streams = s.streams ∧
        (t.job j).map (fun y => (y.phase, y.status, y.detail, y.outBytes)) = some (.retired, 0, 0, l.length)) ∧
    (∀ (j : Nat) (l : List Byte) (x : Job) (s : State), s.calm = true → s.sideJob j x = true → x.opcode = 0x31 → x.stream = none →
      (isDev (x.at 16 8) = true ∨ s.hostReach = true) →
      l = (List.range (x.at 24 4)).map (fun i => ((x.body.drop 28).take 4).getD (i % 4) 0) →
      s.writeTagOk (x.at 16 8) l.length = true →
      ∃ t, exec (.fill j) s = .next t ∧ t.mem = (s.writeTagged (x.at 16 8) l).mem ∧
        t.out = (s.writeTagged (x.at 16 8) l).out ∧ t.streams = s.streams ∧
        (t.job j).map (fun y => (y.phase, y.status, y.detail, y.outBytes)) = some (.retired, 0, 0, x.at 24 4)) ∧
    (∀ (j : Nat) (x : Job) (s : State), s.calm = true → s.bare j x = true → x.opcode = 0x40 → x.phase = .ready →
      (∀ y ∈ s.jobs, y.1 < j → y.2.queue = x.queue → y.2.live = false) →
      ∃ t, exec (.barrier j) s = .next t ∧ t = { s with jobs := t.jobs } ∧
        (t.job j).map (fun y => (y.phase, y.status, y.detail)) = some (.retired, 0, 0)) ∧
    (∀ (j : Nat) (x : Job) (s : State), s.calm = true → s.bare j x = true → x.opcode = 0x41 → x.phase = .ready →
      s.barred j x.queue = false → (isDev (x.at 8 8) = true ∨ s.hostReach = true) → x.at 8 8 ≠ 0 →
      s.writeTagOk (x.at 8 8) 8 = true →
      ∃ t, exec (.mark j) s = .next t ∧ t = { s with jobs := t.jobs, mem := t.mem, out := t.out } ∧
        t.mem = (s.writeTagged (x.at 8 8) (leBytes 8 (x.at 16 8))).mem ∧
        t.out = (s.writeTagged (x.at 8 8) (leBytes 8 (x.at 16 8))).out ∧
        (t.job j).map (fun y => (y.phase, y.status, y.detail)) = some (.retired, 0, 0)) ∧
    (∀ (j : Nat) (x : Job) (s : State), s.calm = true → s.bare j x = true → x.opcode = 0x41 → x.phase = .ready →
      s.barred j x.queue = false → x.at 8 8 = 0 →
      ∃ t, exec (.mark j) s = .next t ∧ t = { s with jobs := t.jobs } ∧
        (t.job j).map (fun y => (y.phase, y.status, y.detail)) = some (.retired, 0, 0))

/-- STREAM_OPEN, STREAM_PARAMS, STREAM_CLOSE, QUERY, INVALIDATE, MARK_LONG, EXPORT and RELEASE_OUTPUT (R155, R156, R157,
R174, R175, R177, R178, R372). An operation whose turn has come on a stream in the state it needs. OPEN with a valid
block, a loaded image for the direction, a mode that validates and a home with room opens the stream with that mode,
home and block; PARAMS with a block that validates and resizes nothing gives the stream the new mode; CLOSE of an
encode stream, or with DISCARD, leaves the stream CLOSED. QUERY and EXPORT store their bytes at ADDR and nowhere else;
INVALIDATE and MARK_LONG change the mark of the picture selected, RELEASE_OUTPUT its output, or that of every picture;
with no picture selected nothing is marked. Each job retires with OK. -/
def Obligations.StreamOperationRows : Prop :=
  (∀ (j n k q b v : Nat) (h : Option (List Byte)) (e : PersEntry) (l : List Byte) (w : List Nat) (enc : Bool) (x : Job) (s : State),
      s.calm = true → s.opJob j x n 0x01 = true → s.blockHeld x = false → s.modeBlock x h = .ok l → blockNat l 0 2 = 1 →
          modeRsvOk l = true →
      blockNat l 8 8 = 0 → s.findPers (x.at 8 4) = some (k, e) → enc = (x.at 12 1 == 1) → bit e.flags (b2n enc) = true →
      validate e.id e.flags e.params enc (s.loadCap (fv (modeOf l) 52)) (s.devField x.epoch 17 == 1) v (modeOf l) = (w, 0) →
      kSize e.params enc w ≤ coresOf e.params enc (s.loadCap (fv (modeOf l) 52)) w →
      (s.chooseHome n w enc e.params (blockMib enc (if enc = true then lookArea w else 0) w) none).1 = some q →
      s.fitBlock q (blockMib enc (if enc = true then lookArea w else 0) w) = some b →
      ∃ t, exec (.streamOpen j h v) s = .next t ∧ t.mem = s.mem ∧ (t.stream n).state = .opened ∧ (t.stream n).home = q ∧
        (t.stream n).blockBase = b ∧ (t.stream n).mode = w ∧ (t.stream n).queue = x.queue ∧ (t.stream n).encode = enc ∧
        (t.stream n).pers = k ∧ (t.stream n).blockMib = blockMib enc (if enc = true then lookArea w else 0) w ∧
        (t.stream n).poolSlots = poolSlotsOf enc w ∧ (∀ m, m ≠ n → t.stream m = s.stream m) ∧
        (t.job j).map (fun y => (y.phase, y.status, y.detail)) = some (.retired, 0, 0)) ∧
    (∀ (j n v : Nat) (h : Option (List Byte)) (l : List Byte) (w : List Nat) (x : Job) (s : State), s.calm = true →
      s.opJob j x n 0x03 = true → s.blockHeld x = false → s.modeBlock x h = .ok l → s.checkParams x n l v = (w, 0) →
          (s.stream n).resizes w = false →
      ∃ t, exec (.streamParams j h v) s = .next t ∧ t.mem = s.mem ∧ (t.stream n).mode = w ∧
        (t.stream n).state = (s.stream n).state ∧ (t.stream n).slots = (s.stream n).slots ∧
        (t.stream n).blockBase = (s.stream n).blockBase ∧ (∀ m, m ≠ n → t.stream m = s.stream m) ∧
        (t.job j).map (fun y => (y.phase, y.status, y.detail)) = some (.retired, 0, 0)) ∧
    (∀ (j n : Nat) (x : Job) (s : State), s.calm = true → s.opJob j x n 0x02 = true →
      ((s.stream n).encode = true ∨ x.at 8 1 ≠ 0) →
      ∃ t, exec (.streamClose j) s = .next t ∧ t.mem = s.mem ∧ t.stream n = {} ∧ (∀ m, m ≠ n → t.stream m = s.stream m) ∧
        (t.job j).map (fun y => (y.phase, y.status, y.detail)) = some (.retired, 0, 0)) ∧
    (∀ (j n : Nat) (x : Job) (s : State), s.calm = true → s.refJob j x n 1 = true → tagOk (x.at 16 8) = true →
      336 ≤ x.at 24 4 → (isDev (x.at 16 8) = true ∨ s.hostReach = true) →
      s.runsOk (x.at 16 8) [(0, (s.begin j).queryBytes n)] = true →
      ∃ t, exec (.query j) s = .next t ∧ (t.stream n).slots = (s.stream n).slots ∧
        t.mem = (s.writeTagged (x.at 16 8) ((s.begin j).queryBytes n)).mem ∧
        t.out = (s.writeTagged (x.at 16 8) ((s.begin j).queryBytes n)).out ∧
        (t.job j).map (fun y => (y.phase, y.status, y.detail, y.outBytes)) = some (.retired, 0, 0, 336)) ∧
    (∀ (j n k : Nat) (x : Job) (s : State), s.calm = true → s.refJob j x n 2 = true → (s.stream n).select x = some k →
      ∃ t, exec (.invalidate j) s = .next t ∧ t.mem = s.mem ∧
        (t.stream n).slot k = { (s.stream n).slot k with mark := .unused, longIdx := 0xFF } ∧
        (∀ m, m ≠ k → (t.stream n).slot m = (s.stream n).slot m) ∧
        (t.job j).map (fun y => (y.phase, y.status, y.detail)) = some (.retired, 0, 0)) ∧
    (∀ (j n k : Nat) (x : Job) (s : State), s.calm = true → s.refJob j x n 3 = true → (s.stream n).select x = some k →
      ∃ t, exec (.markLong j) s = .next t ∧ t.mem = s.mem ∧
        (t.stream n).slot k = { (s.stream n).slot k with mark := .long, longIdx := x.at 10 1 } ∧
        (∀ m, m ≠ k → (t.stream n).slot m = (s.stream n).slot m) ∧
        (t.job j).map (fun y => (y.phase, y.status, y.detail)) = some (.retired, 0, 0)) ∧
    (∀ (j n k : Nat) (f : Fmt) (l : List (Nat × List Byte)) (x : Job) (s : State), s.calm = true → s.refJob j x n 4 = true →
      (s.stream n).select x = some k → ((s.stream n).slot k).complete = true → fmtOf (x.at 28 1) = some f →
      (s.stream n).formatCode k (x.at 28 1) (x.at 32 4) 0 = none → (f.t24 = true ∨ x.at 16 8 % 64 = 0) → s.tilesOk n k = true →
      l = ((s.stream n).slotGeom k).runs s.mem f (x.at 32 4) → tagOk (x.at 16 8) = true → runsEnd l ≤ x.at 24 4 →
      (isDev (x.at 16 8) = true ∨ s.hostReach = true) → s.runsOk (x.at 16 8) l = true →
      ∃ t, exec (.exportPic j) s = .next t ∧ t.mem = (s.writeRuns (x.at 16 8) l).mem ∧
        t.out = (s.writeRuns (x.at 16 8) l).out ∧ (t.stream n).slots = (s.stream n).slots ∧
        (t.job j).map (fun y => (y.phase, y.status, y.detail, y.outBytes)) = some (.retired, 0, 0, runsEnd l)) ∧
    (∀ (j n k : Nat) (x : Job) (s : State), s.calm = true → s.refJob j x n 5 = true →
      ¬(x.at 9 1 = 0xFF ∧ x.at 12 4 = 0x80000000) → (s.stream n).select x = some k →
      ∃ t, exec (.releaseOutput j) s = .next t ∧ t.mem = s.mem ∧
        (t.stream n).slot k = { (s.stream n).slot k with pending := false, released := false } ∧
        (∀ m, m ≠ k → (t.stream n).slot m = (s.stream n).slot m) ∧
        (t.job j).map (fun y => (y.phase, y.status, y.detail)) = some (.retired, 0, 0)) ∧
    (∀ (j n : Nat) (x : Job) (s : State), s.calm = true → s.refJob j x n 5 = true → x.at 9 1 = 0xFF →
      x.at 12 4 = 0x80000000 →
      ∃ t, exec (.releaseOutput j) s = .next t ∧ t.mem = s.mem ∧ (∀ y ∈ (t.stream n).slots, y.2.pending = false) ∧
        (∀ m, ((t.stream n).slot m).mark = ((s.stream n).slot m).mark) ∧
        (t.job j).map (fun y => (y.phase, y.status, y.detail)) = some (.retired, 0, 0)) ∧
    (∀ (j n k : Nat) (c : Instr) (x : Job) (s : State), s.calm = true → s.refJob j x n k = true →
      (k, c) ∈ [(2, Instr.invalidate j), (3, Instr.markLong j)] → (s.stream n).select x = none →
      ∃ t, exec c s = .next t ∧ t.mem = s.mem ∧ (t.stream n).slots = (s.stream n).slots ∧
        (t.job j).map (fun y => (y.phase, y.status, y.detail)) = some (.retired, 0, 0))

/-- ENCODE_FRAME, ENCODE_LADDER, DECODE_UNIT and DECODE_DRAIN (R148, R173, R174, R175, R210, R327, R329, R340, R354). The
start of an encode frame gives the job its picture type, 0 for a forced key picture, and its slot the picture value
and time; the close of a frame of one core whose output goes only to a Caldera queue marks the picture and leaves
memory alone. A ladder block that passes its checks starts one job for each rendition, with the top's picture fields.
The parsed headers of a unit give its slot the picture value, mark and place in output order; the end of a unit
without an output picture reports the job. A drain of a stream without pending pictures retires with DETAIL 0, and one
with pending pictures asks for a buffer of the first one's size. -/
def Obligations.FrameReportRows : Prop :=
  (∀ (j n : Nat) (p : FrameStart) (e : PersEntry) (x : Job) (s : State), s.calm = true → s.job j = some x →
      x.stream = some n → x.opcode = 0x10 → x.phase = .running → x.framed = false → s.startsInOrder n x = true →
      s.image (s.stream n) = some e →
      ∃ t, exec (.encodeFrame j (.start p)) s = .next t ∧
        (fv (s.effMode x (s.stream n)) 33 = 0 → t.mem = s.mem) ∧ (t.stream n).nextKey = false ∧
        (t.job j).map (fun y => (y.framed, y.tid, y.picType)) = some (true, p.tid,
          if forcedKey x (s.stream n) p.picType (PersParams_ctu e.params (fv (s.effMode x (s.stream n)) 15)) = true then 0
            else p.picType) ∧
        ∀ k, x.slot = some k → ((t.stream n).slot k).picId = p.picId ∧ ((t.stream n).slot k).pts = x.at 40 8 ∧
          ((t.stream n).slot k).mark = ((s.stream n).slot k).mark) ∧
    (∀ (j n c k : Nat) (p : FrameClose) (x : Job) (s : State), s.calm = true → s.job j = some x → x.stream = some n →
      x.opcode = 0x10 → x.phase = .running → x.framed = true → x.reported = false → x.request = none → x.cores = [c] →
      s.tilesEnded j x = true → s.unreachable (s.areas x) = false → s.needsSecond x (assembled x p) = false →
      x.outMode = 2 → p.drop = [] → x.slot = some k →
      ∃ t, exec (.encodeFrame j (.close p)) s = .next t ∧ t.mem = s.mem ∧ (t.job j).map Job.reported = some true ∧
        (((t.stream n).slot k).mark, ((t.stream n).slot k).longIdx) = encodeMark x p ∧
        ∀ m, m ≠ k → (t.stream n).slot m = (s.stream n).slot m) ∧
    (∀ (j n : Nat) (overs : List (Option (List Byte))) (x : Job) (s : State), s.calm = true → s.job j = some x →
      x.stream = some n → x.opcode = 0x11 → x.phase = .ready → x.framed = false → (∀ y ∈ s.jobs, y.2.phase ≠ .waiting) →
      (∀ r, r < x.renditions → s.before j (x.rendStream r) = [] ∧ x.rend r 24 8 = 0) → s.barred j x.queue = false →
      s.ladderCheck x = none →
      ∃ t, exec (.encodeLadder j overs) s = .next t ∧ t.mem = s.mem ∧
        (t.job j).map (fun y => (y.framed, y.started, y.phase)) = some (true, true, .ready) ∧
        ∀ r, r < x.renditions → ∃ y, t.job (j + 1 + r) = some y ∧ y.parent = some j ∧ y.phase = .ready ∧
          y.stream = some (x.rendStream r) ∧ y.body = rendBody x r ∧ y.epoch = x.epoch) ∧
    (∀ (j n k : Nat) (p : UnitPic) (x : Job) (s : State), s.calm = true → s.job j = some x → x.stream = some n →
      x.opcode = 0x20 → x.phase = .running → x.reported = false → x.framed = false → s.parsesInOrder n x = true →
      p.drop = [] → p.shows = none → x.slot = some k →
      ∃ t, exec (.decodeUnit j (.parsed p)) s = .next t ∧ t.mem = s.mem ∧ (t.job j).map Job.framed = some true ∧
        ((t.stream n).slot k).picId = p.picId ∧ ((t.stream n).slot k).outKey = p.outKey ∧
        ((t.stream n).slot k).mark = markOf p.mark ∧ ((t.stream n).slot k).pending = p.pending ∧
        ((t.stream n).slot k).pts = x.at 40 8) ∧
    (∀ (j n : Nat) (e : UnitEnd) (x : Job) (s : State), s.calm = true → s.job j = some x → x.stream = some n →
      x.opcode = 0x20 → x.phase = .running → x.reported = false → x.framed = true → x.request = none → x.bufs = [] →
      x.outSlot = none → s.unreachable (s.areas x) = false → s.lastGap x n = [] →
      ∃ t, exec (.decodeUnit j (.ended e)) s = .next t ∧ t.mem = s.mem ∧
        (t.job j).map (fun y => (y.reported, y.outBytes, y.handle0)) = some (true, 0, 0xFFFFFFFF) ∧
        ∀ k, x.slot = some k →
          ((t.stream n).slot k).concealed = decide (0 < x.concealedLuma ((s.stream n).slot k))) ∧
    (∀ (j n : Nat) (x : Job) (s : State), s.calm = true → s.job j = some x → x.stream = some n → x.opcode = 0x21 →
      x.phase = .running → s.before j n = [] → x.reported = false → x.bufs = [] → x.staging = [] →
      (s.stream n).drainOrder 17 [] = [] →
      ∃ t, exec (.decodeDrain j) s = .next t ∧ t.mem = s.mem ∧
        (t.job j).map (fun y => (y.phase, y.status, y.detail, y.outBytes)) = some (.retired, 0, 0, 0)) ∧
    (∀ (j n k e : Nat) (l : List Nat) (r : List (Nat × List Byte)) (x : Job) (s : State), s.calm = true → s.job j = some x →
      x.stream = some n → x.opcode = 0x21 → x.phase = .running → s.before j n = [] → x.reported = false → x.bufs = [] →
      x.request = none → (s.stream n).drainOrder 17 [] = k :: l →
      (s.stream n).formatCode k (s.stream n).lastFormat (s.stream n).lastPitch 0 = none →
      s.pictureRuns n k (s.stream n).lastFormat (s.stream n).lastPitch 0 0 false = some (r, e) →
      ∃ t, exec (.decodeDrain j) s = .next t ∧ t = { s with jobs := t.jobs } ∧
        (t.job j).map (fun y => (y.reported, y.drain, y.request)) = some (true, k :: l, some (false, e)))

/-- REHOME_START, REHOME_ALLOCATE, REHOME_DONE, REHOME_RETRY, REHOME_REQ, PLACER_TEMPO_REFRESH, CORE_SLOW, SLOW_CLEAR,
QUADRANT_PARK and QUADRANT_POWER_UP (R180, R194, R196, R197, R198, R199, R200, R203, R206, R385). A re-home starts for
a faulted home, a better quadrant or consolidation, and on a request for a quadrant that qualifies; it reserves the
first fit of its target once no job of the stream is placed; its end moves the stream to the new block, with the old
one's used content when that can be read; a stream without a home looks again. A refresh gives each core of a powered
quadrant its monitor's tempo times its lanes, and each quadrant its load. Under KEEP a core below the floor becomes
slow and stays in service; one that has recovered is slow no longer. A quadrant that may park loses what its cores
held; one that powers up without pending commits has its cores apply the current epoch. -/
def Obligations.PlacerRows : Prop :=
  (∀ (n c q : Nat) (s : State), s.calm = true → (s.stream n).state ≠ .closed → (s.stream n).homeless = false →
      (s.stream n).rehome = none →
      (c = 1 ∧ s.homeFaulted (s.stream n).home = true ∧ q = noQuad ∨
        c = 2 ∧ (s.active 5 0x068).getLsbD 30 = true ∧ s.localTarget (s.stream n) = some q ∨
        c = 3 ∧ s.packMoves (s.stream n) = true ∧ q = noQuad) →
      ∃ t, exec (.rehomeStart n c) s = .next t ∧ t.mem = s.mem ∧ t.jobs = s.jobs ∧
        t.stream n = { s.stream n with rehome := some { cause := c, target := q }, again := none } ∧
        ∀ m, m ≠ n → t.stream m = s.stream m) ∧
    (∀ (n q b : Nat) (r : Rehome) (s : State), s.calm = true → (s.stream n).rehome = some r → r.started = false →
      s.hasPlaced n = false → (∀ y ∈ s.streams, y.2.rehome = none ∨ y.1 = n ∧ y.2.rehome = some r) →
      s.rehomeTarget n (s.stream n) r = some q → s.fitBlock q (s.stream n).blockMib = some b →
      exec (.rehomeAllocate n) s = .next (s.modStream n fun t => { t with
        rehome := some { r with target := q, started := true, rebuild := s.unreadable t.home, base := b } })) ∧
    (∀ (n : Nat) (r : Rehome) (s : State), s.calm = true → (s.stream n).rehome = some r → r.started = true →
      s.noHomes r.target = false →
      ∃ t, exec (.rehomeDone n) s = .next t ∧ (t.stream n).home = r.target ∧ (t.stream n).blockBase = r.base ∧
        (t.stream n).rehome = none ∧ (t.stream n).migrate = true ∧ t.jobs = s.jobs ∧
        (∀ m, m ≠ n → t.stream m = s.stream m) ∧
        ((r.rebuild || s.unreadable (s.stream n).home) = false →
          (t.stream n).slots = (s.stream n).slots ∧ t.mem = (s.copyBlock (s.stream n) r.base).mem) ∧
        ((r.rebuild || s.unreadable (s.stream n).home) = true →
          t.mem = s.mem ∧ ∀ y ∈ (t.stream n).slots, y.2.mark = .unused ∧ y.2.pending = false)) ∧
    (∀ (n q : Nat) (s : State), s.calm = true → (s.stream n).homeless = true → (s.stream n).state ≠ .closed →
      (s.stream n).rehome = none → s.rehomeTarget n (s.stream n) { cause := 1, target := noQuad } = some q →
      ∃ t, exec (.rehomeRetry n) s = .next t ∧ t.mem = s.mem ∧ t.jobs = s.jobs ∧
        t.stream n = { s.stream n with rehome := some { cause := 1, target := noQuad }, again := none, homeless := false }) ∧
    (∀ (n c q : Nat) (s : State), s.calm = true → (s.stream n).homeless = false → (s.stream n).state ≠ .closed →
      (s.stream n).rehome = none → (s.stream n).again = some (c, q) → q ≠ (s.stream n).home →
      ∃ t, exec (.rehomeRetry n) s = .next t ∧ t.mem = s.mem ∧ t.jobs = s.jobs ∧
        t.stream n = { s.stream n with rehome := some { cause := c, target := q }, again := none }) ∧
    (∀ (v : Word) (s : State), s.hears 5 = true → fld v 31 18 = 0 → fld v 15 10 = 0 →
      (s.stream (fld v 9 0)).state = .opened → (s.stream (fld v 9 0)).rehome = none →
      fld v 17 16 ≠ (s.stream (fld v 9 0)).home →
      s.qualifies (s.stream (fld v 9 0)).mode (s.stream (fld v 9 0)).blockMib (fld v 17 16) = true →
      ∃ t, exec (.rehomeReq v) s = .next t ∧ t.mem = s.mem ∧ t.jobs = s.jobs ∧
        (t.stream (fld v 9 0)).rehome = some { cause := 4, target := fld v 17 16 }) ∧
    (∀ (l : List Nat) (s : State), s.calm = true →
      ∃ t, exec (.placerTempoRefresh l) s = .next t ∧ t = { s with placer := t.placer } ∧
        (∀ n, n < 48 → (s.quad (n / 12)).parked = false → (s.quad (n / 12)).liveAt ≤ s.time.ns →
          (t.core n).pt = s.monTempo n * (s.unit n).lanes / 256 % 65536) ∧
        (∀ n, n < 48 → (s.quad (n / 12)).parked = true → (t.core n).pt = (s.core n).pt) ∧
        (∀ n, n < 48 → (t.core n).busyLog = ((s.core n).busy :: (s.core n).busyLog).take 100 ∧
          (t.core n).slow = (s.core n).slow ∧ (t.core n).inside = (s.core n).inside ∧ (t.core n).queue = (s.core n).queue) ∧
        (∀ q, q < 4 → (t.quad q).dramLoad = min 255 (l.getD q 0))) ∧
    (∀ (n : Nat) (s : State), s.calm = true → n < 48 → (s.core n).slow = false → s.ratioOf n < fld (s.active 5 0x060) 15 0 →
      (s.page (corePage n)).state ≠ .fenced → (s.quad (n / 12)).parked = false → (s.active 5 0x060).getLsbD 24 = false →
      ∃ t, exec (.coreSlow n) s = .next t ∧ (t.core n).slow = true ∧ t.jobs = s.jobs ∧
        (t.page (corePage n)).state = (s.page (corePage n)).state) ∧
    (∀ (n : Nat) (s : State), s.calm = true → n < 48 → (s.core n).slow = true →
      fld (s.active 5 0x060) 15 0 + 0x20 ≤ s.ratioOf n → (s.active 5 0x060).getLsbD 25 = false →
      ∃ t, exec (.slowClear n) s = .next t ∧ t = { s with placer := t.placer, pages := t.pages } ∧
        (t.core n).slow = false) ∧
    (∀ (q : Nat) (s : State), s.calm = true → q < 4 → s.mayPark q = true →
      ∃ t, exec (.quadrantPark q) s = .next t ∧ (t.quad q).parked = true ∧ t.mem = s.mem ∧ t.jobs = s.jobs ∧
        ∀ i, i < 12 → t.unit (12 * q + i) = { lanes := (s.unit (12 * q + i)).lanes } ∧
          (t.core (12 * q + i)).lastStream = none) ∧
    (∀ (q : Nat) (s : State), s.calm = true → q < 4 → (s.quad q).parked = true → (s.quad q).waking = true →
      (∀ i, i < 12 → (s.page (corePage (12 * q + i))).groups = 0 ∧ (s.page (cdmaPage (12 * q + i))).groups = 0) →
      ∃ t, exec (.quadrantPowerUp q { ok := true, cores := [] }) s = .next t ∧ (t.quad q).parked = false ∧
        (t.quad q).waking = false ∧ (t.quad q).liveAt = s.time.ns + 100000 ∧ t.jobs = s.jobs ∧ t.mem = s.mem ∧
        ∀ i, i < 12 → (s.page (corePage (12 * q + i))).state ≠ .fenced →
          (t.page (corePage (12 * q + i))).epoch = s.modes.current)

/-- The context writeback, the waits that end (scoreboard, channel, source row, source timeout), the stall, step-limit and
grace rows, and LOOKAHEAD_PASS (R161, R208, R216, R225, R226, R228, R232, R358). A context write-back that lands
completes the newer save slot, and one that fails loses the context. A wait that ends runs the waiting instruction:
SBWAIT goes on once its rows are there, CHRECV takes its token, and BLD fills its block once the source rows have
arrived. The timeouts and limits fire their fault on the job: SRC_TIMEOUT, CORE_STALL with its event, and
CORE_STEP_LIMIT with the sequencer stopped, but for the pilot of a decode job in normal service, which goes to its
limit entry. A lookahead pass that is due keeps its core, copy and statistics, and its complexity: the sum over the blocks of
the lesser of intra and inter, at least 1. -/
def Obligations.WaitAndLimitRows : Prop :=
  (∀ (n : Nat) (s : State), s.calm = true → (s.stream n).state ≠ .closed →
      exec (.contextWritebackDone n false) s = .next (s.modStream n fun t => { t with ctxLost := true }) ∧
      ((s.stream n).saveB.age < (s.stream n).saveA.age →
        exec (.contextWritebackDone n true) s = .next (s.modStream n fun t => { t with
          saveA := { complete := true, age := t.saveA.age, held := ({ t with saveA := {}, saveB := {} }).newest.getD {} } })) ∧
      ((s.stream n).saveA.age ≤ (s.stream n).saveB.age → 0 < (s.stream n).saveB.age →
        exec (.contextWritebackDone n true) s = .next (s.modStream n fun t => { t with
          saveB := { complete := true, age := t.saveB.age, held := ({ t with saveA := {}, saveB := {} }).newest.getD {} } }))) ∧
    (∀ (n q j m : Nat) (i : Ins) (x : Job) (f : Surf) (s : State), s.guarded n q i = true → q < 5 →
      s.seqJob n q = some (j, x, m) → (s.seq n q).wait = .scoreboard → (s.seq n q).waiting = some (.sbwait n q i) →
      s.surf x m ((s.seq n q).sreg i.a) = some f → s.rowWordBad m f = none → s.surfWait j x m f 0 (s.sint n q i.b) 1 = none →
      exec (.scoreboardWaitEnd n q) s = .next (s.advance n q)) ∧
    (∀ (n q j a : Nat) (i : Ins) (k : Token) (l : List Token) (s : State), s.guarded n q i = true →
      (s.seq n q).job = some j → (s.seq n q).wait = .channel → (s.seq n q).waiting = some (.chrecv n q i) → i.c < 8 →
      s.ends j i.c = some (a, q) → s.undrained n i.c j = false → s.chq n i.c = k :: l → 1 ≤ i.d → i.d ≤ 30 →
      ∃ t, exec (.channelWaitEnd n q) s = .next t ∧ t = { s with cores := t.cores } ∧ t.chq n i.c = l ∧
        (t.seq n q).sreg i.d = k.val.setWidth 32 ∧ (t.seq n q).wait = .none ∧ (t.seq n q).waiting = none) ∧
    (∀ (n j m w h : Nat) (i : Ins) (l : List Host.Cell) (x : Job) (s : State), s.runs n 0 = true → i.pg = 0 → i.pn = false →
      (s.seq n 0).wait = .source → (s.seq n 0).waiting = some (.bld n 0 i l) → kShape i.x = some (w, h) → mPlane i.x < 3 →
      mOx i.x = 0 → mOy i.x = 0 → fld i.x 11 0 = 0 → s.seqJob n 0 = some (j, x, m) →
      s.surf x m ((s.seq n 0).sreg i.c) = some .source → s.owned n 0 [i.d] = none →
      s.blockStop j x m .source l (mPlane i.x) (s.sint n 0 i.a) (s.sint n 0 i.b) w h = none →
      ∃ t, exec (.sourceRowPoll n) s = .next t ∧ t.mem = s.mem ∧ (t.seq n 0).wait = .none ∧ ∀ dx dy, dx < w → dy < h →
        t.belem n i.d dx dy =
          (BitVec.ofNat 24 (s.surfSample x m .source (mPlane i.x) l (s.sint n 0 i.a) (s.sint n 0 i.b) dx dy)).toInt) ∧
    (∀ (n : Nat) (s : State), s.calm = true → n < 48 → (s.seq n 0).wait = .source →
      ∃ t, exec (.sourceTimeout n) s = .next t ∧ t = (s.fault 74 n (s.seq n 0).job 0).settle ∧
        (s.severity 74 = 1 ∨ s.severity 74 = 2 ∧ (s.seq n 0).job = none → t.mem = s.mem ∧ t.jobs = s.jobs ∧ t.cores = s.cores ∧
          ∀ k b, s.faults.chooseSlot 1 = some (k, b) → (mget t.faults.slots k).map (fun r => (r.source, r.inst, r.sev, r.reaction)) =
            some (74, n, 1, .logged)) ∧
        (∀ j x, (s.seq n 0).job = some j → s.bare j x = true → s.severity 74 = 2 → s.faults.stop = .normal →
            (s.page (corePage n)).state = .running →
          t.mem = s.mem ∧
          (t.job j).map (fun y => (y.phase, y.status, y.detail)) = some (.retired, 0x42, faultDetail 74 5 x.attempts 0xFF))) ∧
    (∀ (n j : Nat) (l : List Nat) (s : State), s.calm = true → n < 48 → (s.core n).inside = j :: l →
      (∀ q, q < 6 → (s.seq n q).job = none ∨ stallFree (s.seq n q).wait = false) →
      ∃ t, exec (.coreStall n) s = .next t ∧ t = ((s.raiseEvt (corePage n) 0).fault 65 n (some j) 0).settle ∧
        (s.severity 65 = 1 → t.mem = s.mem ∧ t.jobs = s.jobs ∧ t.cores = s.cores ∧
          (t.page (corePage n)).evtPend.getLsbD 0 = true ∧
          ∀ k b, s.faults.chooseSlot 1 = some (k, b) → (mget t.faults.slots k).map (fun r => (r.source, r.inst, r.sev, r.reaction)) =
            some (65, n, 1, .logged)) ∧
        (∀ x, s.jobs = [(j, x)] → x.live = true → x.opcode ≠ 0x10 → s.strict x = true → s.severity 65 = 2 →
          s.faults.stop = .normal → (s.page (corePage n)).state = .running → (t.job j).map (fun y => (y.phase, y.status, y.detail)) =
            some (.retired, 0x40, faultDetail 65 2 x.attempts 0))) ∧
    (∀ (n q j : Nat) (x : Job) (e : PersEntry) (s : State), s.calm = true → n < 48 → q < 6 → (s.seq n q).job = some j →
      s.job j = some x → s.jobImage j = some e → (s.seq n q).stopped = false → (s.seq n q).graced = false →
      fld (s.active (corePage n) 0x044) 15 0 * 4096 ≤ (s.seq n q).steps →
      (q = 5 → s.strict x = false → s.jobEncode j = false →
        exec (.stepLimitReached n q) s = .next (s.modSeq n 5 fun y => { y with
          graced := true, steps := 0, pc := (e.progBase + e.params.limitEntry) % 32768, calls := [], loops := []
          wait := .none, waiting := none })) ∧
      ((q ≠ 5 ∨ s.strict x = false ∧ s.jobEncode j = true) → ∃ t, exec (.stepLimitReached n q) s = .next t ∧
        t = ((s.modSeq n q fun y => { y with stopped := true, wait := .none, waiting := none }).fault 67 n (some j) 0).settle ∧
        (s.severity 67 = 1 → t.mem = s.mem ∧ t.jobs = s.jobs ∧ (t.seq n q).stopped = true ∧ (t.seq n q).pc = (s.seq n q).pc ∧
          ∀ k b, s.faults.chooseSlot 1 = some (k, b) → (mget t.faults.slots k).map (fun r => (r.source, r.inst, r.sev, r.reaction)) =
            some (67, n, 1, .logged)) ∧
        (s.jobs = [(j, x)] → x.live = true → x.opcode ≠ 0x10 → s.strict x = true → s.severity 67 = 2 →
          s.faults.stop = .normal → (s.page (corePage n)).state = .running →
          (t.job j).map (fun y => (y.phase, y.status, y.detail)) = some (.retired, 0x40, faultDetail 67 2 x.attempts 0)))) ∧
    (∀ (n j : Nat) (s : State), s.calm = true → n < 48 → (s.seq n 5).job = some j → (s.seq n 5).stopped = false →
      (s.seq n 5).graced = true → fld (s.active (corePage n) 0x044) 23 16 * 4096 ≤ (s.seq n 5).steps →
      ∃ t, exec (.graceExhausted n) s = .next t ∧
        t = ((s.modSeq n 5 fun y => { y with stopped := true, wait := .none, waiting := none }).fault 67 n (some j) 0).settle ∧
        (s.severity 67 = 1 → t.mem = s.mem ∧ t.jobs = s.jobs ∧ (t.seq n 5).stopped = true ∧ (t.seq n 5).pc = (s.seq n 5).pc ∧
          ∀ k b, s.faults.chooseSlot 1 = some (k, b) → (mget t.faults.slots k).map (fun r => (r.source, r.inst, r.sev, r.reaction)) =
            some (67, n, 1, .logged)) ∧
        (∀ x, s.bare j x = true → s.severity 67 = 2 → s.faults.stop = .normal → (s.page (corePage n)).state = .running → t.mem = s.mem ∧
          (t.job j).map (fun y => (y.phase, y.status, y.detail)) = some (.retired, 0x40, faultDetail 67 2 x.attempts 0))) ∧
    (∀ (n d : Nat) (p : LookPass) (s : State), s.calm = true → p.core < 48 → s.corePowered p.core = true →
      (s.stream n).state ≠ .closed → (s.stream n).encode = true → (s.stream n).field 55 ≠ 2 → (s.stream n).field 32 ≠ 0 →
      s.frameAt n d = true → mget (s.stream n).look d = none →
      (d = 0 ∨ (mget (s.stream n).look (d - 1)).isSome = true ∨ s.frameAt n (d - 1) = false) →
      ∃ t, exec (.lookaheadPass n d p) s = .next t ∧ t = { s with streams := t.streams } ∧
        mget (t.stream n).look d = some (max 1 (p.stats.map fun b => min b.intra b.inter).sum) ∧
        mget (t.stream n).passes d = some p)

/-- MODE_COMMIT, MODE_VALIDATION_DONE, EPOCH_APPLY, MODE_DETAIL_ACK, VALIDATOR_TIMEOUT, PERS_LOAD and PERS_UNLOAD (R201,
R313, R316, R317, R319, R321, R382, R383, R385, R387). A commit in a state that refuses none starts the validation of
the staged vector, and one that the state refuses posts the reason. A vector that every rule passes becomes the
current one under the epoch asked, the former one stays as the previous, and every core in service becomes a laggard;
a refused one leaves both. A laggard between frames that no old job needs applies the current epoch and is a laggard no
longer. A timeout of the validator refuses the mode with 0x0006: the device's, or that of a STREAM_OPEN or STREAM_PARAMS
whose rules gave no other reason, and the stream stays as it was. A LOAD of an image that passes every check places it in the
first free entry at the first fit of both stores; an UNLOAD removes an unused image, and refuses one in use or absent. -/
def Obligations.ModeAndPersonalityRows : Prop :=
  (∀ (s : State), s.hears 6 = true → s.modes.owed < 4 → s.modeBusy (fld (s.reg 6 0x080) 15 0) = 0 →
      exec (.modeCommit 1) s = .next { s.toL0 with
        modes := { s.modes with
          state := .validating, asked := fld (s.reg 6 0x080) 15 0
          candidate := (List.range 19).map (fun d => fld (s.reg 6 (0x100 + 4 * d)) 15 0) } }) ∧
    (∀ (s : State), s.hears 6 = true → s.modes.owed < 4 → s.modeBusy (fld (s.reg 6 0x080) 15 0) ≠ 0 →
      exec (.modeCommit 1) s = .next (s.toL0.refuseMode (fld (s.reg 6 0x080) 15 0)
        (s.modeBusy (fld (s.reg 6 0x080) 15 0)) 0)) ∧
    (∀ (s : State), s.calm = true → s.modes.state = .validating → devRules s.modes.candidate = 0 →
      ∃ t, exec (.modeValidationDone 0) s = .next t ∧ t = { s with modes := t.modes, pages := t.pages } ∧
        t.modes.current = s.modes.asked ∧ t.modes.vec = s.modes.candidate ∧ t.modes.prev = s.modes.vec ∧
        (∀ n, n < 48 → t.modes.laggards.getLsbD n = s.countsForEpoch n) ∧
        (t.modes.laggards = 0 → t.modes.state = .applied) ∧ (t.modes.laggards ≠ 0 → t.modes.state = .mixed)) ∧
    (∀ (v : Nat) (s : State), s.calm = true → s.modes.state = .validating → devRules s.modes.candidate = 0 → v ≠ 0 →
      ∃ t, exec (.modeValidationDone v) s = .next t ∧ t = { s with modes := t.modes, pages := t.pages } ∧
        t.modes.state = .applied ∧ t.modes.current = s.modes.current ∧ t.modes.vec = s.modes.vec ∧ t.modes.busy = 6) ∧
    (∀ (n : Nat) (s : State), s.calm = true → n < 48 → s.modes.laggards.getLsbD n = true → s.atFrame n = true →
      s.lastForOld n = false →
      ∃ t, exec (.epochApply n false) s = .next t ∧ t.modes.laggards.getLsbD n = false ∧
        (t.page (corePage n)).epoch = s.modes.current ∧ t.jobs = s.jobs ∧ t.modes.vec = s.modes.vec ∧
        (s.coreEpoch n ≠ s.modes.current →
          (t.core n).retained = if (s.coreEpoch n + 1) % 65536 = s.modes.current then some (s.coreEpoch n) else none)) ∧
    (∀ (a : BitVec 8) (m : Mailbox) (s : State), s.hears 6 = true → s.modes.box.ack a.toNat = some m →
      exec (.modeDetailAck a) s = .next (s.toL0.setDetail m)) ∧
    (∀ (h : Option (List Byte)) (s : State), s.calm = true → s.modes.state = .validating →
      ∃ t, exec (.validatorTimeout none h) s = .next t ∧ t.modes.state = .applied ∧ t.modes.current = s.modes.current ∧
        t.modes.vec = s.modes.vec ∧ t.modes.busy = 6) ∧
    (∀ (j n k : Nat) (h : Option (List Byte)) (e : PersEntry) (l : List Byte) (x : Job) (s : State), s.calm = true →
      s.opJob j x n 0x01 = true → s.blockHeld x = false → s.modeBlock x h = .ok l → blockNat l 0 2 = 1 → modeRsvOk l = true →
      blockNat l 8 8 = 0 → s.findPers (x.at 8 4) = some (k, e) → bit e.flags (b2n (x.at 12 1 == 1)) = true →
      (validate e.id e.flags e.params (x.at 12 1 == 1) (s.loadCap (fv (modeOf l) 52)) (s.devField x.epoch 17 == 1) 0x0006
        (modeOf l)).2 = 0x0006 →
      ∃ t, exec (.validatorTimeout (some j) h) s = .next t ∧ t.mem = s.mem ∧
        (t.stream n).state = (s.stream n).state ∧
        (t.job j).map (fun y => (y.phase, y.status, y.detail)) = some (.retired, 0x31, 0x0006)) ∧
    (∀ (j n : Nat) (h : Option (List Byte)) (l : List Byte) (x : Job) (s : State), s.calm = true → s.opJob j x n 0x03 = true →
      s.blockHeld x = false → s.modeBlock x h = .ok l → (s.checkParams x n l 0x0006).2 = 0x0006 →
      ∃ t, exec (.validatorTimeout (some j) h) s = .next t ∧ t.mem = s.mem ∧ (t.stream n).mode = (s.stream n).mode ∧
        (t.job j).map (fun y => (y.phase, y.status, y.detail)) = some (.retired, 0x31, 0x0006)) ∧
    (∀ (g : PersImage) (k pb tb len src : Nat) (s : State), s.hears 17 = true → s.boot.state = .ready → s.pers.busy = none →
      len = fld (s.reg 17 0x108) 22 0 → src = (s.reg 17 0x104).toNat * 2 ^ 32 + (s.reg 17 0x100).toNat → 64 ≤ len →
      len ≤ 4194304 → (isDev src = true → tagOk src = true ∧ s.readRun (devOf src) len = true) →
      (isDev src = false → s.hostReach = true) → PersImage_headerOk g len = true → g.sections.all PersSection.crcOk = true →
      g.steppings.contains stepping = true → (s.fuse.secureBoot = true → g.keyMatches = true ∧ g.sigValid = true) →
      (∀ y ∈ s.pers.dir, y.2.id / 65536 ≠ g.id / 65536) →
      (List.range 16).find? (fun i => (mget s.pers.dir i).isNone) = some k →
      firstFit progRoom g.progWords (s.pers.dir.map fun y => (y.2.progBase, y.2.progWords)) = some pb →
      firstFit tabRoom g.tableWords (s.pers.dir.map fun y => (y.2.tabBase, y.2.tabWords)) = some tb →
      ∃ t, exec (.persLoad (some g)) s = .next t ∧ t = (s.toL0.placeImage g k pb tb).persDone 1 k ∧ t.mem = s.mem ∧
        t.pers.result = 1 ∧ t.pers.slot = k ∧ (∀ i, i ≠ k → mget t.pers.dir i = mget s.pers.dir i) ∧
        (mget t.pers.dir k).map (fun d => (d.id, d.flags, d.progBase, d.tabBase, d.progWords, d.tabWords)) =
          some (g.id, g.flags, pb, tb, g.progWords, g.tableWords)) ∧
    (∀ (k : Nat) (s : State), k < 16 → s.hears 17 = true → s.boot.state = .ready → s.pers.busy = none →
      (mget s.pers.dir k = none → exec (.persUnload k) s = .next (s.toL0.persDone 0x19 k)) ∧
      ((mget s.pers.dir k).isSome = true → (∃ y ∈ s.streams, y.2.state ≠ .closed ∧ y.2.pers = k) →
        exec (.persUnload k) s = .next (s.toL0.persDone 0x16 k)) ∧
      ((mget s.pers.dir k).isSome = true → (∀ y ∈ s.streams, y.2.state ≠ .closed → y.2.pers ≠ k) →
        ∃ t, exec (.persUnload k) s = .next t ∧ t = { s.toL0 with pers := t.pers } ∧ t.pers.dir = mdel s.pers.dir k ∧
          t.pers.result = 1))

/-- FRAME_RECEIVE, PFC_FRAME_RECEIVE, PAUSE_FRAME_RECEIVE, PAUSE_EXPIRY, PFC_XOFF_REPEAT, LINK_UP, LINK_DOWN,
MERGE_DEADLINE and RAW_FRAME_TIMEOUT (R482, R483, R484, R486, R487, R489, R493, R496, R503, R509). On a link in
service: a frame with a bad FCS or a length out of bounds only counts as that drop; a frame of a DROP flow counts in
its entry and goes nowhere; a frame that fails the IP or UDP checks counts as that drop. PFC and PAUSE frames pause
the classes that they name until their quanta end, and quanta 0 ends a pause, as its expiry does; a priority still
above XON repeats XOFF and one at or below it is let go. A link that comes up or goes down starts afresh with its
event. A merge deadline jumps the gap of a group that waits, and a raw timeout closes the first late frame. -/
def Obligations.NetworkIngestRows : Prop :=
  (∀ (p l : Nat) (f : RxFrame) (s : State), s.calm = true → s.linkOk p l = true → (s.link (s.linkOf p l)).up = true → f.fec = 0 →
      (f.fcsOk = false → exec (.frameReceive p l f) s = .next (s.rxDrop p 0 1)) ∧
      (f.fcsOk = true → (f.bytes.length + 4 < 64 ∨ s.maxFrame p < f.bytes.length + 4) →
        exec (.frameReceive p l f) s = .next (s.rxDrop p 1 1))) ∧
    (∀ (p l i : Nat) (f : RxFrame) (key pay : List Byte) (port : Nat) (x : Flow) (s : State), s.calm = true →
      s.linkOk p l = true → (s.link (s.linkOf p l)).up = true → f.fec = 0 → f.fcsOk = true → 64 ≤ f.bytes.length + 4 →
      f.bytes.length + 4 ≤ s.maxFrame p →
      ((List.range 8).map fun c => f.held.getD c 0).sum + f.bytes.length + 4 ≤ s.rxRoom p → beAt f.bytes 12 2 ≠ 0x8808 →
      parseFrame f.bytes = .udp key port pay → s.lookup key pay = .flow i → s.flow i = some x → x.action = 0 →
      ∃ t, exec (.frameReceive p l f) s = .next t ∧ t = { s with net := t.net, pages := t.pages, out := t.out } ∧
        t.flow i = some { x with
          packets := (x.packets + 1) % 2 ^ 64, bytes := (x.bytes + (f.bytes.length + 4)) % 2 ^ 64
          last := s.time.ns / 1000 % 2 ^ 32 } ∧ t.net.depacks = s.net.depacks ∧ t.net.merges = s.net.merges) ∧
    (∀ (p l k : Nat) (f : RxFrame) (s : State), s.calm = true → s.linkOk p l = true → (s.link (s.linkOf p l)).up = true →
      f.fec = 0 → f.fcsOk = true → 64 ≤ f.bytes.length + 4 → f.bytes.length + 4 ≤ s.maxFrame p →
      ((List.range 8).map fun c => f.held.getD c 0).sum + f.bytes.length + 4 ≤ s.rxRoom p → beAt f.bytes 12 2 ≠ 0x8808 →
      parseFrame f.bytes = .bad k →
      ∃ t, exec (.frameReceive p l f) s = .next t ∧ t = { s with net := t.net, pages := t.pages, out := t.out } ∧
        mgetD (t.port p).drops k 0 = (mgetD (s.port p).drops k 0 + 1) % 2 ^ 32 ∧ t.net.flows = s.net.flows) ∧
    (∀ (p l : Nat) (m : BitVec 8) (qs : List Nat) (s : State), s.calm = true → s.linkOk p l = true →
      (s.link (s.linkOf p l)).up = true → (s.portCfg p).getLsbD 21 = true →
      ∃ t, exec (.pfcFrameReceive p l m qs) s = .next t ∧ t = { s with net := t.net } ∧ t.net.flows = s.net.flows ∧
        (∀ c, c < 8 → m.getLsbD c = true → qs.getD c 0 % 65536 ≠ 0 →
          mget (t.link (s.linkOf p l)).paused c = some (s.time.ns + s.pauseNs p (qs.getD c 0 % 65536))) ∧
        (∀ c, c < 8 → m.getLsbD c = false →
          mget (t.link (s.linkOf p l)).paused c = mget (s.link (s.linkOf p l)).paused c)) ∧
    (∀ (p l q : Nat) (s : State), s.calm = true → s.linkOk p l = true → (s.link (s.linkOf p l)).up = true →
      (s.portCfg p).getLsbD 22 = true → q % 65536 ≠ 0 →
      ∃ t, exec (.pauseFrameReceive p l q) s = .next t ∧ t = { s with net := t.net } ∧
        ∀ c, c < 8 → mget (t.link (s.linkOf p l)).paused c = some (s.time.ns + s.pauseNs p (q % 65536))) ∧
    (∀ (p l c : Nat) (s : State), s.calm = true → s.linkOk p l = true →
      exec (.pauseExpiry p l c) s = .next (s.modLink (s.linkOf p l) fun x => { x with paused := mdel x.paused c })) ∧
    (∀ (p l c h : Nat) (s : State), s.calm = true → s.linkOk p l = true → c < 8 →
      (s.link (s.linkOf p l)).xoff.contains c = true →
      ((s.xoffAt p).2 < h → ∃ t, exec (.pfcXoffRepeat p l c h) s = .next t ∧ t = { s with net := t.net, out := t.out } ∧
        t.out = .pfc (s.linkOf p l) c 0xFFFF :: s.out ∧ (t.link (s.linkOf p l)).xoff = (s.link (s.linkOf p l)).xoff) ∧
      (h ≤ (s.xoffAt p).2 → ∃ t, exec (.pfcXoffRepeat p l c h) s = .next t ∧
        t = { s with net := t.net, pages := t.pages, out := t.out } ∧ t.out = .pfc (s.linkOf p l) c 0 :: s.out ∧
        (t.link (s.linkOf p l)).xoff = (s.link (s.linkOf p l)).xoff.filter (· != c))) ∧
    (∀ (p l : Nat) (s : State), s.calm = true → s.linkOk p l = true → (s.link (s.linkOf p l)).up = false →
      ∃ t, exec (.linkUp p l) s = .next t ∧ t = { s with net := t.net, pages := t.pages } ∧
        t.link (s.linkOf p l) = { up := true } ∧ (t.page (10 + p)).evtPend.getLsbD 1 = true) ∧
    (∀ (p l : Nat) (s : State), s.calm = true → s.linkOk p l = true → (s.link (s.linkOf p l)).up = true →
      ∃ t, exec (.linkDown p l) s = .next t ∧ t = { s with net := t.net, pages := t.pages } ∧ t.link (s.linkOf p l) = {} ∧
        (t.page (10 + p)).evtPend.getLsbD 1 = true) ∧
    (∀ (g : Nat) (s : State), s.calm = true → (s.merge g).waiting = true →
      ∃ t, exec (.mergeDeadline g) s = .next t ∧ t = (s.jumpGap g).settle ∧
        ∀ (k : Nat) (h : MergeFrame) (f : Flow) (r : Rtp), (s.merge g).next = some k → (s.merge g).held = [h] →
          s.flow h.flow = some f → f.depack ≠ 3 → parseRtp h.pay = some r → f.pt ≠ 255 → r.pt ≠ f.pt →
          (t.merge g).next = some ((h.seq + 1) % 65536) ∧ (t.merge g).held = [] ∧ (t.merge g).waiting = false ∧
          (t.flow h.flow).map Flow.gaps = some ((f.gaps + ahead h.seq k) % 2 ^ 32) ∧ t.mem = s.mem ∧ t.jobs = s.jobs) ∧
    (∀ (d : Nat) (r : RawDepack) (f : RawFrame) (y : Nat × Flow) (s : State), s.calm = true → mget s.net.raws d = some r →
      r.frames.find? RawFrame.late = some f →
      s.net.flows.find? (fun x => x.2.action == 4 && x.2.target == d) = some y → s.flow y.1 = some y.2 →
      ∃ t, exec (.rawFrameTimeout d) s = .next t ∧ t = (s.closeRaw d y.1 f).settle ∧
        (mget t.net.raws d).map RawDepack.frames = some (r.frames.filter fun x => x.k != f.k) ∧
        (t.flow y.1).map Flow.delivered = some ((y.2.delivered + 1) % 2 ^ 32) ∧ t.jobs = s.jobs ∧ t.streams = s.streams)

/-- FLOW_INSERT, FLOW_DELETE, FLOW_MODIFY, FLOW_LOOKUP and METER_COMMIT (R490, R491, R492, R493, R494, R495, R497, R499,
R501). The key and entry bytes come from the command registers. A key that is not canonical answers BAD_KEY and
changes nothing. INSERT of a new key whose entry passes its checks stores it in the first free place of its two
buckets; a key that is present answers DUPLICATE, and a full pair of buckets answers FULL; DELETE, MODIFY and LOOKUP
of an absent key answer NOT_FOUND; DELETE removes the entry, MODIFY replaces its bytes 48 to 79 and keeps its
counters, and LOOKUP answers its index. A meter commit of a valid configuration makes it active with full buckets and
keeps its counters; an invalid one is rejected with RANGE. -/
def Obligations.FlowTableRows : Prop :=
  (∀ (h : Option (List Byte)) (s : State), s.hears 14 = true → keyOk s.cmdKey = false → s.descWaits s.cmdData = false →
      exec (.flowInsert h) s = .next (s.toL0.flowDone 0x13 none) ∧ exec .flowDelete s = .next (s.toL0.flowDone 0x13 none) ∧
      exec (.flowModify h) s = .next (s.toL0.flowDone 0x13 none) ∧ exec .flowLookup s = .next (s.toL0.flowDone 0x13 none)) ∧
    (∀ (h : Option (List Byte)) (s : State), s.hears 14 = true → keyOk s.cmdKey = true → s.descWaits s.cmdData = false →
      s.findFlow s.cmdKey = none → exec .flowDelete s = .next (s.toL0.flowDone 0x12 none) ∧
      exec (.flowModify h) s = .next (s.toL0.flowDone 0x12 none) ∧ exec .flowLookup s = .next (s.toL0.flowDone 0x12 none)) ∧
    (∀ (i : Nat) (h : Option (List Byte)) (s : State), s.hears 14 = true → keyOk s.cmdKey = true →
      s.descWaits s.cmdData = false → s.findFlow s.cmdKey = some i →
      exec (.flowInsert h) s = .next (s.toL0.flowDone 0x10 none) ∧
      ((s.flow i).isSome = true → exec .flowLookup s = .next (s.toL0.flowDone 0x01 (some i)))) ∧
    (∀ (i : Nat) (h : Option (List Byte)) (f : Flow) (s : State), s.hears 14 = true → keyOk s.cmdKey = true →
      s.descWaits s.cmdData = false → s.findFlow s.cmdKey = none → f = { key := s.cmdKey, data := s.cmdData } →
      (bucket 0 (crc32c s.cmdKey) ++ bucket 1 (crc32c s.cmdKey)).find? (fun e => (s.flow e).isNone) = some i →
      s.entryCheck i f (s.readDesc s.cmdData h) false = 0 →
      ∃ t, exec (.flowInsert h) s = .next t ∧ t.flow i = some f ∧ t.net.flowResult = 0x01 ∧ t.net.flowIndex = i ∧
        t.net.flowSeq = (s.net.flowSeq + 1) % 256 ∧ (∀ e, e ≠ i → t.flow e = s.flow e) ∧ t.mem = s.mem) ∧
    (∀ (h : Option (List Byte)) (s : State), s.hears 14 = true → keyOk s.cmdKey = true → s.descWaits s.cmdData = false →
      s.findFlow s.cmdKey = none →
      (bucket 0 (crc32c s.cmdKey) ++ bucket 1 (crc32c s.cmdKey)).find? (fun e => (s.flow e).isNone) = none →
      s.entryCheck 65536 { key := s.cmdKey, data := s.cmdData } (s.readDesc s.cmdData h) false = 0 →
      exec (.flowInsert h) s = .next (s.toL0.flowDone 0x11 none)) ∧
    (∀ (i : Nat) (f : Flow) (s : State), s.hears 14 = true → keyOk s.cmdKey = true → s.findFlow s.cmdKey = some i →
      s.flow i = some f →
      ∃ t, exec .flowDelete s = .next t ∧ t.net.flows = mdel s.net.flows i ∧ t.net.flowResult = 0x01 ∧ t.mem = s.mem ∧
        t.net.meters = s.net.meters) ∧
    (∀ (i : Nat) (h : Option (List Byte)) (f : Flow) (s : State), s.hears 14 = true → keyOk s.cmdKey = true →
      s.descWaits s.cmdData = false → s.findFlow s.cmdKey = some i → s.flow i = some f →
      s.entryCheck i { f with data := s.cmdData } (s.readDesc s.cmdData h) (!f.rebinds { f with data := s.cmdData }) = 0 →
      ∃ t, exec (.flowModify h) s = .next t ∧ t.flow i = some { f with data := s.cmdData } ∧ t.net.flowResult = 0x01 ∧
        t.net.flowIndex = i ∧ (∀ e, e ≠ i → t.flow e = s.flow e) ∧ t.mem = s.mem) ∧
    (∀ (m : Nat) (s : State), s.hears 15 = true → m < 4096 →
      (meterOk (s.meter m).cfg = true →
        exec (.meterCommit m) s = .next (s.toL0.modMeter m fun x => { x with
          act := x.cfg, last := s.time.ns, tc := ({ x with act := x.cfg }).field 1 3 * 65536
          te := ({ x with act := x.cfg }).field 12 3 * 65536 })) ∧
      (meterOk (s.meter m).cfg = false → exec (.meterCommit m) s = .next (s.toL0.reject 15 1 0)))

/-- EQ_ENABLE, EQ_DISABLE, PSI_UPDATE, PSI_REPEAT, PCR_DUE, DEPARTURE_DECISION, TXSTAMP_ENABLE and EGRESS_PACKET_TAKE
(R511, R512, R513, R517, R518, R522, R523, R524, R526, R528, R530). ENABLE of a queue of the port whose fields lie in
range, without packetizer or with a template that passes, enables it with a full bucket; one of another port, one that
is enabled and one out of range are refused with their code. DISABLE leaves the queue disabled with its configuration
and counters and frees what it held; PSI_UPDATE asks for the PSI packets, a repetition makes them due, and a PCR
interval makes a PCR due. A departure sends the next frame of the queue that the scheduler picks, pays its class and
queue, and counts it. TXSTAMP_CTRL takes effect on a valid size. A whole host frame that the queue has use for leaves
its Caldera queue and waits, padded to 60 bytes, and a packet for a disabled queue is discarded. -/
def Obligations.EgressRows : Prop :=
  (∀ (p q : Nat) (h r : Option (List Byte)) (s : State), p < 2 → q < 4096 → s.hears (12 + p) = true →
      ((s.egressQ q).port ≠ p → exec (.eqEnable p q h r) s = .next (s.toL0.eqDone p 0x10 q) ∧
        exec (.eqDisable p q) s = .next (s.toL0.eqDone p 0x10 q) ∧
        exec (.psiUpdate p q) s = .next (s.toL0.eqDone p 0x10 q)) ∧
      ((s.egressQ q).port = p → (s.egressQ q).enabled = true →
        exec (.eqEnable p q h r) s = .next (s.toL0.eqDone p 0x11 q)) ∧
      ((s.egressQ q).port = p → (s.egressQ q).enabled = false → eqFieldsOk (s.egressQ q) = false →
        exec (.eqEnable p q h r) s = .next (s.toL0.eqDone p 0x12 q)) ∧
      ((s.egressQ q).port = p → (s.egressQ q).enabled = false → eqFieldsOk (s.egressQ q) = true → (s.egressQ q).kind = 0 →
        (s.egressQ q).twinEn = false →
        ∃ t, exec (.eqEnable p q h r) s = .next t ∧ t = { s.toL0 with net := t.net, pages := t.pages } ∧
          t.egressQ q = enabledQ { s.egressQ q with hdr := [] } [] s.time.ns ∧ (t.port p).result = 0x01) ∧
      (∀ l, (s.egressQ q).port = p → (s.egressQ q).enabled = false → eqFieldsOk (s.egressQ q) = true →
        3 ≤ (s.egressQ q).kind → (s.egressQ q).twinEn = false → (isDev ((s.egressQ q).at 8 8) = true ∨ s.hostReach = true) →
        s.readTagged ((s.egressQ q).at 8 8) 128 h = some l → templateOk { s.egressQ q with hdr := l } = true →
        ({ s.egressQ q with hdr := l } : EgressQ).largest + 4 ≤ s.maxFrame p →
        ∃ t, exec (.eqEnable p q h r) s = .next t ∧ t = { s.toL0 with net := t.net, pages := t.pages } ∧
          t.egressQ q = enabledQ { s.egressQ q with hdr := l } [] s.time.ns ∧ (t.port p).result = 0x01) ∧
      ((s.egressQ q).port = p → (s.egressQ q).build = [] → (s.egressQ q).ready = [] → (s.egressQ q).copies = [] →
        (s.egressQ q).esFrees = [] →
        ∃ t, exec (.eqDisable p q) s = .next t ∧ t = { s.toL0 with net := t.net, pages := t.pages } ∧
          (t.egressQ q).enabled = false ∧ (t.egressQ q).cfg = (s.egressQ q).cfg ∧ (t.egressQ q).sent = (s.egressQ q).sent ∧
          (t.egressQ q).discarded = (s.egressQ q).discarded ∧ (t.port p).result = 0x01) ∧
      ((s.egressQ q).port = p → (s.egressQ q).enabled = true → (s.egressQ q).isTs = true →
        exec (.psiUpdate p q) s = .next ((s.toL0.modEq q fun x => { x with psiAsked := true }).eqDone p 0x01 q))) ∧
    (∀ (q : Nat) (h : Option (List Byte)) (s : State), s.calm = true → q < 4096 → (s.egressQ q).enabled = true →
      (s.egressQ q).isTs = true →
      ((s.egressQ q).psiAsked = false → ∃ t, exec (.psiRepeat q h) s = .next t ∧ t = { s with net := t.net } ∧
        t.egressQ q = ({ s.egressQ q with psiDue := true } : EgressQ).work ∧ ∀ e, e ≠ q → t.egressQ e = s.egressQ e) ∧
      ((s.egressQ q).stc ≠ none → ∃ t, exec (.pcrDue q) s = .next t ∧ t = { s with net := t.net } ∧
        t.egressQ q = ({ s.egressQ q with pcrDue := true } : EgressQ).work ∧ ∀ e, e ≠ q → t.egressQ e = s.egressQ e)) ∧
    (∀ (p l d k c e n : Nat) (u : State) (sc : Sched) (cs qs : List Member) (picks : List (Option (Nat × List Member)))
      (b : Piece) (r : List Piece) (s : State), s.calm = true → s.linkOk p l = true → k = s.linkOf p l →
      (s.page (12 + p)).groups = 0 → u = s.rejoinLink k →
      sc = mgetD u.net.scheds k {} → picks = (List.range 8).map (fun c => u.pickQueue sc c) →
      pickMember (fun c => match picks.getD c none with
        | some (e, _) => u.eqNeed e
        | none => 0) (pickFuel sc.classes) sc.classes = some (c, cs) → picks.getD c none = some (e, qs) → n = u.eqNeed e →
      (s.egressQ e).kind = 0 → (s.egressQ e).copies = [] → (s.egressQ e).ready = b :: r → b.frees = [] → b.stamp = none →
      ∃ t, exec (.departureDecision p l d) s = .next t ∧ t = (State.rejoinLink (State.sendFrame { u with
        net := { u.net with scheds := mset u.net.scheds k { classes := pay n cs, queues := mset sc.queues c (pay n qs) } } }
          k e (s.time.ns + d)) k).settle ∧ t.out = .eth k b.bytes :: s.out ∧
        (t.egressQ e).sent = ((s.egressQ e).sent + 1) % 2 ^ 32 ∧ (t.egressQ e).ready = r ∧ t.mem = s.mem ∧ t.jobs = s.jobs) ∧
    (∀ (k e t : Nat) (s : State), (s.egressQ e).copies = [] → (s.egressQ e).kind = 0 →
      (s.egressQ e).ready ≠ [] → (∀ x ∈ (s.egressQ e).ready, x.frees = [] ∧ x.stamp = none) →
      (s.sendFrame k e t).out = .eth k (((s.egressQ e).ready.head?.map Piece.bytes).getD []) :: s.out ∧
      ((s.sendFrame k e t).egressQ e).sent = ((s.egressQ e).sent + 1) % 2 ^ 32 ∧
      ((s.sendFrame k e t).egressQ e).ready = (s.egressQ e).ready.drop 1) ∧
    (∀ (p : Nat) (v : Word) (s : State), p < 2 → s.hears (12 + p) = true → fld v 30 4 = 0 → 4 ≤ fld v 3 0 → fld v 3 0 ≤ 12 →
      v.getLsbD 31 = true → (s.port p).stamps.en = false →
      ∃ t, exec (.txstampEnable p v) s = .next t ∧ t = { s.toL0 with net := t.net } ∧ (t.port p).stamps =
        { en := true, log2 := fld v 3 0, seq := 0
          base := ((s.reg (12 + p) 0x304).toNat * 2 ^ 32 + (s.reg (12 + p) 0x300).toNat) / 64 * 64 }) ∧
    (∀ (q e : Nat) (p : Packet) (l : List Packet) (h : Option (List Byte)) (s : State), s.calm = true → q < 4096 →
      (s.clq q).enabled = true → (s.clq q).cfg.consumer = 1 → (s.clq q).cfg.consumerId = e → (s.clq q).reading = none →
      (s.clq q).complete = p :: l → (s.clq q).flushPending = false → s.netUp = true → p.crust.typ = .data →
      s.isTwin e = false →
      ((s.egressQ e).enabled = true → (s.link (s.eqLink (s.egressQ e))).up = true → (s.egressQ e).kind = 0 →
        (s.egressQ e).ready = [] → p.payload.length + 4 ≤ s.maxFrame (s.egressQ e).port → bit p.crust.tag 15 = false →
        ∃ t, exec (.egressPacketTake q h) s = .next t ∧ (t.clq q).complete = l ∧ t.mem = s.mem ∧
          (t.egressQ e).ready = [{ bytes := p.payload ++ List.replicate (60 - p.payload.length) 0 }]) ∧
      ((s.egressQ e).enabled = false →
        ∃ t, exec (.egressPacketTake q h) s = .next t ∧ (t.clq q).complete = l ∧ t.mem = s.mem ∧
          (t.egressQ e).discarded = ((s.egressQ e).discarded + 1) % 2 ^ 32))

/-- s0 and p0 (R234). Register s0 of every sequencer reads 0 and p0 reads all ones, whatever the sequencer holds. A write
of either changes nothing, and an instruction that names one of them as its destination goes on without a fault. -/
def Obligations.ZeroRegistersReadConstant : Prop :=
  (∀ x : Seq, x.sreg 0 = 0 ∧ x.preg 0 = BitVec.allOnes 256) ∧
    (∀ (n q : Nat) (w : Word) (p : BitVec 256) (s : State), s.setS n q 0 w = s ∧ s.setP n q 0 p = s) ∧
    (∀ (n q : Nat) (i : Ins) (s : State), s.guarded n q i = true → i.d = 0 →
      (i.c % 16 = 0 → exec (.sli n q i) s = .next ((s.counted n q (.sli n q i)).advance n q)) ∧
      (i.a < 8 → i.b < 8 → exec (.pnot n q i) s = .next ((s.counted n q (.pnot n q i)).advance n q)))

/-- The wafer (R431). A read of any length of a queue with no packet to give returns the wafer, whether or not a packet is
open, and changes nothing but the item returned. The wafer is 8 bytes whose number, in the layout of a crust, has
every field 0 but QUEUE in [11:0]: TYPE IDLE in [63:60], the flags in [59:56], LENGTH in [55:32] and TAG in [31:16]
read 0. -/
def Obligations.EmptyQueueReturnsTheWafer : Prop :=
  (∀ (q n : Nat) (s : State), s.calm = true → q < 4096 → (s.clq q).reading = none → (s.clq q).complete = [] →
      exec (.clqRead q n) s = .next { s with qm := { s.qm with item := waferBytes q } }) ∧
    (∀ q, q < 4096 → (waferBytes q).length = 8 ∧ leNat (waferBytes q) = q)
end

