-- ==== Sys2Proof/Laws/Memory.lean ====
section
/-!
SUPPORT. The finite maps, and the canonical form of device memory with its read-after-write laws.
-/
namespace Sys2Proof

/-! ### Finite maps -/

/-- Reading the key that was written. -/
@[simp] theorem mget_mset_self {α : Type} (m : Map α) (k : Nat) (v : α) : mget (mset m k v) k = some v := by
  induction m with
  | nil => simp [mset, mget]
  | cons x t ih =>
    obtain ⟨a, w⟩ := x
    unfold mset
    split
    · simp [mget]
    · split
      · simp [mget]
      · rename_i h1 h2; simp [mget, h2, ih]

/-- Reading another key than the one that was written. -/
theorem mget_mset_ne {α : Type} (m : Map α) {k j : Nat} (v : α) (h : j ≠ k) : mget (mset m k v) j = mget m j := by
  induction m with
  | nil => simp [mset, mget, h]
  | cons x t ih =>
    obtain ⟨a, w⟩ := x
    unfold mset
    split
    · simp [mget, h]
    · split
      · rename_i h1 h2; subst h2; simp [mget, h]
      · simp [mget, ih]

/-- Reading with a default the key that was written. -/
@[simp] theorem mgetD_mset_self {α : Type} (m : Map α) (k : Nat) (v d : α) : mgetD (mset m k v) k d = v := by
  simp [mgetD]

/-- Reading with a default another key than the one that was written. -/
theorem mgetD_mset_ne {α : Type} (m : Map α) {k j : Nat} (v d : α) (h : j ≠ k) : mgetD (mset m k v) j d = mgetD m j d := by
  simp [mgetD, mget_mset_ne m v h]

theorem mset_mset {α : Type} (m : Map α) (k : Nat) (v w : α) : mset (mset m k v) k w = mset m k w := by
  induction m with
  | nil => simp [mset]
  | cons x t ih =>
    obtain ⟨a, u⟩ := x
    by_cases h1 : k < a
    · simp [mset, h1]
    · by_cases h2 : k = a
      · simp [mset, h2]
      · simp [mset, h1, h2, ih]

/-- A key below every key of a sorted map is not in it. -/
theorem msorted_tail {α : Type} {x : Nat × α} {t : Map α} (h : msorted (x :: t) = true) : msorted t = true := by
  obtain ⟨a, w⟩ := x
  cases t with
  | nil => rfl
  | cons y u => obtain ⟨b, z⟩ := y; simp only [msorted, Bool.and_eq_true] at h; exact h.2

/-- Every later key of a sorted map is greater than the first. -/
theorem msorted_lt {α : Type} {a : Nat} {w : α} {t : Map α} (h : msorted ((a, w) :: t) = true) :
    ∀ y ∈ t, a < y.1 := by
  induction t generalizing a w with
  | nil => simp
  | cons y u ih =>
    obtain ⟨b, z⟩ := y
    simp only [msorted, Bool.and_eq_true, decide_eq_true_eq] at h
    intro c hc
    cases hc with
    | head => exact h.1
    | tail _ hc => exact Nat.lt_trans h.1 (ih h.2 c hc)

/-- A map is sorted when its first key is below all others and the rest is sorted. -/
theorem msorted_cons {α : Type} {a : Nat} {w : α} {t : Map α} (h : ∀ y ∈ t, a < y.1) (ht : msorted t = true) :
    msorted ((a, w) :: t) = true := by
  cases t with
  | nil => rfl
  | cons y u =>
    obtain ⟨b, z⟩ := y
    simp only [msorted, Bool.and_eq_true, decide_eq_true_eq]
    exact ⟨h (b, z) (by simp), ht⟩

/-- The entries of a written map: the new one, or old ones. -/
theorem mem_mset {α : Type} {m : Map α} {k : Nat} {v : α} {y : Nat × α} (h : y ∈ mset m k v) : y = (k, v) ∨ y ∈ m := by
  induction m with
  | nil => simpa [mset] using h
  | cons x t ih =>
    obtain ⟨a, w⟩ := x
    unfold mset at h
    split at h
    · rcases List.mem_cons.mp h with h | h
      · exact .inl h
      · exact .inr h
    · split at h
      · rcases List.mem_cons.mp h with h | h
        · exact .inl h
        · exact .inr (List.mem_cons_of_mem _ h)
      · rcases List.mem_cons.mp h with h | h
        · exact .inr (by simp [h])
        · rcases ih h with h | h
          · exact .inl h
          · exact .inr (List.mem_cons_of_mem _ h)

/-- Writing keeps a map sorted. -/
theorem msorted_mset {α : Type} (m : Map α) (k : Nat) (v : α) (h : msorted m = true) : msorted (mset m k v) = true := by
  induction m with
  | nil => rfl
  | cons x t ih =>
    obtain ⟨a, w⟩ := x
    unfold mset
    split
    · rename_i hk
      refine msorted_cons (fun y hy => ?_) h
      rcases List.mem_cons.mp hy with rfl | hy
      · exact hk
      · exact Nat.lt_trans hk (msorted_lt h y hy)
    · split
      · rename_i hk; subst hk
        exact msorted_cons (msorted_lt h) (msorted_tail h)
      · rename_i h1 h2
        refine msorted_cons (fun y hy => ?_) (ih (msorted_tail h))
        rcases mem_mset hy with rfl | hy
        · exact Nat.lt_of_le_of_ne (Nat.le_of_not_lt h1) (Ne.symm h2)
        · exact msorted_lt h y hy

/-- The entries that removal leaves are old ones. -/
theorem mem_mdel {α : Type} {m : Map α} {k : Nat} {y : Nat × α} (h : y ∈ mdel m k) : y ∈ m := by
  induction m with
  | nil => simp [mdel] at h
  | cons x t ih =>
    obtain ⟨a, w⟩ := x
    unfold mdel at h
    split at h
    · exact List.mem_cons_of_mem _ h
    · rcases List.mem_cons.mp h with h | h
      · exact h ▸ List.mem_cons_self ..
      · exact List.mem_cons_of_mem _ (ih h)

/-- Removal keeps a map sorted. -/
theorem msorted_mdel {α : Type} (m : Map α) (k : Nat) (h : msorted m = true) : msorted (mdel m k) = true := by
  induction m with
  | nil => rfl
  | cons x t ih =>
    obtain ⟨a, w⟩ := x
    unfold mdel
    split
    · exact msorted_tail h
    · exact msorted_cons (fun y hy => msorted_lt h y (mem_mdel hy)) (ih (msorted_tail h))

/-- A key below all of a map's keys reads as none. -/
theorem mget_none_of_lt {α : Type} {m : Map α} {k : Nat} (h : ∀ y ∈ m, k < y.1) : mget m k = none := by
  induction m with
  | nil => rfl
  | cons x t ih =>
    obtain ⟨a, w⟩ := x
    have ha : k < a := h (a, w) (by simp)
    simp [mget, Nat.ne_of_lt ha, ih (fun y hy => h y (List.mem_cons_of_mem _ hy))]

/-- The removed key of a sorted map reads as none. -/
theorem mget_mdel_self {α : Type} (m : Map α) (k : Nat) (h : msorted m = true) : mget (mdel m k) k = none := by
  induction m with
  | nil => rfl
  | cons x t ih =>
    obtain ⟨a, w⟩ := x
    unfold mdel
    split
    · rename_i hk; subst hk; exact mget_none_of_lt (msorted_lt h)
    · rename_i hk; simp [mget, hk, ih (msorted_tail h)]

/-- Removal leaves the other keys. -/
theorem mget_mdel_ne {α : Type} (m : Map α) {k j : Nat} (h : j ≠ k) : mget (mdel m k) j = mget m j := by
  induction m with
  | nil => rfl
  | cons x t ih =>
    obtain ⟨a, w⟩ := x
    unfold mdel
    split
    · rename_i hk; subst hk; simp [mget, h]
    · simp [mget, ih]

/-- Filtering keeps a map sorted. -/
theorem msorted_filter {α : Type} (m : Map α) (p : Nat × α → Bool) (h : msorted m = true) : msorted (m.filter p) = true := by
  induction m with
  | nil => rfl
  | cons x t ih =>
    obtain ⟨a, w⟩ := x
    rw [List.filter_cons]
    split
    · exact msorted_cons (fun y hy => msorted_lt h y (List.mem_filter.mp hy).1) (ih (msorted_tail h))
    · exact ih (msorted_tail h)

namespace Machine

/-! ### Device memory -/

/-- A write of one byte keeps the canonical form. -/
theorem memPut_wf (m : List Host.Cell) (a : Nat) (b : Byte) (h : Memory.wf m = true) : Memory.wf (memPut m a b) = true := by
  simp only [Memory.wf, Bool.and_eq_true, List.all_eq_true, decide_eq_true_eq] at h ⊢
  unfold memPut
  split
  · rename_i ha
    split
    · exact ⟨msorted_mdel m a h.1, fun y hy => h.2 y (mem_mdel hy)⟩
    · rename_i hb
      refine ⟨msorted_mset m a b h.1, fun y hy => ?_⟩
      rcases mem_mset hy with rfl | hy
      · exact ⟨ha, hb⟩
      · exact h.2 y hy
  · exact h

/-- A write of bytes keeps the canonical form. -/
theorem memPutAll_wf (m : List Host.Cell) (a : Nat) (bs : List Byte) (h : Memory.wf m = true) :
    Memory.wf (memPutAll m a bs) = true := by
  induction bs generalizing m a with
  | nil => exact h
  | cons b t ih => exact ih _ _ (memPut_wf m a b h)

/-- Zeroing a run keeps the canonical form. -/
theorem zeroRun_wf (m : List Host.Cell) (a n : Nat) (h : Memory.wf m = true) : Memory.wf (zeroRun m a n) = true := by
  simp only [Memory.wf, Bool.and_eq_true, List.all_eq_true] at h ⊢
  exact ⟨msorted_filter m _ h.1, fun y hy => h.2 y (List.mem_filter.mp hy).1⟩

/-- Reading the byte that was written. -/
theorem memByte_memPut_self (m : List Host.Cell) {a : Nat} (b : Byte) (h : Memory.wf m = true) (ha : a < 2 ^ 40) :
    memByte (memPut m a b) a = b := by
  simp only [Memory.wf, Bool.and_eq_true] at h
  unfold memByte memPut
  rw [if_pos ha]
  split
  · rename_i hb; simp [mgetD, mget_mdel_self m a h.1, hb]
  · simp

/-- A write leaves every other byte. -/
theorem memByte_memPut_ne (m : List Host.Cell) {a c : Nat} (b : Byte) (h : c ≠ a) : memByte (memPut m a b) c = memByte m c := by
  unfold memByte memPut mgetD
  split
  · split
    · rw [mget_mdel_ne m h]
    · rw [mget_mset_ne m b h]
  · rfl

/-- A write of a run leaves every byte outside it. -/
theorem memByte_memPutAll_out (m : List Host.Cell) (a c : Nat) (bs : List Byte) (h : c < a ∨ a + bs.length ≤ c) :
    memByte (memPutAll m a bs) c = memByte m c := by
  induction bs generalizing m a with
  | nil => rfl
  | cons b t ih =>
    simp only [List.length_cons] at h
    unfold memPutAll
    rw [ih _ _ (by omega), memByte_memPut_ne m b (by omega)]

/-- A write of a run puts each byte at its place. -/
theorem memByte_memPutAll_in (m : List Host.Cell) (a : Nat) (bs : List Byte) (k : Nat) (h : Memory.wf m = true)
    (hk : k < bs.length) (ha : a + bs.length ≤ 2 ^ 40) : memByte (memPutAll m a bs) (a + k) = bs.getD k 0 := by
  induction bs generalizing m a k with
  | nil => simp at hk
  | cons b t ih =>
    simp only [List.length_cons] at hk ha
    unfold memPutAll
    cases k with
    | zero =>
      rw [memByte_memPutAll_out _ _ _ _ (by omega)]
      exact memByte_memPut_self m b h (by omega)
    | succ k =>
      have := ih (memPut m a b) (a + 1) k (memPut_wf m a b h) (by omega) (by omega)
      rw [show a + (k + 1) = a + 1 + k by omega, this]
      rfl

/-- A write to device memory of the state keeps the canonical form. -/
theorem State.write_wf (s : State) (a : Nat) (bs : List Byte) (h : Memory.wf s.mem = true) :
    Memory.wf (s.write a bs).mem = true := memPutAll_wf s.mem a bs h

/-- Two steps that change nothing but the PCIe function and the trace change nothing else together. -/
theorem linkOnly_trans {s t u : State} (h1 : t = { s with pcie := t.pcie, out := t.out })
    (h2 : u = { t with pcie := u.pcie, out := u.out }) : u = { s with pcie := u.pcie, out := u.out } := by
  cases s; cases t; cases u
  simp only [State.mk.injEq] at *
  simp_all only [and_self]

/-- A fold of operations that change nothing but the PCIe function and the trace changes nothing else. -/
theorem foldl_linkOnly {α : Type} (f : State → α → State)
    (hf : ∀ (s : State) (x : α), f s x = { s with pcie := (f s x).pcie, out := (f s x).out }) (l : List α) :
    ∀ s : State, l.foldl f s = { s with pcie := (l.foldl f s).pcie, out := (l.foldl f s).out } := by
  induction l with
  | nil => intro s; rfl
  | cons x t ih =>
    intro s
    exact linkOnly_trans (hf s x) (ih (f s x))

/-- What a request of the part changes: the link leaves L1 and the trace grows (R107). -/
theorem State.send_linkOnly (s : State) (o : Out) :
    s.send o = { s with pcie := (s.send o).pcie, out := (s.send o).out } := by
  unfold State.send State.emit State.toL0; split <;> rfl

/-- The requests of one write of host memory change nothing but the PCIe function and the trace (R98, R99). -/
theorem State.putOut_linkOnly (s : State) (a : Nat) (bs : List Byte) (c : Bool) :
    s.putOut a bs c = { s with pcie := (s.putOut a bs c).pcie, out := (s.putOut a bs c).out } :=
  foldl_linkOnly _ (fun _ _ => State.send_linkOnly _ _) _ s

/-- A write of host memory changes nothing but the PCIe function and the trace: it leaves, or is held (R104). -/
theorem State.hostPut_linkOnly (s : State) (a : Nat) (bs : List Byte) (c : Bool) :
    s.hostPut a bs c = { s with pcie := (s.hostPut a bs c).pcie, out := (s.hostPut a bs c).out } := by
  unfold State.hostPut
  split
  · exact s.putOut_linkOnly a bs c
  · rfl

/-- A read of host memory changes nothing but the PCIe function and the trace (R99). -/
theorem State.hostAsk_linkOnly (s : State) (a n : Nat) (c : Bool) :
    s.hostAsk a n c = { s with pcie := (s.hostAsk a n c).pcie, out := (s.hostAsk a n c).out } :=
  foldl_linkOnly _ (fun _ _ => State.send_linkOnly _ _) _ s

/-- An AER error changes nothing but the PCIe function and the trace (R101). -/
theorem State.report_linkOnly (s : State) (e : AerError) :
    s.report e = { s with pcie := (s.report e).pcie, out := (s.report e).out } := by
  unfold State.report
  simp only
  split
  · exact linkOnly_trans (t := { s with pcie := { s.pcie with
      aer := e :: s.pcie.aer
      aerStatus := if s.pcie.aerStatus.contains e then s.pcie.aerStatus else s.pcie.aerStatus ++ [e] } }) rfl (State.send_linkOnly _ _)
  · rfl

/-- A write of host memory leaves device memory. -/
@[simp] theorem State.hostPut_mem (s : State) (a : Nat) (bs : List Byte) (c : Bool) : (s.hostPut a bs c).mem = s.mem := by
  rw [State.hostPut_linkOnly]

/-- A read of host memory leaves device memory. -/
@[simp] theorem State.hostAsk_mem (s : State) (a n : Nat) (c : Bool) : (s.hostAsk a n c).mem = s.mem := by
  rw [State.hostAsk_linkOnly]

/-- A write to a tagged address keeps the canonical form. -/
theorem State.writeTagged_wf (s : State) (t : Nat) (bs : List Byte) (h : Memory.wf s.mem = true) :
    Memory.wf (s.writeTagged t bs).mem = true := by
  unfold State.writeTagged
  split
  · split
    · exact State.write_wf s _ bs h
    · exact h
  · rw [State.hostPut_mem]; exact h

end Machine

end Sys2Proof
end

