-- ==== Sys2Proof/Laws/PerInstr.lean ====
section
/-!
SUPPORT. Statements made of every command, one lemma for each.
-/
namespace Sys2Proof.Laws

/-- No number is the value of none. -/
theorem no_core {n : Nat} {P : Prop} (h : (none : Option Nat) = some n) : P := nomatch h

/-- A check that begins with the bound on a core gives it. -/
theorem core_of_below {n m : Nat} {b : Bool} (h : some n = some m) (hw : (below 48 n && b) = true) : m < 48 := by
  cases h
  rw [Bool.and_eq_true] at hw
  exact of_decide_eq_true hw.1

/-- A check that is the bound on a core gives it. -/
theorem core_of_below_only {n m : Nat} (h : some n = some m) (hw : below 48 n = true) : m < 48 := by
  cases h
  exact of_decide_eq_true hw

set_option Elab.async false

namespace CoreExists

/-- A well-formed command that names a core names one of the 48 (R16). -/
def Statement (i : Instr) : Prop := ∀ n, i.coreOf = some n → i.wf = true → n < 48

theorem powerOn : Statement (.powerOn) := fun _ h _ => no_core h
theorem powerRemoval : Statement (.powerRemoval) := fun _ h _ => no_core h
theorem perstNRise (straps : Straps) : Statement (.perstNRise straps) := fun _ h _ => no_core h
theorem perstNAssert : Statement (.perstNAssert) := fun _ h _ => no_core h
theorem hotReset : Statement (.hotReset) := fun _ h _ => no_core h
theorem flr : Statement (.flr) := fun _ h _ => no_core h
theorem thermalTrip (mon : Nat) : Statement (.thermalTrip mon) := fun _ h _ => no_core h
theorem configRequest (req : CfgReq) (retry : Bool) : Statement (.configRequest req retry) := fun _ h _ => no_core h
theorem bootStageEnd (r : StageResult) : Statement (.bootStageEnd r) := fun _ h _ => no_core h
theorem stageTimeout : Statement (.stageTimeout) := fun _ h _ => no_core h
theorem hostGo (v : Word) : Statement (.hostGo v) := fun _ h _ => no_core h
theorem dormantRetryGo (v : Word) : Statement (.dormantRetryGo v) := fun _ h _ => no_core h
theorem monitorWindow (mon : Nat) (count : Nat) (tj : Int) : Statement (.monitorWindow mon count tj) := fun _ h _ => no_core h
theorem tempoLoopPeriod (a : AvsReply) : Statement (.tempoLoopPeriod a) := fun _ h _ => no_core h
theorem avsRetry (a : AvsReply) : Statement (.avsRetry a) := fun _ h _ => no_core h
theorem thermalSample : Statement (.thermalSample) := fun _ h _ => no_core h
theorem tempoUnder : Statement (.tempoUnder) := fun _ h _ => no_core h
theorem comparatorFire (q : Nat) (k : Nat) : Statement (.comparatorFire q k) := fun _ h _ => no_core h
theorem comparatorArm (q : Nat) (k : Nat) (v : Word) : Statement (.comparatorArm q k v) := fun _ h _ => no_core h
theorem comparatorDisarm (q : Nat) (k : Nat) (v : Word) : Statement (.comparatorDisarm q k v) := fun _ h _ => no_core h
theorem timeLoRead : Statement (.timeLoRead) := fun _ h _ => no_core h
theorem registerWrite (off : Nat) (len : Nat) (v : DWord) (h : HostAnswers) : Statement (.registerWrite off len v h) := fun _ h _ => no_core h
theorem windowAccess (off : Nat) (len : Nat) (wr : Option DWord) : Statement (.windowAccess off len wr) := fun _ h _ => no_core h
theorem go (page : Nat) (mask : BitVec 16) : Statement (.go page mask) := fun _ h _ => no_core h
theorem handOver (page : Nat) (group : Nat) (late : List (Nat × Word)) : Statement (.handOver page group late) := fun _ h _ => no_core h
theorem pageUnlock (page : Nat) : Statement (.pageUnlock page) := fun _ h _ => no_core h
theorem pageRelock (page : Nat) (key : BitVec 16) : Statement (.pageRelock page key) := fun _ h _ => no_core h
theorem pageLockTimeout (page : Nat) : Statement (.pageLockTimeout page) := fun _ h _ => no_core h
theorem unitReset (page : Nat) : Statement (.unitReset page) := fun _ h _ => no_core h
theorem unitResetDone (page : Nat) (t : SelfTest) : Statement (.unitResetDone page t) := fun _ h _ => no_core h
theorem unitFence (page : Nat) : Statement (.unitFence page) := fun _ h _ => no_core h
theorem unitUnfence (page : Nat) : Statement (.unitUnfence page) := fun _ h _ => no_core h
theorem unitDisable (page : Nat) : Statement (.unitDisable page) := fun _ h _ => no_core h
theorem unitEnable (page : Nat) : Statement (.unitEnable page) := fun _ h _ => no_core h
theorem unitDrained (page : Nat) : Statement (.unitDrained page) := fun _ h _ => no_core h
theorem snapTake (page : Nat) : Statement (.snapTake page) := fun _ h _ => no_core h
theorem snapRelease (page : Nat) : Statement (.snapRelease page) := fun _ h _ => no_core h
theorem evtSetWrite (page : Nat) (v : Word) : Statement (.evtSetWrite page v) := fun _ h _ => no_core h
theorem evtPendClear (page : Nat) (v : Word) : Statement (.evtPendClear page v) := fun _ h _ => no_core h
theorem bar2Read (off : Nat) (len : Nat) (ue : Bool) : Statement (.bar2Read off len ue) := fun _ h _ => no_core h
theorem bar2Write (off : Nat) (bytes : List Byte) (poisoned : Bool) : Statement (.bar2Write off bytes poisoned) := fun _ h _ => no_core h
theorem hostReadComplete (what : HostRead) (result : ReadEnd) : Statement (.hostReadComplete what result) := fun _ h _ => no_core h
theorem d3hotEntry : Statement (.d3hotEntry) := fun _ h _ => no_core h
theorem d0Return : Statement (.d0Return) := fun _ h _ => no_core h
theorem bmeClear : Statement (.bmeClear) := fun _ h _ => no_core h
theorem bmeSet : Statement (.bmeSet) := fun _ h _ => no_core h
theorem pmeStatusClear : Statement (.pmeStatusClear) := fun _ h _ => no_core h
theorem l1Entry : Statement (.l1Entry) := fun _ h _ => no_core h
theorem vectorMask (vec : Option Nat) : Statement (.vectorMask vec) := fun _ h _ => no_core h
theorem vectorUnmask (vec : Option Nat) : Statement (.vectorUnmask vec) := fun _ h _ => no_core h
theorem wqArm (q : Nat) : Statement (.wqArm q) := fun _ h _ => no_core h
theorem wqPause (q : Nat) : Statement (.wqPause q) := fun _ h _ => no_core h
theorem wqResume (q : Nat) : Statement (.wqResume q) := fun _ h _ => no_core h
theorem wqKick (q : Nat) : Statement (.wqKick q) := fun _ h _ => no_core h
theorem wqDiscard (q : Nat) : Statement (.wqDiscard q) := fun _ h _ => no_core h
theorem wqDisarm (q : Nat) : Statement (.wqDisarm q) := fun _ h _ => no_core h
theorem queuePoll (q : Nat) : Statement (.queuePoll q) := fun _ h _ => no_core h
theorem geyserVisit : Statement (.geyserVisit) := fun _ h _ => no_core h
theorem ownerWordRead (q : Nat) (w : Option DWord) : Statement (.ownerWordRead q w) := fun _ h _ => no_core h
theorem entryBodyRead (q : Nat) (body : Option (List Byte)) : Statement (.entryBodyRead q body) := fun _ h _ => no_core h
theorem jobParse (job : Nat) (table : Option (List Byte)) (param : Option (List Byte)) : Statement (.jobParse job table param) := fun _ h _ => no_core h
theorem jobRetire (job : Nat) : Statement (.jobRetire job) := fun _ h _ => no_core h
theorem completionWrite (q : Nat) : Statement (.completionWrite q) := fun _ h _ => no_core h
theorem cqHead (v : Word) : Statement (.cqHead v) := fun _ h _ => no_core h
theorem abortReq (v : Word) : Statement (.abortReq v) := fun _ h _ => no_core h
theorem abortAck (seq : BitVec 8) : Statement (.abortAck seq) := fun _ h _ => no_core h
theorem poolRetry (job : Nat) (host : Option (List Byte)) : Statement (.poolRetry job host) := fun _ h _ => no_core h
theorem streamOpen (job : Nat) (block : Option (List Byte)) (verdict : Nat) : Statement (.streamOpen job block verdict) := fun _ h _ => no_core h
theorem streamParams (job : Nat) (block : Option (List Byte)) (verdict : Nat) : Statement (.streamParams job block verdict) := fun _ h _ => no_core h
theorem streamClose (job : Nat) : Statement (.streamClose job) := fun _ h _ => no_core h
theorem encodeFrame (job : Nat) (r : FrameReport) : Statement (.encodeFrame job r) := fun _ h _ => no_core h
theorem encodeLadder (job : Nat) (overs : List (Option (List Byte))) : Statement (.encodeLadder job overs) := fun _ h _ => no_core h
theorem decodeUnit (job : Nat) (r : UnitReport) : Statement (.decodeUnit job r) := fun _ h _ => no_core h
theorem decodeDrain (job : Nat) : Statement (.decodeDrain job) := fun _ h _ => no_core h
theorem copy (job : Nat) (host : Option (List Byte)) : Statement (.copy job host) := fun _ h _ => no_core h
theorem fill (job : Nat) : Statement (.fill job) := fun _ h _ => no_core h
theorem barrier (job : Nat) : Statement (.barrier job) := fun _ h _ => no_core h
theorem mark (job : Nat) : Statement (.mark job) := fun _ h _ => no_core h
theorem query (job : Nat) : Statement (.query job) := fun _ h _ => no_core h
theorem invalidate (job : Nat) : Statement (.invalidate job) := fun _ h _ => no_core h
theorem markLong (job : Nat) : Statement (.markLong job) := fun _ h _ => no_core h
theorem exportPic (job : Nat) : Statement (.exportPic job) := fun _ h _ => no_core h
theorem releaseOutput (job : Nat) : Statement (.releaseOutput job) := fun _ h _ => no_core h
theorem jobPlace (job : Nat) (p : PlacePlan) : Statement (.jobPlace job p) := fun _ h _ => no_core h
theorem placerTempoRefresh (load : List Nat) : Statement (.placerTempoRefresh load) := fun _ h _ => no_core h
theorem coreSlow (n : Nat) : Statement (.coreSlow n) := fun _ h hw => core_of_below_only h hw
theorem slowClear (n : Nat) : Statement (.slowClear n) := fun _ h hw => core_of_below_only h hw
theorem rehomeStart (n : Nat) (cause : Nat) : Statement (.rehomeStart n cause) := fun _ h _ => no_core h
theorem rehomeAllocate (n : Nat) : Statement (.rehomeAllocate n) := fun _ h _ => no_core h
theorem rehomeDone (n : Nat) : Statement (.rehomeDone n) := fun _ h _ => no_core h
theorem rehomeRetry (n : Nat) : Statement (.rehomeRetry n) := fun _ h _ => no_core h
theorem rehomeReq (v : Word) : Statement (.rehomeReq v) := fun _ h _ => no_core h
theorem quadrantPark (q : Nat) : Statement (.quadrantPark q) := fun _ h _ => no_core h
theorem quadrantPowerUp (q : Nat) (t : SelfTest) : Statement (.quadrantPowerUp q t) := fun _ h _ => no_core h
theorem jobEnterCore (job : Nat) (n : Nat) : Statement (.jobEnterCore job n) := fun _ h hw => core_of_below_only h hw
theorem contextWritebackDone (n : Nat) (ok : Bool) : Statement (.contextWritebackDone n ok) := fun _ h _ => no_core h
theorem scoreboardWaitEnd (n : Nat) (q : Nat) : Statement (.scoreboardWaitEnd n q) := fun _ h hw => core_of_below h hw
theorem channelWaitEnd (n : Nat) (q : Nat) : Statement (.channelWaitEnd n q) := fun _ h hw => core_of_below h hw
theorem sourceRowPoll (n : Nat) : Statement (.sourceRowPoll n) := fun _ h hw => core_of_below_only h hw
theorem sourceTimeout (n : Nat) : Statement (.sourceTimeout n) := fun _ h hw => core_of_below_only h hw
theorem coreStall (n : Nat) : Statement (.coreStall n) := fun _ h hw => core_of_below_only h hw
theorem stepLimitReached (n : Nat) (q : Nat) : Statement (.stepLimitReached n q) := fun _ h hw => core_of_below h hw
theorem graceExhausted (n : Nat) : Statement (.graceExhausted n) := fun _ h hw => core_of_below_only h hw
theorem lookaheadPass (n : Nat) (d : Nat) (pass : LookPass) : Statement (.lookaheadPass n d pass) := fun _ h _ => no_core h
theorem nop (n : Nat) (q : Nat) (i : Ins) : Statement (.nop n q i) := fun _ h hw => by
    simp only [Instr.wf, Bool.and_eq_true] at hw
    exact core_of_below_only h hw.1.1
theorem jmp (n : Nat) (q : Nat) (i : Ins) : Statement (.jmp n q i) := fun _ h hw => by
    simp only [Instr.wf, Bool.and_eq_true] at hw
    exact core_of_below_only h hw.1.1
theorem call (n : Nat) (q : Nat) (i : Ins) : Statement (.call n q i) := fun _ h hw => by
    simp only [Instr.wf, Bool.and_eq_true] at hw
    exact core_of_below_only h hw.1.1
theorem ret (n : Nat) (q : Nat) (i : Ins) : Statement (.ret n q i) := fun _ h hw => by
    simp only [Instr.wf, Bool.and_eq_true] at hw
    exact core_of_below_only h hw.1.1
theorem loop (n : Nat) (q : Nat) (i : Ins) : Statement (.loop n q i) := fun _ h hw => by
    simp only [Instr.wf, Bool.and_eq_true] at hw
    exact core_of_below_only h hw.1.1
theorem jend (n : Nat) (q : Nat) (i : Ins) : Statement (.jend n q i) := fun _ h hw => by
    simp only [Instr.wf, Bool.and_eq_true] at hw
    exact core_of_below_only h hw.1.1
theorem sadd (n : Nat) (q : Nat) (i : Ins) : Statement (.sadd n q i) := fun _ h hw => by
    simp only [Instr.wf, Bool.and_eq_true] at hw
    exact core_of_below_only h hw.1.1
theorem ssub (n : Nat) (q : Nat) (i : Ins) : Statement (.ssub n q i) := fun _ h hw => by
    simp only [Instr.wf, Bool.and_eq_true] at hw
    exact core_of_below_only h hw.1.1
theorem smul (n : Nat) (q : Nat) (i : Ins) : Statement (.smul n q i) := fun _ h hw => by
    simp only [Instr.wf, Bool.and_eq_true] at hw
    exact core_of_below_only h hw.1.1
theorem smulh (n : Nat) (q : Nat) (i : Ins) : Statement (.smulh n q i) := fun _ h hw => by
    simp only [Instr.wf, Bool.and_eq_true] at hw
    exact core_of_below_only h hw.1.1
theorem sdiv (n : Nat) (q : Nat) (i : Ins) : Statement (.sdiv n q i) := fun _ h hw => by
    simp only [Instr.wf, Bool.and_eq_true] at hw
    exact core_of_below_only h hw.1.1
theorem sand (n : Nat) (q : Nat) (i : Ins) : Statement (.sand n q i) := fun _ h hw => by
    simp only [Instr.wf, Bool.and_eq_true] at hw
    exact core_of_below_only h hw.1.1
theorem sor (n : Nat) (q : Nat) (i : Ins) : Statement (.sor n q i) := fun _ h hw => by
    simp only [Instr.wf, Bool.and_eq_true] at hw
    exact core_of_below_only h hw.1.1
theorem sxor (n : Nat) (q : Nat) (i : Ins) : Statement (.sxor n q i) := fun _ h hw => by
    simp only [Instr.wf, Bool.and_eq_true] at hw
    exact core_of_below_only h hw.1.1
theorem sshl (n : Nat) (q : Nat) (i : Ins) : Statement (.sshl n q i) := fun _ h hw => by
    simp only [Instr.wf, Bool.and_eq_true] at hw
    exact core_of_below_only h hw.1.1
theorem sshr (n : Nat) (q : Nat) (i : Ins) : Statement (.sshr n q i) := fun _ h hw => by
    simp only [Instr.wf, Bool.and_eq_true] at hw
    exact core_of_below_only h hw.1.1
theorem ssra (n : Nat) (q : Nat) (i : Ins) : Statement (.ssra n q i) := fun _ h hw => by
    simp only [Instr.wf, Bool.and_eq_true] at hw
    exact core_of_below_only h hw.1.1
theorem smin (n : Nat) (q : Nat) (i : Ins) : Statement (.smin n q i) := fun _ h hw => by
    simp only [Instr.wf, Bool.and_eq_true] at hw
    exact core_of_below_only h hw.1.1
theorem smax (n : Nat) (q : Nat) (i : Ins) : Statement (.smax n q i) := fun _ h hw => by
    simp only [Instr.wf, Bool.and_eq_true] at hw
    exact core_of_below_only h hw.1.1
theorem sadds (n : Nat) (q : Nat) (i : Ins) : Statement (.sadds n q i) := fun _ h hw => by
    simp only [Instr.wf, Bool.and_eq_true] at hw
    exact core_of_below_only h hw.1.1
theorem sclz (n : Nat) (q : Nat) (i : Ins) : Statement (.sclz n q i) := fun _ h hw => by
    simp only [Instr.wf, Bool.and_eq_true] at hw
    exact core_of_below_only h hw.1.1
theorem sli (n : Nat) (q : Nat) (i : Ins) : Statement (.sli n q i) := fun _ h hw => by
    simp only [Instr.wf, Bool.and_eq_true] at hw
    exact core_of_below_only h hw.1.1
theorem scmp (n : Nat) (q : Nat) (i : Ins) : Statement (.scmp n q i) := fun _ h hw => by
    simp only [Instr.wf, Bool.and_eq_true] at hw
    exact core_of_below_only h hw.1.1
theorem ssel (n : Nat) (q : Nat) (i : Ins) : Statement (.ssel n q i) := fun _ h hw => by
    simp only [Instr.wf, Bool.and_eq_true] at hw
    exact core_of_below_only h hw.1.1
theorem sld (n : Nat) (q : Nat) (i : Ins) : Statement (.sld n q i) := fun _ h hw => by
    simp only [Instr.wf, Bool.and_eq_true] at hw
    exact core_of_below_only h hw.1.1
theorem sst (n : Nat) (q : Nat) (i : Ins) : Statement (.sst n q i) := fun _ h hw => by
    simp only [Instr.wf, Bool.and_eq_true] at hw
    exact core_of_below_only h hw.1.1
theorem tld (n : Nat) (q : Nat) (i : Ins) : Statement (.tld n q i) := fun _ h hw => by
    simp only [Instr.wf, Bool.and_eq_true] at hw
    exact core_of_below_only h hw.1.1
theorem vext (n : Nat) (q : Nat) (i : Ins) : Statement (.vext n q i) := fun _ h hw => by
    simp only [Instr.wf, Bool.and_eq_true] at hw
    exact core_of_below_only h hw.1.1
theorem vins (n : Nat) (q : Nat) (i : Ins) : Statement (.vins n q i) := fun _ h hw => by
    simp only [Instr.wf, Bool.and_eq_true] at hw
    exact core_of_below_only h hw.1.1
theorem pand (n : Nat) (q : Nat) (i : Ins) : Statement (.pand n q i) := fun _ h hw => by
    simp only [Instr.wf, Bool.and_eq_true] at hw
    exact core_of_below_only h hw.1.1
theorem por (n : Nat) (q : Nat) (i : Ins) : Statement (.por n q i) := fun _ h hw => by
    simp only [Instr.wf, Bool.and_eq_true] at hw
    exact core_of_below_only h hw.1.1
theorem pxor (n : Nat) (q : Nat) (i : Ins) : Statement (.pxor n q i) := fun _ h hw => by
    simp only [Instr.wf, Bool.and_eq_true] at hw
    exact core_of_below_only h hw.1.1
theorem pnot (n : Nat) (q : Nat) (i : Ins) : Statement (.pnot n q i) := fun _ h hw => by
    simp only [Instr.wf, Bool.and_eq_true] at hw
    exact core_of_below_only h hw.1.1
theorem pany (n : Nat) (q : Nat) (i : Ins) : Statement (.pany n q i) := fun _ h hw => by
    simp only [Instr.wf, Bool.and_eq_true] at hw
    exact core_of_below_only h hw.1.1
theorem pall (n : Nat) (q : Nat) (i : Ins) : Statement (.pall n q i) := fun _ h hw => by
    simp only [Instr.wf, Bool.and_eq_true] at hw
    exact core_of_below_only h hw.1.1
theorem ppop (n : Nat) (q : Nat) (i : Ins) : Statement (.ppop n q i) := fun _ h hw => by
    simp only [Instr.wf, Bool.and_eq_true] at hw
    exact core_of_below_only h hw.1.1
theorem vadd (n : Nat) (q : Nat) (i : Ins) : Statement (.vadd n q i) := fun _ h hw => by
    simp only [Instr.wf, Bool.and_eq_true] at hw
    exact core_of_below_only h hw.1.1
theorem vsub (n : Nat) (q : Nat) (i : Ins) : Statement (.vsub n q i) := fun _ h hw => by
    simp only [Instr.wf, Bool.and_eq_true] at hw
    exact core_of_below_only h hw.1.1
theorem vabs (n : Nat) (q : Nat) (i : Ins) : Statement (.vabs n q i) := fun _ h hw => by
    simp only [Instr.wf, Bool.and_eq_true] at hw
    exact core_of_below_only h hw.1.1
theorem vmin (n : Nat) (q : Nat) (i : Ins) : Statement (.vmin n q i) := fun _ h hw => by
    simp only [Instr.wf, Bool.and_eq_true] at hw
    exact core_of_below_only h hw.1.1
theorem vmax (n : Nat) (q : Nat) (i : Ins) : Statement (.vmax n q i) := fun _ h hw => by
    simp only [Instr.wf, Bool.and_eq_true] at hw
    exact core_of_below_only h hw.1.1
theorem vand (n : Nat) (q : Nat) (i : Ins) : Statement (.vand n q i) := fun _ h hw => by
    simp only [Instr.wf, Bool.and_eq_true] at hw
    exact core_of_below_only h hw.1.1
theorem vor (n : Nat) (q : Nat) (i : Ins) : Statement (.vor n q i) := fun _ h hw => by
    simp only [Instr.wf, Bool.and_eq_true] at hw
    exact core_of_below_only h hw.1.1
theorem vxor (n : Nat) (q : Nat) (i : Ins) : Statement (.vxor n q i) := fun _ h hw => by
    simp only [Instr.wf, Bool.and_eq_true] at hw
    exact core_of_below_only h hw.1.1
theorem vshl (n : Nat) (q : Nat) (i : Ins) : Statement (.vshl n q i) := fun _ h hw => by
    simp only [Instr.wf, Bool.and_eq_true] at hw
    exact core_of_below_only h hw.1.1
theorem vshr (n : Nat) (q : Nat) (i : Ins) : Statement (.vshr n q i) := fun _ h hw => by
    simp only [Instr.wf, Bool.and_eq_true] at hw
    exact core_of_below_only h hw.1.1
theorem vmov (n : Nat) (q : Nat) (i : Ins) : Statement (.vmov n q i) := fun _ h hw => by
    simp only [Instr.wf, Bool.and_eq_true] at hw
    exact core_of_below_only h hw.1.1
theorem vsplat (n : Nat) (q : Nat) (i : Ins) : Statement (.vsplat n q i) := fun _ h hw => by
    simp only [Instr.wf, Bool.and_eq_true] at hw
    exact core_of_below_only h hw.1.1
theorem vmul (n : Nat) (q : Nat) (i : Ins) : Statement (.vmul n q i) := fun _ h hw => by
    simp only [Instr.wf, Bool.and_eq_true] at hw
    exact core_of_below_only h hw.1.1
theorem vmad (n : Nat) (q : Nat) (i : Ins) : Statement (.vmad n q i) := fun _ h hw => by
    simp only [Instr.wf, Bool.and_eq_true] at hw
    exact core_of_below_only h hw.1.1
theorem vavg (n : Nat) (q : Nat) (i : Ins) : Statement (.vavg n q i) := fun _ h hw => by
    simp only [Instr.wf, Bool.and_eq_true] at hw
    exact core_of_below_only h hw.1.1
theorem vabsd (n : Nat) (q : Nat) (i : Ins) : Statement (.vabsd n q i) := fun _ h hw => by
    simp only [Instr.wf, Bool.and_eq_true] at hw
    exact core_of_below_only h hw.1.1
theorem vclip (n : Nat) (q : Nat) (i : Ins) : Statement (.vclip n q i) := fun _ h hw => by
    simp only [Instr.wf, Bool.and_eq_true] at hw
    exact core_of_below_only h hw.1.1
theorem vclipd (n : Nat) (q : Nat) (i : Ins) : Statement (.vclipd n q i) := fun _ h hw => by
    simp only [Instr.wf, Bool.and_eq_true] at hw
    exact core_of_below_only h hw.1.1
theorem vsel (n : Nat) (q : Nat) (i : Ins) : Statement (.vsel n q i) := fun _ h hw => by
    simp only [Instr.wf, Bool.and_eq_true] at hw
    exact core_of_below_only h hw.1.1
theorem vcmp (n : Nat) (q : Nat) (i : Ins) : Statement (.vcmp n q i) := fun _ h hw => by
    simp only [Instr.wf, Bool.and_eq_true] at hw
    exact core_of_below_only h hw.1.1
theorem vtrans (n : Nat) (q : Nat) (i : Ins) : Statement (.vtrans n q i) := fun _ h hw => by
    simp only [Instr.wf, Bool.and_eq_true] at hw
    exact core_of_below_only h hw.1.1
theorem vsgn (n : Nat) (q : Nat) (i : Ins) : Statement (.vsgn n q i) := fun _ h hw => by
    simp only [Instr.wf, Bool.and_eq_true] at hw
    exact core_of_below_only h hw.1.1
theorem bld (n : Nat) (q : Nat) (i : Ins) (host : List Host.Cell) : Statement (.bld n q i host) := fun _ h hw => by
    simp only [Instr.wf, Bool.and_eq_true] at hw
    exact core_of_below_only h hw.1.1
theorem bst (n : Nat) (q : Nat) (i : Ins) : Statement (.bst n q i) := fun _ h hw => by
    simp only [Instr.wf, Bool.and_eq_true] at hw
    exact core_of_below_only h hw.1.1
theorem bget (n : Nat) (q : Nat) (i : Ins) : Statement (.bget n q i) := fun _ h hw => by
    simp only [Instr.wf, Bool.and_eq_true] at hw
    exact core_of_below_only h hw.1.1
theorem bput (n : Nat) (q : Nat) (i : Ins) : Statement (.bput n q i) := fun _ h hw => by
    simp only [Instr.wf, Bool.and_eq_true] at hw
    exact core_of_below_only h hw.1.1
theorem bfill (n : Nat) (q : Nat) (i : Ins) : Statement (.bfill n q i) := fun _ h hw => by
    simp only [Instr.wf, Bool.and_eq_true] at hw
    exact core_of_below_only h hw.1.1
theorem sbwait (n : Nat) (q : Nat) (i : Ins) : Statement (.sbwait n q i) := fun _ h hw => by
    simp only [Instr.wf, Bool.and_eq_true] at hw
    exact core_of_below_only h hw.1.1
theorem rowpost (n : Nat) (q : Nat) (i : Ins) : Statement (.rowpost n q i) := fun _ h hw => by
    simp only [Instr.wf, Bool.and_eq_true] at hw
    exact core_of_below_only h hw.1.1
theorem mfld (n : Nat) (q : Nat) (i : Ins) : Statement (.mfld n q i) := fun _ h hw => by
    simp only [Instr.wf, Bool.and_eq_true] at hw
    exact core_of_below_only h hw.1.1
theorem mfst (n : Nat) (q : Nat) (i : Ins) : Statement (.mfst n q i) := fun _ h hw => by
    simp only [Instr.wf, Bool.and_eq_true] at hw
    exact core_of_below_only h hw.1.1
theorem bfir (n : Nat) (q : Nat) (i : Ins) : Statement (.bfir n q i) := fun _ h hw => by
    simp only [Instr.wf, Bool.and_eq_true] at hw
    exact core_of_below_only h hw.1.1
theorem bfly (n : Nat) (q : Nat) (i : Ins) : Statement (.bfly n q i) := fun _ h hw => by
    simp only [Instr.wf, Bool.and_eq_true] at hw
    exact core_of_below_only h hw.1.1
theorem bmat (n : Nat) (q : Nat) (i : Ins) : Statement (.bmat n q i) := fun _ h hw => by
    simp only [Instr.wf, Bool.and_eq_true] at hw
    exact core_of_below_only h hw.1.1
theorem bquant (n : Nat) (q : Nat) (i : Ins) : Statement (.bquant n q i) := fun _ h hw => by
    simp only [Instr.wf, Bool.and_eq_true] at hw
    exact core_of_below_only h hw.1.1
theorem bqcand (n : Nat) (q : Nat) (i : Ins) : Statement (.bqcand n q i) := fun _ h hw => by
    simp only [Instr.wf, Bool.and_eq_true] at hw
    exact core_of_below_only h hw.1.1
theorem bdeq (n : Nat) (q : Nat) (i : Ins) : Statement (.bdeq n q i) := fun _ h hw => by
    simp only [Instr.wf, Bool.and_eq_true] at hw
    exact core_of_below_only h hw.1.1
theorem blast (n : Nat) (q : Nat) (i : Ins) : Statement (.blast n q i) := fun _ h hw => by
    simp only [Instr.wf, Bool.and_eq_true] at hw
    exact core_of_below_only h hw.1.1
theorem rsad (n : Nat) (q : Nat) (i : Ins) : Statement (.rsad n q i) := fun _ h hw => by
    simp only [Instr.wf, Bool.and_eq_true] at hw
    exact core_of_below_only h hw.1.1
theorem rsatd (n : Nat) (q : Nat) (i : Ins) : Statement (.rsatd n q i) := fun _ h hw => by
    simp only [Instr.wf, Bool.and_eq_true] at hw
    exact core_of_below_only h hw.1.1
theorem rsse (n : Nat) (q : Nat) (i : Ins) : Statement (.rsse n q i) := fun _ h hw => by
    simp only [Instr.wf, Bool.and_eq_true] at hw
    exact core_of_below_only h hw.1.1
theorem rsum (n : Nat) (q : Nat) (i : Ins) : Statement (.rsum n q i) := fun _ h hw => by
    simp only [Instr.wf, Bool.and_eq_true] at hw
    exact core_of_below_only h hw.1.1
theorem rmin (n : Nat) (q : Nat) (i : Ins) : Statement (.rmin n q i) := fun _ h hw => by
    simp only [Instr.wf, Bool.and_eq_true] at hw
    exact core_of_below_only h hw.1.1
theorem rargmin (n : Nat) (q : Nat) (i : Ins) : Statement (.rargmin n q i) := fun _ h hw => by
    simp only [Instr.wf, Bool.and_eq_true] at hw
    exact core_of_below_only h hw.1.1
theorem mswalk (n : Nat) (q : Nat) (i : Ins) (host : List Host.Cell) : Statement (.mswalk n q i host) := fun _ h hw => by
    simp only [Instr.wf, Bool.and_eq_true] at hw
    exact core_of_below_only h hw.1.1
theorem chsend (n : Nat) (q : Nat) (i : Ins) : Statement (.chsend n q i) := fun _ h hw => by
    simp only [Instr.wf, Bool.and_eq_true] at hw
    exact core_of_below_only h hw.1.1
theorem chrecv (n : Nat) (q : Nat) (i : Ins) : Statement (.chrecv n q i) := fun _ h hw => by
    simp only [Instr.wf, Bool.and_eq_true] at hw
    exact core_of_below_only h hw.1.1
theorem chpoll (n : Nat) (q : Nat) (i : Ins) : Statement (.chpoll n q i) := fun _ h hw => by
    simp only [Instr.wf, Bool.and_eq_true] at hw
    exact core_of_below_only h hw.1.1
theorem dmastart (n : Nat) (q : Nat) (i : Ins) : Statement (.dmastart n q i) := fun _ h hw => by
    simp only [Instr.wf, Bool.and_eq_true] at hw
    exact core_of_below_only h hw.1.1
theorem dmawait (n : Nat) (q : Nat) (i : Ins) : Statement (.dmawait n q i) := fun _ h hw => by
    simp only [Instr.wf, Bool.and_eq_true] at hw
    exact core_of_below_only h hw.1.1
theorem rcrd (n : Nat) (q : Nat) (i : Ins) : Statement (.rcrd n q i) := fun _ h hw => by
    simp only [Instr.wf, Bool.and_eq_true] at hw
    exact core_of_below_only h hw.1.1
theorem rcwr (n : Nat) (q : Nat) (i : Ins) : Statement (.rcwr n q i) := fun _ h hw => by
    simp only [Instr.wf, Bool.and_eq_true] at hw
    exact core_of_below_only h hw.1.1
theorem grantRead (n : Nat) (q : Nat) (i : Ins) (host : Option Byte × Option Byte) : Statement (.grantRead n q i host) := fun _ h hw => by
    simp only [Instr.wf, Bool.and_eq_true] at hw
    exact core_of_below_only h hw.1.1
theorem frameClose (n : Nat) (q : Nat) (i : Ins) : Statement (.frameClose n q i) := fun _ h hw => by
    simp only [Instr.wf, Bool.and_eq_true] at hw
    exact core_of_below_only h hw.1.1
theorem evraise (n : Nat) (q : Nat) (i : Ins) : Statement (.evraise n q i) := fun _ h hw => by
    simp only [Instr.wf, Bool.and_eq_true] at hw
    exact core_of_below_only h hw.1.1
theorem jget (n : Nat) (q : Nat) (i : Ins) : Statement (.jget n q i) := fun _ h hw => by
    simp only [Instr.wf, Bool.and_eq_true] at hw
    exact core_of_below_only h hw.1.1
theorem bectlConfig (n : Nat) (q : Nat) (i : Ins) : Statement (.bectlConfig n q i) := fun _ h hw => by
    simp only [Instr.wf, Bool.and_eq_true] at hw
    exact core_of_below_only h hw.1.1
theorem ctxInit (n : Nat) (q : Nat) (i : Ins) : Statement (.ctxInit n q i) := fun _ h hw => by
    simp only [Instr.wf, Bool.and_eq_true] at hw
    exact core_of_below_only h hw.1.1
theorem ctxMove (n : Nat) (q : Nat) (i : Ins) : Statement (.ctxMove n q i) := fun _ h hw => by
    simp only [Instr.wf, Bool.and_eq_true] at hw
    exact core_of_below_only h hw.1.1
theorem cdfInit (n : Nat) (q : Nat) (i : Ins) : Statement (.cdfInit n q i) := fun _ h hw => by
    simp only [Instr.wf, Bool.and_eq_true] at hw
    exact core_of_below_only h hw.1.1
theorem cdfMove (n : Nat) (q : Nat) (i : Ins) : Statement (.cdfMove n q i) := fun _ h hw => by
    simp only [Instr.wf, Bool.and_eq_true] at hw
    exact core_of_below_only h hw.1.1
theorem readerSet (n : Nat) (q : Nat) (i : Ins) (host : Option (List Byte)) : Statement (.readerSet n q i host) := fun _ h hw => by
    simp only [Instr.wf, Bool.and_eq_true] at hw
    exact core_of_below_only h hw.1.1
theorem writerSet (n : Nat) (q : Nat) (i : Ins) : Statement (.writerSet n q i) := fun _ h hw => by
    simp only [Instr.wf, Bool.and_eq_true] at hw
    exact core_of_below_only h hw.1.1
theorem bectlRun (n : Nat) (q : Nat) (i : Ins) : Statement (.bectlRun n q i) := fun _ h hw => by
    simp only [Instr.wf, Bool.and_eq_true] at hw
    exact core_of_below_only h hw.1.1
theorem bectlWait (n : Nat) (q : Nat) (i : Ins) : Statement (.bectlWait n q i) := fun _ h hw => by
    simp only [Instr.wf, Bool.and_eq_true] at hw
    exact core_of_below_only h hw.1.1
theorem bectlStatus (n : Nat) (q : Nat) (i : Ins) : Statement (.bectlStatus n q i) := fun _ h hw => by
    simp only [Instr.wf, Bool.and_eq_true] at hw
    exact core_of_below_only h hw.1.1
theorem bectlPos (n : Nat) (q : Nat) (i : Ins) : Statement (.bectlPos n q i) := fun _ h hw => by
    simp only [Instr.wf, Bool.and_eq_true] at hw
    exact core_of_below_only h hw.1.1
theorem findSync (n : Nat) (q : Nat) (i : Ins) : Statement (.findSync n q i) := fun _ h hw => by
    simp only [Instr.wf, Bool.and_eq_true] at hw
    exact core_of_below_only h hw.1.1
theorem unitClose (n : Nat) (q : Nat) (i : Ins) : Statement (.unitClose n q i) := fun _ h hw => by
    simp only [Instr.wf, Bool.and_eq_true] at hw
    exact core_of_below_only h hw.1.1
theorem jobEnd (n : Nat) (q : Nat) (i : Ins) : Statement (.jobEnd n q i) := fun _ h hw => by
    simp only [Instr.wf, Bool.and_eq_true] at hw
    exact core_of_below_only h hw.1.1
theorem synEnd (n : Nat) (w : SynWord) : Statement (.synEnd n w) := fun _ h hw => core_of_below h hw
theorem el (n : Nat) (w : SynWord) : Statement (.el n w) := fun _ h hw => core_of_below h hw
theorem term (n : Nat) (w : SynWord) : Statement (.term n w) := fun _ h hw => core_of_below h hw
theorem segopen (n : Nat) (w : SynWord) : Statement (.segopen n w) := fun _ h hw => core_of_below h hw
theorem segclose (n : Nat) (w : SynWord) : Statement (.segclose n w) := fun _ h hw => core_of_below h hw
theorem raw (n : Nat) (w : SynWord) : Statement (.raw n w) := fun _ h hw => core_of_below h hw
theorem align (n : Nat) (w : SynWord) : Statement (.align n w) := fun _ h hw => core_of_below h hw
theorem nalb (n : Nat) (w : SynWord) : Statement (.nalb n w) := fun _ h hw => core_of_below h hw
theorem nale (n : Nat) (w : SynWord) : Statement (.nale n w) := fun _ h hw => core_of_below h hw
theorem obub (n : Nat) (w : SynWord) : Statement (.obub n w) := fun _ h hw => core_of_below h hw
theorem obue (n : Nat) (w : SynWord) : Statement (.obue n w) := fun _ h hw => core_of_below h hw
theorem obun (n : Nat) (w : SynWord) : Statement (.obun n w) := fun _ h hw => core_of_below h hw
theorem synRecv (n : Nat) (w : SynWord) : Statement (.synRecv n w) := fun _ h hw => core_of_below h hw
theorem synSend (n : Nat) (w : SynWord) : Statement (.synSend n w) := fun _ h hw => core_of_below h hw
theorem li (n : Nat) (w : SynWord) : Statement (.li n w) := fun _ h hw => core_of_below h hw
theorem synAdd (n : Nat) (w : SynWord) : Statement (.synAdd n w) := fun _ h hw => core_of_below h hw
theorem andi (n : Nat) (w : SynWord) : Statement (.andi n w) := fun _ h hw => core_of_below h hw
theorem synShl (n : Nat) (w : SynWord) : Statement (.synShl n w) := fun _ h hw => core_of_below h hw
theorem synShr (n : Nat) (w : SynWord) : Statement (.synShr n w) := fun _ h hw => core_of_below h hw
theorem synMin (n : Nat) (w : SynWord) : Statement (.synMin n w) := fun _ h hw => core_of_below h hw
theorem bz (n : Nat) (w : SynWord) : Statement (.bz n w) := fun _ h hw => core_of_below h hw
theorem bnz (n : Nat) (w : SynWord) : Statement (.bnz n w) := fun _ h hw => core_of_below h hw
theorem blt (n : Nat) (w : SynWord) : Statement (.blt n w) := fun _ h hw => core_of_below h hw
theorem synJmp (n : Nat) (w : SynWord) : Statement (.synJmp n w) := fun _ h hw => core_of_below h hw
theorem synCall (n : Nat) (w : SynWord) : Statement (.synCall n w) := fun _ h hw => core_of_below h hw
theorem synRet (n : Nat) (w : SynWord) : Statement (.synRet n w) := fun _ h hw => core_of_below h hw
theorem synCtu (n : Nat) (w : SynWord) : Statement (.synCtu n w) := fun _ h hw => core_of_below h hw
theorem ccopy (n : Nat) (w : SynWord) : Statement (.ccopy n w) := fun _ h hw => core_of_below h hw
theorem bits (n : Nat) (w : SynWord) : Statement (.bits n w) := fun _ h hw => core_of_below h hw
theorem modeCommit (v : Word) : Statement (.modeCommit v) := fun _ h _ => no_core h
theorem modeValidationDone (verdict : Nat) : Statement (.modeValidationDone verdict) := fun _ h _ => no_core h
theorem epochApply (n : Nat) (fault : Bool) : Statement (.epochApply n fault) := fun _ h hw => core_of_below_only h hw
theorem modeDetailAck (seq : BitVec 8) : Statement (.modeDetailAck seq) := fun _ h _ => no_core h
theorem validatorTimeout (job : Option Nat) (block : Option (List Byte)) : Statement (.validatorTimeout job block) := fun _ h _ => no_core h
theorem svcWatchdog : Statement (.svcWatchdog) := fun _ h _ => no_core h
theorem persLoad (img : Option PersImage) : Statement (.persLoad img) := fun _ h _ => no_core h
theorem persUnload (slot : Nat) : Statement (.persUnload slot) := fun _ h _ => no_core h
theorem dchCommandSlot (k : Nat) (arrive : List DchReq) (met : SlotMet) : Statement (.dchCommandSlot k arrive met) := fun _ h _ => no_core h
theorem agePromote (k : Nat) : Statement (.agePromote k) := fun _ h _ => no_core h
theorem regulatorRefill (k : Nat) : Statement (.regulatorRefill k) := fun _ h _ => no_core h
theorem throttleEnd (k : Nat) (port : Nat) : Statement (.throttleEnd k port) := fun _ h _ => no_core h
theorem refreshWindow (k : Nat) : Statement (.refreshWindow k) := fun _ h _ => no_core h
theorem refresh (k : Nat) (key : Nat) : Statement (.refresh k key) := fun _ h _ => no_core h
theorem selfRefreshEntry (k : Nat) : Statement (.selfRefreshEntry k) := fun _ h _ => no_core h
theorem srEnter (k : Nat) (v : Word) : Statement (.srEnter k v) := fun _ h _ => no_core h
theorem selfRefreshExit (k : Nat) (r : Option DchReq) : Statement (.selfRefreshExit k r) := fun _ h _ => no_core h
theorem wckTracking (k : Nat) (sub : Nat) (temp : Int) (ok : Bool) : Statement (.wckTracking k sub temp ok) := fun _ h _ => no_core h
theorem patrolScrub (k : Nat) (found : ScrubFound) : Statement (.patrolScrub k found) := fun _ h _ => no_core h
theorem controllerFreeze (k : Nat) (source : Nat) (port : Nat) (cls : Nat) (command : Nat) (syndrome : Nat) (addr : Nat) (word : Nat) (hits : List Nat) : Statement (.controllerFreeze k source port cls command syndrome addr word hits) := fun _ h _ => no_core h
theorem freezeAck (k : Nat) (seq : BitVec 8) : Statement (.freezeAck k seq) := fun _ h _ => no_core h
theorem dchReset (k : Nat) (v : Word) : Statement (.dchReset k v) := fun _ h _ => no_core h
theorem regionInitDone (q : Nat) (i : Nat) : Statement (.regionInitDone q i) := fun _ h _ => no_core h
theorem clqEnable (q : Nat) : Statement (.clqEnable q) := fun _ h _ => no_core h
theorem clqDisable (q : Nat) : Statement (.clqDisable q) := fun _ h _ => no_core h
theorem clqFlush (q : Nat) : Statement (.clqFlush q) := fun _ h _ => no_core h
theorem packetOpen (who : Producer) (q : Nat) (c : Crust) (bytes : List Byte) (times : Option (Nat × Nat)) : Statement (.packetOpen who q c bytes times) := fun _ h _ => no_core h
theorem cellGrant (q : Nat) : Statement (.cellGrant q) := fun _ h _ => no_core h
theorem packetClose (who : Producer) (q : Nat) (bytes : List Byte) : Statement (.packetClose who q bytes) := fun _ h _ => no_core h
theorem silentAbandon (who : Producer) (q : Nat) : Statement (.silentAbandon who q) := fun _ h _ => no_core h
theorem discontinuity (who : Producer) (q : Nat) (tag : Nat) : Statement (.discontinuity who q tag) := fun _ h _ => no_core h
theorem clqRead (q : Nat) (n : Nat) : Statement (.clqRead q n) := fun _ h _ => no_core h
theorem fullWaitExpiry (q : Nat) : Statement (.fullWaitExpiry q) := fun _ h _ => no_core h
theorem poolEnable (pool : Nat) : Statement (.poolEnable pool) := fun _ h _ => no_core h
theorem poolDisable (pool : Nat) : Statement (.poolDisable pool) := fun _ h _ => no_core h
theorem poolRebuild (pool : Nat) : Statement (.poolRebuild pool) := fun _ h _ => no_core h
theorem poolThreadDone (pool : Nat) : Statement (.poolThreadDone pool) := fun _ h _ => no_core h
theorem poolAllocate (job : Nat) (byPool : Bool) (arg : Nat) (host : Option (List Byte)) : Statement (.poolAllocate job byPool arg host) := fun _ h _ => no_core h
theorem bpmAllocReq (v : Word) (host : Option (List Byte)) : Statement (.bpmAllocReq v host) := fun _ h _ => no_core h
theorem bpmAllocAck (seq : BitVec 8) : Statement (.bpmAllocAck seq) := fun _ h _ => no_core h
theorem bpmRelease (handle : Word) : Statement (.bpmRelease handle) := fun _ h _ => no_core h
theorem bufferRelease (kind : Nat) (agent : Nat) (handle : Word) : Statement (.bufferRelease kind agent handle) := fun _ h _ => no_core h
theorem dmaStart (c : Nat) : Statement (.dmaStart c) := fun _ h _ => no_core h
theorem dmaAppend (c : Nat) : Statement (.dmaAppend c) := fun _ h _ => no_core h
theorem dmaStop (c : Nat) : Statement (.dmaStop c) := fun _ h _ => no_core h
theorem dmaTrigger (c : Nat) : Statement (.dmaTrigger c) := fun _ h _ => no_core h
theorem descriptorFetch (c : Nat) (host : Option (List Byte)) : Statement (.descriptorFetch c host) := fun _ h _ => no_core h
theorem descriptorDone (c : Nat) : Statement (.descriptorDone c) := fun _ h _ => no_core h
theorem dmaBeat (page : Nat) (host : Option (List Byte)) : Statement (.dmaBeat page host) := fun _ h _ => no_core h
theorem intSourceSet (src : Nat) : Statement (.intSourceSet src) := fun _ h _ => no_core h
theorem intPendingClear (src : Nat) : Statement (.intPendingClear src) := fun _ h _ => no_core h
theorem intSourceEnable (src : Nat) (b : Bool) : Statement (.intSourceEnable src b) := fun _ h _ => no_core h
theorem sourceLevelChange (src : Nat) : Statement (.sourceLevelChange src) := fun _ h _ => no_core h
theorem claim (g : Nat) : Statement (.claim g) := fun _ h _ => no_core h
theorem eoi (g : Nat) (src : Nat) : Statement (.eoi g src) := fun _ h _ => no_core h
theorem holdoffExpiry (g : Nat) : Statement (.holdoffExpiry g) := fun _ h _ => no_core h
theorem frameReceive (port : Nat) (lane : Nat) (f : RxFrame) : Statement (.frameReceive port lane f) := fun _ h _ => no_core h
theorem pfcFrameReceive (port : Nat) (lane : Nat) (mask : BitVec 8) (quanta : List Nat) : Statement (.pfcFrameReceive port lane mask quanta) := fun _ h _ => no_core h
theorem pauseFrameReceive (port : Nat) (lane : Nat) (quanta : Nat) : Statement (.pauseFrameReceive port lane quanta) := fun _ h _ => no_core h
theorem pauseExpiry (port : Nat) (lane : Nat) (cls : Nat) : Statement (.pauseExpiry port lane cls) := fun _ h _ => no_core h
theorem pfcXoffRepeat (port : Nat) (lane : Nat) (prio : Nat) (held : Nat) : Statement (.pfcXoffRepeat port lane prio held) := fun _ h _ => no_core h
theorem linkUp (port : Nat) (lane : Nat) : Statement (.linkUp port lane) := fun _ h _ => no_core h
theorem linkDown (port : Nat) (lane : Nat) : Statement (.linkDown port lane) := fun _ h _ => no_core h
theorem flowInsert (host : Option (List Byte)) : Statement (.flowInsert host) := fun _ h _ => no_core h
theorem flowDelete : Statement (.flowDelete) := fun _ h _ => no_core h
theorem flowModify (host : Option (List Byte)) : Statement (.flowModify host) := fun _ h _ => no_core h
theorem flowLookup : Statement (.flowLookup) := fun _ h _ => no_core h
theorem meterCommit (m : Nat) : Statement (.meterCommit m) := fun _ h _ => no_core h
theorem mergeDeadline (g : Nat) : Statement (.mergeDeadline g) := fun _ h _ => no_core h
theorem rawFrameTimeout (d : Nat) : Statement (.rawFrameTimeout d) := fun _ h _ => no_core h
theorem eqEnable (port : Nat) (q : Nat) (hdr : Option (List Byte)) (psi : Option (List Byte)) : Statement (.eqEnable port q hdr psi) := fun _ h _ => no_core h
theorem eqDisable (port : Nat) (q : Nat) : Statement (.eqDisable port q) := fun _ h _ => no_core h
theorem psiUpdate (port : Nat) (q : Nat) : Statement (.psiUpdate port q) := fun _ h _ => no_core h
theorem psiRepeat (q : Nat) (psi : Option (List Byte)) : Statement (.psiRepeat q psi) := fun _ h _ => no_core h
theorem pcrDue (q : Nat) : Statement (.pcrDue q) := fun _ h _ => no_core h
theorem departureDecision (port : Nat) (lane : Nat) (delay : Nat) : Statement (.departureDecision port lane delay) := fun _ h _ => no_core h
theorem txstampEnable (port : Nat) (v : Word) : Statement (.txstampEnable port v) := fun _ h _ => no_core h
theorem egressPacketTake (q : Nat) (host : Option (List Byte)) : Statement (.egressPacketTake q host) := fun _ h _ => no_core h
theorem faultFire (fires : List FaultHit) : Statement (.faultFire fires) := fun _ h _ => no_core h
theorem recAck (seq : Word) : Statement (.recAck seq) := fun _ h _ => no_core h
theorem recAckAll (v : Word) : Statement (.recAckAll v) := fun _ h _ => no_core h
theorem errPinCtrlWrite (v : Word) : Statement (.errPinCtrlWrite v) := fun _ h _ => no_core h
theorem errPulseEnd : Statement (.errPulseEnd) := fun _ h _ => no_core h
theorem fecDegraded (port : Nat) : Statement (.fecDegraded port) := fun _ h _ => no_core h
theorem smbTemp : Statement (.smbTemp) := fun _ h _ => no_core h
theorem smbVddCore : Statement (.smbVddCore) := fun _ h _ => no_core h
theorem smbThermState : Statement (.smbThermState) := fun _ h _ => no_core h
theorem smbFaultState : Statement (.smbFaultState) := fun _ h _ => no_core h
theorem smbFaultUnacked : Statement (.smbFaultUnacked) := fun _ h _ => no_core h
theorem smbFaultNewest : Statement (.smbFaultNewest) := fun _ h _ => no_core h
theorem smbFaultRecord (slot : Nat) : Statement (.smbFaultRecord slot) := fun _ h _ => no_core h
theorem smbErrPin : Statement (.smbErrPin) := fun _ h _ => no_core h
theorem smbBootState : Statement (.smbBootState) := fun _ h _ => no_core h
theorem smbBootAttempts : Statement (.smbBootAttempts) := fun _ h _ => no_core h
theorem smbBootCause : Statement (.smbBootCause) := fun _ h _ => no_core h
theorem smbBootHistory : Statement (.smbBootHistory) := fun _ h _ => no_core h
theorem smbTimeout : Statement (.smbTimeout) := fun _ h _ => no_core h
theorem jtagBypass : Statement (.jtagBypass) := fun _ h _ => no_core h
theorem jtagIdcode : Statement (.jtagIdcode) := fun _ h _ => no_core h
theorem jtagSamplePreload : Statement (.jtagSamplePreload) := fun _ h _ => no_core h
theorem jtagExtest : Statement (.jtagExtest) := fun _ h _ => no_core h
theorem jtagHighz : Statement (.jtagHighz) := fun _ h _ => no_core h
theorem jtagClamp : Statement (.jtagClamp) := fun _ h _ => no_core h
theorem jtagTestLogicReset : Statement (.jtagTestLogicReset) := fun _ h _ => no_core h
theorem completionTimeout (what : HostRead) : Statement (.completionTimeout what) := fun _ h _ => no_core h
theorem pcieLinkDown : Statement .pcieLinkDown := fun _ h _ => no_core h
theorem pcieLinkTrained (speed : Nat) (met : LinkMet) : Statement (.pcieLinkTrained speed met) := fun _ h _ => no_core h
theorem msixTableWrite (vec : Nat) (field : MsixField) (v : Option Word) : Statement (.msixTableWrite vec field v) := fun _ h _ => no_core h

end CoreExists

end Sys2Proof.Laws
end

