-- ==== Sys2Proof/Laws/State.lean ====
section
/-!
SUPPORT. What each named update of the state leaves as it was: one lemma per update and field, true by unfolding.
-/
set_option Elab.async false

namespace Sys2Proof.Machine

/-! ### State.emit -/

@[simp] theorem State.emit_power (s : State) (o : Out) : (s.emit o).power = s.power := rfl
@[simp] theorem State.emit_fuse (s : State) (o : Out) : (s.emit o).fuse = s.fuse := rfl
@[simp] theorem State.emit_boot (s : State) (o : Out) : (s.emit o).boot = s.boot := rfl
@[simp] theorem State.emit_tempo (s : State) (o : Out) : (s.emit o).tempo = s.tempo := rfl
@[simp] theorem State.emit_time (s : State) (o : Out) : (s.emit o).time = s.time := rfl
@[simp] theorem State.emit_comps (s : State) (o : Out) : (s.emit o).comps = s.comps := rfl
@[simp] theorem State.emit_pages (s : State) (o : Out) : (s.emit o).pages = s.pages := rfl
@[simp] theorem State.emit_regs (s : State) (o : Out) : (s.emit o).regs = s.regs := rfl
@[simp] theorem State.emit_pcie (s : State) (o : Out) : (s.emit o).pcie = s.pcie := rfl
@[simp] theorem State.emit_intc (s : State) (o : Out) : (s.emit o).intc = s.intc := rfl
@[simp] theorem State.emit_faults (s : State) (o : Out) : (s.emit o).faults = s.faults := rfl
@[simp] theorem State.emit_due (s : State) (o : Out) : (s.emit o).due = s.due := rfl
@[simp] theorem State.emit_jtag (s : State) (o : Out) : (s.emit o).jtag = s.jtag := rfl
@[simp] theorem State.emit_geyser (s : State) (o : Out) : (s.emit o).geyser = s.geyser := rfl
@[simp] theorem State.emit_jobs (s : State) (o : Out) : (s.emit o).jobs = s.jobs := rfl
@[simp] theorem State.emit_nextJob (s : State) (o : Out) : (s.emit o).nextJob = s.nextJob := rfl
@[simp] theorem State.emit_streams (s : State) (o : Out) : (s.emit o).streams = s.streams := rfl
@[simp] theorem State.emit_placer (s : State) (o : Out) : (s.emit o).placer = s.placer := rfl
@[simp] theorem State.emit_modes (s : State) (o : Out) : (s.emit o).modes = s.modes := rfl
@[simp] theorem State.emit_pers (s : State) (o : Out) : (s.emit o).pers = s.pers := rfl
@[simp] theorem State.emit_cores (s : State) (o : Out) : (s.emit o).cores = s.cores := rfl
@[simp] theorem State.emit_quads (s : State) (o : Out) : (s.emit o).quads = s.quads := rfl
@[simp] theorem State.emit_dchs (s : State) (o : Out) : (s.emit o).dchs = s.dchs := rfl
@[simp] theorem State.emit_qm (s : State) (o : Out) : (s.emit o).qm = s.qm := rfl
@[simp] theorem State.emit_bpm (s : State) (o : Out) : (s.emit o).bpm = s.bpm := rfl
@[simp] theorem State.emit_dma (s : State) (o : Out) : (s.emit o).dma = s.dma := rfl
@[simp] theorem State.emit_net (s : State) (o : Out) : (s.emit o).net = s.net := rfl
@[simp] theorem State.emit_mem (s : State) (o : Out) : (s.emit o).mem = s.mem := rfl
@[simp] theorem State.emit_free (s : State) (o : Out) : (s.emit o).free = s.free := rfl
@[simp] theorem State.emit_pending (s : State) (o : Out) : (s.emit o).pending = s.pending := rfl

/-! ### State.modPage -/

@[simp] theorem State.modPage_power (s : State) (p : Nat) (f : Page → Page) : (s.modPage p f).power = s.power := rfl
@[simp] theorem State.modPage_fuse (s : State) (p : Nat) (f : Page → Page) : (s.modPage p f).fuse = s.fuse := rfl
@[simp] theorem State.modPage_boot (s : State) (p : Nat) (f : Page → Page) : (s.modPage p f).boot = s.boot := rfl
@[simp] theorem State.modPage_tempo (s : State) (p : Nat) (f : Page → Page) : (s.modPage p f).tempo = s.tempo := rfl
@[simp] theorem State.modPage_time (s : State) (p : Nat) (f : Page → Page) : (s.modPage p f).time = s.time := rfl
@[simp] theorem State.modPage_comps (s : State) (p : Nat) (f : Page → Page) : (s.modPage p f).comps = s.comps := rfl
@[simp] theorem State.modPage_regs (s : State) (p : Nat) (f : Page → Page) : (s.modPage p f).regs = s.regs := rfl
@[simp] theorem State.modPage_pcie (s : State) (p : Nat) (f : Page → Page) : (s.modPage p f).pcie = s.pcie := rfl
@[simp] theorem State.modPage_intc (s : State) (p : Nat) (f : Page → Page) : (s.modPage p f).intc = s.intc := rfl
@[simp] theorem State.modPage_faults (s : State) (p : Nat) (f : Page → Page) : (s.modPage p f).faults = s.faults := rfl
@[simp] theorem State.modPage_due (s : State) (p : Nat) (f : Page → Page) : (s.modPage p f).due = s.due := rfl
@[simp] theorem State.modPage_jtag (s : State) (p : Nat) (f : Page → Page) : (s.modPage p f).jtag = s.jtag := rfl
@[simp] theorem State.modPage_geyser (s : State) (p : Nat) (f : Page → Page) : (s.modPage p f).geyser = s.geyser := rfl
@[simp] theorem State.modPage_jobs (s : State) (p : Nat) (f : Page → Page) : (s.modPage p f).jobs = s.jobs := rfl
@[simp] theorem State.modPage_nextJob (s : State) (p : Nat) (f : Page → Page) : (s.modPage p f).nextJob = s.nextJob := rfl
@[simp] theorem State.modPage_streams (s : State) (p : Nat) (f : Page → Page) : (s.modPage p f).streams = s.streams := rfl
@[simp] theorem State.modPage_placer (s : State) (p : Nat) (f : Page → Page) : (s.modPage p f).placer = s.placer := rfl
@[simp] theorem State.modPage_modes (s : State) (p : Nat) (f : Page → Page) : (s.modPage p f).modes = s.modes := rfl
@[simp] theorem State.modPage_pers (s : State) (p : Nat) (f : Page → Page) : (s.modPage p f).pers = s.pers := rfl
@[simp] theorem State.modPage_cores (s : State) (p : Nat) (f : Page → Page) : (s.modPage p f).cores = s.cores := rfl
@[simp] theorem State.modPage_quads (s : State) (p : Nat) (f : Page → Page) : (s.modPage p f).quads = s.quads := rfl
@[simp] theorem State.modPage_dchs (s : State) (p : Nat) (f : Page → Page) : (s.modPage p f).dchs = s.dchs := rfl
@[simp] theorem State.modPage_qm (s : State) (p : Nat) (f : Page → Page) : (s.modPage p f).qm = s.qm := rfl
@[simp] theorem State.modPage_bpm (s : State) (p : Nat) (f : Page → Page) : (s.modPage p f).bpm = s.bpm := rfl
@[simp] theorem State.modPage_dma (s : State) (p : Nat) (f : Page → Page) : (s.modPage p f).dma = s.dma := rfl
@[simp] theorem State.modPage_net (s : State) (p : Nat) (f : Page → Page) : (s.modPage p f).net = s.net := rfl
@[simp] theorem State.modPage_mem (s : State) (p : Nat) (f : Page → Page) : (s.modPage p f).mem = s.mem := rfl
@[simp] theorem State.modPage_free (s : State) (p : Nat) (f : Page → Page) : (s.modPage p f).free = s.free := rfl
@[simp] theorem State.modPage_out (s : State) (p : Nat) (f : Page → Page) : (s.modPage p f).out = s.out := rfl
@[simp] theorem State.modPage_pending (s : State) (p : Nat) (f : Page → Page) : (s.modPage p f).pending = s.pending := rfl

/-! ### State.accessBad -/

@[simp] theorem State.accessBad_power (s : State) (p : Nat) : (s.accessBad p).power = s.power := rfl
@[simp] theorem State.accessBad_fuse (s : State) (p : Nat) : (s.accessBad p).fuse = s.fuse := rfl
@[simp] theorem State.accessBad_boot (s : State) (p : Nat) : (s.accessBad p).boot = s.boot := rfl
@[simp] theorem State.accessBad_tempo (s : State) (p : Nat) : (s.accessBad p).tempo = s.tempo := rfl
@[simp] theorem State.accessBad_time (s : State) (p : Nat) : (s.accessBad p).time = s.time := rfl
@[simp] theorem State.accessBad_comps (s : State) (p : Nat) : (s.accessBad p).comps = s.comps := rfl
@[simp] theorem State.accessBad_regs (s : State) (p : Nat) : (s.accessBad p).regs = s.regs := rfl
@[simp] theorem State.accessBad_pcie (s : State) (p : Nat) : (s.accessBad p).pcie = s.pcie := rfl
@[simp] theorem State.accessBad_intc (s : State) (p : Nat) : (s.accessBad p).intc = s.intc := rfl
@[simp] theorem State.accessBad_faults (s : State) (p : Nat) : (s.accessBad p).faults = s.faults := rfl
@[simp] theorem State.accessBad_due (s : State) (p : Nat) : (s.accessBad p).due = s.due := rfl
@[simp] theorem State.accessBad_jtag (s : State) (p : Nat) : (s.accessBad p).jtag = s.jtag := rfl
@[simp] theorem State.accessBad_geyser (s : State) (p : Nat) : (s.accessBad p).geyser = s.geyser := rfl
@[simp] theorem State.accessBad_jobs (s : State) (p : Nat) : (s.accessBad p).jobs = s.jobs := rfl
@[simp] theorem State.accessBad_nextJob (s : State) (p : Nat) : (s.accessBad p).nextJob = s.nextJob := rfl
@[simp] theorem State.accessBad_streams (s : State) (p : Nat) : (s.accessBad p).streams = s.streams := rfl
@[simp] theorem State.accessBad_placer (s : State) (p : Nat) : (s.accessBad p).placer = s.placer := rfl
@[simp] theorem State.accessBad_modes (s : State) (p : Nat) : (s.accessBad p).modes = s.modes := rfl
@[simp] theorem State.accessBad_pers (s : State) (p : Nat) : (s.accessBad p).pers = s.pers := rfl
@[simp] theorem State.accessBad_cores (s : State) (p : Nat) : (s.accessBad p).cores = s.cores := rfl
@[simp] theorem State.accessBad_quads (s : State) (p : Nat) : (s.accessBad p).quads = s.quads := rfl
@[simp] theorem State.accessBad_dchs (s : State) (p : Nat) : (s.accessBad p).dchs = s.dchs := rfl
@[simp] theorem State.accessBad_qm (s : State) (p : Nat) : (s.accessBad p).qm = s.qm := rfl
@[simp] theorem State.accessBad_bpm (s : State) (p : Nat) : (s.accessBad p).bpm = s.bpm := rfl
@[simp] theorem State.accessBad_dma (s : State) (p : Nat) : (s.accessBad p).dma = s.dma := rfl
@[simp] theorem State.accessBad_net (s : State) (p : Nat) : (s.accessBad p).net = s.net := rfl
@[simp] theorem State.accessBad_mem (s : State) (p : Nat) : (s.accessBad p).mem = s.mem := rfl
@[simp] theorem State.accessBad_free (s : State) (p : Nat) : (s.accessBad p).free = s.free := rfl
@[simp] theorem State.accessBad_out (s : State) (p : Nat) : (s.accessBad p).out = s.out := rfl
@[simp] theorem State.accessBad_pending (s : State) (p : Nat) : (s.accessBad p).pending = s.pending := rfl

/-! ### State.reject -/

@[simp] theorem State.reject_power (s : State) (p r g : Nat) : (s.reject p r g).power = s.power := rfl
@[simp] theorem State.reject_fuse (s : State) (p r g : Nat) : (s.reject p r g).fuse = s.fuse := rfl
@[simp] theorem State.reject_boot (s : State) (p r g : Nat) : (s.reject p r g).boot = s.boot := rfl
@[simp] theorem State.reject_tempo (s : State) (p r g : Nat) : (s.reject p r g).tempo = s.tempo := rfl
@[simp] theorem State.reject_time (s : State) (p r g : Nat) : (s.reject p r g).time = s.time := rfl
@[simp] theorem State.reject_comps (s : State) (p r g : Nat) : (s.reject p r g).comps = s.comps := rfl
@[simp] theorem State.reject_regs (s : State) (p r g : Nat) : (s.reject p r g).regs = s.regs := rfl
@[simp] theorem State.reject_pcie (s : State) (p r g : Nat) : (s.reject p r g).pcie = s.pcie := rfl
@[simp] theorem State.reject_intc (s : State) (p r g : Nat) : (s.reject p r g).intc = s.intc := rfl
@[simp] theorem State.reject_faults (s : State) (p r g : Nat) : (s.reject p r g).faults = s.faults := rfl
@[simp] theorem State.reject_due (s : State) (p r g : Nat) : (s.reject p r g).due = s.due := rfl
@[simp] theorem State.reject_jtag (s : State) (p r g : Nat) : (s.reject p r g).jtag = s.jtag := rfl
@[simp] theorem State.reject_geyser (s : State) (p r g : Nat) : (s.reject p r g).geyser = s.geyser := rfl
@[simp] theorem State.reject_jobs (s : State) (p r g : Nat) : (s.reject p r g).jobs = s.jobs := rfl
@[simp] theorem State.reject_nextJob (s : State) (p r g : Nat) : (s.reject p r g).nextJob = s.nextJob := rfl
@[simp] theorem State.reject_streams (s : State) (p r g : Nat) : (s.reject p r g).streams = s.streams := rfl
@[simp] theorem State.reject_placer (s : State) (p r g : Nat) : (s.reject p r g).placer = s.placer := rfl
@[simp] theorem State.reject_modes (s : State) (p r g : Nat) : (s.reject p r g).modes = s.modes := rfl
@[simp] theorem State.reject_pers (s : State) (p r g : Nat) : (s.reject p r g).pers = s.pers := rfl
@[simp] theorem State.reject_cores (s : State) (p r g : Nat) : (s.reject p r g).cores = s.cores := rfl
@[simp] theorem State.reject_quads (s : State) (p r g : Nat) : (s.reject p r g).quads = s.quads := rfl
@[simp] theorem State.reject_dchs (s : State) (p r g : Nat) : (s.reject p r g).dchs = s.dchs := rfl
@[simp] theorem State.reject_qm (s : State) (p r g : Nat) : (s.reject p r g).qm = s.qm := rfl
@[simp] theorem State.reject_bpm (s : State) (p r g : Nat) : (s.reject p r g).bpm = s.bpm := rfl
@[simp] theorem State.reject_dma (s : State) (p r g : Nat) : (s.reject p r g).dma = s.dma := rfl
@[simp] theorem State.reject_net (s : State) (p r g : Nat) : (s.reject p r g).net = s.net := rfl
@[simp] theorem State.reject_mem (s : State) (p r g : Nat) : (s.reject p r g).mem = s.mem := rfl
@[simp] theorem State.reject_free (s : State) (p r g : Nat) : (s.reject p r g).free = s.free := rfl
@[simp] theorem State.reject_out (s : State) (p r g : Nat) : (s.reject p r g).out = s.out := rfl
@[simp] theorem State.reject_pending (s : State) (p r g : Nat) : (s.reject p r g).pending = s.pending := rfl

/-! ### State.raiseEvt -/

@[simp] theorem State.raiseEvt_power (s : State) (p b : Nat) : (s.raiseEvt p b).power = s.power := rfl
@[simp] theorem State.raiseEvt_fuse (s : State) (p b : Nat) : (s.raiseEvt p b).fuse = s.fuse := rfl
@[simp] theorem State.raiseEvt_boot (s : State) (p b : Nat) : (s.raiseEvt p b).boot = s.boot := rfl
@[simp] theorem State.raiseEvt_tempo (s : State) (p b : Nat) : (s.raiseEvt p b).tempo = s.tempo := rfl
@[simp] theorem State.raiseEvt_time (s : State) (p b : Nat) : (s.raiseEvt p b).time = s.time := rfl
@[simp] theorem State.raiseEvt_comps (s : State) (p b : Nat) : (s.raiseEvt p b).comps = s.comps := rfl
@[simp] theorem State.raiseEvt_regs (s : State) (p b : Nat) : (s.raiseEvt p b).regs = s.regs := rfl
@[simp] theorem State.raiseEvt_pcie (s : State) (p b : Nat) : (s.raiseEvt p b).pcie = s.pcie := rfl
@[simp] theorem State.raiseEvt_intc (s : State) (p b : Nat) : (s.raiseEvt p b).intc = s.intc := rfl
@[simp] theorem State.raiseEvt_faults (s : State) (p b : Nat) : (s.raiseEvt p b).faults = s.faults := rfl
@[simp] theorem State.raiseEvt_due (s : State) (p b : Nat) : (s.raiseEvt p b).due = s.due := rfl
@[simp] theorem State.raiseEvt_jtag (s : State) (p b : Nat) : (s.raiseEvt p b).jtag = s.jtag := rfl
@[simp] theorem State.raiseEvt_geyser (s : State) (p b : Nat) : (s.raiseEvt p b).geyser = s.geyser := rfl
@[simp] theorem State.raiseEvt_jobs (s : State) (p b : Nat) : (s.raiseEvt p b).jobs = s.jobs := rfl
@[simp] theorem State.raiseEvt_nextJob (s : State) (p b : Nat) : (s.raiseEvt p b).nextJob = s.nextJob := rfl
@[simp] theorem State.raiseEvt_streams (s : State) (p b : Nat) : (s.raiseEvt p b).streams = s.streams := rfl
@[simp] theorem State.raiseEvt_placer (s : State) (p b : Nat) : (s.raiseEvt p b).placer = s.placer := rfl
@[simp] theorem State.raiseEvt_modes (s : State) (p b : Nat) : (s.raiseEvt p b).modes = s.modes := rfl
@[simp] theorem State.raiseEvt_pers (s : State) (p b : Nat) : (s.raiseEvt p b).pers = s.pers := rfl
@[simp] theorem State.raiseEvt_cores (s : State) (p b : Nat) : (s.raiseEvt p b).cores = s.cores := rfl
@[simp] theorem State.raiseEvt_quads (s : State) (p b : Nat) : (s.raiseEvt p b).quads = s.quads := rfl
@[simp] theorem State.raiseEvt_dchs (s : State) (p b : Nat) : (s.raiseEvt p b).dchs = s.dchs := rfl
@[simp] theorem State.raiseEvt_qm (s : State) (p b : Nat) : (s.raiseEvt p b).qm = s.qm := rfl
@[simp] theorem State.raiseEvt_bpm (s : State) (p b : Nat) : (s.raiseEvt p b).bpm = s.bpm := rfl
@[simp] theorem State.raiseEvt_dma (s : State) (p b : Nat) : (s.raiseEvt p b).dma = s.dma := rfl
@[simp] theorem State.raiseEvt_net (s : State) (p b : Nat) : (s.raiseEvt p b).net = s.net := rfl
@[simp] theorem State.raiseEvt_mem (s : State) (p b : Nat) : (s.raiseEvt p b).mem = s.mem := rfl
@[simp] theorem State.raiseEvt_free (s : State) (p b : Nat) : (s.raiseEvt p b).free = s.free := rfl
@[simp] theorem State.raiseEvt_out (s : State) (p b : Nat) : (s.raiseEvt p b).out = s.out := rfl
@[simp] theorem State.raiseEvt_pending (s : State) (p b : Nat) : (s.raiseEvt p b).pending = s.pending := rfl

/-! ### State.setCond -/

@[simp] theorem State.setCond_power (s : State) (p b : Nat) (v : Bool) : (s.setCond p b v).power = s.power := rfl
@[simp] theorem State.setCond_fuse (s : State) (p b : Nat) (v : Bool) : (s.setCond p b v).fuse = s.fuse := rfl
@[simp] theorem State.setCond_boot (s : State) (p b : Nat) (v : Bool) : (s.setCond p b v).boot = s.boot := rfl
@[simp] theorem State.setCond_tempo (s : State) (p b : Nat) (v : Bool) : (s.setCond p b v).tempo = s.tempo := rfl
@[simp] theorem State.setCond_time (s : State) (p b : Nat) (v : Bool) : (s.setCond p b v).time = s.time := rfl
@[simp] theorem State.setCond_comps (s : State) (p b : Nat) (v : Bool) : (s.setCond p b v).comps = s.comps := rfl
@[simp] theorem State.setCond_regs (s : State) (p b : Nat) (v : Bool) : (s.setCond p b v).regs = s.regs := rfl
@[simp] theorem State.setCond_pcie (s : State) (p b : Nat) (v : Bool) : (s.setCond p b v).pcie = s.pcie := rfl
@[simp] theorem State.setCond_intc (s : State) (p b : Nat) (v : Bool) : (s.setCond p b v).intc = s.intc := rfl
@[simp] theorem State.setCond_faults (s : State) (p b : Nat) (v : Bool) : (s.setCond p b v).faults = s.faults := rfl
@[simp] theorem State.setCond_due (s : State) (p b : Nat) (v : Bool) : (s.setCond p b v).due = s.due := rfl
@[simp] theorem State.setCond_jtag (s : State) (p b : Nat) (v : Bool) : (s.setCond p b v).jtag = s.jtag := rfl
@[simp] theorem State.setCond_geyser (s : State) (p b : Nat) (v : Bool) : (s.setCond p b v).geyser = s.geyser := rfl
@[simp] theorem State.setCond_jobs (s : State) (p b : Nat) (v : Bool) : (s.setCond p b v).jobs = s.jobs := rfl
@[simp] theorem State.setCond_nextJob (s : State) (p b : Nat) (v : Bool) : (s.setCond p b v).nextJob = s.nextJob := rfl
@[simp] theorem State.setCond_streams (s : State) (p b : Nat) (v : Bool) : (s.setCond p b v).streams = s.streams := rfl
@[simp] theorem State.setCond_placer (s : State) (p b : Nat) (v : Bool) : (s.setCond p b v).placer = s.placer := rfl
@[simp] theorem State.setCond_modes (s : State) (p b : Nat) (v : Bool) : (s.setCond p b v).modes = s.modes := rfl
@[simp] theorem State.setCond_pers (s : State) (p b : Nat) (v : Bool) : (s.setCond p b v).pers = s.pers := rfl
@[simp] theorem State.setCond_cores (s : State) (p b : Nat) (v : Bool) : (s.setCond p b v).cores = s.cores := rfl
@[simp] theorem State.setCond_quads (s : State) (p b : Nat) (v : Bool) : (s.setCond p b v).quads = s.quads := rfl
@[simp] theorem State.setCond_dchs (s : State) (p b : Nat) (v : Bool) : (s.setCond p b v).dchs = s.dchs := rfl
@[simp] theorem State.setCond_qm (s : State) (p b : Nat) (v : Bool) : (s.setCond p b v).qm = s.qm := rfl
@[simp] theorem State.setCond_bpm (s : State) (p b : Nat) (v : Bool) : (s.setCond p b v).bpm = s.bpm := rfl
@[simp] theorem State.setCond_dma (s : State) (p b : Nat) (v : Bool) : (s.setCond p b v).dma = s.dma := rfl
@[simp] theorem State.setCond_net (s : State) (p b : Nat) (v : Bool) : (s.setCond p b v).net = s.net := rfl
@[simp] theorem State.setCond_mem (s : State) (p b : Nat) (v : Bool) : (s.setCond p b v).mem = s.mem := rfl
@[simp] theorem State.setCond_free (s : State) (p b : Nat) (v : Bool) : (s.setCond p b v).free = s.free := rfl
@[simp] theorem State.setCond_out (s : State) (p b : Nat) (v : Bool) : (s.setCond p b v).out = s.out := rfl
@[simp] theorem State.setCond_pending (s : State) (p b : Nat) (v : Bool) : (s.setCond p b v).pending = s.pending := rfl

/-! ### State.setReg -/

@[simp] theorem State.setReg_power (s : State) (p o : Nat) (w : Word) : (s.setReg p o w).power = s.power := rfl
@[simp] theorem State.setReg_fuse (s : State) (p o : Nat) (w : Word) : (s.setReg p o w).fuse = s.fuse := rfl
@[simp] theorem State.setReg_boot (s : State) (p o : Nat) (w : Word) : (s.setReg p o w).boot = s.boot := rfl
@[simp] theorem State.setReg_tempo (s : State) (p o : Nat) (w : Word) : (s.setReg p o w).tempo = s.tempo := rfl
@[simp] theorem State.setReg_time (s : State) (p o : Nat) (w : Word) : (s.setReg p o w).time = s.time := rfl
@[simp] theorem State.setReg_comps (s : State) (p o : Nat) (w : Word) : (s.setReg p o w).comps = s.comps := rfl
@[simp] theorem State.setReg_pages (s : State) (p o : Nat) (w : Word) : (s.setReg p o w).pages = s.pages := rfl
@[simp] theorem State.setReg_pcie (s : State) (p o : Nat) (w : Word) : (s.setReg p o w).pcie = s.pcie := rfl
@[simp] theorem State.setReg_intc (s : State) (p o : Nat) (w : Word) : (s.setReg p o w).intc = s.intc := rfl
@[simp] theorem State.setReg_faults (s : State) (p o : Nat) (w : Word) : (s.setReg p o w).faults = s.faults := rfl
@[simp] theorem State.setReg_due (s : State) (p o : Nat) (w : Word) : (s.setReg p o w).due = s.due := rfl
@[simp] theorem State.setReg_jtag (s : State) (p o : Nat) (w : Word) : (s.setReg p o w).jtag = s.jtag := rfl
@[simp] theorem State.setReg_geyser (s : State) (p o : Nat) (w : Word) : (s.setReg p o w).geyser = s.geyser := rfl
@[simp] theorem State.setReg_jobs (s : State) (p o : Nat) (w : Word) : (s.setReg p o w).jobs = s.jobs := rfl
@[simp] theorem State.setReg_nextJob (s : State) (p o : Nat) (w : Word) : (s.setReg p o w).nextJob = s.nextJob := rfl
@[simp] theorem State.setReg_streams (s : State) (p o : Nat) (w : Word) : (s.setReg p o w).streams = s.streams := rfl
@[simp] theorem State.setReg_placer (s : State) (p o : Nat) (w : Word) : (s.setReg p o w).placer = s.placer := rfl
@[simp] theorem State.setReg_modes (s : State) (p o : Nat) (w : Word) : (s.setReg p o w).modes = s.modes := rfl
@[simp] theorem State.setReg_pers (s : State) (p o : Nat) (w : Word) : (s.setReg p o w).pers = s.pers := rfl
@[simp] theorem State.setReg_cores (s : State) (p o : Nat) (w : Word) : (s.setReg p o w).cores = s.cores := rfl
@[simp] theorem State.setReg_quads (s : State) (p o : Nat) (w : Word) : (s.setReg p o w).quads = s.quads := rfl
@[simp] theorem State.setReg_dchs (s : State) (p o : Nat) (w : Word) : (s.setReg p o w).dchs = s.dchs := rfl
@[simp] theorem State.setReg_qm (s : State) (p o : Nat) (w : Word) : (s.setReg p o w).qm = s.qm := rfl
@[simp] theorem State.setReg_bpm (s : State) (p o : Nat) (w : Word) : (s.setReg p o w).bpm = s.bpm := rfl
@[simp] theorem State.setReg_dma (s : State) (p o : Nat) (w : Word) : (s.setReg p o w).dma = s.dma := rfl
@[simp] theorem State.setReg_net (s : State) (p o : Nat) (w : Word) : (s.setReg p o w).net = s.net := rfl
@[simp] theorem State.setReg_mem (s : State) (p o : Nat) (w : Word) : (s.setReg p o w).mem = s.mem := rfl
@[simp] theorem State.setReg_free (s : State) (p o : Nat) (w : Word) : (s.setReg p o w).free = s.free := rfl
@[simp] theorem State.setReg_out (s : State) (p o : Nat) (w : Word) : (s.setReg p o w).out = s.out := rfl
@[simp] theorem State.setReg_pending (s : State) (p o : Nat) (w : Word) : (s.setReg p o w).pending = s.pending := rfl

/-! ### State.write -/

@[simp] theorem State.write_power (s : State) (a : Nat) (bs : List Byte) : (s.write a bs).power = s.power := rfl
@[simp] theorem State.write_fuse (s : State) (a : Nat) (bs : List Byte) : (s.write a bs).fuse = s.fuse := rfl
@[simp] theorem State.write_boot (s : State) (a : Nat) (bs : List Byte) : (s.write a bs).boot = s.boot := rfl
@[simp] theorem State.write_tempo (s : State) (a : Nat) (bs : List Byte) : (s.write a bs).tempo = s.tempo := rfl
@[simp] theorem State.write_time (s : State) (a : Nat) (bs : List Byte) : (s.write a bs).time = s.time := rfl
@[simp] theorem State.write_comps (s : State) (a : Nat) (bs : List Byte) : (s.write a bs).comps = s.comps := rfl
@[simp] theorem State.write_pages (s : State) (a : Nat) (bs : List Byte) : (s.write a bs).pages = s.pages := rfl
@[simp] theorem State.write_regs (s : State) (a : Nat) (bs : List Byte) : (s.write a bs).regs = s.regs := rfl
@[simp] theorem State.write_pcie (s : State) (a : Nat) (bs : List Byte) : (s.write a bs).pcie = s.pcie := rfl
@[simp] theorem State.write_intc (s : State) (a : Nat) (bs : List Byte) : (s.write a bs).intc = s.intc := rfl
@[simp] theorem State.write_faults (s : State) (a : Nat) (bs : List Byte) : (s.write a bs).faults = s.faults := rfl
@[simp] theorem State.write_due (s : State) (a : Nat) (bs : List Byte) : (s.write a bs).due = s.due := rfl
@[simp] theorem State.write_jtag (s : State) (a : Nat) (bs : List Byte) : (s.write a bs).jtag = s.jtag := rfl
@[simp] theorem State.write_geyser (s : State) (a : Nat) (bs : List Byte) : (s.write a bs).geyser = s.geyser := rfl
@[simp] theorem State.write_jobs (s : State) (a : Nat) (bs : List Byte) : (s.write a bs).jobs = s.jobs := rfl
@[simp] theorem State.write_nextJob (s : State) (a : Nat) (bs : List Byte) : (s.write a bs).nextJob = s.nextJob := rfl
@[simp] theorem State.write_streams (s : State) (a : Nat) (bs : List Byte) : (s.write a bs).streams = s.streams := rfl
@[simp] theorem State.write_placer (s : State) (a : Nat) (bs : List Byte) : (s.write a bs).placer = s.placer := rfl
@[simp] theorem State.write_modes (s : State) (a : Nat) (bs : List Byte) : (s.write a bs).modes = s.modes := rfl
@[simp] theorem State.write_pers (s : State) (a : Nat) (bs : List Byte) : (s.write a bs).pers = s.pers := rfl
@[simp] theorem State.write_cores (s : State) (a : Nat) (bs : List Byte) : (s.write a bs).cores = s.cores := rfl
@[simp] theorem State.write_quads (s : State) (a : Nat) (bs : List Byte) : (s.write a bs).quads = s.quads := rfl
@[simp] theorem State.write_dchs (s : State) (a : Nat) (bs : List Byte) : (s.write a bs).dchs = s.dchs := rfl
@[simp] theorem State.write_qm (s : State) (a : Nat) (bs : List Byte) : (s.write a bs).qm = s.qm := rfl
@[simp] theorem State.write_bpm (s : State) (a : Nat) (bs : List Byte) : (s.write a bs).bpm = s.bpm := rfl
@[simp] theorem State.write_dma (s : State) (a : Nat) (bs : List Byte) : (s.write a bs).dma = s.dma := rfl
@[simp] theorem State.write_net (s : State) (a : Nat) (bs : List Byte) : (s.write a bs).net = s.net := rfl
@[simp] theorem State.write_free (s : State) (a : Nat) (bs : List Byte) : (s.write a bs).free = s.free := rfl
@[simp] theorem State.write_out (s : State) (a : Nat) (bs : List Byte) : (s.write a bs).out = s.out := rfl
@[simp] theorem State.write_pending (s : State) (a : Nat) (bs : List Byte) : (s.write a bs).pending = s.pending := rfl

/-! ### State.modJob -/

@[simp] theorem State.modJob_power (s : State) (j : Nat) (f : Job → Job) : (s.modJob j f).power = s.power := rfl
@[simp] theorem State.modJob_fuse (s : State) (j : Nat) (f : Job → Job) : (s.modJob j f).fuse = s.fuse := rfl
@[simp] theorem State.modJob_boot (s : State) (j : Nat) (f : Job → Job) : (s.modJob j f).boot = s.boot := rfl
@[simp] theorem State.modJob_tempo (s : State) (j : Nat) (f : Job → Job) : (s.modJob j f).tempo = s.tempo := rfl
@[simp] theorem State.modJob_time (s : State) (j : Nat) (f : Job → Job) : (s.modJob j f).time = s.time := rfl
@[simp] theorem State.modJob_comps (s : State) (j : Nat) (f : Job → Job) : (s.modJob j f).comps = s.comps := rfl
@[simp] theorem State.modJob_pages (s : State) (j : Nat) (f : Job → Job) : (s.modJob j f).pages = s.pages := rfl
@[simp] theorem State.modJob_regs (s : State) (j : Nat) (f : Job → Job) : (s.modJob j f).regs = s.regs := rfl
@[simp] theorem State.modJob_pcie (s : State) (j : Nat) (f : Job → Job) : (s.modJob j f).pcie = s.pcie := rfl
@[simp] theorem State.modJob_intc (s : State) (j : Nat) (f : Job → Job) : (s.modJob j f).intc = s.intc := rfl
@[simp] theorem State.modJob_faults (s : State) (j : Nat) (f : Job → Job) : (s.modJob j f).faults = s.faults := rfl
@[simp] theorem State.modJob_due (s : State) (j : Nat) (f : Job → Job) : (s.modJob j f).due = s.due := rfl
@[simp] theorem State.modJob_jtag (s : State) (j : Nat) (f : Job → Job) : (s.modJob j f).jtag = s.jtag := rfl
@[simp] theorem State.modJob_geyser (s : State) (j : Nat) (f : Job → Job) : (s.modJob j f).geyser = s.geyser := rfl
@[simp] theorem State.modJob_nextJob (s : State) (j : Nat) (f : Job → Job) : (s.modJob j f).nextJob = s.nextJob := rfl
@[simp] theorem State.modJob_streams (s : State) (j : Nat) (f : Job → Job) : (s.modJob j f).streams = s.streams := rfl
@[simp] theorem State.modJob_placer (s : State) (j : Nat) (f : Job → Job) : (s.modJob j f).placer = s.placer := rfl
@[simp] theorem State.modJob_modes (s : State) (j : Nat) (f : Job → Job) : (s.modJob j f).modes = s.modes := rfl
@[simp] theorem State.modJob_pers (s : State) (j : Nat) (f : Job → Job) : (s.modJob j f).pers = s.pers := rfl
@[simp] theorem State.modJob_cores (s : State) (j : Nat) (f : Job → Job) : (s.modJob j f).cores = s.cores := rfl
@[simp] theorem State.modJob_quads (s : State) (j : Nat) (f : Job → Job) : (s.modJob j f).quads = s.quads := rfl
@[simp] theorem State.modJob_dchs (s : State) (j : Nat) (f : Job → Job) : (s.modJob j f).dchs = s.dchs := rfl
@[simp] theorem State.modJob_qm (s : State) (j : Nat) (f : Job → Job) : (s.modJob j f).qm = s.qm := rfl
@[simp] theorem State.modJob_bpm (s : State) (j : Nat) (f : Job → Job) : (s.modJob j f).bpm = s.bpm := rfl
@[simp] theorem State.modJob_dma (s : State) (j : Nat) (f : Job → Job) : (s.modJob j f).dma = s.dma := rfl
@[simp] theorem State.modJob_net (s : State) (j : Nat) (f : Job → Job) : (s.modJob j f).net = s.net := rfl
@[simp] theorem State.modJob_mem (s : State) (j : Nat) (f : Job → Job) : (s.modJob j f).mem = s.mem := rfl
@[simp] theorem State.modJob_free (s : State) (j : Nat) (f : Job → Job) : (s.modJob j f).free = s.free := rfl
@[simp] theorem State.modJob_out (s : State) (j : Nat) (f : Job → Job) : (s.modJob j f).out = s.out := rfl
@[simp] theorem State.modJob_pending (s : State) (j : Nat) (f : Job → Job) : (s.modJob j f).pending = s.pending := rfl

/-! ### State.modStream -/

@[simp] theorem State.modStream_power (s : State) (n : Nat) (f : Stream → Stream) : (s.modStream n f).power = s.power := rfl
@[simp] theorem State.modStream_fuse (s : State) (n : Nat) (f : Stream → Stream) : (s.modStream n f).fuse = s.fuse := rfl
@[simp] theorem State.modStream_boot (s : State) (n : Nat) (f : Stream → Stream) : (s.modStream n f).boot = s.boot := rfl
@[simp] theorem State.modStream_tempo (s : State) (n : Nat) (f : Stream → Stream) : (s.modStream n f).tempo = s.tempo := rfl
@[simp] theorem State.modStream_time (s : State) (n : Nat) (f : Stream → Stream) : (s.modStream n f).time = s.time := rfl
@[simp] theorem State.modStream_comps (s : State) (n : Nat) (f : Stream → Stream) : (s.modStream n f).comps = s.comps := rfl
@[simp] theorem State.modStream_pages (s : State) (n : Nat) (f : Stream → Stream) : (s.modStream n f).pages = s.pages := rfl
@[simp] theorem State.modStream_regs (s : State) (n : Nat) (f : Stream → Stream) : (s.modStream n f).regs = s.regs := rfl
@[simp] theorem State.modStream_pcie (s : State) (n : Nat) (f : Stream → Stream) : (s.modStream n f).pcie = s.pcie := rfl
@[simp] theorem State.modStream_intc (s : State) (n : Nat) (f : Stream → Stream) : (s.modStream n f).intc = s.intc := rfl
@[simp] theorem State.modStream_faults (s : State) (n : Nat) (f : Stream → Stream) : (s.modStream n f).faults = s.faults := rfl
@[simp] theorem State.modStream_due (s : State) (n : Nat) (f : Stream → Stream) : (s.modStream n f).due = s.due := rfl
@[simp] theorem State.modStream_jtag (s : State) (n : Nat) (f : Stream → Stream) : (s.modStream n f).jtag = s.jtag := rfl
@[simp] theorem State.modStream_geyser (s : State) (n : Nat) (f : Stream → Stream) : (s.modStream n f).geyser = s.geyser := rfl
@[simp] theorem State.modStream_jobs (s : State) (n : Nat) (f : Stream → Stream) : (s.modStream n f).jobs = s.jobs := rfl
@[simp] theorem State.modStream_nextJob (s : State) (n : Nat) (f : Stream → Stream) : (s.modStream n f).nextJob = s.nextJob := rfl
@[simp] theorem State.modStream_placer (s : State) (n : Nat) (f : Stream → Stream) : (s.modStream n f).placer = s.placer := rfl
@[simp] theorem State.modStream_modes (s : State) (n : Nat) (f : Stream → Stream) : (s.modStream n f).modes = s.modes := rfl
@[simp] theorem State.modStream_pers (s : State) (n : Nat) (f : Stream → Stream) : (s.modStream n f).pers = s.pers := rfl
@[simp] theorem State.modStream_cores (s : State) (n : Nat) (f : Stream → Stream) : (s.modStream n f).cores = s.cores := rfl
@[simp] theorem State.modStream_quads (s : State) (n : Nat) (f : Stream → Stream) : (s.modStream n f).quads = s.quads := rfl
@[simp] theorem State.modStream_dchs (s : State) (n : Nat) (f : Stream → Stream) : (s.modStream n f).dchs = s.dchs := rfl
@[simp] theorem State.modStream_qm (s : State) (n : Nat) (f : Stream → Stream) : (s.modStream n f).qm = s.qm := rfl
@[simp] theorem State.modStream_bpm (s : State) (n : Nat) (f : Stream → Stream) : (s.modStream n f).bpm = s.bpm := rfl
@[simp] theorem State.modStream_dma (s : State) (n : Nat) (f : Stream → Stream) : (s.modStream n f).dma = s.dma := rfl
@[simp] theorem State.modStream_net (s : State) (n : Nat) (f : Stream → Stream) : (s.modStream n f).net = s.net := rfl
@[simp] theorem State.modStream_mem (s : State) (n : Nat) (f : Stream → Stream) : (s.modStream n f).mem = s.mem := rfl
@[simp] theorem State.modStream_free (s : State) (n : Nat) (f : Stream → Stream) : (s.modStream n f).free = s.free := rfl
@[simp] theorem State.modStream_out (s : State) (n : Nat) (f : Stream → Stream) : (s.modStream n f).out = s.out := rfl
@[simp] theorem State.modStream_pending (s : State) (n : Nat) (f : Stream → Stream) : (s.modStream n f).pending = s.pending := rfl

/-! ### State.modWq -/

@[simp] theorem State.modWq_power (s : State) (q : Nat) (f : Queue → Queue) : (s.modWq q f).power = s.power := rfl
@[simp] theorem State.modWq_fuse (s : State) (q : Nat) (f : Queue → Queue) : (s.modWq q f).fuse = s.fuse := rfl
@[simp] theorem State.modWq_boot (s : State) (q : Nat) (f : Queue → Queue) : (s.modWq q f).boot = s.boot := rfl
@[simp] theorem State.modWq_tempo (s : State) (q : Nat) (f : Queue → Queue) : (s.modWq q f).tempo = s.tempo := rfl
@[simp] theorem State.modWq_time (s : State) (q : Nat) (f : Queue → Queue) : (s.modWq q f).time = s.time := rfl
@[simp] theorem State.modWq_comps (s : State) (q : Nat) (f : Queue → Queue) : (s.modWq q f).comps = s.comps := rfl
@[simp] theorem State.modWq_pages (s : State) (q : Nat) (f : Queue → Queue) : (s.modWq q f).pages = s.pages := rfl
@[simp] theorem State.modWq_regs (s : State) (q : Nat) (f : Queue → Queue) : (s.modWq q f).regs = s.regs := rfl
@[simp] theorem State.modWq_pcie (s : State) (q : Nat) (f : Queue → Queue) : (s.modWq q f).pcie = s.pcie := rfl
@[simp] theorem State.modWq_intc (s : State) (q : Nat) (f : Queue → Queue) : (s.modWq q f).intc = s.intc := rfl
@[simp] theorem State.modWq_faults (s : State) (q : Nat) (f : Queue → Queue) : (s.modWq q f).faults = s.faults := rfl
@[simp] theorem State.modWq_due (s : State) (q : Nat) (f : Queue → Queue) : (s.modWq q f).due = s.due := rfl
@[simp] theorem State.modWq_jtag (s : State) (q : Nat) (f : Queue → Queue) : (s.modWq q f).jtag = s.jtag := rfl
@[simp] theorem State.modWq_jobs (s : State) (q : Nat) (f : Queue → Queue) : (s.modWq q f).jobs = s.jobs := rfl
@[simp] theorem State.modWq_nextJob (s : State) (q : Nat) (f : Queue → Queue) : (s.modWq q f).nextJob = s.nextJob := rfl
@[simp] theorem State.modWq_streams (s : State) (q : Nat) (f : Queue → Queue) : (s.modWq q f).streams = s.streams := rfl
@[simp] theorem State.modWq_placer (s : State) (q : Nat) (f : Queue → Queue) : (s.modWq q f).placer = s.placer := rfl
@[simp] theorem State.modWq_modes (s : State) (q : Nat) (f : Queue → Queue) : (s.modWq q f).modes = s.modes := rfl
@[simp] theorem State.modWq_pers (s : State) (q : Nat) (f : Queue → Queue) : (s.modWq q f).pers = s.pers := rfl
@[simp] theorem State.modWq_cores (s : State) (q : Nat) (f : Queue → Queue) : (s.modWq q f).cores = s.cores := rfl
@[simp] theorem State.modWq_quads (s : State) (q : Nat) (f : Queue → Queue) : (s.modWq q f).quads = s.quads := rfl
@[simp] theorem State.modWq_dchs (s : State) (q : Nat) (f : Queue → Queue) : (s.modWq q f).dchs = s.dchs := rfl
@[simp] theorem State.modWq_qm (s : State) (q : Nat) (f : Queue → Queue) : (s.modWq q f).qm = s.qm := rfl
@[simp] theorem State.modWq_bpm (s : State) (q : Nat) (f : Queue → Queue) : (s.modWq q f).bpm = s.bpm := rfl
@[simp] theorem State.modWq_dma (s : State) (q : Nat) (f : Queue → Queue) : (s.modWq q f).dma = s.dma := rfl
@[simp] theorem State.modWq_net (s : State) (q : Nat) (f : Queue → Queue) : (s.modWq q f).net = s.net := rfl
@[simp] theorem State.modWq_mem (s : State) (q : Nat) (f : Queue → Queue) : (s.modWq q f).mem = s.mem := rfl
@[simp] theorem State.modWq_free (s : State) (q : Nat) (f : Queue → Queue) : (s.modWq q f).free = s.free := rfl
@[simp] theorem State.modWq_out (s : State) (q : Nat) (f : Queue → Queue) : (s.modWq q f).out = s.out := rfl
@[simp] theorem State.modWq_pending (s : State) (q : Nat) (f : Queue → Queue) : (s.modWq q f).pending = s.pending := rfl

/-! ### State.modPool -/

@[simp] theorem State.modPool_power (s : State) (p : Nat) (f : Pool → Pool) : (s.modPool p f).power = s.power := rfl
@[simp] theorem State.modPool_fuse (s : State) (p : Nat) (f : Pool → Pool) : (s.modPool p f).fuse = s.fuse := rfl
@[simp] theorem State.modPool_boot (s : State) (p : Nat) (f : Pool → Pool) : (s.modPool p f).boot = s.boot := rfl
@[simp] theorem State.modPool_tempo (s : State) (p : Nat) (f : Pool → Pool) : (s.modPool p f).tempo = s.tempo := rfl
@[simp] theorem State.modPool_time (s : State) (p : Nat) (f : Pool → Pool) : (s.modPool p f).time = s.time := rfl
@[simp] theorem State.modPool_comps (s : State) (p : Nat) (f : Pool → Pool) : (s.modPool p f).comps = s.comps := rfl
@[simp] theorem State.modPool_pages (s : State) (p : Nat) (f : Pool → Pool) : (s.modPool p f).pages = s.pages := rfl
@[simp] theorem State.modPool_regs (s : State) (p : Nat) (f : Pool → Pool) : (s.modPool p f).regs = s.regs := rfl
@[simp] theorem State.modPool_pcie (s : State) (p : Nat) (f : Pool → Pool) : (s.modPool p f).pcie = s.pcie := rfl
@[simp] theorem State.modPool_intc (s : State) (p : Nat) (f : Pool → Pool) : (s.modPool p f).intc = s.intc := rfl
@[simp] theorem State.modPool_faults (s : State) (p : Nat) (f : Pool → Pool) : (s.modPool p f).faults = s.faults := rfl
@[simp] theorem State.modPool_due (s : State) (p : Nat) (f : Pool → Pool) : (s.modPool p f).due = s.due := rfl
@[simp] theorem State.modPool_jtag (s : State) (p : Nat) (f : Pool → Pool) : (s.modPool p f).jtag = s.jtag := rfl
@[simp] theorem State.modPool_geyser (s : State) (p : Nat) (f : Pool → Pool) : (s.modPool p f).geyser = s.geyser := rfl
@[simp] theorem State.modPool_jobs (s : State) (p : Nat) (f : Pool → Pool) : (s.modPool p f).jobs = s.jobs := rfl
@[simp] theorem State.modPool_nextJob (s : State) (p : Nat) (f : Pool → Pool) : (s.modPool p f).nextJob = s.nextJob := rfl
@[simp] theorem State.modPool_streams (s : State) (p : Nat) (f : Pool → Pool) : (s.modPool p f).streams = s.streams := rfl
@[simp] theorem State.modPool_placer (s : State) (p : Nat) (f : Pool → Pool) : (s.modPool p f).placer = s.placer := rfl
@[simp] theorem State.modPool_modes (s : State) (p : Nat) (f : Pool → Pool) : (s.modPool p f).modes = s.modes := rfl
@[simp] theorem State.modPool_pers (s : State) (p : Nat) (f : Pool → Pool) : (s.modPool p f).pers = s.pers := rfl
@[simp] theorem State.modPool_cores (s : State) (p : Nat) (f : Pool → Pool) : (s.modPool p f).cores = s.cores := rfl
@[simp] theorem State.modPool_quads (s : State) (p : Nat) (f : Pool → Pool) : (s.modPool p f).quads = s.quads := rfl
@[simp] theorem State.modPool_dchs (s : State) (p : Nat) (f : Pool → Pool) : (s.modPool p f).dchs = s.dchs := rfl
@[simp] theorem State.modPool_qm (s : State) (p : Nat) (f : Pool → Pool) : (s.modPool p f).qm = s.qm := rfl
@[simp] theorem State.modPool_dma (s : State) (p : Nat) (f : Pool → Pool) : (s.modPool p f).dma = s.dma := rfl
@[simp] theorem State.modPool_net (s : State) (p : Nat) (f : Pool → Pool) : (s.modPool p f).net = s.net := rfl
@[simp] theorem State.modPool_mem (s : State) (p : Nat) (f : Pool → Pool) : (s.modPool p f).mem = s.mem := rfl
@[simp] theorem State.modPool_free (s : State) (p : Nat) (f : Pool → Pool) : (s.modPool p f).free = s.free := rfl
@[simp] theorem State.modPool_out (s : State) (p : Nat) (f : Pool → Pool) : (s.modPool p f).out = s.out := rfl
@[simp] theorem State.modPool_pending (s : State) (p : Nat) (f : Pool → Pool) : (s.modPool p f).pending = s.pending := rfl

/-! ### State.modClq -/

@[simp] theorem State.modClq_power (s : State) (q : Nat) (f : Clq → Clq) : (s.modClq q f).power = s.power := rfl
@[simp] theorem State.modClq_fuse (s : State) (q : Nat) (f : Clq → Clq) : (s.modClq q f).fuse = s.fuse := rfl
@[simp] theorem State.modClq_boot (s : State) (q : Nat) (f : Clq → Clq) : (s.modClq q f).boot = s.boot := rfl
@[simp] theorem State.modClq_tempo (s : State) (q : Nat) (f : Clq → Clq) : (s.modClq q f).tempo = s.tempo := rfl
@[simp] theorem State.modClq_time (s : State) (q : Nat) (f : Clq → Clq) : (s.modClq q f).time = s.time := rfl
@[simp] theorem State.modClq_comps (s : State) (q : Nat) (f : Clq → Clq) : (s.modClq q f).comps = s.comps := rfl
@[simp] theorem State.modClq_pages (s : State) (q : Nat) (f : Clq → Clq) : (s.modClq q f).pages = s.pages := rfl
@[simp] theorem State.modClq_regs (s : State) (q : Nat) (f : Clq → Clq) : (s.modClq q f).regs = s.regs := rfl
@[simp] theorem State.modClq_pcie (s : State) (q : Nat) (f : Clq → Clq) : (s.modClq q f).pcie = s.pcie := rfl
@[simp] theorem State.modClq_intc (s : State) (q : Nat) (f : Clq → Clq) : (s.modClq q f).intc = s.intc := rfl
@[simp] theorem State.modClq_faults (s : State) (q : Nat) (f : Clq → Clq) : (s.modClq q f).faults = s.faults := rfl
@[simp] theorem State.modClq_due (s : State) (q : Nat) (f : Clq → Clq) : (s.modClq q f).due = s.due := rfl
@[simp] theorem State.modClq_jtag (s : State) (q : Nat) (f : Clq → Clq) : (s.modClq q f).jtag = s.jtag := rfl
@[simp] theorem State.modClq_geyser (s : State) (q : Nat) (f : Clq → Clq) : (s.modClq q f).geyser = s.geyser := rfl
@[simp] theorem State.modClq_jobs (s : State) (q : Nat) (f : Clq → Clq) : (s.modClq q f).jobs = s.jobs := rfl
@[simp] theorem State.modClq_nextJob (s : State) (q : Nat) (f : Clq → Clq) : (s.modClq q f).nextJob = s.nextJob := rfl
@[simp] theorem State.modClq_streams (s : State) (q : Nat) (f : Clq → Clq) : (s.modClq q f).streams = s.streams := rfl
@[simp] theorem State.modClq_placer (s : State) (q : Nat) (f : Clq → Clq) : (s.modClq q f).placer = s.placer := rfl
@[simp] theorem State.modClq_modes (s : State) (q : Nat) (f : Clq → Clq) : (s.modClq q f).modes = s.modes := rfl
@[simp] theorem State.modClq_pers (s : State) (q : Nat) (f : Clq → Clq) : (s.modClq q f).pers = s.pers := rfl
@[simp] theorem State.modClq_cores (s : State) (q : Nat) (f : Clq → Clq) : (s.modClq q f).cores = s.cores := rfl
@[simp] theorem State.modClq_quads (s : State) (q : Nat) (f : Clq → Clq) : (s.modClq q f).quads = s.quads := rfl
@[simp] theorem State.modClq_dchs (s : State) (q : Nat) (f : Clq → Clq) : (s.modClq q f).dchs = s.dchs := rfl
@[simp] theorem State.modClq_bpm (s : State) (q : Nat) (f : Clq → Clq) : (s.modClq q f).bpm = s.bpm := rfl
@[simp] theorem State.modClq_dma (s : State) (q : Nat) (f : Clq → Clq) : (s.modClq q f).dma = s.dma := rfl
@[simp] theorem State.modClq_net (s : State) (q : Nat) (f : Clq → Clq) : (s.modClq q f).net = s.net := rfl
@[simp] theorem State.modClq_mem (s : State) (q : Nat) (f : Clq → Clq) : (s.modClq q f).mem = s.mem := rfl
@[simp] theorem State.modClq_free (s : State) (q : Nat) (f : Clq → Clq) : (s.modClq q f).free = s.free := rfl
@[simp] theorem State.modClq_out (s : State) (q : Nat) (f : Clq → Clq) : (s.modClq q f).out = s.out := rfl
@[simp] theorem State.modClq_pending (s : State) (q : Nat) (f : Clq → Clq) : (s.modClq q f).pending = s.pending := rfl

/-! ### State.modDch -/

@[simp] theorem State.modDch_power (s : State) (k : Nat) (f : Dch → Dch) : (s.modDch k f).power = s.power := rfl
@[simp] theorem State.modDch_fuse (s : State) (k : Nat) (f : Dch → Dch) : (s.modDch k f).fuse = s.fuse := rfl
@[simp] theorem State.modDch_boot (s : State) (k : Nat) (f : Dch → Dch) : (s.modDch k f).boot = s.boot := rfl
@[simp] theorem State.modDch_tempo (s : State) (k : Nat) (f : Dch → Dch) : (s.modDch k f).tempo = s.tempo := rfl
@[simp] theorem State.modDch_time (s : State) (k : Nat) (f : Dch → Dch) : (s.modDch k f).time = s.time := rfl
@[simp] theorem State.modDch_comps (s : State) (k : Nat) (f : Dch → Dch) : (s.modDch k f).comps = s.comps := rfl
@[simp] theorem State.modDch_pages (s : State) (k : Nat) (f : Dch → Dch) : (s.modDch k f).pages = s.pages := rfl
@[simp] theorem State.modDch_regs (s : State) (k : Nat) (f : Dch → Dch) : (s.modDch k f).regs = s.regs := rfl
@[simp] theorem State.modDch_pcie (s : State) (k : Nat) (f : Dch → Dch) : (s.modDch k f).pcie = s.pcie := rfl
@[simp] theorem State.modDch_intc (s : State) (k : Nat) (f : Dch → Dch) : (s.modDch k f).intc = s.intc := rfl
@[simp] theorem State.modDch_faults (s : State) (k : Nat) (f : Dch → Dch) : (s.modDch k f).faults = s.faults := rfl
@[simp] theorem State.modDch_due (s : State) (k : Nat) (f : Dch → Dch) : (s.modDch k f).due = s.due := rfl
@[simp] theorem State.modDch_jtag (s : State) (k : Nat) (f : Dch → Dch) : (s.modDch k f).jtag = s.jtag := rfl
@[simp] theorem State.modDch_geyser (s : State) (k : Nat) (f : Dch → Dch) : (s.modDch k f).geyser = s.geyser := rfl
@[simp] theorem State.modDch_jobs (s : State) (k : Nat) (f : Dch → Dch) : (s.modDch k f).jobs = s.jobs := rfl
@[simp] theorem State.modDch_nextJob (s : State) (k : Nat) (f : Dch → Dch) : (s.modDch k f).nextJob = s.nextJob := rfl
@[simp] theorem State.modDch_streams (s : State) (k : Nat) (f : Dch → Dch) : (s.modDch k f).streams = s.streams := rfl
@[simp] theorem State.modDch_placer (s : State) (k : Nat) (f : Dch → Dch) : (s.modDch k f).placer = s.placer := rfl
@[simp] theorem State.modDch_modes (s : State) (k : Nat) (f : Dch → Dch) : (s.modDch k f).modes = s.modes := rfl
@[simp] theorem State.modDch_pers (s : State) (k : Nat) (f : Dch → Dch) : (s.modDch k f).pers = s.pers := rfl
@[simp] theorem State.modDch_cores (s : State) (k : Nat) (f : Dch → Dch) : (s.modDch k f).cores = s.cores := rfl
@[simp] theorem State.modDch_quads (s : State) (k : Nat) (f : Dch → Dch) : (s.modDch k f).quads = s.quads := rfl
@[simp] theorem State.modDch_qm (s : State) (k : Nat) (f : Dch → Dch) : (s.modDch k f).qm = s.qm := rfl
@[simp] theorem State.modDch_bpm (s : State) (k : Nat) (f : Dch → Dch) : (s.modDch k f).bpm = s.bpm := rfl
@[simp] theorem State.modDch_dma (s : State) (k : Nat) (f : Dch → Dch) : (s.modDch k f).dma = s.dma := rfl
@[simp] theorem State.modDch_net (s : State) (k : Nat) (f : Dch → Dch) : (s.modDch k f).net = s.net := rfl
@[simp] theorem State.modDch_mem (s : State) (k : Nat) (f : Dch → Dch) : (s.modDch k f).mem = s.mem := rfl
@[simp] theorem State.modDch_free (s : State) (k : Nat) (f : Dch → Dch) : (s.modDch k f).free = s.free := rfl
@[simp] theorem State.modDch_out (s : State) (k : Nat) (f : Dch → Dch) : (s.modDch k f).out = s.out := rfl
@[simp] theorem State.modDch_pending (s : State) (k : Nat) (f : Dch → Dch) : (s.modDch k f).pending = s.pending := rfl

/-! ### State.modChan -/

@[simp] theorem State.modChan_power (s : State) (c : Nat) (f : Channel → Channel) : (s.modChan c f).power = s.power := rfl
@[simp] theorem State.modChan_fuse (s : State) (c : Nat) (f : Channel → Channel) : (s.modChan c f).fuse = s.fuse := rfl
@[simp] theorem State.modChan_boot (s : State) (c : Nat) (f : Channel → Channel) : (s.modChan c f).boot = s.boot := rfl
@[simp] theorem State.modChan_tempo (s : State) (c : Nat) (f : Channel → Channel) : (s.modChan c f).tempo = s.tempo := rfl
@[simp] theorem State.modChan_time (s : State) (c : Nat) (f : Channel → Channel) : (s.modChan c f).time = s.time := rfl
@[simp] theorem State.modChan_comps (s : State) (c : Nat) (f : Channel → Channel) : (s.modChan c f).comps = s.comps := rfl
@[simp] theorem State.modChan_pages (s : State) (c : Nat) (f : Channel → Channel) : (s.modChan c f).pages = s.pages := rfl
@[simp] theorem State.modChan_regs (s : State) (c : Nat) (f : Channel → Channel) : (s.modChan c f).regs = s.regs := rfl
@[simp] theorem State.modChan_pcie (s : State) (c : Nat) (f : Channel → Channel) : (s.modChan c f).pcie = s.pcie := rfl
@[simp] theorem State.modChan_intc (s : State) (c : Nat) (f : Channel → Channel) : (s.modChan c f).intc = s.intc := rfl
@[simp] theorem State.modChan_faults (s : State) (c : Nat) (f : Channel → Channel) : (s.modChan c f).faults = s.faults := rfl
@[simp] theorem State.modChan_due (s : State) (c : Nat) (f : Channel → Channel) : (s.modChan c f).due = s.due := rfl
@[simp] theorem State.modChan_jtag (s : State) (c : Nat) (f : Channel → Channel) : (s.modChan c f).jtag = s.jtag := rfl
@[simp] theorem State.modChan_geyser (s : State) (c : Nat) (f : Channel → Channel) : (s.modChan c f).geyser = s.geyser := rfl
@[simp] theorem State.modChan_jobs (s : State) (c : Nat) (f : Channel → Channel) : (s.modChan c f).jobs = s.jobs := rfl
@[simp] theorem State.modChan_nextJob (s : State) (c : Nat) (f : Channel → Channel) : (s.modChan c f).nextJob = s.nextJob := rfl
@[simp] theorem State.modChan_streams (s : State) (c : Nat) (f : Channel → Channel) : (s.modChan c f).streams = s.streams := rfl
@[simp] theorem State.modChan_placer (s : State) (c : Nat) (f : Channel → Channel) : (s.modChan c f).placer = s.placer := rfl
@[simp] theorem State.modChan_modes (s : State) (c : Nat) (f : Channel → Channel) : (s.modChan c f).modes = s.modes := rfl
@[simp] theorem State.modChan_pers (s : State) (c : Nat) (f : Channel → Channel) : (s.modChan c f).pers = s.pers := rfl
@[simp] theorem State.modChan_cores (s : State) (c : Nat) (f : Channel → Channel) : (s.modChan c f).cores = s.cores := rfl
@[simp] theorem State.modChan_quads (s : State) (c : Nat) (f : Channel → Channel) : (s.modChan c f).quads = s.quads := rfl
@[simp] theorem State.modChan_dchs (s : State) (c : Nat) (f : Channel → Channel) : (s.modChan c f).dchs = s.dchs := rfl
@[simp] theorem State.modChan_qm (s : State) (c : Nat) (f : Channel → Channel) : (s.modChan c f).qm = s.qm := rfl
@[simp] theorem State.modChan_bpm (s : State) (c : Nat) (f : Channel → Channel) : (s.modChan c f).bpm = s.bpm := rfl
@[simp] theorem State.modChan_net (s : State) (c : Nat) (f : Channel → Channel) : (s.modChan c f).net = s.net := rfl
@[simp] theorem State.modChan_mem (s : State) (c : Nat) (f : Channel → Channel) : (s.modChan c f).mem = s.mem := rfl
@[simp] theorem State.modChan_free (s : State) (c : Nat) (f : Channel → Channel) : (s.modChan c f).free = s.free := rfl
@[simp] theorem State.modChan_out (s : State) (c : Nat) (f : Channel → Channel) : (s.modChan c f).out = s.out := rfl
@[simp] theorem State.modChan_pending (s : State) (c : Nat) (f : Channel → Channel) : (s.modChan c f).pending = s.pending := rfl

/-! ### State.fault -/

@[simp] theorem State.fault_power (s : State) (src i : Nat) (j : Option Nat) (x : Nat) : (s.fault src i j x).power = s.power := rfl
@[simp] theorem State.fault_fuse (s : State) (src i : Nat) (j : Option Nat) (x : Nat) : (s.fault src i j x).fuse = s.fuse := rfl
@[simp] theorem State.fault_boot (s : State) (src i : Nat) (j : Option Nat) (x : Nat) : (s.fault src i j x).boot = s.boot := rfl
@[simp] theorem State.fault_tempo (s : State) (src i : Nat) (j : Option Nat) (x : Nat) : (s.fault src i j x).tempo = s.tempo := rfl
@[simp] theorem State.fault_time (s : State) (src i : Nat) (j : Option Nat) (x : Nat) : (s.fault src i j x).time = s.time := rfl
@[simp] theorem State.fault_comps (s : State) (src i : Nat) (j : Option Nat) (x : Nat) : (s.fault src i j x).comps = s.comps := rfl
@[simp] theorem State.fault_pages (s : State) (src i : Nat) (j : Option Nat) (x : Nat) : (s.fault src i j x).pages = s.pages := rfl
@[simp] theorem State.fault_regs (s : State) (src i : Nat) (j : Option Nat) (x : Nat) : (s.fault src i j x).regs = s.regs := rfl
@[simp] theorem State.fault_pcie (s : State) (src i : Nat) (j : Option Nat) (x : Nat) : (s.fault src i j x).pcie = s.pcie := rfl
@[simp] theorem State.fault_intc (s : State) (src i : Nat) (j : Option Nat) (x : Nat) : (s.fault src i j x).intc = s.intc := rfl
@[simp] theorem State.fault_faults (s : State) (src i : Nat) (j : Option Nat) (x : Nat) : (s.fault src i j x).faults = s.faults := rfl
@[simp] theorem State.fault_jtag (s : State) (src i : Nat) (j : Option Nat) (x : Nat) : (s.fault src i j x).jtag = s.jtag := rfl
@[simp] theorem State.fault_geyser (s : State) (src i : Nat) (j : Option Nat) (x : Nat) : (s.fault src i j x).geyser = s.geyser := rfl
@[simp] theorem State.fault_jobs (s : State) (src i : Nat) (j : Option Nat) (x : Nat) : (s.fault src i j x).jobs = s.jobs := rfl
@[simp] theorem State.fault_nextJob (s : State) (src i : Nat) (j : Option Nat) (x : Nat) : (s.fault src i j x).nextJob = s.nextJob := rfl
@[simp] theorem State.fault_streams (s : State) (src i : Nat) (j : Option Nat) (x : Nat) : (s.fault src i j x).streams = s.streams := rfl
@[simp] theorem State.fault_placer (s : State) (src i : Nat) (j : Option Nat) (x : Nat) : (s.fault src i j x).placer = s.placer := rfl
@[simp] theorem State.fault_modes (s : State) (src i : Nat) (j : Option Nat) (x : Nat) : (s.fault src i j x).modes = s.modes := rfl
@[simp] theorem State.fault_pers (s : State) (src i : Nat) (j : Option Nat) (x : Nat) : (s.fault src i j x).pers = s.pers := rfl
@[simp] theorem State.fault_cores (s : State) (src i : Nat) (j : Option Nat) (x : Nat) : (s.fault src i j x).cores = s.cores := rfl
@[simp] theorem State.fault_quads (s : State) (src i : Nat) (j : Option Nat) (x : Nat) : (s.fault src i j x).quads = s.quads := rfl
@[simp] theorem State.fault_dchs (s : State) (src i : Nat) (j : Option Nat) (x : Nat) : (s.fault src i j x).dchs = s.dchs := rfl
@[simp] theorem State.fault_qm (s : State) (src i : Nat) (j : Option Nat) (x : Nat) : (s.fault src i j x).qm = s.qm := rfl
@[simp] theorem State.fault_bpm (s : State) (src i : Nat) (j : Option Nat) (x : Nat) : (s.fault src i j x).bpm = s.bpm := rfl
@[simp] theorem State.fault_dma (s : State) (src i : Nat) (j : Option Nat) (x : Nat) : (s.fault src i j x).dma = s.dma := rfl
@[simp] theorem State.fault_net (s : State) (src i : Nat) (j : Option Nat) (x : Nat) : (s.fault src i j x).net = s.net := rfl
@[simp] theorem State.fault_mem (s : State) (src i : Nat) (j : Option Nat) (x : Nat) : (s.fault src i j x).mem = s.mem := rfl
@[simp] theorem State.fault_free (s : State) (src i : Nat) (j : Option Nat) (x : Nat) : (s.fault src i j x).free = s.free := rfl
@[simp] theorem State.fault_out (s : State) (src i : Nat) (j : Option Nat) (x : Nat) : (s.fault src i j x).out = s.out := rfl
@[simp] theorem State.fault_pending (s : State) (src i : Nat) (j : Option Nat) (x : Nat) : (s.fault src i j x).pending = s.pending := rfl

/-! ### State.modUnit -/

@[simp] theorem State.modUnit_power (s : State) (n : Nat) (f : Core → Core) : (s.modUnit n f).power = s.power := rfl
@[simp] theorem State.modUnit_fuse (s : State) (n : Nat) (f : Core → Core) : (s.modUnit n f).fuse = s.fuse := rfl
@[simp] theorem State.modUnit_boot (s : State) (n : Nat) (f : Core → Core) : (s.modUnit n f).boot = s.boot := rfl
@[simp] theorem State.modUnit_tempo (s : State) (n : Nat) (f : Core → Core) : (s.modUnit n f).tempo = s.tempo := rfl
@[simp] theorem State.modUnit_time (s : State) (n : Nat) (f : Core → Core) : (s.modUnit n f).time = s.time := rfl
@[simp] theorem State.modUnit_comps (s : State) (n : Nat) (f : Core → Core) : (s.modUnit n f).comps = s.comps := rfl
@[simp] theorem State.modUnit_pages (s : State) (n : Nat) (f : Core → Core) : (s.modUnit n f).pages = s.pages := rfl
@[simp] theorem State.modUnit_regs (s : State) (n : Nat) (f : Core → Core) : (s.modUnit n f).regs = s.regs := rfl
@[simp] theorem State.modUnit_pcie (s : State) (n : Nat) (f : Core → Core) : (s.modUnit n f).pcie = s.pcie := rfl
@[simp] theorem State.modUnit_intc (s : State) (n : Nat) (f : Core → Core) : (s.modUnit n f).intc = s.intc := rfl
@[simp] theorem State.modUnit_faults (s : State) (n : Nat) (f : Core → Core) : (s.modUnit n f).faults = s.faults := rfl
@[simp] theorem State.modUnit_due (s : State) (n : Nat) (f : Core → Core) : (s.modUnit n f).due = s.due := rfl
@[simp] theorem State.modUnit_jtag (s : State) (n : Nat) (f : Core → Core) : (s.modUnit n f).jtag = s.jtag := rfl
@[simp] theorem State.modUnit_geyser (s : State) (n : Nat) (f : Core → Core) : (s.modUnit n f).geyser = s.geyser := rfl
@[simp] theorem State.modUnit_jobs (s : State) (n : Nat) (f : Core → Core) : (s.modUnit n f).jobs = s.jobs := rfl
@[simp] theorem State.modUnit_nextJob (s : State) (n : Nat) (f : Core → Core) : (s.modUnit n f).nextJob = s.nextJob := rfl
@[simp] theorem State.modUnit_streams (s : State) (n : Nat) (f : Core → Core) : (s.modUnit n f).streams = s.streams := rfl
@[simp] theorem State.modUnit_placer (s : State) (n : Nat) (f : Core → Core) : (s.modUnit n f).placer = s.placer := rfl
@[simp] theorem State.modUnit_modes (s : State) (n : Nat) (f : Core → Core) : (s.modUnit n f).modes = s.modes := rfl
@[simp] theorem State.modUnit_pers (s : State) (n : Nat) (f : Core → Core) : (s.modUnit n f).pers = s.pers := rfl
@[simp] theorem State.modUnit_quads (s : State) (n : Nat) (f : Core → Core) : (s.modUnit n f).quads = s.quads := rfl
@[simp] theorem State.modUnit_dchs (s : State) (n : Nat) (f : Core → Core) : (s.modUnit n f).dchs = s.dchs := rfl
@[simp] theorem State.modUnit_qm (s : State) (n : Nat) (f : Core → Core) : (s.modUnit n f).qm = s.qm := rfl
@[simp] theorem State.modUnit_bpm (s : State) (n : Nat) (f : Core → Core) : (s.modUnit n f).bpm = s.bpm := rfl
@[simp] theorem State.modUnit_dma (s : State) (n : Nat) (f : Core → Core) : (s.modUnit n f).dma = s.dma := rfl
@[simp] theorem State.modUnit_net (s : State) (n : Nat) (f : Core → Core) : (s.modUnit n f).net = s.net := rfl
@[simp] theorem State.modUnit_mem (s : State) (n : Nat) (f : Core → Core) : (s.modUnit n f).mem = s.mem := rfl
@[simp] theorem State.modUnit_free (s : State) (n : Nat) (f : Core → Core) : (s.modUnit n f).free = s.free := rfl
@[simp] theorem State.modUnit_out (s : State) (n : Nat) (f : Core → Core) : (s.modUnit n f).out = s.out := rfl
@[simp] theorem State.modUnit_pending (s : State) (n : Nat) (f : Core → Core) : (s.modUnit n f).pending = s.pending := rfl

/-! ### State.modSeq -/

@[simp] theorem State.modSeq_power (s : State) (n q : Nat) (f : Seq → Seq) : (s.modSeq n q f).power = s.power := rfl
@[simp] theorem State.modSeq_fuse (s : State) (n q : Nat) (f : Seq → Seq) : (s.modSeq n q f).fuse = s.fuse := rfl
@[simp] theorem State.modSeq_boot (s : State) (n q : Nat) (f : Seq → Seq) : (s.modSeq n q f).boot = s.boot := rfl
@[simp] theorem State.modSeq_tempo (s : State) (n q : Nat) (f : Seq → Seq) : (s.modSeq n q f).tempo = s.tempo := rfl
@[simp] theorem State.modSeq_time (s : State) (n q : Nat) (f : Seq → Seq) : (s.modSeq n q f).time = s.time := rfl
@[simp] theorem State.modSeq_comps (s : State) (n q : Nat) (f : Seq → Seq) : (s.modSeq n q f).comps = s.comps := rfl
@[simp] theorem State.modSeq_pages (s : State) (n q : Nat) (f : Seq → Seq) : (s.modSeq n q f).pages = s.pages := rfl
@[simp] theorem State.modSeq_regs (s : State) (n q : Nat) (f : Seq → Seq) : (s.modSeq n q f).regs = s.regs := rfl
@[simp] theorem State.modSeq_pcie (s : State) (n q : Nat) (f : Seq → Seq) : (s.modSeq n q f).pcie = s.pcie := rfl
@[simp] theorem State.modSeq_intc (s : State) (n q : Nat) (f : Seq → Seq) : (s.modSeq n q f).intc = s.intc := rfl
@[simp] theorem State.modSeq_faults (s : State) (n q : Nat) (f : Seq → Seq) : (s.modSeq n q f).faults = s.faults := rfl
@[simp] theorem State.modSeq_due (s : State) (n q : Nat) (f : Seq → Seq) : (s.modSeq n q f).due = s.due := rfl
@[simp] theorem State.modSeq_jtag (s : State) (n q : Nat) (f : Seq → Seq) : (s.modSeq n q f).jtag = s.jtag := rfl
@[simp] theorem State.modSeq_geyser (s : State) (n q : Nat) (f : Seq → Seq) : (s.modSeq n q f).geyser = s.geyser := rfl
@[simp] theorem State.modSeq_jobs (s : State) (n q : Nat) (f : Seq → Seq) : (s.modSeq n q f).jobs = s.jobs := rfl
@[simp] theorem State.modSeq_nextJob (s : State) (n q : Nat) (f : Seq → Seq) : (s.modSeq n q f).nextJob = s.nextJob := rfl
@[simp] theorem State.modSeq_streams (s : State) (n q : Nat) (f : Seq → Seq) : (s.modSeq n q f).streams = s.streams := rfl
@[simp] theorem State.modSeq_placer (s : State) (n q : Nat) (f : Seq → Seq) : (s.modSeq n q f).placer = s.placer := rfl
@[simp] theorem State.modSeq_modes (s : State) (n q : Nat) (f : Seq → Seq) : (s.modSeq n q f).modes = s.modes := rfl
@[simp] theorem State.modSeq_pers (s : State) (n q : Nat) (f : Seq → Seq) : (s.modSeq n q f).pers = s.pers := rfl
@[simp] theorem State.modSeq_quads (s : State) (n q : Nat) (f : Seq → Seq) : (s.modSeq n q f).quads = s.quads := rfl
@[simp] theorem State.modSeq_dchs (s : State) (n q : Nat) (f : Seq → Seq) : (s.modSeq n q f).dchs = s.dchs := rfl
@[simp] theorem State.modSeq_qm (s : State) (n q : Nat) (f : Seq → Seq) : (s.modSeq n q f).qm = s.qm := rfl
@[simp] theorem State.modSeq_bpm (s : State) (n q : Nat) (f : Seq → Seq) : (s.modSeq n q f).bpm = s.bpm := rfl
@[simp] theorem State.modSeq_dma (s : State) (n q : Nat) (f : Seq → Seq) : (s.modSeq n q f).dma = s.dma := rfl
@[simp] theorem State.modSeq_net (s : State) (n q : Nat) (f : Seq → Seq) : (s.modSeq n q f).net = s.net := rfl
@[simp] theorem State.modSeq_mem (s : State) (n q : Nat) (f : Seq → Seq) : (s.modSeq n q f).mem = s.mem := rfl
@[simp] theorem State.modSeq_free (s : State) (n q : Nat) (f : Seq → Seq) : (s.modSeq n q f).free = s.free := rfl
@[simp] theorem State.modSeq_out (s : State) (n q : Nat) (f : Seq → Seq) : (s.modSeq n q f).out = s.out := rfl
@[simp] theorem State.modSeq_pending (s : State) (n q : Nat) (f : Seq → Seq) : (s.modSeq n q f).pending = s.pending := rfl

/-! ### State.modBin -/

@[simp] theorem State.modBin_power (s : State) (n : Nat) (f : Bin → Bin) : (s.modBin n f).power = s.power := rfl
@[simp] theorem State.modBin_fuse (s : State) (n : Nat) (f : Bin → Bin) : (s.modBin n f).fuse = s.fuse := rfl
@[simp] theorem State.modBin_boot (s : State) (n : Nat) (f : Bin → Bin) : (s.modBin n f).boot = s.boot := rfl
@[simp] theorem State.modBin_tempo (s : State) (n : Nat) (f : Bin → Bin) : (s.modBin n f).tempo = s.tempo := rfl
@[simp] theorem State.modBin_time (s : State) (n : Nat) (f : Bin → Bin) : (s.modBin n f).time = s.time := rfl
@[simp] theorem State.modBin_comps (s : State) (n : Nat) (f : Bin → Bin) : (s.modBin n f).comps = s.comps := rfl
@[simp] theorem State.modBin_pages (s : State) (n : Nat) (f : Bin → Bin) : (s.modBin n f).pages = s.pages := rfl
@[simp] theorem State.modBin_regs (s : State) (n : Nat) (f : Bin → Bin) : (s.modBin n f).regs = s.regs := rfl
@[simp] theorem State.modBin_pcie (s : State) (n : Nat) (f : Bin → Bin) : (s.modBin n f).pcie = s.pcie := rfl
@[simp] theorem State.modBin_intc (s : State) (n : Nat) (f : Bin → Bin) : (s.modBin n f).intc = s.intc := rfl
@[simp] theorem State.modBin_faults (s : State) (n : Nat) (f : Bin → Bin) : (s.modBin n f).faults = s.faults := rfl
@[simp] theorem State.modBin_due (s : State) (n : Nat) (f : Bin → Bin) : (s.modBin n f).due = s.due := rfl
@[simp] theorem State.modBin_jtag (s : State) (n : Nat) (f : Bin → Bin) : (s.modBin n f).jtag = s.jtag := rfl
@[simp] theorem State.modBin_geyser (s : State) (n : Nat) (f : Bin → Bin) : (s.modBin n f).geyser = s.geyser := rfl
@[simp] theorem State.modBin_jobs (s : State) (n : Nat) (f : Bin → Bin) : (s.modBin n f).jobs = s.jobs := rfl
@[simp] theorem State.modBin_nextJob (s : State) (n : Nat) (f : Bin → Bin) : (s.modBin n f).nextJob = s.nextJob := rfl
@[simp] theorem State.modBin_streams (s : State) (n : Nat) (f : Bin → Bin) : (s.modBin n f).streams = s.streams := rfl
@[simp] theorem State.modBin_placer (s : State) (n : Nat) (f : Bin → Bin) : (s.modBin n f).placer = s.placer := rfl
@[simp] theorem State.modBin_modes (s : State) (n : Nat) (f : Bin → Bin) : (s.modBin n f).modes = s.modes := rfl
@[simp] theorem State.modBin_pers (s : State) (n : Nat) (f : Bin → Bin) : (s.modBin n f).pers = s.pers := rfl
@[simp] theorem State.modBin_quads (s : State) (n : Nat) (f : Bin → Bin) : (s.modBin n f).quads = s.quads := rfl
@[simp] theorem State.modBin_dchs (s : State) (n : Nat) (f : Bin → Bin) : (s.modBin n f).dchs = s.dchs := rfl
@[simp] theorem State.modBin_qm (s : State) (n : Nat) (f : Bin → Bin) : (s.modBin n f).qm = s.qm := rfl
@[simp] theorem State.modBin_bpm (s : State) (n : Nat) (f : Bin → Bin) : (s.modBin n f).bpm = s.bpm := rfl
@[simp] theorem State.modBin_dma (s : State) (n : Nat) (f : Bin → Bin) : (s.modBin n f).dma = s.dma := rfl
@[simp] theorem State.modBin_net (s : State) (n : Nat) (f : Bin → Bin) : (s.modBin n f).net = s.net := rfl
@[simp] theorem State.modBin_mem (s : State) (n : Nat) (f : Bin → Bin) : (s.modBin n f).mem = s.mem := rfl
@[simp] theorem State.modBin_free (s : State) (n : Nat) (f : Bin → Bin) : (s.modBin n f).free = s.free := rfl
@[simp] theorem State.modBin_out (s : State) (n : Nat) (f : Bin → Bin) : (s.modBin n f).out = s.out := rfl
@[simp] theorem State.modBin_pending (s : State) (n : Nat) (f : Bin → Bin) : (s.modBin n f).pending = s.pending := rfl

/-! ### State.modComp -/

@[simp] theorem State.modComp_power (s : State) (n : Nat) (f : Comparator → Comparator) : (s.modComp n f).power = s.power := rfl
@[simp] theorem State.modComp_fuse (s : State) (n : Nat) (f : Comparator → Comparator) : (s.modComp n f).fuse = s.fuse := rfl
@[simp] theorem State.modComp_boot (s : State) (n : Nat) (f : Comparator → Comparator) : (s.modComp n f).boot = s.boot := rfl
@[simp] theorem State.modComp_tempo (s : State) (n : Nat) (f : Comparator → Comparator) : (s.modComp n f).tempo = s.tempo := rfl
@[simp] theorem State.modComp_time (s : State) (n : Nat) (f : Comparator → Comparator) : (s.modComp n f).time = s.time := rfl
@[simp] theorem State.modComp_pages (s : State) (n : Nat) (f : Comparator → Comparator) : (s.modComp n f).pages = s.pages := rfl
@[simp] theorem State.modComp_regs (s : State) (n : Nat) (f : Comparator → Comparator) : (s.modComp n f).regs = s.regs := rfl
@[simp] theorem State.modComp_pcie (s : State) (n : Nat) (f : Comparator → Comparator) : (s.modComp n f).pcie = s.pcie := rfl
@[simp] theorem State.modComp_intc (s : State) (n : Nat) (f : Comparator → Comparator) : (s.modComp n f).intc = s.intc := rfl
@[simp] theorem State.modComp_faults (s : State) (n : Nat) (f : Comparator → Comparator) : (s.modComp n f).faults = s.faults := rfl
@[simp] theorem State.modComp_due (s : State) (n : Nat) (f : Comparator → Comparator) : (s.modComp n f).due = s.due := rfl
@[simp] theorem State.modComp_jtag (s : State) (n : Nat) (f : Comparator → Comparator) : (s.modComp n f).jtag = s.jtag := rfl
@[simp] theorem State.modComp_geyser (s : State) (n : Nat) (f : Comparator → Comparator) : (s.modComp n f).geyser = s.geyser := rfl
@[simp] theorem State.modComp_jobs (s : State) (n : Nat) (f : Comparator → Comparator) : (s.modComp n f).jobs = s.jobs := rfl
@[simp] theorem State.modComp_nextJob (s : State) (n : Nat) (f : Comparator → Comparator) : (s.modComp n f).nextJob = s.nextJob := rfl
@[simp] theorem State.modComp_streams (s : State) (n : Nat) (f : Comparator → Comparator) : (s.modComp n f).streams = s.streams := rfl
@[simp] theorem State.modComp_placer (s : State) (n : Nat) (f : Comparator → Comparator) : (s.modComp n f).placer = s.placer := rfl
@[simp] theorem State.modComp_modes (s : State) (n : Nat) (f : Comparator → Comparator) : (s.modComp n f).modes = s.modes := rfl
@[simp] theorem State.modComp_pers (s : State) (n : Nat) (f : Comparator → Comparator) : (s.modComp n f).pers = s.pers := rfl
@[simp] theorem State.modComp_cores (s : State) (n : Nat) (f : Comparator → Comparator) : (s.modComp n f).cores = s.cores := rfl
@[simp] theorem State.modComp_quads (s : State) (n : Nat) (f : Comparator → Comparator) : (s.modComp n f).quads = s.quads := rfl
@[simp] theorem State.modComp_dchs (s : State) (n : Nat) (f : Comparator → Comparator) : (s.modComp n f).dchs = s.dchs := rfl
@[simp] theorem State.modComp_qm (s : State) (n : Nat) (f : Comparator → Comparator) : (s.modComp n f).qm = s.qm := rfl
@[simp] theorem State.modComp_bpm (s : State) (n : Nat) (f : Comparator → Comparator) : (s.modComp n f).bpm = s.bpm := rfl
@[simp] theorem State.modComp_dma (s : State) (n : Nat) (f : Comparator → Comparator) : (s.modComp n f).dma = s.dma := rfl
@[simp] theorem State.modComp_net (s : State) (n : Nat) (f : Comparator → Comparator) : (s.modComp n f).net = s.net := rfl
@[simp] theorem State.modComp_mem (s : State) (n : Nat) (f : Comparator → Comparator) : (s.modComp n f).mem = s.mem := rfl
@[simp] theorem State.modComp_free (s : State) (n : Nat) (f : Comparator → Comparator) : (s.modComp n f).free = s.free := rfl
@[simp] theorem State.modComp_out (s : State) (n : Nat) (f : Comparator → Comparator) : (s.modComp n f).out = s.out := rfl
@[simp] theorem State.modComp_pending (s : State) (n : Nat) (f : Comparator → Comparator) : (s.modComp n f).pending = s.pending := rfl

end Sys2Proof.Machine
end

