-- ==== Sys2Proof/Laws/Shared.lean ====
section
/-!
SUPPORT. What the shared operations of every command can do: events, host writes, configuration accesses and instructions.
-/
namespace Sys2Proof.Machine

/-! ### Faults taken up at the end of a command -/

/-- With no fault waiting nothing is taken up. -/
@[simp] theorem State.settle_of_due (s : State) (h : s.due = []) : s.settle = s := by
  unfold State.settle
  rw [settleFaults.eq_2, h]

/-- A sealed part takes no fault up. -/
theorem State.settle_sealed (s : State) (h : s.faults.stop = .sealed) : s.settle = { s with due := [] } := by
  unfold State.settle
  rw [settleFaults.eq_2]
  cases hd : s.due with
  | nil => cases s; simp_all
  | cons a t => simp [h]

/-! ### Events -/

/-- A part without power, or a sealed one, does nothing at an event. -/
theorem act_dead (s : State) (f : State → State) (h : s.live = false) : act s f = .next s := by simp [act, h]

/-- A live part does what the event says, and takes up the faults that it raises. -/
theorem act_live (s : State) (f : State → State) (h : s.live = true) : act s f = .next (f s).settle := by simp [act, h]

/-- A live part at an event that raises no fault. -/
theorem act_quiet (s : State) (f : State → State) (h : s.live = true) (hd : (f s).due = []) : act s f = .next (f s) := by
  rw [act_live s f h, State.settle_of_due _ hd]

/-- An event ends in a next state. -/
theorem act_next (s : State) (f : State → State) : ∃ t, act s f = .next t := ⟨_, rfl⟩

/-- Without power nothing is live. -/
theorem State.live_of_unpowered (s : State) (h : s.power.powered = false) : s.live = false := by simp [State.live, h]

/-- A sealed part is not live. -/
theorem State.live_of_sealed (s : State) (h : s.faults.stop = .sealed) : s.live = false := by simp [State.live, h]

/-! ### Host writes -/

/-- Traffic changes nothing but IN_L1. -/
theorem State.toL0_eq (s : State) : s.toL0 = { s with pcie := { s.pcie with inL1 := false } } := by
  unfold State.toL0
  split
  · rfl
  · rename_i h
    have hp : s.pcie = { s.pcie with inL1 := false } := by
      generalize s.pcie = x at h
      cases x
      simp at h
      subst h
      rfl
    rw [← hp]

/-- Without a link a host write does nothing but end L1. -/
theorem hostCmd_unlinked (p : Nat) (s : State) (f : State → State) (h : s.linked = false) :
    hostCmd p s f = .next s.toL0 := by
  have : s.toL0.linked = false := by rw [State.toL0_eq]; exact h
  simp [hostCmd, hostWrite, this]

/-- A write that no BAR decodes is an Unsupported Request (R102). -/
theorem hostCmd_undecoded (p : Nat) (s : State) (f : State → State) (h : s.linked = true) (hd : s.decodes = false) :
    hostCmd p s f = .next (s.toL0.emit .unsupportedRequest) := by
  have h1 : s.toL0.linked = true := by rw [State.toL0_eq]; exact h
  have h2 : s.toL0.decodes = false := by rw [State.toL0_eq]; exact hd
  simp [hostCmd, hostWrite, h1, h2]

/-- A write to a served page has its effect, and the faults that it raises are taken up. -/
theorem hostCmd_heard (p : Nat) (s : State) (f : State → State) (h : s.hears p = true) :
    hostCmd p s f = .next (f s.toL0).settle := by
  simp only [State.hears, Bool.and_eq_true, beq_iff_eq] at h
  obtain ⟨⟨⟨⟨h1, h2⟩, h3⟩, h4⟩, -⟩ := h
  have e1 : s.toL0.linked = true := by rw [State.toL0_eq]; exact h1
  have e2 : s.toL0.decodes = true := by rw [State.toL0_eq]; exact h2
  have e3 : s.toL0.serving p = .served := by rw [State.toL0_eq]; exact h4
  have e4 : (pageKind p).isNone = false := by simpa using h3
  simp [hostCmd, hostWrite, e1, e2, e3, e4]

/-- A write to a served page that raises no fault. -/
theorem hostCmd_quiet (p : Nat) (s : State) (f : State → State) (h : s.hears p = true) (hd : (f s.toL0).due = []) :
    hostCmd p s f = .next (f s.toL0) := by rw [hostCmd_heard p s f h, State.settle_of_due _ hd]

/-- A host write ends in a next state. -/
theorem hostCmd_next (p : Nat) (s : State) (f : State → State) : ∃ t, hostCmd p s f = .next t := ⟨_, rfl⟩

/-! ### The sealed state -/

/-- A state is like itself. -/
theorem State.sealedLike_refl (s : State) (h : s.isSealed) : s.sealedLike s := ⟨rfl, h.1⟩

/-- A sealed part does nothing at an event. -/
theorem act_sealed (s : State) (f : State → State) (h : s.isSealed) : ∃ t, act s f = .next t ∧ s.sealedLike t :=
  ⟨s, act_dead s f (State.live_of_sealed s h.2), s.sealedLike_refl h⟩

/-- A host write to a sealed part changes nothing but the link and the trace (R90). -/
theorem hostCmd_sealed (p : Nat) (s : State) (f : State → State) (h : s.isSealed) :
    ∃ t, hostCmd p s f = .next t ∧ s.sealedLike t := by
  refine ⟨_, rfl, ?_⟩
  obtain ⟨hp, hs⟩ := h
  have e1 : s.toL0.live = false := by rw [State.toL0_eq]; exact State.live_of_sealed _ hs
  have e2 : ∀ q, s.toL0.serving q = (if q = 0 ∨ q = 3 then .readOnly else .zero) := by
    intro q; rw [State.toL0_eq]; simp [State.serving, hs]
  unfold hostWrite
  simp only [e1, e2]
  rw [State.toL0_eq]
  split
  · exact ⟨rfl, hp⟩
  · split
    · exact ⟨rfl, hp⟩
    · split
      · exact ⟨rfl, hp⟩
      · split <;> first | exact ⟨rfl, hp⟩ | (rename_i h; split at h <;> cases h)

end Sys2Proof.Machine
end

