-- ==== Sys2Proof/Tests/Slice0.lean ====
section
/-!
SUPPORT. Tests: ill-formed commands that the check refuses, the figures that the spec works out itself, and for every
obligation with hypotheses states and operands that meet them.
-/
set_option Elab.async false
set_option maxRecDepth 4000
set_option linter.unusedVariables false

open Sys2Proof Sys2Proof.Machine

namespace Sys2Proof.Tests

/-- A part in service, with its link up and memory decoded. -/
def r0 : State := { State.reset with
  power := { powered := true, perstHigh := true }
  pcie := { linkUp := true, mse := true, bme := true }
  boot := { state := .ready } }

/-- A part that boots. -/
def b0 : State := { r0 with boot := { state := .booting, running := true, stage := 4, capQuads := 1 } }

/-- A part in Dormant mode. -/
def d0 : State := { r0 with boot := { state := .dormant, windowOk := true } }

/-- A stage result that reports nothing. -/
def sr0 : StageResult :=
    { fail := none, units := [], lanes := [], pkg := .noFlash, flashOk := true, images := [], golden := [] }

/-- The next state of an outcome. -/
def nextOf : Host.Outcome State Fault Refusal → State
  | .next t => t
  | _ => r0

/-- A job with nothing in it. -/
def j0 : Job := { queue := 0, seq := 0, epoch := 0 }

/-- A part with two GiB in each sub-channel. -/
def m0 : State := { r0 with fuse := { boardCfg := 0x2000 } }

/-- A fault record. -/
def rec0 : FaultRec where
  time := 0
  seq := 5
  source := 4
  acked := false
  sev := 1
  inst := 0
  stream := 0xFFFF
  queue := 0xFFFF
  jobSeq := 0
  attempt := 0
  reaction := .logged
  info := 0

/-- Configuration of pool 15: two buffers of 256 bytes from device address 0x10000, their owner table at 0x100. -/
def poolRegs : Map Word := [(regKey 9 0xA20, 0x10000), (regKey 9 0xA24, 0x80000000), (regKey 9 0xA28, 1), (regKey 9
    0xA2C, 2),
  (regKey 9 0xA30, 8)]

/-- A part whose pool 15 is configured. -/
def q0 : State := { m0 with regs := poolRegs }

/-- Pool 15 in service with both buffers free. -/
def q1 : State := { q0 with
  bpm := { pools := [(15, { state := .enabled, head := 0x8000000000010000, free := 2 })] }
  mem := memPutAll (memPutAll [] 0x10000 (poolHeader 0x8000000000010000 0x8000000000010100 15)) 0x10100
    (poolHeader 0x8000000000010100 0 15) }

/-- Pool 15 with buffer 1 owned by the agents of the mask `o`. -/
def q2 (o : Nat) : State := { q0 with
  bpm := { pools := [(15, { state := .enabled, head := 0x8000000000010000, free := 1, owned := 1 })] }
  mem := memPutAll [] 0x108 [BitVec.ofNat 8 o, 1, 1] }

/-- The crust of a plain data packet. -/
def crust0 : Crust := { typ := .data, lastRef := false, key := false, auEnd := true, auStart := true, tag := 7 }

/-- A part whose queue manager takes work, with Caldera queue 4095 as `c`. -/
def c0 (c : Clq) : State := { r0 with pages := [(8, { state := .idle })], qm := { queues := [(4095, c)] } }

/-- A configuration that names producer `p` and an egress consumer. -/
def cfg0 (p : Nat) : ClqCfg := { limit := 4, producer := p, consumer := 1, fullWait := 1 }

/-- A part whose QD channel 255 of the last quadrant is `x`. -/
def ch0 (x : Channel) : State := { m0 with pages := [(162, { state := .idle })], dma := { chans := [(255, x)] } }

/-- A part whose controller 11 is `d`. -/
def k0 (d : Dch) : State := { m0 with pages := [(31, { state := .idle })], dchs := [(11, d)] }

/-- What an image publishes, with the channel map `m` for both directions. -/
def par0 (m : List (Nat × Nat)) : PersParams where
  marginEnc := 8
  marginDec := 8
  vsr := List.replicate 8 16
  ctuOf := List.replicate 8 64
  defRefs := List.replicate 8 1
  defLook := List.replicate 8 0
  refLimit := 4
  qpMax := 51
  lag := 0
  lookRate := 0
  chEnc := m
  chDec := m
  entries := []
  limitEntry := 0
  ctus := []
  rates := []
  profiles := []
  levels := []

/-- A directory entry with the parameters `p`. -/
def ent0 (p : PersParams) : PersEntry where
  id := 3
  flags := 0
  unsigned := false
  progBase := 0
  progWords := 8
  tabBase := 0
  tabWords := 8
  params := p

/-- The job that runs on core 47: an encode of stream 1 into slot 0. -/
def jl : Job := { j0 with phase := .running, stream := some 1, slot := some 0, cores := [47] }

/-- Stream 1: 16 by 32, 4:2:0, 8 bits, two slots from device address 0x200000, slot 1 complete. -/
def stl (enc : Bool) : Stream where
  state := .opened
  encode := enc
  mode := [16, 32, 1, 8]
  blockBase := 0x200000
  blockMib := 1
  poolSlots := 2
  slots := [(0, { coding := true, width := 16, height := 32 }), (1, { width := 16, height := 32 })]

/-- A part whose core 47 works on that job with the state `c`; `m` is the channel map. -/
def l0 (enc : Bool) (m : List (Nat × Nat)) (c : Core) : State := { m0 with
  pages := [(corePage 47, { state := .running })]
  jobs := [(32, jl)]
  streams := [(1, stl enc)]
  pers := { dir := [(0, ent0 (par0 m))] }
  placer := { cores := [(47, { inside := [32] })] }
  cores := [(47, c)] }

/-- A core whose sequencer q is `x` and whose block register 1 belongs to it. -/
def sq (q : Nat) (x : Seq) : Core :=
    { seqs := [(q, x)], blocks := [(1, { owner := q, data := [(0, 5), (65, -7)] }), (2, { owner := q })] }

/-- An unguarded word. -/
def ins (d a b c : Nat) (x : Word) : Ins := { pn := false, pg := 0, d := d, a := a, b := b, c := c, x := x }

/-- A vector whose elements rise from -128 to 127. -/
def ramp : List Elem := (List.range 256).map (fun (e : Nat) => BitVec.ofInt 24 ((e : Int) - 128))

/-- Device memory with 39 rising bytes from an address on. -/
def memRamp (a : Nat) : List Host.Cell := memPutAll [] a ((List.range 40).map (fun e => BitVec.ofNat 8 e))

/-- The 56 bytes of an entry. -/
def bd (op st : Nat) (r : List Byte) : List Byte := (leBytes 2 op ++ leBytes 2 st ++ leBytes 4 7 ++ r ++ List.replicate
    56 0).take 56

/-- Bytes of host memory from address 0. -/
def hst : List Host.Cell := (List.range 64).map (fun k => (k, BitVec.ofNat 8 k))

/-- A part whose Geyser takes work and whose queue 1023 is `x`. -/
def g0 (x : Queue) : State := { m0 with pages := [(7, { state := .idle })], geyser := { queues := [(1023, x)] } }

/-- A configuration that WQ_ARM accepts. -/
def wcfg : List Byte := List.replicate 24 0 ++ [4, 4, 1, 0, 1, 64] ++ List.replicate 18 0

/-- A part with the one job `x`. -/
def jz (x : Job) : State :=
    { m0 with pages := [(5, { state := .idle }), (7, { state := .idle }), (corePage 47, { state := .idle })], jobs := [(32, x)] }

/-- The same with job 32 first in the side list of core 47. -/
def js (x : Job) : State := { jz x with placer := { cores := [(47, { side := [32] })] } }

/-- The mode block of a decode stream of 16 by 16, 4:2:0, 8 bits, profile 1, one reference and one overlap slot. -/
def blk : List Byte :=
  leBytes 2 1 ++ List.replicate 14 0 ++ leBytes 2 16 ++ leBytes 2 16 ++ [1, 8, 1, 0] ++ List.replicate 4 0 ++ leBytes 4
      1 ++
    leBytes 4 1 ++ List.replicate 5 0 ++ [1, 1] ++ List.replicate 53 0 ++ leBytes 2 64 ++ List.replicate 158 0

/-- An image that knows profile 1 in 4:2:0 of 8 bits. -/
def ent1 : PersEntry :=
    { ent0 { par0 [] with profiles := [{ code := 1, enc := true, dec := true, chromas := [1], depths := [8] }] } with flags := 3 }

/-- A part with that image and 64 MiB of stream memory in the last quadrant, and the one job `x`. -/
def so (x : Job) : State := { js x with
  regs := [(regKey 160 0x840, 16), (regKey 160 0x844, 64)]
  pers := { dir := [(0, ent1)] } }

/-- A waiting job whose entry holds the opcode `op`, stream 1 and `r`. -/
def oj (op : Nat) (r : List Byte) : Job := { j0 with phase := .waiting, stream := some 1, body := bd op 1 r }

/-- The reference operation `sub` of stream 1, placed on core 47, with `r` after its opcode modifier. -/
def rj0 (sub : Nat) (r : List Byte) : Job := { j0 with
  phase := .placed, core := 47, cores := [47], stream := some 1, body := bd 0x50 1 ([BitVec.ofNat 8 sub] ++ r) }

/-- An IPv4 frame with an empty UDP datagram from 10.0.0.1 port 5000 to 10.0.0.2 port 5004. -/
def rxf : List Byte :=
  List.replicate 12 0 ++ [8, 0, 0x45, 0, 0, 28, 0, 0, 0, 0, 64, 17, 0x66, 0xCF, 10, 0, 0, 1, 10, 0, 0, 2] ++
    [0x13, 0x88, 0x13, 0x8C, 0, 8, 0, 0] ++ List.replicate 18 0

/-- Its key in the flow table. -/
def rxKey : List Byte :=
  List.replicate 4 0 ++ [17] ++ List.replicate 13 0 ++ [255, 255, 10, 0, 0, 1] ++ List.replicate 10 0 ++ [255, 255, 10,
      0, 0, 2] ++
    [0x13, 0x88, 0x13, 0x8C] ++ List.replicate 4 0

/-- The last place of its buckets. -/
def rxAt : Nat := (bucket 1 (crc32c rxKey)).getD 3 0

/-- Port 1 of four lanes, its last lane up with the state `x`, and a flow table with `fl`. -/
def n0 (x : NetLink) (fl : Map Flow) : State := { m0 with
  pages := [(11, { state := .idle }), (13, { state := .idle }), (14, { state := .idle }), (15, { state := .idle })]
  regs := [(regKey 11 0x840, 0xC0602328), (regKey 13 0x95C, 1000)]
  net := { links := [(7, x)], flows := fl } }

/-- The flow command registers with that key and the entry of a DROP flow without a group. -/
def keyRegs : Map Word :=
  (List.range 12).map (fun j => (regKey 14 (0x100 + 4 * j), BitVec.ofNat 32 (leNat ((rxKey.drop (4 * j)).take 4)))) ++
    [(regKey 14 0x144, 0xFFFF)]

/-- The bytes 48 to 79 of that entry. -/
def dropData : List Byte := List.replicate 4 0 ++ [255, 255] ++ List.replicate 26 0

/-- An egress queue of class 7 on that lane, with packetizer `k` and payload limit `z`. -/
def eqc (k z : Nat) : List Byte :=
  [0x0B, 7, BitVec.ofNat 8 k, 0, 0, 0] ++ leBytes 2 1500 ++ leBytes 8 64 ++ leBytes 4 100 ++ leBytes 4 3000 ++ [20] ++
    List.replicate 23 0 ++ leBytes 2 z

/-- A template with RTP. -/
def tmpl : List Byte :=
  [54, 2] ++ List.replicate 26 0 ++ [8, 0, 0x45] ++ List.replicate 8 0 ++ [17] ++ List.replicate 18 0 ++ [0x80] ++
    List.replicate 69 0

/-- That part with egress queue 4095 as `x`. -/
def n1 (x : EgressQ) : State :=
    { n0 { up := true } [] with net := { links := [(7, { up := true })], egress := [(4095, x)] } }

/-- An enabled queue of host frames with one frame ready. -/
def nd : State := n1
    { cfg := eqc 0 0, enabled := true, rate := 100, burst := 3000, overhead := 20, tokens := 3000 * 65536, ready := [{ bytes := List.replicate 60 5 }] }

/-- That part with Caldera queue 4095 on it, which holds one packet of two bytes. -/
def ne (x : EgressQ) : State := { n1 x with
  pages := [(8, { state := .idle }), (13, { state := .idle })]
  qm := { queues := [(4095, { enabled := true, cfg := { cfg0 1 with consumerId := 4095 }, complete := [{ crust := crust0, payload := [1, 2] }] })] }
      }

/-! ### Ill-formed commands -/

/-- A well-formed Lenong word. -/
def ok : Ins := ins 31 31 31 31 0xFFFFFFFF

/-- That word with field k out of range. -/
def bad (k : Nat) : Ins :=
  match k with
  | 0 => { ok with pg := 8 }
  | 1 => { ok with d := 32 }
  | 2 => { ok with a := 32 }
  | 3 => { ok with b := 32 }
  | _ => { ok with c := 32 }

/-- A command whose word names core, sequencer and fields refuses each that is out of range, and no more. -/
def refusesWords (f : Nat → Nat → Ins → Instr) : Bool :=
  (f 47 5 ok).wf && !(f 48 5 ok).wf && !(f 47 6 ok).wf && (List.range 5).all (fun k => !(f 47 5 (bad k)).wf)

/-- The same for a syntax word. -/
def refusesSyn (f : Nat → SynWord → Instr) : Bool :=
  let w : SynWord := { d := 15, a := 15, b := 15, imm := 32767 }
  (f 47 w).wf && !(f 48 w).wf &&
    [{ w with d := 16 }, { w with a := 16 }, { w with b := 16 }, { w with imm := 32768 }].all (fun v => !(f 47 v).wf)

/-- The Lenong and engine commands, part 1: cores, sequencers and word fields. -/
theorem test_ill_formed_words_a : ([
      Instr.nop, .jmp, .call, .ret, .loop, .jend, .sadd, .ssub, .smul, .smulh, .sdiv, .sand, .sor, .sxor, .sshl,
      .sshr, .ssra, .smin, .smax, .sadds, .sclz, .sli, .scmp, .ssel, .sld, .sst, .tld, .vext, .vins, .pand, .por,
      .pxor, .pnot, .pany, .pall, .ppop, .vadd, .vsub, .vabs, .vmin, .vmax, .vand, .vor, .vxor, .vshl, .vshr,
      .vmov, .vsplat, .vmul, .vmad, .vavg] : List (Nat → Nat → Ins → Instr)).all refusesWords = true := by decide +kernel

/-- The Lenong and engine commands, part 2: cores, sequencers and word fields. -/
theorem test_ill_formed_words_b : ([
      Instr.vabsd, .vclip, .vclipd, .vsel, .vcmp, .vtrans, .vsgn, .bst, .bget, .bput, .bfill, .sbwait, .rowpost,
      .mfld, .mfst, .bfir, .bfly, .bmat, .bquant, .bqcand, .bdeq, .blast, .rsad, .rsatd, .rsse, .rsum, .rmin,
      .rargmin, .chsend, .chrecv, .chpoll, .dmastart, .dmawait, .rcrd, .rcwr, .frameClose, .evraise, .jget,
      .bectlConfig, .ctxInit, .ctxMove, .cdfInit, .cdfMove, .writerSet, .bectlRun, .bectlWait, .bectlStatus,
      .bectlPos, .findSync, .unitClose, .jobEnd] : List (Nat → Nat → Ins → Instr)).all refusesWords = true := by decide +kernel

/-- The syntax words: cores and word fields. -/
theorem test_ill_formed_syntax_words : ([
      Instr.synEnd, .el, .term, .segopen, .segclose, .raw, .align, .nalb, .nale, .obub, .obue, .obun, .synRecv,
      .synSend, .li, .synAdd, .andi, .synShl, .synShr, .synMin, .bz, .bnz, .blt, .synJmp, .synCall, .synRet,
      .synCtu, .ccopy, .bits] : List (Nat → SynWord → Instr)).all refusesSyn = true := by decide +kernel

/-- Numbers of units, pages, queues and registers that do not exist, part 1. -/
theorem test_ill_formed_numbers_a : ([
      .thermalTrip 57, .monitorWindow 57 0 0, .comparatorFire 4 0, .comparatorFire 0 8, .comparatorArm 4 0 0,
      .comparatorArm 0 8 0, .comparatorDisarm 4 0 0, .comparatorDisarm 0 8 0, .registerWrite 4194304 0 0 {},
      .windowAccess 4194304 0 none, .go 36 0, .handOver 36 0 [], .handOver 0 16 [], .handOver 0 0 [(0x800, 0)],
      .pageUnlock 36, .pageRelock 36 0, .pageLockTimeout 36, .unitReset 36,
      .unitResetDone 36 ({ ok := true, cores := [] }), .unitFence 36, .unitUnfence 36, .unitDisable 36,
      .unitEnable 36, .unitDrained 36, .snapTake 36, .snapRelease 36, .evtSetWrite 36 0, .evtPendClear 36 0,
      .vectorMask (some 128), .vectorUnmask (some 128), .wqArm 1024, .wqPause 1024, .wqResume 1024, .wqKick 1024,
      .wqDiscard 1024, .wqDisarm 1024, .queuePoll 1024, .ownerWordRead 1024 none, .entryBodyRead 1024 none,
      .completionWrite 1024, .streamOpen 0 none 65536, .streamParams 0 none 65536] : List Instr).all (fun c => !c.wf) =
          true := by decide +kernel

/-- Numbers of units, pages, queues and registers that do not exist, part 2. -/
theorem test_ill_formed_numbers_b : ([
      .coreSlow 48, .slowClear 48, .rehomeStart 1024 0, .rehomeStart 0 7, .rehomeAllocate 1024, .rehomeDone 1024,
      .rehomeRetry 1024, .quadrantPark 4, .quadrantPowerUp 4 ({ ok := true, cores := [] }), .jobEnterCore 0 48,
      .contextWritebackDone 1024 false, .scoreboardWaitEnd 48 0, .scoreboardWaitEnd 0 6, .channelWaitEnd 48 0,
      .channelWaitEnd 0 6, .sourceRowPoll 48, .sourceTimeout 48, .coreStall 48, .stepLimitReached 48 0,
      .stepLimitReached 0 6, .graceExhausted 48, .lookaheadPass 1024 0 { core := 0, copy := [], stats := [] }, .bld 48 0 ok [], .bld 0 6 ok [],
      .bld 0 0 (bad 0) [], .mswalk 48 0 ok [], .mswalk 0 6 ok [], .mswalk 0 0 (bad 0) [],
      .grantRead 48 0 ok (none, none), .grantRead 0 6 ok (none, none), .grantRead 0 0 (bad 0) (none, none),
      .readerSet 48 0 ok none, .readerSet 0 6 ok none, .readerSet 0 0 (bad 0) none, .modeValidationDone 65536,
      .epochApply 48 false, .persUnload 16, .dchCommandSlot 12 [] { busy := [] }, .agePromote 12, .regulatorRefill 12,
      .throttleEnd 12 0, .throttleEnd 0 16] : List Instr).all (fun c => !c.wf) = true := by decide +kernel

/-- Numbers of units, pages, queues and registers that do not exist, part 3. -/
theorem test_ill_formed_numbers_c : ([
      .refreshWindow 12, .refresh 12 0, .selfRefreshEntry 12, .srEnter 12 0, .selfRefreshExit 12 none,
      .wckTracking 12 0 0 false, .wckTracking 0 2 0 false, .patrolScrub 12 .clean,
      .controllerFreeze 12 0 0 0 0 0 0 0 [], .controllerFreeze 0 0 32 0 0 0 0 0 [],
      .controllerFreeze 0 0 0 8 0 0 0 0 [], .controllerFreeze 0 0 0 0 16 0 0 0 [],
      .controllerFreeze 0 0 0 0 0 256 0 0 [], .controllerFreeze 0 0 0 0 0 0 0 8 [], .freezeAck 12 0,
      .dchReset 12 0, .regionInitDone 4 0, .regionInitDone 0 16, .clqEnable 4096, .clqDisable 4096, .clqFlush 4096,
      .packetOpen .placer 4096 crust0 [] none, .cellGrant 4096, .packetClose .placer 4096 [],
      .silentAbandon .placer 4096, .discontinuity .placer 4096 0, .discontinuity .placer 0 65536, .clqRead 4096 0,
      .fullWaitExpiry 4096, .poolEnable 16, .poolDisable 16, .poolRebuild 16, .poolThreadDone 16,
      .bufferRelease 4 0 0, .dmaStart 256, .dmaAppend 256, .dmaStop 256, .dmaTrigger 256,
      .descriptorFetch 256 none, .descriptorDone 256, .dmaBeat 36 none, .intSourceSet 320] : List Instr).all (fun c =>
          !c.wf) = true := by decide +kernel

/-- Numbers of units, pages, queues and registers that do not exist, part 4. -/
theorem test_ill_formed_numbers_d : ([
      .intPendingClear 320, .intSourceEnable 320 false, .sourceLevelChange 320, .claim 40, .eoi 40 0, .eoi 0 320,
      .holdoffExpiry 40, .frameReceive 2 0 ({ bytes := [], fcsOk := true, held := [], fec := 0 }),
      .frameReceive 0 4 ({ bytes := [], fcsOk := true, held := [], fec := 0 }), .pfcFrameReceive 2 0 0 [],
      .pfcFrameReceive 0 4 0 [], .pauseFrameReceive 2 0 0, .pauseFrameReceive 0 4 0, .pauseFrameReceive 0 0 65536,
      .pauseExpiry 2 0 0, .pauseExpiry 0 4 0, .pauseExpiry 0 0 8, .pfcXoffRepeat 2 0 0 0, .pfcXoffRepeat 0 4 0 0,
      .pfcXoffRepeat 0 0 8 0, .linkUp 2 0, .linkUp 0 4, .linkDown 2 0, .linkDown 0 4, .meterCommit 4096,
      .mergeDeadline 2048, .rawFrameTimeout 4, .eqEnable 2 0 none none, .eqEnable 0 4096 none none, .eqDisable 2 0,
      .eqDisable 0 4096, .psiUpdate 2 0, .psiUpdate 0 4096, .psiRepeat 4096 none, .pcrDue 4096,
      .departureDecision 2 0 0, .departureDecision 0 4 0, .txstampEnable 2 0, .egressPacketTake 4096 none,
      .fecDegraded 2, .smbFaultRecord 256, .msixTableWrite 128 .data (some 0)] : List Instr).all (fun c => !c.wf) = true := by
          decide

/-! ### The spec's own figures -/

/-- R163: the worked sample of a 1920 by 1080 picture, and where its chroma plane starts. -/
theorem test_t24_sample : t24Off 1536 1920 100 37 = 94230 ∧
    ({ base := 0, w := 1920, h := 1080, chroma := 1, depth := 12, packed := false : Geom }).planeOff 1 = 3133440 := by
        decide

/-- The encode vector of R166's worked example, with lookahead depth `d` at preset 4. -/
def uhd (d : Nat) : List Nat :=
  ((((((List.replicate 62 0).set 0 3840).set 1 2160).set 2 1).set 3 10).set 12 4).set 14 3 |>.set 15 4 |>.set 17
      1 |>.set 32 d

/-- R166: SLOT_BYTES and the block of the worked example. -/
theorem test_slot_and_block : slotBytesOf (uhd 0) = 19726336 ∧ poolSlotsOf true (uhd 0) = 7 ∧
    blockMib true (lookArea (uhd 0)) (uhd 0) = 134 := by decide +kernel

/-- R351: the lookahead area of that stream at depth 16, and the block that holds it. -/
theorem test_lookahead_area : lookArea (uhd 16) = 60424192 ∧ blockMib true (lookArea (uhd 16)) (uhd 16) = 190 := by
    decide

/-- R189: the worked split of 60 columns among three fast cores and one of tempo 0.70. -/
theorem test_split_columns : splitCols 2 60 4 60 false [1024, 1024, 1024, 717] = [17, 16, 16, 11] := by decide +kernel

/-- R375: the worked example of an encode whose lookahead refuses its sub-frame rows. -/
theorem test_subframe_needs_no_lookahead :
    let p : PersParams := { par0 [] with defLook := List.replicate 8 8 }
    let v := applyForces 2 p true (((uhd 255).set 15 6).set 44 8 |>.set 31 51)
    fv v 32 = 8 ∧ refusal p 3 true 1 v = 0x2006 ∧ fv (applyForces 2 p true (((uhd 0).set 44 8).set 60 1)) 60 = 0 := by
        decide

/-- R378: a decode stream with 16 pictures and depth 3 is clamped to depth 2, which gives 17 slots. -/
theorem test_decode_overlap_clamps :
    let v := applyForces 2 (par0 []) false ((uhd 0).set 13 16)
    fv v 14 = 2 ∧ poolSlotsOf false v = 17 := by decide +kernel

/-- R281: the worked DUALRATE context over two bins. -/
theorem test_dual_rate_context :
    let w0 := 9088 * 2 ^ 18 + 568 * 2 ^ 8 + 0x47
    let w1 := dualNext w0 false
    let w2 := dualNext w1 true
    dualRange w0 510 = (214, true) ∧ bits w1 17 8 = 532 ∧ bits w1 31 18 = 9017 ∧ dualRange w1 428 = (192, true) ∧
      bits w2 17 8 = 562 ∧ bits w2 31 18 = 9074 := by decide +kernel

/-- The frame set of R340's worked frame: budget, headers, tail, CTUs, columns, least CTU, guard and lag. -/
def rcFrame : RcSet where
  regs := [(0, 160000), (1, 160000), (2, 400), (3, 64), (4, 510), (5, 30), (6, 6), (7, 2400), (8, 4)]
  latched := (List.range 413).map (fun j => 380 * (j + 1))

/-- R337, R340, R344: the floor of the worked frame begins at CTU 416, and its debt and repayment follow. -/
theorem test_worked_frame_floor :
    rcFrame.floors 415 = false ∧ rcFrame.floors 416 = true ∧
      mgetD (rcFrame.close (158708 - 400)).regs 0x16 0 = BitVec.ofInt 32 (-1292) ∧ repayOf 160000 (-1292) 8 = -161 ∧
      repayOf 160000 2068 8 = 258 := by decide +kernel

/-- R390 to R392: the worked address outside every FRAME region. -/
theorem test_dram_linear :
    m0.locate 0x0812345678 = { dch := 3, sub := 0, rank := 0, bank := 7, row := 1553, col := 5, byte := 56 } := by
        decide

/-- R392, R394: the same address in a FRAME region with the masks of the example. -/
theorem test_dram_frame :
    let s := { m0 with regs := [(regKey 96 0x900, 0xC0000000), (regKey 96 0x904, 0x4000), (regKey 96 0x980, 68), (regKey 96 0x984, 544), (regKey 96 0x988, 1088), (regKey 96 0x98C, 2176), (regKey 96 0x990, 4352)] }
    s.locate 0x0812345678 = { dch := 3, sub := 1, rank := 0, bank := 6, row := 1553, col := 5, byte := 56 } := by decide +kernel

/-- R460: the pieces of the worked copy of 300 bytes from offset 40. -/
theorem test_funnel_pieces :
    funnelPiece 40 300 = 8 ∧ funnelPiece 48 292 = 16 ∧ funnelPiece 64 276 = 64 ∧ funnelPiece 320 20 = 16 ∧
      funnelPiece 336 4 = 4 ∧ funnelPiece 10 300 = 2 ∧ funnelPiece 12 298 = 4 := by decide +kernel

/-- R245: VABS of the least element saturates, or wraps with WRAP. -/
theorem test_vabs_least :
    let s := l0 true [] (sq 4 { job := some 32, v := [(1, List.replicate 256 0x800000)] })
    let e := fun (x : Word) => match exec (.vabs 47 4 (ins 3 1 0 0 x)) s with
      | .next t => ((mgetD (t.seq 47 4).v 3 []).getD 255 0).toInt
      | _ => 0
    e 0x00240000 = 8388607 ∧ e 0x02240000 = -8388608 := by decide +kernel

/-- R245: VMUL of 1000 by 3 with SH 2 is 750. -/
theorem test_vmul_rounds :
    (match exec (.vmul 47 4 (ins 3 1 2 0 0x08240000)) (l0 true [] (sq 4
        { job := some 32, v := [(1, List.replicate 256 1000), (2, List.replicate 256 3)] })) with
      | .next t => (mgetD (t.seq 47 4).v 3 []).getD 255 0
      | _ => 0) = 750 := by decide +kernel

/-- R255: the worked half-sample value, and that of the inputs of opposite sign. -/
theorem test_bfir_half_sample :
    let d := [100, 100, 100, 100, 120, 120, 120, 120]
    let s := l0 true []
        { sq 4 { job := some 32, s := [(2, 2)] } with tab := [(8, 0x0004FFFF), (9, 0x0028FFF5), (10, 0xFFF50028), (11, 0xFFFF0004)], blocks := [(1, { owner := 4, data := d.zipIdx.map (fun e => (e.2, BitVec.ofNat 24 e.1)) ++ d.zipIdx.map (fun e => (64 + e.2, BitVec.ofInt 24 (-(e.1 : Int)))) }), (2, { owner := 4 })] }
    (match exec (.bfir 47 4 (ins 2 1 2 0 0x01C60000)) s with
      | .next t => (t.belem 47 2 0 0, t.belem 47 2 0 1)
      | _ => (0, 0)) = (110, -110) := by decide +kernel

/-- R127, R133: an entry of the previous lap leaves its slot empty, and any other sequence number halts the queue. -/
theorem test_owner_word_laps :
    let s := g0 { cfg := List.replicate 24 0 ++ [8, 7, 1, 0, 1, 64] ++ List.replicate 18 0, state := .armed, reading := true, sqNext := 0x70 }
    let f := fun v => match exec (.ownerWordRead 1023 (some v)) s with
      | .next t => ((t.wq 1023).state, (t.wq 1023).window)
      | _ => (.disarmed, [])
    f 0x0001FF70 = (.armed, []) ∧ (f 0x00010170).1 = .halted ∧ (f 0x00010070).1 = .armed ∧ (f 0x00010070).2.length = 1
        := by decide +kernel

/-! ### Hypotheses that are met -/

/-- A state and operands that meet the hypotheses of `StepRunsHeadCommand`. -/
theorem witness_StepRunsHeadCommand :
    ∃ (c : Instr) (rest : List Instr) (s : State), s.pending = c :: rest :=
  ⟨.powerOn, [], { r0 with pending := [.powerOn] }, by decide +kernel⟩

/-- States and operands that meet the hypotheses of `IdleStepCountsOneCycle`. -/
theorem witness_IdleStepCountsOneCycle :
    (∃ (s : State), s.pending = [] ∧ s.live = false) ∧
    (∃ (s : State), s.pending = [] ∧ s.live = true) := by
  exact ⟨⟨{ r0 with power := { powered := false } }, by decide +kernel⟩,
    ⟨{ r0 with time := { frac := 2 ^ 40 - 1, ns := 2 ^ 64 - 1 }, intc := { grps := [(3, { timerRun := true, timerLeft := 5 })] } },
        by decide +kernel⟩⟩

/-- A state and operands that meet the hypotheses of `OnlyPowerRemovalEndsSealedState`. -/
theorem witness_OnlyPowerRemovalEndsSealedState :
    ∃ (s : State), s.isSealed ∧ s.pending.head? ≠ some .powerRemoval :=
  ⟨{ r0 with faults := { stop := .sealed }, pending := [.powerOn] }, ⟨by decide, by decide⟩, by decide⟩

/-- States and operands that meet the hypotheses of `UnpoweredPartDoesNothing`. -/
theorem witness_UnpoweredPartDoesNothing :
    (∃ (c : Instr) (s : State), s.power.powered = false ∧ c ≠ .powerOn ∧ c ≠ .powerRemoval) ∧
    (∃ (c : Instr) (s : State), s.power.powered = false ∧ c ≠ .powerOn ∧ c ≠ .powerRemoval) := by
  exact ⟨⟨.flr, { r0 with power := { powered := false } }, by decide +kernel⟩,
    ⟨.configRequest .readId true, { r0 with power := { powered := false } }, by decide +kernel⟩⟩

/-- A page that exists, as `ResetStateServesOnlyBootPages` asks. -/
theorem witness_ResetStateServesOnlyBootPages : ∃ p, (pageKind p).isSome = true := ⟨191, by decide⟩

/-- States and operands that meet the hypotheses of `PowerAndResetRowsRestart`. -/
theorem witness_PowerAndResetRowsRestart :
    (∃ (s : State), s.power.powered = false) ∧
    (∃ (x : Straps) (s : State), s.live = true ∧ s.power.perstHigh = false ∧ s.jtag.instr.holds = false) ∧
    (∃ (s : State), s.live = true ∧ s.power.perstHigh = true) ∧
    (∃ (s : State), s.live = true ∧ s.linked = true) ∧
    (∃ (s : State), s.live = true ∧ s.linked = true) := by
  exact ⟨⟨{ r0 with power := { powered := false } }, by decide +kernel⟩,
    ⟨{ bootSrc := 3, dormantForce := true, smbAddrSel := true },
        { r0 with power := { powered := true, perstHigh := false } }, by decide +kernel⟩,
    ⟨{ r0 with regs := [(regKey 1 0x040, 7), (regKey 2 0x040, 1)], jobs := [(0, j0)], mem := [(5, 1)], boot := { state := .ready, attempts := 3 } },
        by decide +kernel⟩,
    ⟨{ r0 with regs := [(regKey 1 0x040, 7), (regKey 2 0x040, 1)], jobs := [(0, j0)], mem := [(5, 1)], boot := { state := .ready, attempts := 3 } },
        by decide +kernel⟩,
    ⟨{ r0 with regs := [(regKey 1 0x040, 7), (regKey 2 0x040, 1)], jobs := [(0, j0)], mem := [(5, 1)], boot := { state := .ready, attempts := 3 } },
        by decide +kernel⟩⟩

/-- States and operands that meet the hypotheses of `BootRowsMoveTheAttempt`. -/
theorem witness_BootRowsMoveTheAttempt :
    (∃ (r : StageResult) (s : State), s.calm = true ∧ s.boot.state = .booting ∧ s.boot.running = true ∧ s.boot.stage = 4
        ∧ r.fail = none ∧ ((List.range 4).any fun q => s.remains q) = true) ∧
    (∃ (s : State), s.calm = true ∧ s.boot.running = true ∧ s.boot.window = false) ∧
    (∃ (s : State), s.calm = true ∧ s.boot.running = true ∧ s.boot.window = false) ∧
    (∃ (s : State), s.hears 1 = true ∧ s.boot.state = .booting ∧ s.boot.hostWait = true) ∧
    (∃ (s : State), s.hears 32 = true ∧ s.boot.windowOk = true ∧ s.boot.busy = false) ∧
    (∃ (m : Nat) (s : State), s.calm = true ∧ s.severity 0 = 5) := by
  exact ⟨⟨sr0, b0, by decide +kernel⟩,
    ⟨b0, by decide +kernel⟩,
    ⟨{ b0 with boot := { state := .booting, running := true, stage := 6, hostWait := true, attempts := 15 } },
        by decide +kernel⟩,
    ⟨{ b0 with boot := { state := .booting, running := true, stage := 6, hostWait := true }, regs := [(regKey 1 0x044, 0x1000), (regKey 1 0x048, 1), (regKey 1 0x04C, 0x2000)] },
        by decide +kernel⟩,
    ⟨d0, by decide +kernel⟩,
    ⟨0, { r0 with mem := [(5, 1)] }, by decide +kernel⟩⟩

/-- States and operands that meet the hypotheses of `TempoRowsFollowTheLoopRules`. -/
theorem witness_TempoRowsFollowTheLoopRules :
    (∃ (m : Nat) (c : Nat) (tj : Int) (s : State), s.calm = true ∧ m < 57) ∧
    (∃ (a : AvsReply) (v : Nat) (step : Nat) (vmin : Nat) (vmax : Nat) (s : State), s.calm = true ∧
        s.tempo.loopStarted = true ∧ s.tempo.avsLost = false ∧ (s.page 2).groups.getLsbD 0 = false ∧ fld (s.active 2
        0x040) 0 0 = 1 ∧ step = fld (s.active 2 0x040) 11 8 ∧ vmin = fld (s.active 2 0x048) 9 0 ∧ vmax = fld (s.active
        2 0x048) 25 16 ∧ vmin ≤ vmax ∧ s.loopCores ≠ [] ∧ v = max vmin (min vmax (if s.tempo.vddReq = 0 then
        a.readback else s.tempo.vddReq)) ∧ (a.writeOk = true ∧ a.statusOk = true ∨ s.tempo.avsBad < 2)) ∧
    (∃ (a : AvsReply) (v : Nat) (step : Nat) (vmin : Nat) (vmax : Nat) (s : State), s.calm = true ∧
        s.tempo.loopStarted = true ∧ s.tempo.avsLost = false ∧ (s.page 2).groups.getLsbD 0 = false ∧ fld (s.active 2
        0x040) 0 0 = 1 ∧ step = fld (s.active 2 0x040) 11 8 ∧ vmin = fld (s.active 2 0x048) 9 0 ∧ vmax = fld (s.active
        2 0x048) 25 16 ∧ vmin ≤ vmax ∧ s.loopCores ≠ [] ∧ v = max vmin (min vmax (if s.tempo.vddReq = 0 then
        a.readback else s.tempo.vddReq)) ∧ (a.writeOk = true ∧ a.statusOk = true ∨ s.tempo.avsBad < 2) ∧ a.writeOk =
        true ∧ a.statusOk = true) ∧
    (∃ (a : AvsReply) (v : Nat) (step : Nat) (vmin : Nat) (vmax : Nat) (s : State), s.calm = true ∧
        s.tempo.loopStarted = true ∧ s.tempo.avsLost = false ∧ (s.page 2).groups.getLsbD 0 = false ∧ fld (s.active 2
        0x040) 0 0 = 1 ∧ step = fld (s.active 2 0x040) 11 8 ∧ vmin = fld (s.active 2 0x048) 9 0 ∧ vmax = fld (s.active
        2 0x048) 25 16 ∧ vmin ≤ vmax ∧ s.loopCores ≠ [] ∧ v = max vmin (min vmax (if s.tempo.vddReq = 0 then
        a.readback else s.tempo.vddReq)) ∧ (a.writeOk = true ∧ a.statusOk = true ∨ s.tempo.avsBad < 2) ∧ ¬(a.writeOk =
        true ∧ a.statusOk = true)) ∧
    (∃ (a : AvsReply) (s : State), s.calm = true ∧ s.tempo.loopStarted = true ∧ s.tempo.avsLost = false ∧ (s.page
        2).groups.getLsbD 0 = false ∧ fld (s.active 2 0x040) 0 0 = 1 ∧ ¬(a.writeOk = true ∧ a.statusOk = true) ∧ 2 ≤
        s.tempo.avsBad ∧ s.severity 6 = 1) ∧
    (∃ (a : AvsReply) (s : State), s.calm = true ∧ (s.page 2).groups.getLsbD 0 = false ∧ (fld (s.active 2 0x040) 0 0 =
        0 ∨ s.tempo.loopStarted = false ∨ s.tempo.avsLost = true)) ∧
    (∃ (a : AvsReply) (s : State), s.calm = true ∧ s.tempo.avsLost = true ∧ (a.statusOk = true ∨ a.writeOk = true ∧
        fld (s.active 2 0x040) 0 0 = 1)) ∧
    (∃ (a : AvsReply) (s : State), s.calm = true ∧ s.tempo.avsLost = true ∧ (a.statusOk = true ∨ a.writeOk = true ∧
        fld (s.active 2 0x040) 0 0 = 1)) ∧
    (∃ (a : AvsReply) (s : State), s.calm = true ∧ s.tempo.avsLost = true ∧ a.statusOk = false ∧ a.writeOk = false) ∧
    (∃ (thr : Nat) (hyst : Nat) (floor : Nat) (target : Nat) (s : State), s.calm = true ∧ s.tempo.calibrated = true ∧
        thr = fld (s.active 2 0x04C) 7 0 ∧ hyst = fld (s.active 2 0x04C) 11 8 ∧ floor = fld (s.active 2 0x04C) 31 16 ∧
        target = fld (s.active 2 0x044) 15 0 ∧ (thr : Int) ≤ s.tjMax ∧ s.tempo.throttling = false) ∧
    (∃ (thr : Nat) (hyst : Nat) (floor : Nat) (target : Nat) (s : State), s.calm = true ∧ s.tempo.calibrated = true ∧
        thr = fld (s.active 2 0x04C) 7 0 ∧ hyst = fld (s.active 2 0x04C) 11 8 ∧ floor = fld (s.active 2 0x04C) 31 16 ∧
        target = fld (s.active 2 0x044) 15 0 ∧ (thr : Int) ≤ s.tjMax ∧ s.tempo.throttling = true) ∧
    (∃ (thr : Nat) (hyst : Nat) (floor : Nat) (target : Nat) (s : State), s.calm = true ∧ s.tempo.calibrated = true ∧
        thr = fld (s.active 2 0x04C) 7 0 ∧ hyst = fld (s.active 2 0x04C) 11 8 ∧ floor = fld (s.active 2 0x04C) 31 16 ∧
        target = fld (s.active 2 0x044) 15 0 ∧ s.tjMax < (thr : Int) ∧ s.tempo.throttling = true) ∧
    (∃ (thr : Nat) (hyst : Nat) (floor : Nat) (target : Nat) (s : State), s.calm = true ∧ s.tempo.calibrated = true ∧
        thr = fld (s.active 2 0x04C) 7 0 ∧ hyst = fld (s.active 2 0x04C) 11 8 ∧ floor = fld (s.active 2 0x04C) 31 16 ∧
        target = fld (s.active 2 0x044) 15 0 ∧ s.tjMax < (thr : Int) ∧ s.tempo.throttling = true) ∧
    (∃ (thr : Nat) (hyst : Nat) (floor : Nat) (target : Nat) (s : State), s.calm = true ∧ s.tempo.calibrated = true ∧
        thr = fld (s.active 2 0x04C) 7 0 ∧ hyst = fld (s.active 2 0x04C) 11 8 ∧ floor = fld (s.active 2 0x04C) 31 16 ∧
        target = fld (s.active 2 0x044) 15 0 ∧ s.tjMax < (thr : Int) ∧ s.tempo.throttling = false) ∧
    (∃ (s : State), s.calm = true ∧ s.tempo.calibrated = true ∧ s.tempo.under = false ∧ s.deviceTempo < 0x02CD ∧
        s.loopCores ≠ [] ∧ s.severity 7 = 1) := by
  exact ⟨⟨56, 1000, -40,
        { r0 with tempo := { under := true, mons := [(56, { windows := List.replicate 100 7 }), (3, { tj := 5 })] } },
        by decide +kernel⟩,
    ⟨{ writeOk := true, statusOk := true, readback := 705 }, 700, 5, 620, 880,
        { r0 with tempo := { loopStarted := true, vddReq := 700, vddRead := 690, avsBad := 2 } }, by decide +kernel⟩,
    ⟨{ writeOk := true, statusOk := true, readback := 750 }, 750, 5, 750, 750,
        { r0 with tempo := { loopStarted := true, vddReq := 0, vddRead := 700 }, regs := [(regKey 2 0x840, 0x501), (regKey 2 0x848, 0x02EE02EE)] },
        by decide +kernel⟩,
    ⟨{ writeOk := true, statusOk := false, readback := 1 }, 880, 5, 620, 880,
        { r0 with tempo := { loopStarted := true, vddReq := 880, vddRead := 690, avsBad := 1, atVmax := true } },
        by decide +kernel⟩,
    ⟨{ writeOk := false, statusOk := false, readback := 1 },
        { r0 with tempo := { loopStarted := true, vddReq := 700, vddRead := 690, avsBad := 2 } }, by decide +kernel⟩,
    ⟨{ writeOk := true, statusOk := true, readback := 1 }, { r0 with regs := [(regKey 2 0x840, 0)] },
        by decide +kernel⟩,
    ⟨{ writeOk := true, statusOk := false, readback := 0 }, { r0 with tempo := { avsLost := true, vddReq := 640 } },
        by decide +kernel⟩,
    ⟨{ writeOk := false, statusOk := true, readback := 800 },
        { r0 with tempo := { avsLost := true }, regs := [(regKey 2 0x840, 0)] }, by decide +kernel⟩,
    ⟨{ writeOk := false, statusOk := false, readback := 0 }, { r0 with tempo := { avsLost := true, vddReq := 640 } },
        by decide +kernel⟩,
    ⟨100, 2, 0x2D5, 0x400, { r0 with tempo := { calibrated := true, mons := [(0, { tj := 100 })] } },
        by decide +kernel⟩,
    ⟨100, 2, 0x2D5, 0x400,
        { r0 with tempo := { calibrated := true, throttling := true, ceiling := 0x2D6, mons := [(0, { tj := 100 })] } },
        by decide +kernel⟩,
    ⟨100, 2, 0x2D5, 0x400,
        { r0 with tempo := { calibrated := true, throttling := true, ceiling := 0x3F0, mons := [(0, { tj := 98 })] } },
        by decide +kernel⟩,
    ⟨100, 2, 0x2D5, 0x400,
        { r0 with tempo := { calibrated := true, throttling := true, ceiling := 0x3F0, mons := [(0, { tj := 99 })] } },
        by decide +kernel⟩,
    ⟨100, 2, 0x2D5, 0x400, { r0 with tempo := { calibrated := true, mons := [(0, { tj := 99 })] } },
        by decide +kernel⟩,
    ⟨{ r0 with tempo := { calibrated := true, loopStarted := true } }, by decide +kernel⟩⟩

/-- States and operands that meet the hypotheses of `ComparatorsAndTimebaseReads`. -/
theorem witness_ComparatorsAndTimebaseReads :
    (∃ (q : Nat) (k : Nat) (v : Word) (s : State), q < 4 ∧ k < 8 ∧ s.hears (qcompPage q) = true ∧ v.getLsbD 31 = true) ∧
    (∃ (q : Nat) (k : Nat) (v : Word) (s : State), q < 4 ∧ k < 8 ∧ s.hears (qcompPage q) = true) ∧
    (∃ (q : Nat) (k : Nat) (s : State), s.calm = true ∧ q < 4 ∧ k < 8 ∧ (s.comp (8 * q + k)).armed = true ∧ (s.comp (8 *
        q + k)).value ≤ s.time.ns) ∧
    (∃ (s : State), s.hears 19 = true) := by
  exact ⟨⟨3, 7, 0x8000FFFF, r0, by decide +kernel⟩,
    ⟨0, 0, 0x40000005, { r0 with comps := [(0, { value := 9, armed := true })] }, by decide +kernel⟩,
    ⟨3, 7, { r0 with time := { ns := 10 }, comps := [(31, { value := 10, armed := true, period := 4 })] },
        by decide +kernel⟩,
    ⟨{ r0 with time := { ns := 2 ^ 64 - 1 } }, by decide +kernel⟩⟩

/-- States and operands that meet the hypotheses of `PageHeaderRowsWriteTheirFields`. -/
theorem witness_PageHeaderRowsWriteTheirFields :
    (∃ (p : Nat) (s : State), s.hears p = true) ∧
    (∃ (p : Nat) (k : BitVec 16) (s : State), s.hears p = true) ∧
    (∃ (p : Nat) (s : State), s.calm = true) ∧
    (∃ (p : Nat) (k : PageKind) (v : Word) (s : State), s.hears p = true ∧ pageKind p = some k ∧ v &&& ~~~evtMask k = 0)
        ∧
    (∃ (p : Nat) (k : PageKind) (v : Word) (s : State), s.hears p = true ∧ pageKind p = some k ∧ v &&& ~~~evtMask k = 0)
        ∧
    (∃ (p : Nat) (s : State), s.hears p = true ∧ p ≠ 19) ∧
    (∃ (p : Nat) (s : State), s.hears p = true) := by
  exact ⟨⟨191, r0, by decide +kernel⟩,
    ⟨0, 0xC0DE, r0, by decide +kernel⟩,
    ⟨64, { r0 with pages := [(64, { unlocked := true })] }, by decide +kernel⟩,
    ⟨80, .core, 0xF, r0, by decide +kernel⟩,
    ⟨66, .qdma, 0xFFFF, r0, by decide +kernel⟩,
    ⟨20, r0, by decide +kernel⟩,
    ⟨3, r0, by decide +kernel⟩⟩

/-- States and operands that meet the hypotheses of `CommitTakesEffectAtHandOver`. -/
theorem witness_CommitTakesEffectAtHandOver :
    (∃ (p : Nat) (mask : BitVec 16) (s : State), s.hears p = true ∧ (s.pageState p).rejects = false ∧ (∀ g, g < 16 →
        mask.getLsbD g = true → hasGroup p g = true)) ∧
    (∃ (p : Nat) (g : Nat) (s : State), s.calm = true ∧ g < 16 ∧ (s.page p).groups.getLsbD g = true ∧ s.pageParked p =
        false ∧ s.serving p = .served ∧ (s.pageState p).rejects = false ∧ s.atBoundary p g = true ∧ p ≠ 19 ∧
        s.handReject p g = 0) ∧
    (∃ (p : Nat) (g : Nat) (s : State), s.calm = true ∧ g < 16 ∧ (s.page p).groups.getLsbD g = true ∧ s.pageParked p =
        false ∧ s.serving p = .served ∧ (s.pageState p).rejects = false ∧ s.atBoundary p g = true ∧ p ≠ 19 ∧
        s.handReject p g ≠ 0) ∧
    (∃ (p : Nat) (g : Nat) (s : State), s.calm = true ∧ g < 16 ∧ (s.page p).groups.getLsbD g = true ∧ s.pageParked p =
        false ∧ s.serving p = .served ∧ (s.pageState p).rejects = false ∧ s.atBoundary p g = true ∧ p ≠ 19 ∧
        s.handReject p g = 0) := by
  exact ⟨⟨2, 1, { r0 with pages := [(2, { state := .idle, unlocked := true })] }, by decide +kernel⟩,
    ⟨2, 0, { r0 with pages := [(2, { state := .idle, groups := 1 })], regs := [(regKey 2 0x044, 0x300)] },
        by decide +kernel⟩,
    ⟨2, 0, { r0 with pages := [(2, { state := .idle, groups := 1 })], regs := [(regKey 2 0x044, 0xFFFFFFFF)] },
        by decide +kernel⟩,
    ⟨corePage 47, 0,
        { r0 with pages := [(corePage 47, { state := .idle, groups := 1 })], regs := [(regKey (corePage 47) 0x040, 0xFFFFFFFF)] },
        by decide +kernel⟩⟩

/-- States and operands that meet the hypotheses of `UnitRowsEnterAndLeaveService`. -/
theorem witness_UnitRowsEnterAndLeaveService :
    (∃ (p : Nat) (k : PageKind) (s : State), s.hears p = true ∧ pageKind p = some k ∧ noFence k = false ∧ ((s.page
        p).state = .idle ∨ (s.page p).state = .running) ∧ (s.page p).draining = false ∧ s.pageBusy p = false) ∧
    (∃ (p : Nat) (s : State), s.hears p = true ∧ pageCore p = none ∧ (s.page p).state = .fenced ∧ (s.page p).cause =
        .software) ∧
    (∃ (p : Nat) (s : State), s.hears p = true) ∧
    (∃ (p : Nat) (s : State), s.hears p = true ∧ pageCore p = none) ∧
    (∃ (p : Nat) (k : PageKind) (s : State), s.hears p = true ∧ pageKind p = some k ∧ noFence k = false ∧ k ≠ .core ∧ k
        ≠ .quad ∧ s.pageState p = .fenced) ∧
    (∃ (p : Nat) (x : SelfTest) (s : State), s.calm = true ∧ pageCore p = none ∧ pageKind p ≠ some .quad ∧ (s.page
        p).resetting = true) ∧
    (∃ (p : Nat) (x : SelfTest) (s : State), s.calm = true ∧ pageCore p = none ∧ pageKind p ≠ some .quad ∧ (s.page
        p).resetting = true) ∧
    (∃ (p : Nat) (s : State), s.calm = true ∧ (s.page p).draining = true ∧ s.pageBusy p = false) := by
  exact ⟨⟨20, .dch, { r0 with pages := [(20, { state := .idle })] }, by decide +kernel⟩,
    ⟨20, { r0 with pages := [(20, { state := .fenced, cause := .software, fence := true })] }, by decide +kernel⟩,
    ⟨191, { r0 with pages := [(191, { state := .idle })] }, by decide +kernel⟩,
    ⟨20, { r0 with pages := [(20, { state := .idle, enable := false })] }, by decide +kernel⟩,
    ⟨20, .dch, { r0 with pages := [(20, { state := .fenced, cause := .software, fence := true })] }, by decide +kernel⟩,
    ⟨20, { ok := false, cores := [] }, { r0 with pages := [(20, { state := .offline, resetting := true })] },
        by decide +kernel⟩,
    ⟨20, { ok := true, cores := [] },
        { r0 with pages := [(20, { state := .offline, resetting := true, fence := true })] }, by decide +kernel⟩,
    ⟨20, { r0 with pages := [(20, { state := .idle, draining := true, fence := true, cause := .software })] },
        by decide +kernel⟩⟩

/-- States and operands that meet the hypotheses of `RegisterAndWindowAccesses`. -/
theorem witness_RegisterAndWindowAccesses :
    (∃ (p : Nat) (v : DWord) (h : HostAnswers) (s : State), s.hears p = true ∧ p < 192 ∧ h.poisoned = false) ∧
    (∃ (p : Nat) (o : Nat) (v : DWord) (h : HostAnswers) (s : State), s.hears p = true ∧ p < 192 ∧ 0x800 ≤ o ∧ o <
        0x1000 ∧ o % 4 = 0 ∧ h.poisoned = false) ∧
    (∃ (p : Nat) (o : Nat) (v : DWord) (h : HostAnswers) (s : State), s.hears p = true ∧ p < 192 ∧ 0x800 ≤ o ∧ o <
        0x1000 ∧ o % 4 = 0 ∧ h.poisoned = false) ∧
    (∃ (off : Nat) (len : Nat) (v : DWord) (h : HostAnswers) (s : State), s.hears 0 = true ∧ off < 0x400000 ∧ (len = 1
        ∨ len = 2) ∧ h.poisoned = false) ∧
    (∃ (off : Nat) (v : DWord) (h : HostAnswers) (s : State) (t : State), s.hears 0 = true ∧ off < 0x400000 ∧ off % 8
        = 0 ∧ h.poisoned = false ∧ exec (.registerWrite off 4 v h) s = .next t ∧ t.linked = true ∧ t.decodes = true) ∧
    (∃ (w : Nat) (x : Nat) (s : State), s.hears 0 = true ∧ s.boot.state = .ready ∧ w < 8 ∧ x < 0x10000 ∧ fld (s.reg 0
        (0x100 + 4 * w)) 31 24 = 0) ∧
    (∃ (w : Nat) (x : Nat) (s : State), s.hears 0 = true ∧ s.boot.state = .ready ∧ w < 8 ∧ x < 0x10000 ∧ fld (s.reg 0
        (0x100 + 4 * w)) 31 24 = 0) ∧
    (∃ (w : Nat) (x : Nat) (n : Nat) (v : DWord) (s : State), s.hears 0 = true ∧ s.boot.state = .ready ∧ w < 8 ∧ x <
        8192 ∧ n < 48 ∧ s.reg 0 (0x100 + 4 * w) = BitVec.ofNat 32 (4 * 2 ^ 24 + n * 2 ^ 16) ∧ s.coreFenced n = true ∧
        s.pageParked (corePage n) = false) ∧
    (∃ (off : Nat) (len : Nat) (v : DWord) (h : HostAnswers) (s : State), s.hears 0 = true ∧ off < 0x400000 ∧
        h.poisoned = true) ∧
    (∃ (p : Nat) (o : Nat) (s : State), s.hears p = true ∧ s.hears 0 = true ∧ p < 192 ∧ o < 0x1000 ∧ o % 4 = 0) ∧
    (∃ (p : Nat) (o : Nat) (s : State), s.hears p = true ∧ s.hears 0 = true ∧ p < 192 ∧ o < 0x1000 ∧ o % 4 = 0) ∧
    (∃ (p : Nat) (s : State), s.hears p = true ∧ p < 192 ∧ (s.page p).snapHeld = false) := by
  exact ⟨⟨191, 0xFFFFFFFFFFFFFFFF, {}, r0, by decide +kernel⟩,
    ⟨0, 0x800, 5, {}, r0, by decide +kernel⟩,
    ⟨191, 0xFFC, 5, {}, r0, by decide +kernel⟩,
    ⟨0x3FFFFF, 1, 5, {}, r0, by decide +kernel⟩,
    ⟨0x038, 0x100000002, {}, r0, r0.toL0.modPage 0 fun g => { g with scratch := 2 }, by decide, by decide, by decide,
        by decide, rfl, by decide, by decide⟩,
    ⟨7, 0xFFFF, r0, by decide +kernel⟩,
    ⟨0, 0, r0, by decide +kernel⟩,
    ⟨7, 8191, 47, 0x1FFFFFFFF,
        { r0 with pages := [(corePage 47, { state := .fenced, fence := true, cause := .software })], regs := [(regKey 0 0x11C, BitVec.ofNat 32 (4 * 2 ^ 24 + 47 * 2 ^ 16))] },
        by decide +kernel⟩,
    ⟨0x3FFFFF, 4, 5, { poisoned := true }, r0, by decide +kernel⟩,
    ⟨191, 0xFFC, r0, by decide +kernel⟩,
    ⟨0, 0, r0, by decide +kernel⟩,
    ⟨191, { r0 with pages := [(191, { state := .idle, scratch := 0x12345678 })] }, by decide +kernel⟩⟩

/-- States and operands that meet the hypotheses of `PcieConfigurationRows`. -/
theorem witness_PcieConfigurationRows :
    (∃ (r : CfgReq) (s : State), s.linked = true ∧ s.due = [] ∧ s.pcie.cfgAnswered = false) ∧
    (∃ (b : Bool) (y : Bool) (s : State), s.linked = true ∧ s.due = [] ∧ (y = false ∨ s.pcie.cfgAnswered = true)) ∧
    (∃ (b : Bool) (y : Bool) (s : State), s.linked = true ∧ s.due = [] ∧ (y = false ∨ s.pcie.cfgAnswered = true)) ∧
    (∃ (s : State), s.linked = true ∧ s.due = []) ∧
    (∃ (s : State), s.linked = true ∧ s.due = []) ∧
    (∃ (s : State), s.calm = true ∧ s.linked = true ∧ s.pcie.aspmL1 = true ∧ s.pcie.inL1 = false) ∧
    (∃ (s : State), s.linked = true) ∧
    (∃ (v : Nat) (w : Nat) (s : State), s.power.powered = true ∧ s.power.perstHigh = true ∧ 1 ≤ v ∧ v ≤ 5 ∧ (w = 1 ∨ w
        = 4 ∨ w = 8 ∨ w = 16)) ∧
    (∃ (v : Nat) (w : Nat) (s : State), s.power.powered = true ∧ s.power.perstHigh = true ∧ 1 ≤ v ∧ v ≤ 5 ∧ (w = 1 ∨ w
        = 4 ∨ w = 8 ∨ w = 16)) ∧
    (∃ (v : Nat) (w : Nat) (l : List AerError) (s : State), s.power.powered = true ∧ s.power.perstHigh = true ∧ 1 ≤ v
        ∧ v ≤ 5 ∧ (w = 1 ∨ w = 4 ∨ w = 8 ∨ w = 16) ∧ l = [] ∧ s.pcie.pba = 0 ∧ s.geyser.queues = [] ∧
        s.pcie.heldWrites = [] ∧ s.pcie.waits = []) := by
  exact ⟨⟨.readId, r0, by decide +kernel⟩,
    ⟨true, false, { r0 with pcie := { linkUp := true } }, by decide +kernel⟩,
    ⟨false, true, { r0 with pcie := { linkUp := true, cfgAnswered := true } }, by decide +kernel⟩,
    ⟨{ r0 with pcie := { linkUp := true } }, by decide +kernel⟩,
    ⟨{ r0 with pcie := { linkUp := true } }, by decide +kernel⟩,
    ⟨{ r0 with pcie := { linkUp := true, aspmL1 := true } }, by decide +kernel⟩,
    ⟨{ r0 with pcie := { linkUp := true } }, by decide +kernel⟩,
    ⟨1, 16, r0, by decide +kernel⟩,
    ⟨5, 1, r0, by decide +kernel⟩,
    ⟨5, 16, [], r0, by decide +kernel⟩⟩

/-- States and operands that meet the hypotheses of `Bar2AndHostReadRows`. -/
theorem witness_Bar2AndHostReadRows :
    (∃ (off : Nat) (len : Nat) (a : Nat) (s : State), s.calm = true ∧ s.linked = true ∧ s.decodes = true ∧ s.inBar2 off
        len = true ∧ s.boot.state = .ready ∧ s.bar2Addr off = some a ∧ s.frozenRun a len = false ∧ s.readRun a len =
            true) ∧
    (∃ (off : Nat) (a : Nat) (bs : List Byte) (s : State), s.calm = true ∧ s.linked = true ∧ s.decodes = true ∧ s.inBar2
        off bs.length = true ∧ s.boot.state = .ready ∧ s.bar2Addr off = some a ∧ s.writeRun a bs.length = true) ∧
    (∃ (off : Nat) (bs : List Byte) (s : State), s.calm = true ∧ s.linked = true ∧ s.decodes = true ∧ s.inBar2 off
        bs.length = true ∧ s.boot.state = .booting) ∧
    (∃ (w : HostRead) (s : State), s.calm = true ∧ s.linked = true) ∧
    (∃ (j : Nat) (s : State), s.calm = true ∧ s.pcie.ctoDisable = false ∧ s.job j = none) := by
  exact ⟨⟨0xFFFFFF8, 8, 0xFFFFFF8, { m0 with mem := [(0xFFFFFF8, 7)] }, by decide +kernel⟩,
    ⟨0xFFFFFF8, 0xFFFFFF8, [1, 2, 3, 4, 5, 6, 7, 8], m0, by decide +kernel⟩,
    ⟨0, [1], b0, by decide⟩,
    ⟨.descriptor 0, r0, by decide +kernel⟩,
    ⟨0, r0, by decide +kernel⟩⟩

/-- States and operands that meet the hypotheses of `InterruptSourceRows`. -/
theorem witness_InterruptSourceRows :
    (∃ (n : Nat) (s : State), s.hears 4 = true ∧ srcReal n = true) ∧
    (∃ (n : Nat) (s : State), s.hears 4 = true ∧ srcReal n = true) ∧
    (∃ (n : Nat) (s : State), s.hears 4 = true ∧ srcReal n = true) ∧
    (∃ (n : Nat) (s : State), s.hears 4 = true ∧ srcReal n = true) ∧
    (∃ (n : Nat) (b : Bool) (s : State), s.hears 4 = true ∧ srcReal n = true) ∧
    (∃ (n : Nat) (s : State), s.calm = true ∧ srcLevel n = true) ∧
    (∃ (g : Nat) (n : Nat) (s : State), s.hears 4 = true ∧ g < 40 ∧ s.firstClaimable g = some n) ∧
    (∃ (g : Nat) (s : State), s.hears 4 = true ∧ g < 40 ∧ s.firstClaimable g = none) ∧
    (∃ (g : Nat) (n : Nat) (s : State), s.hears 4 = true ∧ g < 40 ∧ n / 8 = g ∧ (s.src n).inService = true) ∧
    (∃ (g : Nat) (n : Nat) (s : State), s.hears 4 = true ∧ (40 ≤ g ∨ n / 8 ≠ g ∨ (s.src n).inService = false)) ∧
    (∃ (g : Nat) (n : Nat) (s : State), s.hears 4 = true ∧ (40 ≤ g ∨ n / 8 ≠ g ∨ (s.src n).inService = false)) ∧
    (∃ (g : Nat) (n : Nat) (s : State), s.hears 4 = true ∧ (40 ≤ g ∨ n / 8 ≠ g ∨ (s.src n).inService = false)) ∧
    (∃ (g : Nat) (s : State), s.calm = true ∧ g < 40 ∧ (s.grp g).timerRun = true ∧ (s.grp g).timerLeft = 0 ∧
        s.firstClaimable g = none) ∧
    (∃ (g : Nat) (s : State), s.calm = true ∧ ((s.grp g).timerRun = false ∨ (s.grp g).timerLeft ≠ 0)) ∧
    (∃ (g : Nat) (s : State), s.calm = true ∧ ((s.grp g).timerRun = false ∨ (s.grp g).timerLeft ≠ 0)) ∧
    (∃ (n : Nat) (s : State), s.hears 4 = true ∧ srcReal n = true) ∧
    (∃ (n : Nat) (b : Bool) (s : State), s.hears 4 = true ∧ srcReal n = true) := by
  exact ⟨⟨295, r0, by decide +kernel⟩,
    ⟨72, r0, by decide +kernel⟩,
    ⟨0, r0, by decide +kernel⟩,
    ⟨32, r0, by decide +kernel⟩,
    ⟨67, true, r0, by decide +kernel⟩,
    ⟨32, { r0 with pages := [(0, { evtPend := 1, evtEnable := 1 })] }, by decide +kernel⟩,
    ⟨36, 295, { r0 with intc := { srcs := [(295, { enable := true, pending := true })] } }, by decide +kernel⟩,
    ⟨39, r0, by decide +kernel⟩,
    ⟨36, 295, { r0 with intc := { srcs := [(295, { inService := true })] } }, by decide +kernel⟩,
    ⟨40, 0, r0, by decide +kernel⟩,
    ⟨0, 0, r0, by decide +kernel⟩,
    ⟨0, 8, r0, by decide +kernel⟩,
    ⟨0, { r0 with intc := { grps := [(0, { timerRun := true, msgDue := true })] } }, by decide +kernel⟩,
    ⟨0, { r0 with intc := { grps := [(0, { timerRun := true, timerLeft := 5 })] } }, by decide +kernel⟩,
    ⟨39, r0, by decide +kernel⟩,
    ⟨295, { r0 with intc := { srcs := [(295, { pending := true })] } }, by decide +kernel⟩,
    ⟨295, false, r0, by decide +kernel⟩⟩

/-- States and operands that meet the further hypotheses of `InterruptSourceRows`. -/
theorem witness_InterruptSourceRows_MsixVectorRows :
    (∃ (v : Nat) (s : State), s.calm = true ∧ s.linked = true ∧ s.decodes = true ∧ v < 128) ∧
    (∃ (s : State), s.linked = true ∧ s.due = []) ∧
    (∃ (v : Nat) (s : State), s.calm = true ∧ s.linked = true ∧ s.decodes = true ∧ v < 128 ∧ s.boot.state = .ready ∧
        s.pcie.msixEnable = true ∧ s.pcie.funcMask = false ∧ s.pcie.bme = true ∧ s.pcie.pba = 1#128 <<< v) ∧
    (∃ (v : Nat) (f : MsixField) (w : Word) (s : State), s.calm = true ∧ s.linked = true ∧ s.decodes = true ∧ v < 128) ∧
    (∃ (v : Nat) (f : MsixField) (w : Word) (s : State), s.calm = true ∧ s.linked = true ∧ s.decodes = true ∧ v < 128) ∧
    (∃ (v : Nat) (f : MsixField) (w : Word) (s : State), s.calm = true ∧ s.linked = true ∧ s.decodes = true ∧ v < 128) := by
  exact ⟨⟨127, r0, by decide +kernel⟩,
    ⟨r0, by decide +kernel⟩,
    ⟨127, { r0 with pcie := { linkUp := true, mse := true, bme := true, msixEnable := true, pba := 1#128 <<< 127 } },
        by decide +kernel⟩,
    ⟨0, .addrLo, 0xFFFFFFFF, r0, by decide +kernel⟩,
    ⟨0, .addrHi, 0xFFFFFFFF, r0, by decide +kernel⟩,
    ⟨0, .data, 0xFFFFFFFF, r0, by decide +kernel⟩⟩

/-- States and operands that meet the hypotheses of `FaultUnitRows`. -/
theorem witness_FaultUnitRows :
    (∃ (h : FaultHit) (i : Nat) (l : Bool) (s : State), s.calm = true ∧ (sourceInfo h.source).isSome = true ∧ h.job =
        none ∧ s.severity h.source = 1 ∧ s.faults.chooseSlot 1 = some (i, l)) ∧
    (∃ (p : Nat) (i : Nat) (l : Bool) (s : State), s.calm = true ∧ p < 2 ∧ s.severity (194 + 8 * p) = 1 ∧
        s.faults.chooseSlot 1 = some (i, l)) ∧
    (∃ (q : Word) (s : State), s.hears 3 = true ∧ (s.faults.unacked.any fun r => r.seq == q.toNat) = true) ∧
    (∃ (q : Word) (s : State), s.hears 3 = true ∧ (s.faults.unacked.any fun r => r.seq == q.toNat) = false) ∧
    (∃ (s : State), s.hears 3 = true) ∧
    (∃ (v : Word) (s : State), s.hears 3 = true ∧ v &&& ~~~0x83FF0007 = 0 ∧ 20 ≤ fld v 25 16 ∧ fld v 25 16 ≤ 1000 ∧ fld
        v 2 0 ≤ 5) ∧
    (∃ (v : Word) (s : State), s.hears 3 = true ∧ v &&& ~~~0x83FF0007 = 0 ∧ 20 ≤ fld v 25 16 ∧ fld v 25 16 ≤ 1000 ∧ fld
        v 2 0 ≤ 5) ∧
    (∃ (v : Word) (s : State), s.hears 3 = true ∧ (fld v 25 16 < 20 ∨ 1000 < fld v 25 16 ∨ 5 < fld v 2 0)) ∧
    (∃ (v : Word) (s : State), s.hears 3 = true ∧ (fld v 25 16 < 20 ∨ 1000 < fld v 25 16 ∨ 5 < fld v 2 0)) ∧
    (∃ (v : Word) (s : State), s.hears 3 = true ∧ (fld v 25 16 < 20 ∨ 1000 < fld v 25 16 ∨ 5 < fld v 2 0)) ∧
    (∃ (s : State), s.calm = true) ∧
    (∃ (s : State), s.calm = true ∧ s.severity 3 = 4 ∧ s.faults.stop = .normal ∧ s.boot.running = false ∧ s.jobs = [] ∧
        s.qm.queues = []) := by
  exact ⟨⟨{ source := 4, inst := 3, job := none, info := 9 }, 0, false, { r0 with faults := { nextSeq := 2 ^ 32 - 1 } },
      by decide +kernel⟩,
    ⟨1, 0, false, { r0 with regs := [(regKey 3 (0x840 + 4 * 101), 1)] }, by decide +kernel⟩,
    ⟨5, { r0 with faults := { slots := [(0, rec0)] } }, by decide +kernel⟩,
    ⟨6, { r0 with faults := { slots := [(0, rec0)] } }, by decide +kernel⟩,
    ⟨{ r0 with faults := { slots := [(0, rec0)] } }, by decide +kernel⟩,
    ⟨0x80140005, r0, by decide +kernel⟩,
    ⟨0x83E80000, r0, by decide +kernel⟩,
    ⟨0x00130000, r0, by decide +kernel⟩,
    ⟨0x03E90000, r0, by decide +kernel⟩,
    ⟨0x00640006, r0, by decide +kernel⟩,
    ⟨{ r0 with faults := { pulsing := true } }, by decide +kernel⟩,
    ⟨r0, by decide +kernel⟩⟩

/-- States and operands that meet the hypotheses of `JtagRowsSetTheInstruction`. -/
theorem witness_JtagRowsSetTheInstruction :
    (∃ (s : State), s.calm = true ∧ s.jtag.held = false) ∧
    (∃ (s : State), s.calm = true ∧ s.jtag.held = false ∧ (s.fuse.secureBoot = false ∨ s.power.perstHigh = false)) ∧
    (∃ (s : State), s.calm = true ∧ s.jtag.held = false ∧ (s.fuse.secureBoot = false ∨ s.power.perstHigh = false)) ∧
    (∃ (s : State), s.calm = true ∧ s.jtag.held = false ∧ s.fuse.secureBoot = true ∧ s.power.perstHigh = true) := by
  exact ⟨⟨r0, by decide +kernel⟩,
    ⟨r0, by decide +kernel⟩,
    ⟨{ r0 with power := { powered := true }, fuse := { secureBoot := true } }, by decide +kernel⟩,
    ⟨{ r0 with fuse := { secureBoot := true } }, by decide +kernel⟩⟩

/-- States and operands that meet the further hypotheses of `JtagRowsSetTheInstruction`. -/
theorem witness_JtagRowsSetTheInstruction_SmbusRowsAnswerInEveryState :
    (∃ (s : State), s.power.powered = true) ∧
    (∃ (s : State) (i : _), s.power.powered = true ∧ i < 48) := by
  exact ⟨⟨State.reset, by decide +kernel⟩,
    ⟨{ r0 with faults := { slots := [(47, rec0)] } }, 47, by decide +kernel⟩⟩

/-- States and operands that meet the hypotheses of `PoolLifeRows`. -/
theorem witness_PoolLifeRows :
    (∃ (p : Nat) (s : State), s.hears 9 = true ∧ p < 16 ∧ (s.pool p).state = .disabled ∧ s.poolRangeOk p = true ∧
        s.poolSizeFree p = true) ∧
    (∃ (p : Nat) (s : State), s.hears 9 = true ∧ p < 16 ∧ (s.pool p).state = .disabled ∧ s.poolRangeOk p = false) ∧
    (∃ (p : Nat) (s : State), s.hears 9 = true ∧ p < 16 ∧ (s.pool p).state = .disabled ∧ s.poolRangeOk p = true ∧
        s.poolSizeFree p = false) ∧
    (∃ (p : Nat) (s : State), s.hears 9 = true ∧ p < 16 ∧ ((s.pool p).state = .enabled ∨ (s.pool p).state = .broken) ∧
        (s.pool p).owned = 0) ∧
    (∃ (p : Nat) (s : State), s.hears 9 = true ∧ p < 16 ∧ ((s.pool p).state = .enabled ∨ (s.pool p).state = .broken) ∧
        (s.pool p).owned = 0) ∧
    (∃ (p : Nat) (s : State), s.hears 9 = true ∧ p < 16 ∧ (s.pool p).state = .broken) ∧
    (∃ (p : Nat) (s : State), s.hears 9 = true ∧ p < 16 ∧ (s.pool p).state ≠ .broken) ∧
    (∃ (p : Nat) (s : State), s.calm = true ∧ p < 16 ∧ (s.pool p).state = .enabling ∧ s.writeRun (s.poolOwner p) (8 *
        s.poolCount p) = true ∧ ((List.range (s.poolCount p)).all fun i => s.headerOk (s.bufAddr p i)) = true) := by
  exact ⟨⟨15, q0, by decide +kernel⟩,
    ⟨0, q0, by decide +kernel⟩,
    ⟨15, { q0 with regs := [(regKey 9 0x850, 0x108), (regKey 9 0xA20, 0x10000), (regKey 9 0xA24, 0x80000000), (regKey 9 0xA28, 1), (regKey 9 0xA2C, 2), (regKey 9 0xA30, 0x108)], bpm := { pools := [(0, { state := .enabled })] } },
        by decide +kernel⟩,
    ⟨15, q1, by decide +kernel⟩,
    ⟨0, { q0 with bpm := { pools := [(0, { state := .broken })] } }, by decide +kernel⟩,
    ⟨15, { q0 with bpm := { pools := [(15, { state := .broken, cause := 2 })] } }, by decide +kernel⟩,
    ⟨15, q1, by decide +kernel⟩,
    ⟨15, { q0 with bpm := { pools := [(15, { state := .enabling })] } }, by decide +kernel⟩⟩

/-- States and operands that meet the hypotheses of `BufferAllocationRows`. -/
theorem witness_BufferAllocationRows :
    (∃ (v : Word) (h : Option (List Byte)) (s : State), s.hears 9 = true ∧ v &&& ~~~0x3FFFFFFF = 0 ∧ s.bpm.box.length
        < 4 ∧ v.getLsbD 29 = true ∧ (s.page 9).fence = false ∧ (s.pool (fld v 28 25)).state = .enabled ∧ (s.pool (fld
        v 28 25)).head = 0) ∧
    (∃ (v : Word) (h : Option (List Byte)) (s : State), s.hears 9 = true ∧ v &&& ~~~0x3FFFFFFF = 0 ∧ 4 ≤
        s.bpm.box.length) ∧
    (∃ (q : BitVec 8) (r : AllocResult) (l : List AllocResult) (s : State), s.hears 9 = true ∧ s.bpm.box = r :: l ∧
        r.seq = q.toNat) ∧
    (∃ (q : BitVec 8) (s : State), s.hears 9 = true ∧ (s.bpm.box.head?.map AllocResult.seq) ≠ some q.toNat) ∧
    (∃ (q : BitVec 8) (s : State), s.hears 9 = true ∧ (s.bpm.box.head?.map AllocResult.seq) ≠ some q.toNat) ∧
    (∃ (w : Word) (s : State), s.hears 9 = true ∧ s.handleOk w.toNat = true ∧ (s.owner (handlePool w.toNat)
        (handleIndex w.toNat)).owners = 3) ∧
    (∃ (w : Word) (s : State), s.hears 9 = true ∧ s.handleOk w.toNat = true ∧ (s.owner (handlePool w.toNat)
        (handleIndex w.toNat)).owners = 1 ∧ (s.pool (handlePool w.toNat)).state = .enabled ∧ s.headerOk (s.bufAddr
        (handlePool w.toNat) (handleIndex w.toNat)) = true) ∧
    (∃ (p : Nat) (w : Word) (s : State), s.calm = true ∧ s.handleOk w.toNat = true ∧ (s.owner (handlePool w.toNat)
        (handleIndex w.toNat)).owners = 3 ∧ (s.owner (handlePool w.toNat) (handleIndex w.toNat)).port = p) ∧
    (∃ (k : Nat) (a : Nat) (w : Word) (s : State), s.calm = true ∧ k < 4 ∧ s.handleOk w.toNat = false ∧ s.severity 14
        ≤ 1) ∧
    (∃ (k : Nat) (a : Nat) (w : Word) (s : State), s.calm = true ∧ k < 4 ∧ s.handleOk w.toNat = false ∧ s.severity 14
        ≤ 1) ∧
    (∃ (j : Nat) (a : Nat) (p : Nat) (b : Bool) (x : Job) (h : Option (List Byte)) (s : State), s.calm = true ∧ s.job
        j = some x ∧ x.live = true ∧ x.request = some (b, a) ∧ x.phase ≠ .parsing ∧ (s.page 9).fence = false ∧
        s.chosenPool (if b = true then .byPool a else .bySize a) = some p ∧ (s.pool p).state = .enabled ∧ (s.pool
        p).head = 0 ∧ x.tries < s.devField x.epoch 2) ∧
    (∃ (j : Nat) (a : Nat) (p : Nat) (i : Nat) (b : Bool) (x : Job) (hd : List Byte) (h : Option (List Byte)) (s :
        State), s.calm = true ∧ s.job j = some x ∧ x.live = true ∧ x.request = some (b, a) ∧ x.forStage = false ∧
        x.phase ≠ .parsing ∧ (s.page 9).fence = false ∧ s.chosenPool (if b = true then .byPool a else .bySize a) =
        some p ∧ (s.pool p).state = .enabled ∧ (s.pool p).head ≠ 0 ∧ (isDev (s.pool p).head = true ∨ s.hostReach =
        true) ∧ s.readTagged (s.pool p).head 16 h = some hd ∧ s.headerGood p (s.pool p).head hd = true ∧ i = ((s.pool
        p).head - s.poolBase p) / 2 ^ s.poolLog2 p) ∧
    (∃ (j : Nat) (a : Nat) (p : Nat) (i : Nat) (b : Bool) (x : Job) (hd : List Byte) (h : Option (List Byte)) (s :
        State), s.calm = true ∧ s.job j = some x ∧ x.live = true ∧ x.request = some (b, a) ∧ x.forStage = false ∧
        x.phase ≠ .parsing ∧ (s.page 9).fence = false ∧ s.chosenPool (if b = true then .byPool a else .bySize a) =
        some p ∧ (s.pool p).state = .enabled ∧ (s.pool p).head ≠ 0 ∧ (isDev (s.pool p).head = true ∨ s.hostReach =
        true) ∧ s.readTagged (s.pool p).head 16 h = some hd ∧ s.headerGood p (s.pool p).head hd = true ∧ i = ((s.pool
        p).head - s.poolBase p) / 2 ^ s.poolLog2 p) ∧
    (∃ (v : Word) (p : Nat) (i : Nat) (hd : List Byte) (h : Option (List Byte)) (s : State), s.hears 9 = true ∧ v &&&
        ~~~0x3FFFFFFF = 0 ∧ s.bpm.box.length < 4 ∧ (s.page 9).fence = false ∧ s.chosenPool (if v.getLsbD 29 = true
        then .byPool (fld v 28 25) else .bySize (fld v 24 0)) = some p ∧ p < 16 ∧ (s.pool p).state = .enabled ∧
        (s.pool p).head ≠ 0 ∧ (isDev (s.pool p).head = true ∨ s.hostReach = true) ∧ s.readTagged (s.pool p).head 16 h
        = some hd ∧ s.headerGood p (s.pool p).head hd = true ∧ i = ((s.pool p).head - s.poolBase p) / 2 ^ s.poolLog2 p
        ∧ i < 2 ^ 24) ∧
    (∃ (v : Word) (p : Nat) (i : Nat) (hd : List Byte) (h : Option (List Byte)) (s : State), s.hears 9 = true ∧ v &&&
        ~~~0x3FFFFFFF = 0 ∧ s.bpm.box.length < 4 ∧ (s.page 9).fence = false ∧ s.chosenPool (if v.getLsbD 29 = true
        then .byPool (fld v 28 25) else .bySize (fld v 24 0)) = some p ∧ p < 16 ∧ (s.pool p).state = .enabled ∧
        (s.pool p).head ≠ 0 ∧ (isDev (s.pool p).head = true ∨ s.hostReach = true) ∧ s.readTagged (s.pool p).head 16 h
        = some hd ∧ s.headerGood p (s.pool p).head hd = true ∧ i = ((s.pool p).head - s.poolBase p) / 2 ^ s.poolLog2 p
        ∧ i < 2 ^ 24) := by
  exact ⟨⟨0x3E000000, none, { q0 with bpm := { pools := [(15, { state := .enabled })], seq := 255 } }, by decide +kernel⟩,
    ⟨0x20000000, none,
        { q0 with bpm := { box := [{ pool := 0, outcome := 0, handle := 0, seq := 1 }, { pool := 0, outcome := 0, handle := 0, seq := 2 }, { pool := 0, outcome := 0, handle := 0, seq := 3 }, { pool := 0, outcome := 0, handle := 0, seq := 4 }] } },
        by decide +kernel⟩,
    ⟨1, { pool := 0, outcome := 0, handle := 0, seq := 1 }, [{ pool := 0, outcome := 0, handle := 0, seq := 2 }],
        { q0 with bpm := { box := [{ pool := 0, outcome := 0, handle := 0, seq := 1 }, { pool := 0, outcome := 0, handle := 0, seq := 2 }] } },
        by decide +kernel⟩,
    ⟨2,
        { q0 with bpm := { box := [{ pool := 0, outcome := 0, handle := 0, seq := 1 }, { pool := 0, outcome := 0, handle := 0, seq := 2 }, { pool := 0, outcome := 0, handle := 0, seq := 3 }, { pool := 0, outcome := 0, handle := 0, seq := 4 }] } },
        by decide +kernel⟩,
    ⟨0, q0, by decide +kernel⟩,
    ⟨0xF1000001, q2 3, by decide +kernel⟩,
    ⟨0xF1000001, q2 1, by decide +kernel⟩,
    ⟨1, 0xF1000001, q2 3, by decide +kernel⟩,
    ⟨3, 5, 0xF2000001, q2 1, by decide +kernel⟩,
    ⟨0, 0, 0xF1000002, q2 1, by decide +kernel⟩,
    ⟨32, 15, 15, true, { j0 with phase := .waiting, request := some (true, 15) }, none,
        { q0 with bpm := { pools := [(15, { state := .enabled })] }, jobs := [(32, { j0 with phase := .waiting, request := some (true, 15) })] },
        by decide +kernel⟩,
    ⟨32, 15, 15, 0, true, { j0 with phase := .waiting, request := some (true, 15) }, poolHeader 0x8000000000010000
        0x8000000000010100 15, none,
        { q1 with jobs := [(32, { j0 with phase := .waiting, request := some (true, 15) })] }, by decide +kernel⟩,
    ⟨32, 200, 15, 0, false, { j0 with phase := .waiting, request := some (false, 200) }, poolHeader 0x8000000000010000
        0x8000000000010100 15, none,
        { q1 with regs := mset poolRegs (regKey 9 0xA30) 0x108, jobs := [(32, { j0 with phase := .waiting, request := some (false, 200) })] },
        by decide +kernel⟩,
    ⟨0x3E000000, 15, 0, poolHeader 0x8000000000010000 0x8000000000010100 15, none, q1, by decide +kernel⟩,
    ⟨200, 15, 0, poolHeader 0x8000000000010000 0x8000000000010100 15, none,
        { q1 with regs := mset poolRegs (regKey 9 0xA30) 0x108 }, by decide +kernel⟩⟩

/-- States and operands that meet the hypotheses of `CalderaQueueAdministration`. -/
theorem witness_CalderaQueueAdministration :
    (∃ (q : Nat) (s : State), q < 4096 ∧ s.hears 8 = true ∧ (s.clq q).enabled = false ∧ (s.clq q).cfg.ok = true) ∧
    (∃ (q : Nat) (s : State), q < 4096 ∧ s.hears 8 = true ∧ (s.clq q).enabled = false ∧ (s.clq q).cfg.ok = false) ∧
    (∃ (q : Nat) (s : State), q < 4096 ∧ s.hears 8 = true ∧ (s.clq q).enabled = true) ∧
    (∃ (q : Nat) (s : State), q < 4096 ∧ s.hears 8 = true ∧ (s.clq q).enabled = true ∧ (s.clq q).cells = 0 ∧ (s.clq
        q).opened = none ∧ (s.clq q).flushPending = false) ∧
    (∃ (q : Nat) (s : State), q < 4096 ∧ s.hears 8 = true ∧ ((s.clq q).enabled = false ∨ (s.clq q).cells ≠ 0 ∨ (s.clq
        q).opened.isSome = true ∨ (s.clq q).flushPending = true)) ∧
    (∃ (q : Nat) (s : State), q < 4096 ∧ s.hears 8 = true ∧ ((s.clq q).enabled = false ∨ (s.clq q).cells ≠ 0 ∨ (s.clq
        q).opened.isSome = true ∨ (s.clq q).flushPending = true)) ∧
    (∃ (q : Nat) (s : State), q < 4096 ∧ s.hears 8 = true ∧ ((s.clq q).enabled = false ∨ (s.clq q).cells ≠ 0 ∨ (s.clq
        q).opened.isSome = true ∨ (s.clq q).flushPending = true)) ∧
    (∃ (q : Nat) (s : State), q < 4096 ∧ s.hears 8 = true ∧ (s.clq q).enabled = true ∧ (s.clq q).reading.isSome = true)
        ∧
    (∃ (q : Nat) (s : State), q < 4096 ∧ s.hears 8 = true ∧ (s.clq q).enabled = true ∧ (s.clq q).reading = none ∧ (∀ p ∈
        (s.clq q).complete, p.crust.typ ≠ .bufref)) ∧
    (∃ (q : Nat) (s : State), q < 4096 ∧ s.hears 8 = true ∧ (s.clq q).enabled = false) := by
  exact ⟨⟨4095, c0 { cfg := cfg0 2, dropped := 3 }, by decide +kernel⟩,
    ⟨4095, c0 {}, by decide +kernel⟩,
    ⟨4095, c0 { enabled := true }, by decide +kernel⟩,
    ⟨4095, c0 { enabled := true }, by decide +kernel⟩,
    ⟨4095, c0 {}, by decide +kernel⟩,
    ⟨0, c0 {}, by decide +kernel⟩,
    ⟨4095, c0 { enabled := true, flushPending := true }, by decide +kernel⟩,
    ⟨4095, c0 { enabled := true, reading := some ({ crust := crust0, payload := [1, 2, 3] }, 2) }, by decide +kernel⟩,
    ⟨4095, c0 { enabled := true, dropped := 2 ^ 32 - 1, complete := [{ crust := crust0, payload := [1, 2, 3] }] },
        by decide +kernel⟩,
    ⟨4095, c0 {}, by decide +kernel⟩⟩

/-- States and operands that meet the hypotheses of `CalderaPacketRows`. -/
theorem witness_CalderaPacketRows :
    (∃ (w : Producer) (q : Nat) (c : Crust) (l : List Byte) (x : Option (Nat × Nat)) (s : State), s.calm = true ∧ q <
        4096 ∧ (s.clq q).enabled = true ∧ (s.clq q).cfg.producer = producerKind w ∧ (s.clq q).opened = none ∧ (s.clq
            q).waiting = [] ∧ s.grants q = true ∧ l.length ≤ 56) ∧
    (∃ (w : Producer) (q : Nat) (c : Crust) (l : List Byte) (x : Option (Nat × Nat)) (s : State), s.calm = true ∧ q <
        4096 ∧ (s.clq q).enabled = true ∧ (s.clq q).cfg.producer = producerKind w ∧ (s.clq q).opened = none ∧ (s.clq
            q).waiting = [] ∧ s.grants q = true ∧ l.length ≤ 56) ∧
    (∃ (f : Nat) (q : Nat) (c : Crust) (l : List Byte) (x : Option (Nat × Nat)) (s : State), s.calm = true ∧ q < 4096 ∧
        (s.clq q).enabled = true ∧ (s.clq q).cfg.producer = 2 ∧ (s.clq q).opened = none ∧ (s.clq q).waiting = [] ∧
            s.grants q = false ∧ c.typ ≠ .discont) ∧
    (∃ (q : Nat) (o : OpenPkt) (s : State), s.calm = true ∧ q < 4096 ∧ (s.clq q).opened = some o ∧ (s.clq q).waiting =
        [] ∧ s.grants q = true ∧ o.closing = false ∧ o.left ≠ [] ∧ o.left.length ≤ 64 ∧ o.pkt.cells * 64 = 8 +
            o.pkt.payload.length) ∧
    (∃ (w : Producer) (q : Nat) (l : List Byte) (o : OpenPkt) (s : State), s.calm = true ∧ q < 4096 ∧ (s.clq q).opened =
        some o ∧ o.who = w ∧ o.left = [] ∧ (s.clq q).waiting = [] ∧ (s.clq q).cfg.consumer = 1 ∧ o.pkt.crust.typ = .data
            ∧ 8 + o.pkt.payload.length + l.length ≤ o.pkt.cells * 64) ∧
    (∃ (w : Producer) (q : Nat) (o : OpenPkt) (s : State), s.calm = true ∧ q < 4096 ∧ (s.clq q).opened = some o ∧ o.who
        = w ∧ (s.clq q).waiting = []) ∧
    (∃ (w : Producer) (q : Nat) (g : Nat) (o : OpenPkt) (s : State), s.calm = true ∧ q < 4096 ∧ (s.clq q).enabled = true
        ∧ (s.clq q).cfg.producer = producerKind w ∧ (s.clq q).cfg.consumer = 1 ∧ (s.clq q).opened = some o ∧ o.who = w ∧
            (s.clq q).waiting = []) ∧
    (∃ (q : Nat) (n : Nat) (p : Packet) (l : List Packet) (s : State), s.calm = true ∧ q < 4096 ∧ (s.clq q).enabled =
        true ∧ (s.clq q).reading = none ∧ (s.clq q).complete = p :: l ∧ (s.clq q).flushPending = false ∧ 0 < n) ∧
    (∃ (q : Nat) (n : Nat) (p : Packet) (l : List Packet) (s : State), s.calm = true ∧ q < 4096 ∧ (s.clq q).enabled =
        true ∧ (s.clq q).reading = none ∧ (s.clq q).complete = p :: l ∧ (s.clq q).flushPending = false ∧ 0 < n) ∧
    (∃ (q : Nat) (n : Nat) (s : State), s.calm = true ∧ q < 4096 ∧ ((s.clq q).enabled = false ∨ (s.clq q).reading = none
        ∧ (s.clq q).complete = [])) ∧
    (∃ (q : Nat) (n : Nat) (s : State), s.calm = true ∧ q < 4096 ∧ ((s.clq q).enabled = false ∨ (s.clq q).reading = none
        ∧ (s.clq q).complete = [])) := by
  exact ⟨⟨.depack 3, 4095, crust0, [1, 2], some (1, 2), c0 { enabled := true, cfg := cfg0 2 }, by decide +kernel⟩,
    ⟨.core 3, 4095, crust0, [], none, c0 { enabled := true, cfg := cfg0 1 }, by decide +kernel⟩,
    ⟨3, 4095, crust0, [1, 2], none, c0 { enabled := true, cfg := { limit := 0, producer := 2, consumer := 1 } },
        by decide +kernel⟩,
    ⟨4095, { who := .core 0, pkt := { crust := crust0, payload := List.replicate 56 1 }, left := List.replicate 64 2, waitFrom := some 4 },
        c0 { enabled := true, cfg := cfg0 1, opened := some { who := .core 0, pkt := { crust := crust0, payload := List.replicate 56 1 }, left := List.replicate 64 2, waitFrom := some 4 } },
            by decide +kernel⟩,
    ⟨.depack 3, 4095, List.replicate 54 5, { who := .depack 3, pkt := { crust := crust0, payload := [1, 2] } }, c0
        { enabled := true, cfg := cfg0 2, opened := some { who := .depack 3, pkt := { crust := crust0, payload := [1, 2] } }, complete := [{ crust := crust0, payload := [1, 2, 3] }] },
            by decide +kernel⟩,
    ⟨.depack 3, 4095, { who := .depack 3, pkt := { crust := crust0, payload := [1, 2] } }, c0
        { enabled := true, cfg := cfg0 2, opened := some { who := .depack 3, pkt := { crust := crust0, payload := [1, 2] } }, dropped := 2 ^ 32 - 1 },
            by decide +kernel⟩,
    ⟨.depack 3, 4095, 9, { who := .depack 3, pkt := { crust := crust0, payload := [1, 2] } }, c0
        { enabled := true, cfg := cfg0 2, opened := some { who := .depack 3, pkt := { crust := crust0, payload := [1, 2] } }, complete := [{ crust := crust0, payload := [1, 2, 3] }] },
            by decide +kernel⟩,
    ⟨4095, 11, { crust := crust0, payload := [1, 2, 3] }, [], c0
        { enabled := true, cfg := cfg0 2, complete := [{ crust := crust0, payload := [1, 2, 3] }] }, by decide +kernel⟩,
    ⟨4095, 10, { crust := crust0, payload := [1, 2, 3] }, [], c0
        { enabled := true, cfg := cfg0 2, complete := [{ crust := crust0, payload := [1, 2, 3] }] }, by decide +kernel⟩,
    ⟨4095, 8, c0 { enabled := true }, by decide +kernel⟩,
    ⟨4095, 8, c0 { complete := [{ crust := crust0, payload := [1, 2, 3] }] }, by decide +kernel⟩⟩

/-- States and operands that meet the further hypotheses of `CalderaPacketRows`. -/
theorem witness_CalderaPacketRows_FullWaitEndsTheFrame :
    (∃ (q : Nat) (j : Nat) (o : OpenPkt) (x : Job) (s : State), s.calm = true ∧ q < 4096 ∧ (s.clq q).opened = some o ∧
        o.who = .core j ∧ o.waitFrom.isSome = true ∧ x.clq = q ∧ s.lone j x = true ∧ (s.clq q).cfg.consumer = 1) ∧
    (∃ (q : Nat) (s : State), s.calm = true ∧ q < 4096 ∧ (s.clq q).opened = none ∧ (s.clq q).waiting = []) := by
  exact ⟨⟨4095, 32,
        { who := .core 32, pkt := { crust := crust0, payload := List.replicate 56 1 }, left := [1], waitFrom := some 4 },
        { j0 with phase := .running, opened := true, body := List.replicate 36 0 ++ [255, 15] },
        { c0 { enabled := true, cfg := cfg0 1, opened := some { who := .core 32, pkt := { crust := crust0, payload := List.replicate 56 1 }, left := [1], waitFrom := some 4 } } with jobs := [(32, { j0 with phase := .running, opened := true, body := List.replicate 36 0 ++ [255, 15] })] },
        by decide +kernel⟩,
    ⟨4095, c0 {}, by decide +kernel⟩⟩

/-- States and operands that meet the hypotheses of `DmaCommandRows`. -/
theorem witness_DmaCommandRows :
    (∃ (c : Nat) (s : State), c < 256 ∧ s.hears (chanPage c) = true ∧ s.chanHost c = true ∧ s.takes (chanPage c) =
        true ∧ ((s.chan c).state = .idle ∨ (s.chan c).state = .armed ∨ (s.chan c).state = .ended)) ∧
    (∃ (c : Nat) (s : State), c < 256 ∧ s.hears (chanPage c) = true ∧ s.chanHost c = true ∧ ((s.chan c).state =
        .running ∨ (s.chan c).state = .held)) ∧
    (∃ (c : Nat) (s : State), c < 256 ∧ s.hears (chanPage c) = true ∧ s.chanHost c = true ∧ (s.chan c).state = .held) ∧
    (∃ (c : Nat) (s : State), c < 256 ∧ s.hears (chanPage c) = true ∧ s.chanHost c = true ∧ (s.chan c).state = .ended
        ∧ (s.chan c).endSeen = true ∧ (s.chan c).error = 0) ∧
    (∃ (c : Nat) (s : State), c < 256 ∧ s.hears (chanPage c) = true ∧ s.chanHost c = true ∧ ((s.chan c).state = .idle
        ∨ (s.chan c).state = .armed)) ∧
    (∃ (c : Nat) (s : State), c < 256 ∧ s.hears (chanPage c) = true ∧ s.chanHost c = true ∧ ((s.chan c).state = .armed
        ∨ (s.chan c).state = .held)) ∧
    (∃ (c : Nat) (s : State), c < 256 ∧ s.hears (chanPage c) = true ∧ s.chanHost c = true ∧ ((s.chan c).state = .idle
        ∨ (s.chan c).state = .ended)) ∧
    (∃ (c : Nat) (s : State), c < 256 ∧ s.hears (chanPage c) = true ∧ s.chanHost c = true ∧ s.chanTrig c ≠ 0 ∧ s.takes
        (chanPage c) = true ∧ (s.chan c).state = .armed) ∧
    (∃ (c : Nat) (s : State), c < 256 ∧ s.hears (chanPage c) = true ∧ s.chanHost c = true ∧ s.chanTrig c ≠ 0 ∧ s.takes
        (chanPage c) = true ∧ (s.chan c).state = .running ∧ (s.chan c).pendTrig < 15) ∧
    (∃ (c : Nat) (s : State), c < 256 ∧ s.hears (chanPage c) = true ∧ s.chanHost c = false) ∧
    (∃ (c : Nat) (s : State), c < 256 ∧ s.hears (chanPage c) = true ∧ s.chanHost c = true ∧ s.takes (chanPage c) =
        true ∧ ((s.chan c).state = .idle ∨ (s.chan c).state = .armed ∨ (s.chan c).state = .ended) ∧ isDev (s.startAddr
        c) = true) ∧
    (∃ (c : Nat) (s : State), c < 256 ∧ s.hears (chanPage c) = true ∧ s.chanHost c = true ∧ (s.chan c).state =
        .running ∧ (s.chan c).endSeen = true ∧ (s.chan c).desc.isSome = true) := by
  exact ⟨⟨255, ch0 { state := .ended, error := 3 }, by decide +kernel⟩,
    ⟨255, ch0 { state := .held }, by decide +kernel⟩,
    ⟨255, ch0 { state := .held, curDesc := 64 }, by decide +kernel⟩,
    ⟨255, ch0 { state := .ended, endSeen := true, curDesc := 64 }, by decide +kernel⟩,
    ⟨255, ch0 { state := .armed }, by decide +kernel⟩,
    ⟨255, ch0 { state := .held }, by decide +kernel⟩,
    ⟨255, ch0 { state := .ended }, by decide +kernel⟩,
    ⟨255, { ch0 { state := .armed } with regs := [(regKey 162 (0x840 + 0x40 * 15), 0x01000000)] }, by decide +kernel⟩,
    ⟨255, { ch0 { state := .running, pendTrig := 14 } with regs := [(regKey 162 (0x840 + 0x40 * 15), 0x01000000)] },
        by decide +kernel⟩,
    ⟨191, r0, by decide +kernel⟩,
    ⟨255, { ch0 { state := .idle } with regs := [(regKey 162 (chanReg 255 0x10), 0x80000000)] }, by decide +kernel⟩,
    ⟨255, ch0
        { state := .running, endSeen := true, desc := some { addr := 0, src := 0, dst := 0, len := 64, ctrl := 0, next := 0, handle := 0xFFFFFFFF, clq := 0, tag := 0, pitch := 0, status := 0 } },
        by decide +kernel⟩⟩

/-- States and operands that meet the hypotheses of `DmaEngineRows`. -/
theorem witness_DmaEngineRows :
    (∃ (c : Nat) (a : Nat) (l : List Byte) (h : Option (List Byte)) (s : State), s.calm = true ∧ (s.chan c).state =
        .running ∧ (s.chan c).fetching = some a ∧ (s.chan c).refetch = false ∧ (s.chan c).desc = none ∧ (s.chan c).job =
            none ∧ (isDev a = true ∨ s.hostReach = true) ∧ s.readTagged a 64 h = some l ∧ a % 64 = 0 ∧ s.descFormat c
            (parseDesc a l) l = true ∧ (parseDesc a l).op ≤ 1 ∧ (parseDesc a l).holds = false ∧ (parseDesc a l).handle =
            0xFFFFFFFF) ∧
    (∃ (p : Nat) (c : Nat) (n : Nat) (d : Desc) (h : Option (List Byte)) (s : State), s.calm = true ∧ pageKind p = some
        .qdma ∧ s.chooseChan p ((List.range 16).map fun g => 192 + 16 * pageInstance p + g) = some c ∧ (s.chan c).desc =
            some d ∧ d.op = 0 ∧ (s.chan c).job = none ∧ s.nextBeat c = .write n ∧ isDev (d.dst + (s.chan c).wr) = true ∧
            s.writeTagOk (d.dst + (s.chan c).wr) n = true) ∧
    (∃ (p : Nat) (c : Nat) (n : Nat) (d : Desc) (l : List Byte) (h : Option (List Byte)) (s : State), s.calm = true ∧
        pageKind p = some .cdma ∧ s.chooseChan p ((List.range 4).map fun g => 4 * pageInstance p + g) = some c ∧ (s.chan
            c).desc = some d ∧ d.op = 0 ∧ (s.chan c).job = none ∧ s.nextBeat c = .read n ∧ s.readTagged (d.src + (s.chan
            c).rd) n h = some l) ∧
    (∃ (p : Nat) (h : Option (List Byte)) (s : State), s.calm = true ∧ pageKind p = some .qdma ∧ s.chooseChan p
        ((List.range 16).map fun g => 192 + 16 * pageInstance p + g) = none) ∧
    (∃ (c : Nat) (d : Desc) (s : State), s.calm = true ∧ c < 192 ∧ (s.chan c).state = .running ∧ (s.chan c).desc = some
        d ∧ (s.chan c).wr = (s.chan c).total ∧ d.op ≤ 1 ∧ d.isEnd = true ∧ d.half = false ∧ d.full = false ∧ (s.chan
            c).owns = false ∧ (s.chan c).appendMark = false ∧ (s.chan c).stopAsked = false) := by
  exact ⟨⟨255, 0x8000000000000040, leBytes 8 0x8000000000001000 ++ leBytes 8 0x8000000000002001 ++ leBytes 4 64 ++
      leBytes 4 0x80000000 ++ leBytes 8 0 ++ leBytes 4 0xFFFFFFFF ++ List.replicate 28 0, none,
          { ch0 { state := .running, fetching := some 0x8000000000000040 } with mem := memPutAll [] 0x40 (leBytes 8 0x8000000000001000 ++ leBytes 8 0x8000000000002001 ++ leBytes 4 64 ++ leBytes 4 0x80000000 ++ leBytes 8 0 ++ leBytes 4 0xFFFFFFFF ++ List.replicate 28 0) },
          by decide +kernel⟩,
    ⟨162, 255, 1,
        { addr := 0, src := 0x8000000000001000, dst := 0x8000000000002001, len := 64, ctrl := 0x80000000, next := 0, handle := 0xFFFFFFFF, clq := 0, tag := 0, pitch := 0, status := 0 },
            none, ch0
            { state := .running, desc := some { addr := 0, src := 0x8000000000001000, dst := 0x8000000000002001, len := 64, ctrl := 0x80000000, next := 0, handle := 0xFFFFFFFF, clq := 0, tag := 0, pitch := 0, status := 0 }, rd := 64, total := 64, buf := [9] },
            by decide +kernel⟩,
    ⟨175, 191, 64,
        { addr := 0, src := 0x8000000000001000, dst := 0x8000000000002001, len := 64, ctrl := 0x80000000, next := 0, handle := 0xFFFFFFFF, clq := 0, tag := 0, pitch := 0, status := 0 },
            List.replicate 64 0, none,
            { m0 with pages := [(175, { state := .idle })], dma := { chans := [(191, { state := .running, desc := some { addr := 0, src := 0x8000000000001000, dst := 0x8000000000002001, len := 64, ctrl := 0x80000000, next := 0, handle := 0xFFFFFFFF, clq := 0, tag := 0, pitch := 0, status := 0 }, total := 64 })] } },
            by decide +kernel⟩,
    ⟨162, none, ch0 {}, by decide +kernel⟩,
    ⟨191, { addr := 0, src := 0x8000000000001000, dst := 0x8000000000002001, len := 64, ctrl := 0x80000000, next := 0, handle := 0xFFFFFFFF, clq := 0, tag := 0, pitch := 0, status := 0 },
        { m0 with dma := { chans := [(191, { state := .running, desc := some { addr := 0, src := 0x8000000000001000, dst := 0x8000000000002001, len := 64, ctrl := 0x80000000, next := 0, handle := 0xFFFFFFFF, clq := 0, tag := 0, pitch := 0, status := 0 }, rd := 64, wr := 64, total := 64 })] } },
            by decide +kernel⟩⟩

/-- States and operands that meet the hypotheses of `DramSchedulingRows`. -/
theorem witness_DramSchedulingRows :
    (∃ (k : Nat) (s : State), s.calm = true ∧ k < 12) ∧
    (∃ (k : Nat) (s : State) (a : _) (b : _) (e : EccMet), s.calm = true ∧ k < 12 ∧ (s.page (dchPage k)).groups = 0 ∧
        s.dchUp k = true ∧ (s.dch k).sr = .active ∧ (s.modDch k fun d => { d with reqs := d.reqs ++ a }).choose k b =
        none) ∧
    (∃ (k : Nat) (s : State) (a : _) (b : _) (r : _), s.calm = true ∧ k < 12 ∧ (s.page (dchPage k)).groups = 0 ∧
        s.dchUp k = true ∧ (s.dch k).sr = .active ∧ s.inlineEcc = false ∧ (s.modDch k fun d =>
        { d with reqs := d.reqs ++ a }).choose k b = some r ∧ s.rowHit k r = true) ∧
    (∃ (k : Nat) (s : State) (p : Nat), s.calm = true ∧ k < 12 ∧ p < 16) ∧
    (∃ (k : Nat) (s : State) (b : Nat), s.calm = true ∧ k < 12 ∧ b < 64) ∧
    (∃ (k : Nat) (s : State) (b : Nat) (t : State), s.calm = true ∧ k < 12 ∧ b < 64 ∧ msorted (s.dch k).rows = true ∧
        exec (.refresh k b) s = .next t) ∧
    (∃ (k : Nat) (s : State) (a : _) (b : _) (r : _), s.calm = true ∧ k < 12 ∧ (s.page (dchPage k)).groups = 0 ∧
        s.dchUp k = true ∧ (s.dch k).sr = .active ∧ s.severity (99 + 8 * k) = 1 ∧ (s.modDch k fun d =>
        { d with reqs := d.reqs ++ a }).choose k b = some r ∧ s.rowHit k r = false) ∧
    (∃ (k : Nat) (s : State) (a : _) (b : _) (r : _), s.calm = true ∧ k < 12 ∧ (s.page (dchPage k)).groups = 0 ∧
        s.dchUp k = true ∧ (s.dch k).sr = .active ∧ s.linkEcc = true ∧ (s.modDch k fun d =>
        { d with reqs := d.reqs ++ a }).choose k b = some r ∧ s.rowHit k r = true) ∧
    (∃ (k : Nat) (s : State), s.calm = true ∧ k < 12 ∧ (s.page (dchPage k)).groups = 0) ∧
    (∃ (k : Nat) (s : State), s.calm = true ∧ k < 12 ∧ (s.page (dchPage k)).groups = 0) := by
  exact ⟨⟨11,
        { k0 { reqs := [{ port := 0, cls := 0, src := 0, write := false, addr := 64, mask := BitVec.allOnes 64, promoted := false, arrival := 0 }] } with time := { ns := 100000 } },
        by decide +kernel⟩,
    ⟨11, k0 {}, [], [], .clean, by decide +kernel⟩,
    ⟨11, { k0 { rows := [(0, 0)] } with fuse := { boardCfg := 0x2002000 } },
        [{ port := 0, cls := 0, src := 0, write := false, addr := 64, mask := BitVec.allOnes 64, promoted := false, arrival := 0 }],
        [],
        { port := 0, cls := 0, src := 0, write := false, addr := 64, mask := BitVec.allOnes 64, promoted := false, arrival := 0 },
        by decide +kernel⟩,
    ⟨11, k0 { throttled := 32768 }, 15, by decide +kernel⟩,
    ⟨11, k0 { rows := [(63, 5)] }, 63, by decide +kernel⟩,
    ⟨11, k0 { rows := [(63, 5)] }, 63, nextOf (exec (.refresh 11 63) (k0 { rows := [(63, 5)] })), by decide, by
        decide, by decide, by decide, rfl⟩,
    ⟨11, k0 {},
        [{ port := 0, cls := 0, src := 0, write := false, addr := 64, mask := BitVec.allOnes 64, promoted := false, arrival := 0 }],
        [],
        { port := 0, cls := 0, src := 0, write := false, addr := 64, mask := BitVec.allOnes 64, promoted := false, arrival := 0 },
        by decide +kernel⟩,
    ⟨11, { k0 { rows := [(0, 0)] } with fuse := { boardCfg := 0x3002000 } },
        [{ port := 0, cls := 0, src := 0, write := false, addr := 64, mask := BitVec.allOnes 64, promoted := false, arrival := 0 }],
        [],
        { port := 0, cls := 0, src := 0, write := false, addr := 64, mask := BitVec.allOnes 64, promoted := false, arrival := 0 },
        by decide +kernel⟩,
    ⟨11, k0 { tokens := [(0, 5)] }, by decide +kernel⟩,
    ⟨11, k0 { acts := [(0, [(3, 1)])], window := 3 }, by decide +kernel⟩⟩

/-- States and operands that meet the hypotheses of `DramStateRows`. -/
theorem witness_DramStateRows :
    (∃ (k : Nat) (s : State), k < 12 ∧ s.calm = true ∧ (s.dch k).sr = .active ∧ s.srReady k = true ∧ ((s.active (dchPage
        k) 0x050).getLsbD 31 = true ∨ (s.dch k).srAsked = true)) ∧
    (∃ (k : Nat) (s : State), k < 12 ∧ s.calm = true ∧ (s.dch k).sr = .entering ∧ s.srReady k = true) ∧
    (∃ (k : Nat) (s : State), k < 12 ∧ s.hears (dchPage k) = true ∧ s.dchUp k = true ∧ (s.dch k).sr = .active ∧
        s.srReady k = true) ∧
    (∃ (k : Nat) (s : State), k < 12 ∧ s.hears (dchPage k) = true ∧ s.dchUp k = false) ∧
    (∃ (k : Nat) (s : State), k < 12 ∧ s.calm = true ∧ ((s.dch k).sr = .entering ∨ (s.dch k).sr = .exiting)) ∧
    (∃ (k : Nat) (s : State), k < 12 ∧ s.calm = true ∧ (s.dch k).sr = .selfRefresh) ∧
    (∃ (k : Nat) (s : State) (u : Nat) (j : Int), k < 12 ∧ s.calm = true ∧ u < 2 ∧ (s.dch k).sr ≠ .selfRefresh) ∧
    (∃ (k : Nat) (s : State), k < 12 ∧ s.calm = true ∧ fld (s.active (dchPage k) 0x044) 7 0 ≠ 0 ∧ s.dchUp k = true) ∧
    (∃ (k : Nat) (s : State) (e : _), k < 12 ∧ s.calm = true ∧ fld (s.active (dchPage k) 0x044) 7 0 ≠ 0 ∧ s.dchUp k = true ∧
        s.inlineEcc = true ∧ (s.dch k).lastCe = some e ∧ s.time.ns < e + 1000000) ∧
    (∃ (k : Nat) (s : State) (p : Nat) (c : Nat) (m : Nat) (y : Nat) (a : Nat) (w : Nat), k < 12 ∧ s.calm = true ∧ p <
        17 ∧ c < 8 ∧ m < 6 ∧ y < 256 ∧ a < 2 ^ 38 ∧ s.severity (97 + 8 * k) = 3 ∧ ((s.page (dchPage k)).state = .idle ∨
            (s.page (dchPage k)).state = .running)) ∧
    (∃ (k : Nat) (s : State) (z : Freeze) (q : BitVec 8), k < 12 ∧ s.hears (dchPage k) = true ∧ (s.dch k).freeze = some
        z ∧ z.seq = q.toNat) ∧
    (∃ (k : Nat) (s : State) (q : BitVec 8), k < 12 ∧ s.hears (dchPage k) = true ∧ (s.dch k).freeze.map Freeze.seq ≠
        some q.toNat) ∧
    (∃ (k : Nat) (s : State) (q : BitVec 8), k < 12 ∧ s.hears (dchPage k) = true ∧ (s.dch k).freeze.map Freeze.seq ≠
        some q.toNat) ∧
    (∃ (k : Nat) (s : State), k < 12 ∧ s.hears (dchPage k) = true ∧ (s.page (dchPage k)).state = .frozen ∧ (s.dch
        k).freeze = none) ∧
    (∃ (k : Nat) (s : State), k < 12 ∧ s.hears (dchPage k) = true ∧ (s.page (dchPage k)).state ≠ .frozen) := by
  exact ⟨⟨11, k0 { srAsked := true, rows := [(1, 2)] }, by decide⟩,
    ⟨11, k0 { sr := .entering }, by decide +kernel⟩,
    ⟨11, k0 { rows := [(1, 2)] }, by decide +kernel⟩,
    ⟨11, { k0 {} with pages := [(31, { state := .frozen })] }, by decide +kernel⟩,
    ⟨11, k0 { sr := .exiting }, by decide +kernel⟩,
    ⟨11, k0 { sr := .selfRefresh }, by decide +kernel⟩,
    ⟨11, k0 {}, 1, -40, by decide +kernel⟩,
    ⟨11, k0 { scrub := 7 }, by decide +kernel⟩,
    ⟨11, k0 { scrub := 7, ce := 65535, lastCe := some 0, ops := [.read 3] }, 0, by decide +kernel⟩,
    ⟨11, k0 {}, 16, 7, 5, 255, 2 ^ 38 - 1, 3, by decide +kernel⟩,
    ⟨11, k0 { freeze := some { source := 1, port := 0, cls := 0, command := 0, syndrome := 0, line := 0, loc := 0, seq := 9 } },
        { source := 1, port := 0, cls := 0, command := 0, syndrome := 0, line := 0, loc := 0, seq := 9 }, 9,
        by decide +kernel⟩,
    ⟨11, k0 { freeze := some { source := 1, port := 0, cls := 0, command := 0, syndrome := 0, line := 0, loc := 0, seq := 9 } },
        8, by decide +kernel⟩,
    ⟨0, k0 {}, 0, by decide +kernel⟩,
    ⟨11, { k0 { sr := .selfRefresh } with pages := [(31, { state := .frozen, cause := .fault })] }, by decide +kernel⟩,
    ⟨11, k0 {}, by decide +kernel⟩⟩

/-- A state and operands that meet the further hypotheses of `DramStateRows`. -/
theorem witness_DramStateRows_RegionInitialisationZeroes :
    ∃ (q : Nat) (i : Nat) (s : State), s.calm = true :=
  ⟨3, 15, { m0 with quads := [(3, { init := [(15, 0, 512), (2, 512, 512)] })], mem := [(3 * 2 ^ 35 + 5, 1), (3 * 2 ^ 35 + 600, 1)] },
      by decide +kernel⟩

/-- States and operands that meet the hypotheses of `LenongControlRows`. -/
theorem witness_LenongControlRows :
    (∃ (n : Nat) (q : Nat) (i : Ins) (s : State), s.guarded n q i = true) ∧
    (∃ (n : Nat) (q : Nat) (i : Ins) (s : State), s.guarded n q i = true) ∧
    (∃ (n : Nat) (q : Nat) (i : Ins) (s : State), s.guarded n q i = true ∧ (s.seq n q).calls.length < 8) ∧
    (∃ (n : Nat) (q : Nat) (i : Ins) (s : State) (r : _) (l : _), s.guarded n q i = true ∧ (s.seq n q).calls = r :: l) ∧
    (∃ (n : Nat) (q : Nat) (i : Ins) (s : State) (c : _), s.guarded n q i = true ∧ c = (if jCnt i.x = true then jImm i.x
        else ((s.seq n q).sreg i.a).toNat) ∧ (s.seq n q).pc < jTarget i.x ∧ (c = 0 ∨ (s.seq n q).loops.length < 4)) ∧
    (∃ (n : Nat) (q : Nat) (i : Ins) (s : State) (c : _), s.guarded n q i = true ∧ c = (if jCnt i.x = true then jImm i.x
        else ((s.seq n q).sreg i.a).toNat) ∧ (s.seq n q).pc < jTarget i.x ∧ (c = 0 ∨ (s.seq n q).loops.length < 4)) ∧
    (∃ (n : Nat) (q : Nat) (i : Ins) (s : State) (j : _), s.guarded n q i = true ∧ (s.seq n q).job = some j ∧
        s.following n j = none) := by
  exact ⟨⟨47, 5, ins 0 0 0 0 7, l0 true [] (sq 5
      { job := some 32, s := [(1, 5), (2, 0xFFFFFFF9), (31, 0x80000000)], p := [(1, 1), (7, 0xF0)], v := [(1, ramp), (31, List.replicate 256 3)], pc := 32767 }),
          by decide +kernel⟩,
    ⟨47, 0, ins 0 0 0 0 7, l0 true [] (sq 0
        { job := some 32, pc := 7, loops := [{ start := 3, last := 7, left := 2 }, { start := 10, last := 20, left := 2 }] }),
            by decide +kernel⟩,
    ⟨47, 0, ins 0 0 0 0 7, l0 true [] (sq 0 { job := some 32, calls := [1, 2, 3, 4, 5, 6, 7], pc := 32767 }),
        by decide +kernel⟩,
    ⟨47, 0, ins 0 0 0 0 7, l0 true [] (sq 0 { job := some 32, calls := [32767] }), 32767, [], by decide +kernel⟩,
    ⟨47, 0, ins 0 0 0 0 0x00028007, l0 true [] (sq 0 { job := some 32 }), 2, by decide +kernel⟩,
    ⟨47, 0, ins 0 1 0 0 7, l0 true [] (sq 0
        { job := some 32, s := [(2, 1)], loops := [{ start := 0, last := 9, left := 1 }, { start := 0, last := 9, left := 1 }, { start := 0, last := 9, left := 1 }, { start := 0, last := 9, left := 1 }] }),
            0, by decide +kernel⟩,
    ⟨47, 0, ins 0 0 0 0 0, l0 true [] (sq 0
        { job := some 32, s := [(1, 5), (2, 0xFFFFFFF9), (31, 0x80000000)], p := [(1, 1), (7, 0xF0)], v := [(1, ramp), (31, List.replicate 256 3)], pc := 32767 }),
            32, by decide +kernel⟩⟩

/-- States and operands that meet the further hypotheses of `LenongControlRows`. -/
theorem witness_LenongControlRows_LenongGuardSkips :
    (∃ (n : Nat) (q : Nat) (i : Ins) (s : State), s.runs n q = true ∧ ((s.seq n q).guard i).getLsbD 0 = false) ∧
    (∃ (n : Nat) (q : Nat) (i : Ins) (s : State), s.runs n q = true ∧ ((s.seq n q).guard i).getLsbD 0 = false) := by
  exact ⟨⟨47, 5, { ins 1 1 1 1 7 with pg := 7 }, l0 true [] (sq 5
      { job := some 32, s := [(1, 5), (2, 0xFFFFFFF9), (31, 0x80000000)], p := [(1, 1), (7, 0xF0)], v := [(1, ramp), (31, List.replicate 256 3)], pc := 32767 }),
          by decide +kernel⟩,
    ⟨47, 0, { ins 1 1 1 1 7 with pn := true }, l0 true [] (sq 0
        { job := some 32, s := [(1, 5), (2, 0xFFFFFFF9), (31, 0x80000000)], p := [(1, 1), (7, 0xF0)], v := [(1, ramp), (31, List.replicate 256 3)], pc := 32767 }),
            by decide +kernel⟩⟩

/-- States and operands that meet the hypotheses of `LenongScalarAluRows`. -/
theorem witness_LenongScalarAluRows :
    (∃ (n : Nat) (q : Nat) (i : Ins) (s : State), s.guarded n q i = true ∧ i.c % 16 = 0) ∧
    (∃ (n : Nat) (q : Nat) (i : Ins) (s : State), s.guarded n q i = true ∧ i.c % 16 = 0) ∧
    (∃ (n : Nat) (q : Nat) (i : Ins) (s : State), s.guarded n q i = true ∧ i.c % 16 = 0) ∧
    (∃ (n : Nat) (q : Nat) (i : Ins) (s : State), s.guarded n q i = true ∧ i.c % 16 = 0) ∧
    (∃ (n : Nat) (q : Nat) (i : Ins) (s : State), s.guarded n q i = true ∧ i.c % 16 = 0) ∧
    (∃ (n : Nat) (q : Nat) (i : Ins) (s : State), s.guarded n q i = true ∧ i.c % 16 = 0) := by
  exact ⟨⟨47, 0, ins 3 1 2 0 9, l0 true [] (sq 0
      { job := some 32, s := [(1, 5), (2, 0xFFFFFFF9), (31, 0x80000000)], p := [(1, 1), (7, 0xF0)], v := [(1, ramp), (31, List.replicate 256 3)], pc := 32767 }),
          by decide +kernel⟩,
    ⟨47, 5, ins 31 2 31 16 0x80000000, l0 true [] (sq 5
        { job := some 32, s := [(1, 5), (2, 0xFFFFFFF9), (31, 0x80000000)], p := [(1, 1), (7, 0xF0)], v := [(1, ramp), (31, List.replicate 256 3)], pc := 32767 }),
            by decide +kernel⟩,
    ⟨47, 5, ins 0 31 2 0 0xFFFFFFFF, l0 true [] (sq 5
        { job := some 32, s := [(1, 5), (2, 0xFFFFFFF9), (31, 0x80000000)], p := [(1, 1), (7, 0xF0)], v := [(1, ramp), (31, List.replicate 256 3)], pc := 32767 }),
            by decide +kernel⟩,
    ⟨47, 5, ins 3 31 0 16 40, l0 true [] (sq 5
        { job := some 32, s := [(1, 5), (2, 0xFFFFFFF9), (31, 0x80000000)], p := [(1, 1), (7, 0xF0)], v := [(1, ramp), (31, List.replicate 256 3)], pc := 32767 }),
            by decide +kernel⟩,
    ⟨47, 5, ins 3 31 1 0 0, l0 true [] (sq 5
        { job := some 32, s := [(1, 5), (2, 0xFFFFFFF9), (31, 0x80000000)], p := [(1, 1), (7, 0xF0)], v := [(1, ramp), (31, List.replicate 256 3)], pc := 32767 }),
            by decide +kernel⟩,
    ⟨47, 5, ins 3 31 2 0 0, l0 true [] (sq 5
        { job := some 32, s := [(1, 5), (2, 0xFFFFFFF9), (31, 0x80000000)], p := [(1, 1), (7, 0xF0)], v := [(1, ramp), (31, List.replicate 256 3)], pc := 32767 }),
            by decide +kernel⟩⟩

/-- States and operands that meet the hypotheses of `LenongScalarOtherRows`. -/
theorem witness_LenongScalarOtherRows :
    (∃ (n : Nat) (q : Nat) (i : Ins) (s : State), s.guarded n q i = true ∧ bit i.c 3 = false) ∧
    (∃ (n : Nat) (q : Nat) (i : Ins) (s : State), s.guarded n q i = true ∧ bit i.c 3 = false) ∧
    (∃ (n : Nat) (q : Nat) (i : Ins) (s : State), s.guarded n q i = true ∧ bit i.c 3 = false) ∧
    (∃ (n : Nat) (q : Nat) (i : Ins) (s : State), s.guarded n q i = true ∧ bit i.c 3 = false) ∧
    (∃ (n : Nat) (q : Nat) (i : Ins) (s : State), s.guarded n q i = true ∧ i.c < 8) ∧
    (∃ (n : Nat) (q : Nat) (i : Ins) (s : State), s.guarded n q i = true ∧ i.c < 8) ∧
    (∃ (n : Nat) (q : Nat) (i : Ins) (s : State) (a : _), s.guarded n q i = true ∧ i.c < 7 ∧ i.c ≠ 3 ∧ s.localAddr n q i
        = some a) ∧
    (∃ (n : Nat) (q : Nat) (i : Ins) (s : State) (a : _), s.guarded n q i = true ∧ i.c < 7 ∧ i.c ≠ 3 ∧ s.localAddr n q i
        = some a) ∧
    (∃ (n : Nat) (q : Nat) (i : Ins) (s : State) (a : _), s.guarded n q i = true ∧ i.c < 7 ∧ i.c ≠ 3 ∧ s.localAddr n q i
        = some a) ∧
    (∃ (n : Nat) (q : Nat) (i : Ins) (s : State) (a : _), s.guarded n q i = true ∧ i.c < 7 ∧ i.c ≠ 3 ∧ s.localAddr n q i
        = some a) ∧
    (∃ (n : Nat) (q : Nat) (i : Ins) (s : State) (a : _), s.guarded n q i = true ∧ i.c < 7 ∧ i.c ≠ 3 ∧ s.localAddr n q i
        = some a) ∧
    (∃ (n : Nat) (q : Nat) (i : Ins) (s : State), s.guarded n q i = true ∧ ((s.seq n q).sreg i.a + i.x).toNat < 32768) ∧
    (∃ (n : Nat) (q : Nat) (i : Ins) (s : State), s.guarded n q i = true ∧ q < 5) ∧
    (∃ (n : Nat) (q : Nat) (i : Ins) (s : State), s.guarded n q i = true ∧ q < 5) := by
  exact ⟨⟨47, 0, ins 7 1 2 0 9, l0 true [] (sq 0
      { job := some 32, s := [(1, 5), (2, 0xFFFFFFF9), (31, 0x80000000)], p := [(1, 1), (7, 0xF0)], v := [(1, ramp), (31, List.replicate 256 3)], pc := 32767 }),
          by decide +kernel⟩,
    ⟨47, 0, ins 7 1 2 2 9, l0 true [] (sq 0
        { job := some 32, s := [(1, 5), (2, 0xFFFFFFF9), (31, 0x80000000)], p := [(1, 1), (7, 0xF0)], v := [(1, ramp), (31, List.replicate 256 3)], pc := 32767 }),
            by decide +kernel⟩,
    ⟨47, 0, ins 7 1 2 6 9, l0 true [] (sq 0
        { job := some 32, s := [(1, 5), (2, 0xFFFFFFF9), (31, 0x80000000)], p := [(1, 1), (7, 0xF0)], v := [(1, ramp), (31, List.replicate 256 3)], pc := 32767 }),
            by decide +kernel⟩,
    ⟨47, 0, ins 7 1 2 7 9, l0 true [] (sq 0
        { job := some 32, s := [(1, 5), (2, 0xFFFFFFF9), (31, 0x80000000)], p := [(1, 1), (7, 0xF0)], v := [(1, ramp), (31, List.replicate 256 3)], pc := 32767 }),
            by decide +kernel⟩,
    ⟨47, 0, ins 3 1 2 7 9, l0 true [] (sq 0
        { job := some 32, s := [(1, 5), (2, 0xFFFFFFF9), (31, 0x80000000)], p := [(1, 1), (7, 0xF0)], v := [(1, ramp), (31, List.replicate 256 3)], pc := 32767 }),
            by decide +kernel⟩,
    ⟨47, 0, ins 3 1 2 0 9, l0 true [] (sq 0
        { job := some 32, s := [(1, 5), (2, 0xFFFFFFF9), (31, 0x80000000)], p := [(1, 1), (7, 0xF0)], v := [(1, ramp), (31, List.replicate 256 3)], pc := 32767 }),
            by decide +kernel⟩,
    ⟨47, 0, ins 3 1 0 0 0, l0 true [] (sq 0
        { job := some 32, s := [(1, 5), (2, 0xFFFFFFF9), (31, 0x80000000)], p := [(1, 1), (7, 0xF0)], v := [(1, ramp), (31, List.replicate 256 3)], pc := 32767, mem := [(4, 0xFE), (5, 0xFF), (7, 3)] }),
            5, by decide +kernel⟩,
    ⟨47, 0, ins 3 1 0 5 0xFFFFFFFF, l0 true [] (sq 0
        { job := some 32, s := [(1, 5), (2, 0xFFFFFFF9), (31, 0x80000000)], p := [(1, 1), (7, 0xF0)], v := [(1, ramp), (31, List.replicate 256 3)], pc := 32767, mem := [(4, 0xFE), (5, 0xFF), (7, 3)] }),
            4, by decide +kernel⟩,
    ⟨47, 0, ins 3 0 0 6 4, l0 true [] (sq 0
        { job := some 32, s := [(1, 5), (2, 0xFFFFFFF9), (31, 0x80000000)], p := [(1, 1), (7, 0xF0)], v := [(1, ramp), (31, List.replicate 256 3)], pc := 32767, mem := [(4, 0xFE), (5, 0xFF), (7, 3)] }),
            4, by decide +kernel⟩,
    ⟨47, 0, ins 3 0 2 2 0xFFC, l0 true [] (sq 0
        { job := some 32, s := [(1, 5), (2, 0xFFFFFFF9), (31, 0x80000000)], p := [(1, 1), (7, 0xF0)], v := [(1, ramp), (31, List.replicate 256 3)], pc := 32767, mem := [(4, 0xFE), (5, 0xFF), (7, 3)] }),
            0xFFC, by decide +kernel⟩,
    ⟨47, 5, ins 3 1 2 0 0, l0 true [] (sq 5
        { job := some 32, s := [(1, 5), (2, 0xFFFFFFF9), (31, 0x80000000)], p := [(1, 1), (7, 0xF0)], v := [(1, ramp), (31, List.replicate 256 3)], pc := 32767, mem := [(4, 0xFE), (5, 0xFF), (7, 3)] }),
            5, by decide +kernel⟩,
    ⟨47, 5, ins 3 1 2 0 0x7FFA, l0 true [] (sq 5
        { job := some 32, s := [(1, 5), (2, 0xFFFFFFF9), (31, 0x80000000)], p := [(1, 1), (7, 0xF0)], v := [(1, ramp), (31, List.replicate 256 3)], pc := 32767 }),
            by decide +kernel⟩,
    ⟨47, 4, ins 3 1 2 0 0xFFFFFFFF, l0 true [] (sq 4
        { job := some 32, s := [(1, 5), (2, 0xFFFFFFF9), (31, 0x80000000)], p := [(1, 1), (7, 0xF0)], v := [(1, ramp), (31, List.replicate 256 3)], pc := 32767 }),
            by decide +kernel⟩,
    ⟨47, 4, ins 1 31 1 0 0xFFFFFFFF, l0 true [] (sq 4
        { job := some 32, s := [(1, 5), (2, 0xFFFFFFF9), (31, 0x80000000)], p := [(1, 1), (7, 0xF0)], v := [(1, ramp), (31, List.replicate 256 3)], pc := 32767 }),
            by decide +kernel⟩⟩

/-- States and operands that meet the hypotheses of `LenongPredicateRows`. -/
theorem witness_LenongPredicateRows :
    (∃ (n : Nat) (q : Nat) (i : Ins) (s : State), s.guarded n q i = true ∧ i.a < 8) ∧
    (∃ (n : Nat) (q : Nat) (i : Ins) (s : State), s.guarded n q i = true ∧ i.a < 8 ∧ i.d < 8 ∧ i.b < 8) ∧
    (∃ (n : Nat) (q : Nat) (i : Ins) (s : State), s.guarded n q i = true ∧ i.a < 8 ∧ i.d < 8 ∧ i.b < 8) := by
  exact ⟨⟨47, 5, ins 7 7 7 0 0, l0 true [] (sq 5
      { job := some 32, s := [(1, 5), (2, 0xFFFFFFF9), (31, 0x80000000)], p := [(1, 1), (7, 0xF0)], v := [(1, ramp), (31, List.replicate 256 3)], pc := 32767 }),
          by decide +kernel⟩,
    ⟨47, 0, ins 0 0 7 0 0, l0 true [] (sq 0
        { job := some 32, s := [(1, 5), (2, 0xFFFFFFF9), (31, 0x80000000)], p := [(1, 1), (7, 0xF0)], v := [(1, ramp), (31, List.replicate 256 3)], pc := 32767 }),
            by decide +kernel⟩,
    ⟨47, 0, ins 7 1 7 0 0, l0 true [] (sq 0
        { job := some 32, s := [(1, 5), (2, 0xFFFFFFF9), (31, 0x80000000)], p := [(1, 1), (7, 0xF0)], v := [(1, ramp), (31, List.replicate 256 3)], pc := 32767 }),
            by decide +kernel⟩⟩

/-- States and operands that meet the hypotheses of `LenongElementRows`. -/
theorem witness_LenongElementRows :
    (∃ (n : Nat) (q : Nat) (i : Ins) (s : State), s.runs n q = true ∧ q < 5 ∧ xBlk i.x = false ∧ eOk i.x
        { wrap := true, immb := true } = true) ∧
    (∃ (n : Nat) (q : Nat) (i : Ins) (s : State), s.runs n q = true ∧ q < 5 ∧ xBlk i.x = false ∧ eOk i.x
        { immb := true } = true) ∧
    (∃ (n : Nat) (q : Nat) (i : Ins) (s : State), s.runs n q = true ∧ q < 5 ∧ xBlk i.x = false ∧ eOk i.x
        { useC := true } = true) ∧
    (∃ (n : Nat) (q : Nat) (i : Ins) (s : State), s.runs n q = true ∧ q < 5 ∧ xBlk i.x = false ∧ eOk i.x
        { sh := true, wrap := true, immb := true, useC := true } = true) ∧
    (∃ (n : Nat) (q : Nat) (i : Ins) (s : State), s.runs n q = true ∧ q < 5 ∧ xBlk i.x = false ∧ eOk i.x
        { sh := true, wrap := true, immb := true, useC := true } = true) ∧
    (∃ (n : Nat) (q : Nat) (i : Ins) (s : State), s.runs n q = true ∧ q < 5 ∧ xBlk i.x = false ∧ eOk i.x
        { sh := true, imm := true, useB := false } = true) ∧
    (∃ (n : Nat) (q : Nat) (i : Ins) (s : State), s.runs n q = true ∧ q < 5 ∧ xBlk i.x = false ∧ eOk i.x
        { imm := true, useB := false } = true) ∧
    (∃ (n : Nat) (q : Nat) (i : Ins) (s : State), s.runs n q = true ∧ q < 5 ∧ xBlk i.x = true ∧ i.pg = 0 ∧ i.pn =
        false ∧ eOk i.x { wrap := true, immb := true } = true ∧ s.owned n q (eBlocks i { wrap := true, immb := true }
        true) = none) ∧
    (∃ (n : Nat) (q : Nat) (i : Ins) (s : State), s.runs n q = true ∧ q < 5 ∧ xBlk i.x = true ∧ i.pg = 0 ∧ i.pn =
        false ∧ eOk i.x { useC := true } = true ∧ s.owned n q (eBlocks i { useC := true } true) = none) ∧
    (∃ (n : Nat) (q : Nat) (i : Ins) (s : State), s.runs n q = true ∧ q < 5 ∧ xBlk i.x = true ∧ i.pg = 0 ∧ i.pn =
        false ∧ eOk i.x { imm := true, useB := false } = true ∧ s.owned n q (eBlocks i { imm := true, useB := false }
        true) = none) := by
  exact ⟨⟨47, 4, { ins 3 1 31 1 0x02240000 with pg := 7 }, l0 true [] (sq 4
        { job := some 32, s := [(1, 5), (2, 0xFFFFFFF9), (31, 0x80000000)], p := [(1, 1), (7, 0xF0)], v := [(1, ramp), (31, List.replicate 256 3)], pc := 32767 }),
        by decide +kernel⟩,
    ⟨47, 4, ins 3 1 31 1 0x01248000, l0 true [] (sq 4
        { job := some 32, s := [(1, 5), (2, 0xFFFFFFF9), (31, 0x80000000)], p := [(1, 1), (7, 0xF0)], v := [(1, ramp), (31, List.replicate 256 3)], pc := 32767 }),
        by decide +kernel⟩,
    ⟨47, 4, ins 3 1 31 31 0x00240000, l0 true [] (sq 4
        { job := some 32, s := [(1, 5), (2, 0xFFFFFFF9), (31, 0x80000000)], p := [(1, 1), (7, 0xF0)], v := [(1, ramp), (31, List.replicate 256 3)], pc := 32767 }),
        by decide +kernel⟩,
    ⟨47, 4, ins 3 1 31 31 0x16240000, l0 true [] (sq 4
        { job := some 32, s := [(1, 5), (2, 0xFFFFFFF9), (31, 0x80000000)], p := [(1, 1), (7, 0xF0)], v := [(1, ramp), (31, List.replicate 256 3)], pc := 32767 }),
        by decide +kernel⟩,
    ⟨47, 4, ins 3 1 31 31 0xBC240000, l0 true [] (sq 4
        { job := some 32, s := [(1, 5), (2, 0xFFFFFFF9), (31, 0x80000000)], p := [(1, 1), (7, 0xF0)], v := [(1, ramp), (31, List.replicate 256 3)], pc := 32767 }),
        by decide +kernel⟩,
    ⟨47, 4, ins 3 1 31 31 0x14240001, l0 true [] (sq 4
        { job := some 32, s := [(1, 5), (2, 0xFFFFFFF9), (31, 0x80000000)], p := [(1, 1), (7, 0xF0)], v := [(1, ramp), (31, List.replicate 256 3)], pc := 32767 }),
        by decide +kernel⟩,
    ⟨47, 4, ins 3 1 31 31 0x00240017, l0 true [] (sq 4
        { job := some 32, s := [(1, 5), (2, 0xFFFFFFF9), (31, 0x80000000)], p := [(1, 1), (7, 0xF0)], v := [(1, ramp), (31, List.replicate 256 3)], pc := 32767 }),
        by decide +kernel⟩,
    ⟨47, 4, ins 2 1 2 1 0x00800000, l0 true [] (sq 4
        { job := some 32, s := [(1, 5), (2, 0xFFFFFFF9), (31, 0x80000000)], p := [(1, 1), (7, 0xF0)], v := [(1, ramp), (31, List.replicate 256 3)], pc := 32767 }),
        by decide +kernel⟩,
    ⟨47, 4, ins 2 1 2 1 0x00840000, l0 true [] (sq 4
        { job := some 32, s := [(1, 5), (2, 0xFFFFFFF9), (31, 0x80000000)], p := [(1, 1), (7, 0xF0)], v := [(1, ramp), (31, List.replicate 256 3)], pc := 32767 }),
        by decide +kernel⟩,
    ⟨47, 4, ins 2 1 2 1 0x00800017, l0 true [] (sq 4
        { job := some 32, s := [(1, 5), (2, 0xFFFFFFF9), (31, 0x80000000)], p := [(1, 1), (7, 0xF0)], v := [(1, ramp), (31, List.replicate 256 3)], pc := 32767 }),
        by decide +kernel⟩⟩

/-- States and operands that meet the hypotheses of `LenongSelectRows`. -/
theorem witness_LenongSelectRows :
    (∃ (n : Nat) (q : Nat) (i : Ins) (s : State), s.runs n q = true ∧ q < 5 ∧ xBlk i.x = false ∧ eOk i.x
        { immb := true } = true ∧ i.c < 8) ∧
    (∃ (n : Nat) (q : Nat) (i : Ins) (s : State), s.runs n q = true ∧ q < 5 ∧ xBlk i.x = true ∧ eOk i.x { immb := true }
        = true ∧ i.c < 8 ∧ i.pg = 0 ∧ i.pn = false ∧ s.owned n q (eBlocks i { immb := true } true) = none) ∧
    (∃ (n : Nat) (q : Nat) (i : Ins) (s : State), s.runs n q = true ∧ q < 5 ∧ xBlk i.x = false ∧ eOk i.x
        { sh := true, immb := true } = true ∧ i.d < 8 ∧ i.d ≠ 0 ∧ xSh i.x < 32) ∧
    (∃ (n : Nat) (q : Nat) (i : Ins) (s : State), s.runs n q = true ∧ q < 5 ∧ xBlk i.x = false ∧ eOk i.x
        { sh := true, immb := true } = true ∧ i.d < 8 ∧ i.d ≠ 0 ∧ xSh i.x < 32) ∧
    (∃ (n : Nat) (q : Nat) (i : Ins) (s : State), s.runs n q = true ∧ q < 5 ∧ xBlk i.x = false ∧ eOk i.x
        { useB := false } = true) := by
  exact ⟨⟨47, 4, { ins 3 1 31 7 0x00240000 with pg := 1 }, l0 true [] (sq 4
      { job := some 32, s := [(1, 5), (2, 0xFFFFFFF9), (31, 0x80000000)], p := [(1, 1), (7, 0xF0)], v := [(1, ramp), (31, List.replicate 256 3)], pc := 32767 }),
          by decide +kernel⟩,
    ⟨47, 4, ins 2 1 2 7 0x00800000, l0 true [] (sq 4
        { job := some 32, s := [(1, 5), (2, 0xFFFFFFF9), (31, 0x80000000)], p := [(1, 1), (7, 0xF0)], v := [(1, ramp), (31, List.replicate 256 3)], pc := 32767 }),
            by decide +kernel⟩,
    ⟨47, 4, { ins 7 1 31 0 0x7C240000 with pg := 7 }, l0 true [] (sq 4
        { job := some 32, s := [(1, 5), (2, 0xFFFFFFF9), (31, 0x80000000)], p := [(1, 1), (7, 0xF0)], v := [(1, ramp), (31, List.replicate 256 3)], pc := 32767 }),
            by decide +kernel⟩,
    ⟨47, 4, { ins 7 1 31 0 0x08240000 with pn := true, pg := 7 }, l0 true [] (sq 4
        { job := some 32, s := [(1, 5), (2, 0xFFFFFFF9), (31, 0x80000000)], p := [(1, 1), (7, 0xF0)], v := [(1, ramp), (31, List.replicate 256 3)], pc := 32767 }),
            by decide +kernel⟩,
    ⟨47, 4, ins 3 1 0 0 0x00240000, l0 true [] (sq 4
        { job := some 32, s := [(1, 5), (2, 0xFFFFFFF9), (31, 0x80000000)], p := [(1, 1), (7, 0xF0)], v := [(1, ramp), (31, List.replicate 256 3)], pc := 32767 }),
            by decide +kernel⟩⟩

/-- States and operands that meet the hypotheses of `LenongBlockRows`. -/
theorem witness_LenongBlockRows :
    (∃ (n : Nat) (q : Nat) (i : Ins) (s : State) (l : List Host.Cell) (w : Nat) (h : Nat) (j : Nat) (x : Job) (m :
        Nat) (f : Surf), s.runs n q = true ∧ q < 5 ∧ i.pg = 0 ∧ i.pn = false ∧ kShape i.x = some (w, h) ∧ mPlane i.x <
        3 ∧ mOx i.x = 0 ∧ mOy i.x = 0 ∧ fld i.x 11 0 = 0 ∧ s.seqJob n q = some (j, x, m) ∧ s.surf x m ((s.seq n
        q).sreg i.c) = some f ∧ s.owned n q [i.d] = none ∧ s.blockStop j x m f l (mPlane i.x) (s.sint n q i.a) (s.sint
        n q i.b) w h = none) ∧
    (∃ (n : Nat) (q : Nat) (i : Ins) (s : State) (w : _) (h : _) (j : _) (x : _) (m : _) (k : _), s.runs n q = true ∧
        q < 5 ∧ i.pg = 0 ∧ i.pn = false ∧ kShape i.x = some (w, h) ∧ mPlane i.x < 3 ∧ i.d = 0 ∧ fld i.x 11 0 = 0 ∧
        s.seqJob n q = some (j, x, m) ∧ s.surf x m ((s.seq n q).sreg i.c) = some (.slot k true) ∧ s.owned n q [i.a] =
        none ∧ (mPlane i.x ≠ 0 → ((s.stream m).slotGeom k).chroma ≠ 0) ∧ s.surfBad x m (.slot k true) s.writeOk []
        (mPlane i.x) (s.sint n q i.a) (s.sint n q i.b) w h = none) ∧
    (∃ (n : Nat) (q : Nat) (i : Ins) (s : State), s.runs n q = true ∧ q < 5 ∧ i.pg = 0 ∧ i.pn = false ∧ getPutOk i.x =
        true ∧ s.owned n q [i.a] = none) ∧
    (∃ (n : Nat) (q : Nat) (i : Ins) (s : State), s.runs n q = true ∧ q < 5 ∧ i.pg = 0 ∧ i.pn = false ∧ getPutOk i.x =
        true ∧ s.owned n q [i.a] = none) ∧
    (∃ (n : Nat) (q : Nat) (i : Ins) (s : State), s.runs n q = true ∧ q < 5 ∧ i.pg = 0 ∧ i.pn = false ∧ getPutOk i.x =
        true ∧ s.owned n q [i.d] = none) ∧
    (∃ (n : Nat) (q : Nat) (i : Ins) (s : State) (w : _) (h : _), s.runs n q = true ∧ q < 5 ∧ i.pg = 0 ∧ i.pn = false
        ∧ kShape i.x = some (w, h) ∧ fld i.x 11 0 = 0 ∧ s.owned n q [i.d] = none) := by
  exact ⟨⟨47, 4, ins 1 0 2 1 0,
        { l0 true [] (sq 4 { job := some 32, s := [(1, 1), (2, 3)] }) with mem := memRamp 0x280000 }, [], 4, 4, 32,
        jl, 1, .slot 1 false, by decide +kernel⟩,
    ⟨47, 4, ins 0 1 1 0 0, l0 true [] (sq 4 { job := some 32, s := [(1, 0xFFFFFFFE)] }), 4, 4, 32, jl, 1, 0,
        by decide +kernel⟩,
    ⟨47, 4, ins 3 1 0 0 0x00001000, l0 true [] (sq 4
        { job := some 32, s := [(1, 5), (2, 0xFFFFFFF9), (31, 0x80000000)], p := [(1, 1), (7, 0xF0)], v := [(1, ramp), (31, List.replicate 256 3)], pc := 32767 }),
        by decide +kernel⟩,
    ⟨47, 4, ins 3 1 0 0 0x0030C000, l0 true [] (sq 4
        { job := some 32, s := [(1, 5), (2, 0xFFFFFFF9), (31, 0x80000000)], p := [(1, 1), (7, 0xF0)], v := [(1, ramp), (31, List.replicate 256 3)], pc := 32767 }),
        by decide +kernel⟩,
    ⟨47, 4, ins 1 1 0 0 0x0030C000, l0 true [] (sq 4
        { job := some 32, s := [(1, 5), (2, 0xFFFFFFF9), (31, 0x80000000)], p := [(1, 1), (7, 0xF0)], v := [(1, ramp), (31, List.replicate 256 3)], pc := 32767 }),
        by decide +kernel⟩,
    ⟨47, 4, ins 1 31 0 0 0x24000000, l0 true [] (sq 4
        { job := some 32, s := [(1, 5), (2, 0xFFFFFFF9), (31, 0x80000000)], p := [(1, 1), (7, 0xF0)], v := [(1, ramp), (31, List.replicate 256 3)], pc := 32767 }),
        8, 8, by decide +kernel⟩⟩

/-- States and operands that meet the hypotheses of `LenongScoreboardRows`. -/
theorem witness_LenongScoreboardRows :
    (∃ (n : Nat) (q : Nat) (i : Ins) (s : State) (j : Nat) (m : Nat) (x : Job) (f : _), s.guarded n q i = true ∧ q < 5
        ∧ s.seqJob n q = some (j, x, m) ∧ s.surf x m ((s.seq n q).sreg i.a) = some f ∧ s.surfWait j x m f 0 (s.sint n
        q i.b) 1 = none ∧ s.rowWordBad m f = none) ∧
    (∃ (n : Nat) (q : Nat) (i : Ins) (s : State) (j : Nat) (m : Nat) (x : Job) (f : Surf) (k : WaitKind), s.guarded n
        q i = true ∧ q < 5 ∧ s.seqJob n q = some (j, x, m) ∧ s.surf x m ((s.seq n q).sreg i.a) = some f ∧ s.surfWait j
        x m f 0 (s.sint n q i.b) 1 = some k) ∧
    (∃ (n : Nat) (q : Nat) (i : Ins) (s : State) (j : Nat) (m : Nat) (x : Job) (k : Nat), s.guarded n q i = true ∧ q <
        5 ∧ s.seqJob n q = some (j, x, m) ∧ x.slot = some k ∧ ((s.seq n q).sreg i.a).toNat ≤ ceilDiv ((s.stream
        m).slotGeom k).h 16 ∧ ((s.seq n q).sreg i.a).toNat ≤ mgetD x.posts n 0) ∧
    (∃ (n : Nat) (q : Nat) (i : Ins) (s : State) (j : Nat) (m : Nat) (x : Job) (k : _) (y : _), s.guarded n q i = true
        ∧ q < 5 ∧ s.seqJob n q = some (j, x, m) ∧ x.slot = some k ∧ mget (s.stream m).slots k = some y ∧ x.cores = [n]
        ∧ ((s.seq n q).sreg i.a).toNat < ceilDiv ((s.stream m).slotGeom k).h 16 ∧ mgetD x.posts n 0 < ((s.seq n
        q).sreg i.a).toNat ∧ y.rowsDone ≤ ((s.seq n q).sreg i.a).toNat ∧ ((s.stream m).encode = true ∨ ((s.seq n
        q).sreg i.a).toNat ≤ x.coveredRows y)) ∧
    (∃ (n : Nat) (q : Nat) (i : Ins) (s : State) (j : Nat) (m : Nat) (x : Job) (k : _) (own : _) (g : _), s.guarded n
        q i = true ∧ q < 5 ∧ s.seqJob n q = some (j, x, m) ∧ i.d ≤ 28 ∧ i.d ≠ 0 ∧ s.surf x m ((s.seq n q).sreg i.c) =
        some (.slot k own) ∧ s.surfWait j x m (.slot k own) 0 (s.sint n q i.b) 0 = none ∧ g = (s.stream m).slotGeom k
        ∧ s.readOk (g.motionAddr (clampTo (s.sint n q i.a) g.w) (clampTo (s.sint n q i.b) g.h)) = true) ∧
    (∃ (n : Nat) (q : Nat) (i : Ins) (s : State) (j : Nat) (m : Nat) (x : Job) (k : Nat) (g : _) (a : _), s.guarded n
        q i = true ∧ q < 5 ∧ s.seqJob n q = some (j, x, m) ∧ i.d ≤ 28 ∧ x.slot = some k ∧ g = (s.stream m).slotGeom k
        ∧ a = g.motionAddr (clampTo (s.sint n q i.a) g.w) (clampTo (s.sint n q i.b) g.h) ∧ s.writeOk a = true) := by
  exact ⟨⟨47, 4, ins 0 1 0 0 0, l0 true [] (sq 4 { job := some 32, s := [(1, 1)] }), 32, 1, jl, .slot 1 false,
        by decide +kernel⟩,
    ⟨47, 4, ins 0 1 1 0 0,
        { l0 true [] (sq 4 { job := some 32, s := [(1, 1)] }) with streams := [(1, { stl true with slots := [(0, { coding := true, width := 16, height := 32 }), (1, { coding := true, rowsDone := 0, width := 16, height := 32 })] })] },
        32, 1, jl, .slot 1 false, .scoreboard, by decide +kernel⟩,
    ⟨47, 4, ins 0 1 0 0 0, l0 true [] (sq 4 { job := some 32, s := [(1, 0)] }), 32, 1, jl, 0, by decide +kernel⟩,
    ⟨47, 4, ins 0 1 0 0 0, l0 true [] (sq 4 { job := some 32, s := [(1, 1)] }), 32, 1, jl, 0,
        { coding := true, width := 16, height := 32 }, by decide +kernel⟩,
    ⟨47, 4, ins 28 0 1 1 0, { l0 true [] (sq 4 { job := some 32, s := [(1, 1)] }) with mem := memRamp 0x280000 }, 32,
        1, jl, 1, false, (stl true).slotGeom 1, by decide +kernel⟩,
    ⟨47, 4, ins 28 0 2 0 0, l0 true [] (sq 4 { job := some 32, s := [(2, 0x7FFFFFFF), (28, 1), (31, 0xFFFFFFFF)] }),
        32, 1, jl, 0, (stl true).slotGeom 0, ((stl true).slotGeom 0).motionAddr 0 31, by decide +kernel⟩⟩

/-- States and operands that meet the hypotheses of `LenongTransformRows`. -/
theorem witness_LenongTransformRows :
    (∃ (n : Nat) (q : Nat) (w : Nat) (h : Nat) (i : Ins) (s : State), s.runs n q = true ∧ q < 5 ∧ i.pg = 0 ∧ i.pn =
        false ∧ kShape i.x = some (w, h) ∧ kSh i.x < 48 ∧ kMode i.x < 2 ∧ 1 ≤ kNt i.x ∧ (if kDir i.x = true then h
        else w) + kNt i.x + 1 ≤ 65 ∧ kTab i.x + 4 * ((s.seq n q).sreg i.b).toNat + 4 ≤ 32768 ∧ s.owned n q [i.d, i.a]
        = none) ∧
    (∃ (n : Nat) (q : Nat) (w : Nat) (h : Nat) (i : Ins) (s : State), s.runs n q = true ∧ q < 5 ∧ i.pg = 0 ∧ i.pn =
        false ∧ kShape i.x = some (w, h) ∧ kSh i.x < 48 ∧ kMode i.x < 2 ∧ 1 ≤ kNt i.x ∧ (if kDir i.x = true then h
        else w) + kNt i.x + 1 ≤ 65 ∧ kTab i.x + 4 * ((s.seq n q).sreg i.b).toNat + 4 ≤ 32768 ∧ s.owned n q [i.d, i.a]
        = none) ∧
    (∃ (n : Nat) (q : Nat) (w : Nat) (h : Nat) (i : Ins) (s : State) (z : _), s.runs n q = true ∧ q < 5 ∧ i.pg = 0 ∧
        i.pn = false ∧ kShape i.x = some (w, h) ∧ kSh i.x < 48 ∧ z = (if kDir i.x = true then h else w) ∧ kTab i.x + z
        / 2 * 3 ≤ 32768 ∧ s.owned n q [i.d, i.a] = none ∧ (∀ m, m < z / 2 → fld (s.tabWord n (kTab i.x + m)) 5 0 < z ∧
        fld (s.tabWord n (kTab i.x + m)) 11 6 < z ∧ (s.tabWord n (kTab i.x + m)).toNat < 4096)) ∧
    (∃ (n : Nat) (q : Nat) (w : Nat) (h : Nat) (i : Ins) (s : State) (z : _), s.runs n q = true ∧ q < 5 ∧ i.pg = 0 ∧
        i.pn = false ∧ kShape i.x = some (w, h) ∧ kSh i.x < 48 ∧ z = (if kDir i.x = true then h else w) ∧ kTab i.x + z
        / 2 * 3 ≤ 32768 ∧ s.owned n q [i.d, i.a] = none ∧ (∀ m, m < z / 2 → fld (s.tabWord n (kTab i.x + m)) 5 0 < z ∧
        fld (s.tabWord n (kTab i.x + m)) 11 6 < z ∧ (s.tabWord n (kTab i.x + m)).toNat < 4096)) ∧
    (∃ (n : Nat) (q : Nat) (w : Nat) (h : Nat) (i : Ins) (s : State) (z : _), s.runs n q = true ∧ q < 5 ∧ i.pg = 0 ∧
        i.pn = false ∧ kShape i.x = some (w, h) ∧ kSh i.x < 48 ∧ z = (if kDir i.x = true then h else w) ∧ kNt i.x % 4
        ≠ 3 ∧ kTab i.x + z * z / 2 ≤ 32768 ∧ s.owned n q [i.d, i.a] = none) ∧
    (∃ (n : Nat) (q : Nat) (w : Nat) (h : Nat) (i : Ins) (s : State) (z : _), s.runs n q = true ∧ q < 5 ∧ i.pg = 0 ∧
        i.pn = false ∧ kShape i.x = some (w, h) ∧ kSh i.x < 48 ∧ z = (if kDir i.x = true then h else w) ∧ kNt i.x % 4
        ≠ 3 ∧ kTab i.x + z * z / 2 ≤ 32768 ∧ s.owned n q [i.d, i.a] = none) ∧
    (∃ (n : Nat) (q : Nat) (w : Nat) (h : Nat) (i : Ins) (s : State), s.runs n q = true ∧ q < 5 ∧ i.pg = 0 ∧ i.pn =
        false ∧ kShape i.x = some (w, h) ∧ kSh i.x < 48 ∧ kMode i.x = 0 ∧ kDir i.x = false ∧ kNt i.x = 0 ∧ kTab i.x +
        w * h / 2 ≤ 32768 ∧ s.owned n q [i.d, i.a] = none) ∧
    (∃ (n : Nat) (q : Nat) (w : Nat) (h : Nat) (i : Ins) (s : State), s.runs n q = true ∧ q < 5 ∧ i.pg = 0 ∧ i.pn =
        false ∧ kShape i.x = some (w, h) ∧ kSh i.x < 48 ∧ kMode i.x = 0 ∧ kDir i.x = false ∧ kNt i.x = 0 ∧ kTab i.x +
        w * h / 2 ≤ 32768 ∧ s.owned n q [i.d, i.a] = none) ∧
    (∃ (n : Nat) (q : Nat) (w : Nat) (h : Nat) (i : Ins) (s : State), s.runs n q = true ∧ q < 5 ∧ i.pg = 0 ∧ i.pn =
        false ∧ kShape i.x = some (w, h) ∧ kSh i.x < 48 ∧ kMode i.x = 0 ∧ kDir i.x = false ∧ kNt i.x = 0 ∧ kTab i.x +
        w * h / 2 ≤ 32768 ∧ s.owned n q [i.d, i.a] = none) ∧
    (∃ (n : Nat) (q : Nat) (w : Nat) (h : Nat) (i : Ins) (s : State), s.runs n q = true ∧ q < 5 ∧ i.pg = 0 ∧ i.pn =
        false ∧ kShape i.x = some (w, h) ∧ kSh i.x < 48 ∧ kMode i.x = 0 ∧ kDir i.x = false ∧ kNt i.x = 0 ∧ kTab i.x +
        w * h / 2 ≤ 32768 ∧ s.owned n q [i.d, i.a] = none ∧ i.c ≠ i.d ∧ i.c ≠ i.a ∧ s.owned n q [i.d, i.a, i.c] =
        none) ∧
    (∃ (n : Nat) (q : Nat) (w : Nat) (h : Nat) (i : Ins) (s : State), s.runs n q = true ∧ q < 5 ∧ i.pg = 0 ∧ i.pn =
        false ∧ kShape i.x = some (w, h) ∧ kSh i.x < 48 ∧ kMode i.x = 0 ∧ kDir i.x = false ∧ kNt i.x = 0 ∧ kTab i.x +
        w * h / 2 ≤ 32768 ∧ s.owned n q [i.d, i.a] = none ∧ i.c ≠ i.d ∧ i.c ≠ i.a ∧ s.owned n q [i.d, i.a, i.c] =
        none) ∧
    (∃ (n : Nat) (q : Nat) (w : Nat) (h : Nat) (i : Ins) (s : State), s.runs n q = true ∧ q < 5 ∧ i.pg = 0 ∧ i.pn =
        false ∧ kShape i.x = some (w, h) ∧ kSh i.x < 48 ∧ kTab i.x + w * h / 2 ≤ 32768 ∧ s.owned n q [i.a] = none ∧
        i.d ≠ 0 ∧ (∀ k, k < w * h → bits (s.tabHalf n (kTab i.x) k) 5 0 < w ∧ bits (s.tabHalf n (kTab i.x) k) 11 6 <
        h)) ∧
    (∃ (n : Nat) (q : Nat) (w : Nat) (h : Nat) (i : Ins) (s : State), s.runs n q = true ∧ q < 5 ∧ i.pg = 0 ∧ i.pn =
        false ∧ kShape i.x = some (w, h) ∧ kSh i.x < 48 ∧ kTab i.x + w * h / 2 ≤ 32768 ∧ s.owned n q [i.a] = none ∧
        i.d ≠ 0 ∧ (∀ k, k < w * h → bits (s.tabHalf n (kTab i.x) k) 5 0 < w ∧ bits (s.tabHalf n (kTab i.x) k) 11 6 <
        h) ∧ (∀ k, k < w * h → s.belem n i.a (bits (s.tabHalf n (kTab i.x) k) 5 0) (bits (s.tabHalf n (kTab i.x) k) 11
        6) = 0)) := by
  exact ⟨⟨47, 4, 4, 4, ins 2 1 2 0 0x01C60000, l0 true []
        ({ sq 4 ({ job := some 32, s := [(2, 1), (3, 9)] }) with tab := [(0, 0x00030002), (1, 0x00FF0001), (2, 0xFFFF7FFF), (4, 0x00000000), (5, 0x00000040), (8191, 5)] }),
        by decide +kernel⟩,
    ⟨47, 4, 16, 4, ins 2 1 0 0 0x42422000, l0 true []
        ({ sq 4 ({ job := some 32, s := [(2, 1), (3, 9)] }) with tab := [(0, 0x00030002), (1, 0x00FF0001), (2, 0xFFFF7FFF), (4, 0x00000000), (5, 0x00000040), (8191, 5)] }),
        by decide +kernel⟩,
    ⟨47, 4, 4, 4, ins 2 1 0 0 0, l0 true []
        { sq 4 { job := some 32 } with tab := [(0, 0x40), (1, 0x82), (2, 0x00010002), (3, 0x00030004), (4, 0x00050006), (5, 0xFFFF8000)] },
        4, by decide +kernel⟩,
    ⟨47, 4, 4, 8, ins 2 1 0 0 0x04052000, l0 true []
        { sq 4 { job := some 32 } with tab := [(0, 0x40), (1, 0x82), (2, 0x00010002), (3, 0x00030004), (4, 0x00050006), (5, 0xFFFF8000)] },
        4, by decide +kernel⟩,
    ⟨47, 4, 4, 4, ins 2 1 0 0 0, l0 true []
        ({ sq 4 ({ job := some 32, s := [(2, 1), (3, 9)] }) with tab := [(0, 0x00030002), (1, 0x00FF0001), (2, 0xFFFF7FFF), (4, 0x00000000), (5, 0x00000040), (8191, 5)] }),
        4, by decide +kernel⟩,
    ⟨47, 4, 4, 8, ins 2 1 0 0 0x06856000, l0 true []
        ({ sq 4 ({ job := some 32, s := [(2, 1), (3, 9)] }) with tab := [(0, 0x00030002), (1, 0x00FF0001), (2, 0xFFFF7FFF), (4, 0x00000000), (5, 0x00000040), (8191, 5)] }),
        8, by decide +kernel⟩,
    ⟨47, 4, 4, 4, ins 2 1 3 3 0x00000000, l0 true []
        ({ sq 4 ({ job := some 32, s := [(2, 1), (3, 9)] }) with tab := [(0, 0x00030002), (1, 0x00FF0001), (2, 0xFFFF7FFF), (4, 0x00000000), (5, 0x00000040), (8191, 5)] }),
        by decide +kernel⟩,
    ⟨47, 4, 4, 4, ins 2 1 3 3 0x00080000, l0 true []
        ({ sq 4 ({ job := some 32, s := [(2, 1), (3, 9)] }) with tab := [(0, 0x00030002), (1, 0x00FF0001), (2, 0xFFFF7FFF), (4, 0x00000000), (5, 0x00000040), (8191, 5)] }),
        by decide +kernel⟩,
    ⟨47, 4, 8, 8, ins 2 1 3 3 0x24090000, l0 true []
        ({ sq 4 ({ job := some 32, s := [(2, 1), (3, 9)] }) with tab := [(0, 0x00030002), (1, 0x00FF0001), (2, 0xFFFF7FFF), (4, 0x00000000), (5, 0x00000040), (8191, 5)] }),
        by decide +kernel⟩,
    ⟨47, 4, 4, 4, ins 2 1 0 3 0x00080000, l0 true []
        { sq 4 { job := some 32, s := [(2, 1), (3, 9)] } with tab := [(0, 0x00030002), (1, 0x00FF0001), (2, 0xFFFF7FFF), (4, 0x00000000), (5, 0x00000040), (8191, 5)], blocks := [(1, { owner := 4, data := [(0, 5), (65, -7)] }), (2, { owner := 4 }), (3, { owner := 4 })] },
        by decide +kernel⟩,
    ⟨47, 4, 4, 4, ins 2 1 0 3 0x00060000, l0 true []
        { sq 4 { job := some 32, s := [(2, 1), (3, 9)] } with tab := [(0, 0x00030002), (1, 0x00FF0001), (2, 0xFFFF7FFF), (4, 0x00000000), (5, 0x00000040), (8191, 5)], blocks := [(1, { owner := 4, data := [(0, 5), (65, -7)] }), (2, { owner := 4 }), (3, { owner := 4 })] },
        by decide +kernel⟩,
    ⟨47, 4, 4, 4, ins 3 1 0 0 0x00080000, l0 true []
        { sq 4 { job := some 32 } with tab := [(0, 0x00000041), (3, 0x00410000)] }, by decide +kernel⟩,
    ⟨47, 4, 4, 4, ins 3 1 0 0 0, l0 true []
        { sq 4 { job := some 32 } with tab := (List.range 8).map (fun k => (k, 0x00010001)) }, by decide +kernel⟩⟩

/-- States and operands that meet the hypotheses of `LenongReductionRows`. -/
theorem witness_LenongReductionRows :
    (∃ (n : Nat) (q : Nat) (i : Ins) (s : State), s.runs n q = true ∧ q < 5 ∧ xBlk i.x = false ∧ 1 ≤ i.d ∧ i.d ≤ 30 ∧
        eOk i.x { immb := true } = true) ∧
    (∃ (n : Nat) (q : Nat) (i : Ins) (s : State), s.runs n q = true ∧ q < 5 ∧ xBlk i.x = false ∧ 1 ≤ i.d ∧ i.d ≤ 30 ∧
        eOk i.x { useB := false } = true) ∧
    (∃ (n : Nat) (q : Nat) (i : Ins) (s : State), s.runs n q = true ∧ q < 5 ∧ xBlk i.x = false ∧ 1 ≤ i.d ∧ i.d ≤ 30 ∧
        eOk i.x { imm := true } = true) ∧
    (∃ (n : Nat) (q : Nat) (i : Ins) (s : State), s.runs n q = true ∧ q < 5 ∧ xBlk i.x = false ∧ 1 ≤ i.d ∧ i.d ≤ 30 ∧
        eOk i.x { sh := true, immb := true } = true) := by
  exact ⟨⟨47, 4, ins 30 1 31 0 0x01240005, l0 true [] (sq 4
      { job := some 32, s := [(1, 5), (2, 0xFFFFFFF9), (31, 0x80000000)], p := [(1, 1), (7, 0xF0)], v := [(1, ramp), (31, List.replicate 256 3)], pc := 32767 }),
          by decide +kernel⟩,
    ⟨47, 4, ins 1 1 31 0 0x00240000, l0 true [] (sq 4
        { job := some 32, s := [(1, 5), (2, 0xFFFFFFF9), (31, 0x80000000)], p := [(1, 1), (7, 0xF0)], v := [(1, ramp), (31, List.replicate 256 3)], pc := 32767 }),
            by decide +kernel⟩,
    ⟨47, 4, ins 1 1 31 0 0x00240001, l0 true [] (sq 4
        { job := some 32, s := [(1, 5), (2, 0xFFFFFFF9), (31, 0x80000000)], p := [(1, 1), (7, 0xF0)], v := [(1, ramp), (31, List.replicate 256 3)], pc := 32767 }),
            by decide +kernel⟩,
    ⟨47, 4, ins 1 1 31 0 0xBC240000, l0 true [] (sq 4
        { job := some 32, s := [(1, 5), (2, 0xFFFFFFF9), (31, 0x80000000)], p := [(1, 1), (7, 0xF0)], v := [(1, ramp), (31, List.replicate 256 3)], pc := 32767 }),
            by decide +kernel⟩⟩

/-- A state and operands that meet the hypotheses of `MotionSearchStaysInRange`. -/
theorem witness_MotionSearchStaysInRange :
    ∃ (n : Nat) (q : Nat) (w : Nat) (h : Nat) (j : Nat) (m : Nat) (i : Ins) (l : List Host.Cell) (x : Job) (f : Surf)
        (d : Walk) (s : State), s.runs n q = true ∧ q < 5 ∧ i.pg = 0 ∧ i.pn = false ∧ kShape i.x = some (w, h) ∧
        wMetric i.x < 3 ∧ (wMetric i.x = 2 → 8 ≤ w ∧ 8 ≤ h) ∧ fld i.x 23 12 = 0 ∧ 1 ≤ i.d ∧ i.d ≤ 29 ∧ s.seqJob n q =
        some (j, x, m) ∧ s.jobEncode j = true ∧ s.surf x m ((s.seq n q).sreg i.b) = some f ∧ (∃ k o, f = .slot k o) ∧
        ((s.seq n q).walk (wDesc i.x)).toOption = some d ∧ s.owned n q [i.a] = none ∧ (∀ v : Int × Int, v.1.natAbs ≤
        d.hsr → v.2.natAbs ≤ d.vsr → s.blockStop j x m f l 0 ((d.bx : Int) + v.1) ((d.by' : Int) + v.2) w h = none) :=
  ⟨47, 4, 4, 4, 32, 1, ins 29 1 1 0 0, [], jl, .slot 1 false,
      { pred := (0, 0), lambda := 0, et := 0, hsr := 2, vsr := 0, steps := 1, points := 1, pats := [(0, 0)], once := false, bx := 0, by' := 0, mvc := List.replicate 256 0 },
      l0 true [] (sq 4
      { job := some 32, s := [(1, 1)], mem := [(12, 2), (16, 1), (18, 1), (21, 1), (22, 16), (28, 32)] }), by decide,
      by decide, by decide, by decide, by decide, by decide, by decide, by decide, by decide, by decide, by decide, by
      decide, by decide, ⟨1, false, rfl⟩, rfl, by decide, fun v h1 h2 => by
        obtain ⟨a, b⟩ := v
        have ha : a = -2 ∨ a = -1 ∨ a = 0 ∨ a = 1 ∨ a = 2 := by
          change a.natAbs ≤ 2 at h1
          omega
        have hb : b = 0 := by
          change b.natAbs ≤ 0 at h2
          omega
        subst hb
        rcases ha with h | h | h | h | h <;> subst h <;> decide +kernel⟩

/-- States and operands that meet the hypotheses of `LenongProgramFaultEndsJob`. -/
theorem witness_LenongProgramFaultEndsJob :
    (∃ (n : Nat) (q : Nat) (j : Nat) (i : Ins) (x : Job) (s : State), s.guarded n q i = true ∧ (s.seq n q).job = some j
        ∧ s.bare j x = true ∧ s.severity 64 = 2 ∧ s.faults.stop = .normal ∧ (s.page (corePage n)).state = .running ∧ (s.localAddr n q i).isNone =
            true ∧ (s.seq n q).calls = []) ∧
    (∃ (n : Nat) (q : Nat) (j : Nat) (i : Ins) (x : Job) (s : State), s.guarded n q i = true ∧ (s.seq n q).job = some j
        ∧ s.bare j x = true ∧ s.severity 64 = 2 ∧ s.faults.stop = .normal ∧ (s.page (corePage n)).state = .running ∧ (s.localAddr n q i).isNone =
            true ∧ (s.seq n q).calls = []) := by
  exact ⟨⟨47, 4, 32, ins 3 1 0 1 0, { j0 with phase := .running },
      { l0 true [] (sq 4 { job := some 32, s := [(1, 1)] }) with jobs := [(32, { j0 with phase := .running })] },
        by decide +kernel⟩,
    ⟨47, 5, 32, ins 3 1 0 1 0, { j0 with phase := .running },
        { l0 true [] (sq 5 { job := some 32, s := [(1, 1)] }) with jobs := [(32, { j0 with phase := .running })] },
        by decide +kernel⟩⟩

/-- States and operands that meet the hypotheses of `LenongChannelRows`. -/
theorem witness_LenongChannelRows :
    (∃ (n : Nat) (q : Nat) (j : Nat) (i : Ins) (s : State), s.guarded n q i = true ∧ (s.seq n q).job = some j ∧ i.c < 8)
        ∧
    (∃ (n : Nat) (q : Nat) (j : Nat) (i : Ins) (s : State), s.guarded n q i = true ∧ (s.seq n q).job = some j ∧ i.c < 8)
        ∧
    (∃ (n : Nat) (q : Nat) (j : Nat) (i : Ins) (s : State) (b : _), s.guarded n q i = true ∧ (s.seq n q).job = some j ∧
        i.c < 8 ∧ s.ends j i.c = some (q, b) ∧ i.x.getLsbD 3 = false ∧ s.chanFull n i.c = false ∧ s.undrained n i.c j =
            false) ∧
    (∃ (n : Nat) (q : Nat) (j : Nat) (i : Ins) (s : State) (b : _), s.guarded n q i = true ∧ (s.seq n q).job = some j ∧
        i.c < 8 ∧ s.ends j i.c = some (q, b) ∧ i.x.getLsbD 3 = true ∧ q < 5 ∧ b < 5 ∧ (s.blk n (fld i.x 2 0)).owner = q
            ∧ s.chanFull n i.c = false ∧ s.undrained n i.c j = false) ∧
    (∃ (n : Nat) (q : Nat) (j : Nat) (i : Ins) (s : State) (a : Nat) (k : Token) (l : List Token), s.guarded n q i =
        true ∧ (s.seq n q).job = some j ∧ i.c < 8 ∧ s.ends j i.c = some (a, q) ∧ s.undrained n i.c j = false ∧ s.chq n
            i.c = k :: l ∧ 1 ≤ i.d ∧ i.d ≤ 30) := by
  exact ⟨⟨47, 4, 32, ins 7 0 0 0 0x10, l0 true [(4, 3)] (sq 4
      { job := some 32, s := [(1, 5), (2, 0xFFFFFFF9), (31, 0x80000000)], p := [(1, 1), (7, 0xF0)], v := [(1, ramp), (31, List.replicate 256 3)], pc := 32767 }),
          by decide +kernel⟩,
    ⟨47, 5, 32, ins 7 0 0 7 0, l0 true [(4, 3)] (sq 5
        { job := some 32, s := [(1, 5), (2, 0xFFFFFFF9), (31, 0x80000000)], p := [(1, 1), (7, 0xF0)], v := [(1, ramp), (31, List.replicate 256 3)], pc := 32767 }),
            by decide +kernel⟩,
    ⟨47, 4, 32, ins 0 1 2 0 0, l0 true [(4, 3)] (sq 4
        { job := some 32, s := [(1, 5), (2, 0xFFFFFFF9), (31, 0x80000000)], p := [(1, 1), (7, 0xF0)], v := [(1, ramp), (31, List.replicate 256 3)], pc := 32767 }),
            3, by decide +kernel⟩,
    ⟨47, 4, 32, ins 0 1 2 0 9, l0 true [(4, 3)] (sq 4
        { job := some 32, s := [(1, 5), (2, 0xFFFFFFF9), (31, 0x80000000)], p := [(1, 1), (7, 0xF0)], v := [(1, ramp), (31, List.replicate 256 3)], pc := 32767 }),
            3, by decide +kernel⟩,
    ⟨47, 4, 32, ins 30 1 2 0 0, l0 true [(3, 4)]
        { sq 4 { job := some 32 } with chans := [(0, [{ val := 0xFFFFFFFF00000005, job := 32, pass := some 2 }])] }, 3,
            { val := 0xFFFFFFFF00000005, job := 32, pass := some 2 }, [], by decide +kernel⟩⟩

/-- States and operands that meet the hypotheses of `LenongPilotRows`. -/
theorem witness_LenongPilotRows :
    (∃ (n : Nat) (j : Nat) (c : Nat) (x : Job) (i : Ins) (s : State), s.guarded n 5 i = true ∧ (s.seq n 5).job = some j
        ∧ s.job j = some x ∧ c = 4 * n + i.c % 4) ∧
    (∃ (n : Nat) (j : Nat) (c : Nat) (x : Job) (i : Ins) (s : State), s.guarded n 5 i = true ∧ (s.seq n 5).job = some j
        ∧ s.job j = some x ∧ c = 4 * n + i.c % 4) ∧
    (∃ (n : Nat) (j : Nat) (c : Nat) (x : Job) (i : Ins) (s : State), s.guarded n 5 i = true ∧ (s.seq n 5).job = some j
        ∧ s.job j = some x ∧ c = 4 * n + i.c % 4 ∧ s.chanHost c = false ∧ s.chanFree c = true) ∧
    (∃ (n : Nat) (j : Nat) (c : Nat) (x : Job) (i : Ins) (s : State), s.guarded n 5 i = true ∧ (s.seq n 5).job = some j
        ∧ s.job j = some x ∧ c = 4 * n + i.c % 4 ∧ s.chanHost c = false ∧ s.chanFree c = false) ∧
    (∃ (n : Nat) (j : Nat) (c : Nat) (x : Job) (i : Ins) (s : State), s.guarded n 5 i = true ∧ (s.seq n 5).job = some j
        ∧ s.job j = some x ∧ c = 4 * n + i.c % 4 ∧ s.chanHost c = false ∧ s.chanFree c = true) ∧
    (∃ (n : Nat) (j : Nat) (c : Nat) (x : Job) (i : Ins) (s : State) (k : _) (l : _), s.guarded n 5 i = true ∧ (s.seq n
        5).job = some j ∧ s.job j = some x ∧ c = 4 * n + i.c % 4 ∧ s.severity 16 = 1 ∧ s.faults.chooseSlot 1 = some (k,
            l)) ∧
    (∃ (n : Nat) (j : Nat) (c : Nat) (x : Job) (i : Ins) (s : State) (w : _), s.guarded n 5 i = true ∧ (s.seq n 5).job =
        some j ∧ s.job j = some x ∧ c = 4 * n + i.c % 4 ∧ w < 16) ∧
    (∃ (n : Nat) (j : Nat) (c : Nat) (x : Job) (i : Ins) (s : State) (w : Nat), s.guarded n 5 i = true ∧ (s.seq n 5).job
        = some j ∧ s.job j = some x ∧ c = 4 * n + i.c % 4 ∧ 22 ≤ w) := by
  exact ⟨⟨47, 32, 191, jl, ins 3 1 2 7 84,
      { l0 true [] (sq 5 ({ job := some 32, s := [(1, 5), (2, 0xFFFFFFF9)] })) with pages := [(corePage 47, { state := .running })] },
          by decide +kernel⟩,
    ⟨47, 32, 191, jl, ins 0 1 2 3 85,
        { l0 true [] (sq 5 ({ job := some 32, s := [(1, 5), (2, 0xFFFFFFF9)] })) with pages := [(corePage 47, { state := .running })] },
            by decide +kernel⟩,
    ⟨47, 32, 191, jl, ins 3 1 2 3 0,
        { l0 true [] (sq 5 ({ job := some 32, s := [(1, 5), (2, 0xFFFFFFF9)] })) with pages := [(corePage 47, { state := .running })] },
            by decide +kernel⟩,
    ⟨47, 32, 188, jl, ins 3 1 2 0 0,
        { l0 true [] (sq 5 ({ job := some 32, s := [(1, 5), (2, 0xFFFFFFF9)] })) with pages := [(corePage 47, { state := .running })], dma := { chans := [(188, { state := .running })] } },
            by decide +kernel⟩,
    ⟨47, 32, 188, jl, ins 31 1 2 4 0,
        { l0 true [] (sq 5 ({ job := some 32, s := [(1, 5), (2, 0xFFFFFFF9)] })) with pages := [(corePage 47, { state := .running })], dma := { chans := [(188, { state := .ended, error := 7, descCount := 300, trigLost := 255 })] } },
            by decide +kernel⟩,
    ⟨47, 32, 188, jl, ins 0 2 0 0 0,
        { l0 true [] (sq 5 ({ job := some 32, s := [(1, 5), (2, 0xFFFFFFF9)] })) with pages := [(corePage 47, { state := .running })], regs := [(regKey 3 (0x840 + 4 * 8), 1)] },
            0, false, by decide +kernel⟩,
    ⟨47, 32, 188, jl, ins 0 2 0 0 0,
        { l0 true [] (sq 5 ({ job := some 32, s := [(1, 5), (2, 0xFFFFFFF9)] })) with pages := [(corePage 47, { state := .running })] },
            15, by decide +kernel⟩,
    ⟨47, 32, 188, jl, ins 0 2 0 0 0,
        { l0 true [] (sq 5 ({ job := some 32, s := [(1, 5), (2, 0xFFFFFFF9)] })) with pages := [(corePage 47, { state := .running })] },
            22, by decide +kernel⟩⟩

/-- States and operands that meet the hypotheses of `RateControlRows`. -/
theorem witness_RateControlRows :
    (∃ (n : Nat) (j : Nat) (k : Nat) (i : Ins) (s : State) (w : _), s.guarded n 5 i = true ∧ (s.seq n 5).job = some j
        ∧ s.ownSet n j = some k ∧ i.c % 2 = 0 ∧ fld i.x 7 0 ≠ 0x10 ∧ (s.rcSet n k).read (fld i.x 7 0) = some w) ∧
    (∃ (n : Nat) (j : Nat) (k : Nat) (i : Ins) (s : State) (w : _), s.guarded n 5 i = true ∧ (s.seq n 5).job = some j
        ∧ s.ownSet n j = some k ∧ i.c % 2 = 0 ∧ fld i.x 7 0 ≠ 0x10 ∧ (s.rcSet n k).read (fld i.x 7 0) = some w) ∧
    (∃ (n : Nat) (j : Nat) (k : Nat) (i : Ins) (s : State) (h : Option Byte × Option Byte), s.guarded n 5 i = true ∧
        (s.seq n 5).job = some j ∧ s.ownSet n j = some k ∧ i.c % 2 = 0 ∧ fld i.x 7 0 = 0x10 ∧ i.d ≠ 0 ∧ (s.rcSet n
        k).grants < (s.rcSet n k).at 4 ∧ (s.rcSet n k).grants + 1 ≤ (s.rcSet n k).latched.length + (s.rcSet n k).at 8
        ∧ (∀ e ∈ [0x0C, 0x0D, 0x0E, 0x0F], (s.rcSet n k).at e = 0)) ∧
    (∃ (n : Nat) (j : Nat) (k : Nat) (i : Ins) (s : State) (h : Option Byte × Option Byte), s.guarded n 5 i = true ∧
        (s.seq n 5).job = some j ∧ s.ownSet n j = some k ∧ i.c % 2 = 0 ∧ fld i.x 7 0 = 0x10 ∧ i.d ≠ 0 ∧ (s.rcSet n
        k).grants < (s.rcSet n k).at 4 ∧ (s.rcSet n k).grants + 1 ≤ (s.rcSet n k).latched.length + (s.rcSet n k).at 8
        ∧ (∀ e ∈ [0x0C, 0x0D, 0x0E, 0x0F], (s.rcSet n k).at e = 0)) ∧
    (∃ (n : Nat) (j : Nat) (k : Nat) (i : Ins) (s : State), s.guarded n 5 i = true ∧ (s.seq n 5).job = some j ∧
        s.ownSet n j = some k ∧ i.c % 2 = 0 ∧ (fld i.x 7 0 ≤ 0x0F ∨ fld i.x 7 0 = 0x16 ∨ fld i.x 7 0 = 0x18)) ∧
    (∃ (n : Nat) (j : Nat) (k : Nat) (i : Ins) (s : State), s.guarded n 5 i = true ∧ (s.seq n 5).job = some j ∧
        s.ownSet n j = some k ∧ i.c % 2 = 0 ∧ (fld i.x 7 0 ≤ 0x0F ∨ fld i.x 7 0 = 0x16 ∨ fld i.x 7 0 = 0x18)) ∧
    (∃ (n : Nat) (j : Nat) (k : Nat) (i : Ins) (s : State), s.guarded n 5 i = true ∧ (s.seq n 5).job = some j ∧
        s.ownSet n j = some k ∧ i.c % 2 = 0 ∧ (fld i.x 7 0 ≤ 0x0F ∨ fld i.x 7 0 = 0x16 ∨ fld i.x 7 0 = 0x18)) ∧
    (∃ (n : Nat) (j : Nat) (k : Nat) (i : Ins) (s : State), s.guarded n 5 i = true ∧ (s.seq n 5).job = some j ∧
        s.ownSet n j = some k ∧ i.c % 2 = 0 ∧ (fld i.x 7 0 ≤ 0x0F ∨ fld i.x 7 0 = 0x16 ∨ fld i.x 7 0 = 0x18)) ∧
    (∃ (n : Nat) (j : Nat) (k : Nat) (i : Ins) (s : State) (z : _), s.guarded n 5 i = true ∧ (s.seq n 5).job = some j
        ∧ s.ownSet n j = some k ∧ i.c % 2 = 0 ∧ fld i.x 7 0 = 0x17 ∧ s.closeAhead j = false ∧ z = (s.rcSet n k).at 2 +
        s.frameCount n j k) := by
  exact ⟨⟨47, 32, 1, ins 3 1 0 2 0x0F, l0 true []
        { sq 5 ({ job := some 32, s := [(1, 5), (2, 0xFFFFFFF9)] }) with rc := [(1, { job := some 32, regs := [(15, 9)] })] },
        9, by decide +kernel⟩,
    ⟨47, 32, 1, ins 3 1 0 0 0x14, l0 true []
        { sq 5 ({ job := some 32, s := [(1, 5), (2, 0xFFFFFFF9)] }) with rc := [(1, { job := some 32, regs := [(15, 9)] })] },
        0xFFFFFFFF, by decide +kernel⟩,
    ⟨47, 32, 1, ins 31 1 0 0 0x10, l0 true []
        { sq 5 ({ job := some 32, s := [(1, 5), (2, 0xFFFFFFF9)] }) with rc := [(1, { job := some 32, regs := [(0, 0xFFFFFFFF), (4, 5), (8, 1), (9, 30), (10, 0x2814)], grants := 4, latched := [1, 2, 3, 4] })] },
        (none, none), by decide +kernel⟩,
    ⟨47, 32, 1, ins 31 1 0 0 0x10, l0 true []
        { sq 5 ({ job := some 32, s := [(1, 5), (2, 0xFFFFFFF9)] }) with rc := [(1, { job := some 32, regs := [(0, 3), (4, 5), (8, 1), (9, 30), (10, 0x2814)] })] },
        (none, none), by decide +kernel⟩,
    ⟨47, 32, 1, ins 0 2 0 0 0x0F, l0 true []
        { sq 5 ({ job := some 32, s := [(1, 5), (2, 0xFFFFFFF9)] }) with rc := [(1, { job := some 32, regs := [(3, 9), (15, 8)] })] },
        by decide +kernel⟩,
    ⟨47, 32, 1, ins 0 2 0 0 0x16, l0 true []
        { sq 5 ({ job := some 32, s := [(1, 5), (2, 0xFFFFFFF9)] }) with rc := [(1, { job := some 32, regs := [(3, 9), (15, 8)] })] },
        by decide +kernel⟩,
    ⟨47, 32, 1, ins 0 2 0 0 0x18, l0 true []
        { sq 5 ({ job := some 32, s := [(1, 5), (2, 0xFFFFFFF9)] }) with rc := [(1, { job := some 32, regs := [(3, 9), (15, 8)] })] },
        by decide +kernel⟩,
    ⟨47, 32, 1, ins 0 2 0 0 0, l0 true []
        { sq 5 ({ job := some 32, s := [(1, 5), (2, 0xFFFFFFF9)] }) with rc := [(1, { job := some 32, regs := [(3, 9), (15, 8)] })] },
        by decide +kernel⟩,
    ⟨47, 32, 1, ins 0 2 0 0 0x17, l0 true []
        { sq 5 ({ job := some 32, s := [(1, 5), (2, 0xFFFFFFF9)] }) with rc := [(1, { job := some 32, regs := [(0, 100), (1, 50), (2, 7), (0x16, 0x7FFFFFFF)], latched := [1, 200] })] },
        207, by decide +kernel⟩⟩

/-- States and operands that meet the hypotheses of `BectlSetupRows`. -/
theorem witness_BectlSetupRows :
    (∃ (n : Nat) (j : Nat) (x : Job) (i : Ins) (s : State), s.bectlReady n i j x = true) ∧
    (∃ (n : Nat) (j : Nat) (x : Job) (i : Ins) (s : State), s.bectlReady n i j x = true ∧ barg i % 256 = 0 ∧ s.bopA n i
        < 32768) ∧
    (∃ (n : Nat) (j : Nat) (x : Job) (i : Ins) (s : State), s.bectlReady n i j x = true ∧ barg i % 256 = 3 ∧ 1 ≤ s.bopA
        n i ∧ s.bopA n i < 2 ^ 24) ∧
    (∃ (n : Nat) (j : Nat) (x : Job) (i : Ins) (s : State) (c : Nat) (f : Nat), s.bectlReady n i j x = true ∧ c = bits
        (s.bopA n i) 29 16 ∧ f = bits (s.bopA n i) 12 0 ∧ barg i % 4 < 2 ∧ 1 ≤ c ∧ f + c ≤ 8192 ∧ bits (s.bopB n i) 30
            16 + c ≤ 32768) ∧
    (∃ (n : Nat) (j : Nat) (x : Job) (i : Ins) (s : State) (c : Nat) (f : Nat), s.bectlReady n i j x = true ∧ c = bits
        (s.bopA n i) 27 16 ∧ f = bits (s.bopA n i) 10 0 ∧ bits (s.bopA n i) 31 28 = 0 ∧ bits (s.bopA n i) 15 11 = 0 ∧ 1
            ≤ c ∧ f + c ≤ 2048 ∧ bits (s.bopB n i) 14 0 + 8 * c ≤ 32768) ∧
    (∃ (n : Nat) (j : Nat) (x : Job) (i : Ins) (s : State) (m : Nat) (k : Nat) (c : Nat) (f : Nat) (a : Nat),
        s.bectlReady n i j x = true ∧ x.stream = some m ∧ k = bits (barg i) 20 16 ∧ bit (barg i) 23 = true ∧ k <
            (s.stream m).poolSlots ∧ (x.slot = some k ∨ (mgetD (s.stream m).slots k {}).entropyReady = true) ∧ s.bopB n
            i % 4 = 0 ∧ a = ((s.stream m).slotGeom k).sideAddr + s.bopB n i ∧ c = bits (s.bopA n i) 29 16 ∧ f = bits
            (s.bopA n i) 12 0 ∧ 1 ≤ c ∧ f + c ≤ 8192 ∧ s.bopB n i + 4 * c ≤ 65536) ∧
    (∃ (n : Nat) (j : Nat) (x : Job) (i : Ins) (s : State) (m : Nat) (k : Nat) (c : Nat) (f : Nat) (a : Nat),
        s.bectlReady n i j x = true ∧ x.stream = some m ∧ k = bits (barg i) 20 16 ∧ bit (barg i) 23 = true ∧ k <
            (s.stream m).poolSlots ∧ (x.slot = some k ∨ (mgetD (s.stream m).slots k {}).entropyReady = true) ∧ s.bopB n
            i % 4 = 0 ∧ a = ((s.stream m).slotGeom k).sideAddr + s.bopB n i ∧ c = bits (s.bopA n i) 27 16 ∧ f = bits
            (s.bopA n i) 10 0 ∧ 1 ≤ c ∧ f + c ≤ 2048 ∧ s.bopB n i + 32 * c ≤ 65536) ∧
    (∃ (n : Nat) (j : Nat) (x : Job) (i : Ins) (s : State) (h : Option (List Byte)), s.bectlReady n i j x = true ∧
        (s.unit n).bin.encode = false ∧ x.device = true ∧ s.bopA n i ≤ s.bopB n i ∧ s.bopB n i ≤ x.input.length) := by
  exact ⟨⟨47, 32, jl, ins 0 1 2 0 3,
      { l0 true [] { sq 5 { job := some 32, s := [(1, 5), (2, 9)] } with bin := { job := some 32 } } with jobs := [(32, jl)] },
          by decide +kernel⟩,
    ⟨47, 32, jl, ins 0 1 0 0 0,
        { l0 true [] { sq 5 { job := some 32, s := [(1, 32767)] } with bin := { job := some 32 } } with jobs := [(32, jl)] },
            by decide +kernel⟩,
    ⟨47, 32, jl, ins 0 1 0 0 3,
        { l0 true [] { sq 5 { job := some 32, s := [(1, 0xFFFFFF)] } with bin := { job := some 32 } } with jobs := [(32, jl)] },
            by decide +kernel⟩,
    ⟨47, 32, jl, ins 0 1 2 0 1,
        { l0 true [] { sq 5 { job := some 32, s := [(1, 0x00021FFE), (2, 0x00070020)] } with tab := [(7, 0x00FF1234), (8, 0x13579BDF)], bin := { job := some 32 } } with jobs := [(32, jl)] },
            2, 8190, by decide +kernel⟩,
    ⟨47, 32, jl, ins 0 1 2 0 1,
        { l0 true [] { sq 5 { job := some 32, s := [(1, 0x000107FF), (2, 7)] } with tab := [(7, 0x00FF1234), (8, 0x13579BDF)], bin := { job := some 32 } } with jobs := [(32, jl)] },
            1, 2047, by decide +kernel⟩,
    ⟨47, 32, jl, ins 0 1 2 0 0x810000,
        { l0 true [] { sq 5 { job := some 32, s := [(1, 0x00021FFE), (2, 8)] } with bin := { job := some 32 } } with mem := memRamp (((stl true).slotGeom 1).sideAddr + 8), jobs := [(32, jl)] },
            1, 1, 2, 8190, ((stl true).slotGeom 1).sideAddr + 8, by decide +kernel⟩,
    ⟨47, 32, jl, ins 0 1 2 0 0x810000,
        { l0 true [] { sq 5 { job := some 32, s := [(1, 0x000107FF), (2, 8)] } with bin := { job := some 32 } } with mem := memRamp (((stl true).slotGeom 1).sideAddr + 8), jobs := [(32, jl)] },
            1, 1, 1, 2047, ((stl true).slotGeom 1).sideAddr + 8, by decide +kernel⟩,
    ⟨47, 32, { jl with device := true, input := [1, 2, 3] }, ins 0 1 2 0 0,
        { l0 false [] { sq 5 { job := some 32, s := [(1, 1), (2, 3)] } with bin := { job := some 32, encode := false } } with jobs := [(32, { jl with device := true, input := [1, 2, 3] })] },
            none, by decide +kernel⟩⟩

/-- States and operands that meet the hypotheses of `BectlRunRows`. -/
theorem witness_BectlRunRows :
    (∃ (n : Nat) (j : Nat) (x : Job) (i : Ins) (s : State), s.bectlReady n i j x = true) ∧
    (∃ (n : Nat) (j : Nat) (x : Job) (i : Ins) (s : State), s.bectlReady n i j x = true) ∧
    (∃ (n : Nat) (j : Nat) (x : Job) (i : Ins) (s : State), s.bectlReady n i j x = true ∧ s.bopA n i < 32768) ∧
    (∃ (n : Nat) (j : Nat) (x : Job) (i : Ins) (s : State), s.bectlReady n i j x = true ∧ bit (barg i) 0 = false) ∧
    (∃ (n : Nat) (j : Nat) (x : Job) (i : Ins) (s : State), s.bectlReady n i j x = true ∧ bit (barg i) 0 = false) ∧
    (∃ (n : Nat) (j : Nat) (x : Job) (i : Ins) (s : State), s.bectlReady n i j x = true ∧ x.outMode < 2) ∧
    (∃ (n : Nat) (j : Nat) (x : Job) (i : Ins) (s : State) (l : _), s.bectlReady n i j x = true ∧ l = (s.unit
        n).bin.writer.bytes ∧ l ≠ [] ∧ (s.unit n).bin.seg = none ∧ (s.unit n).bin.writer.bits = [] ∧ (s.unit
            n).bin.writer.staging = false ∧ x.outMode = 0 ∧ isDev (x.at 24 8) = true ∧ x.stream = none ∧ x.outBytes +
            l.length ≤ x.at 32 4 ∧ s.writeTagOk (x.at 24 8 + x.outBytes) l.length = true ∧ s.packetHeld j x = false ∧
            s.following n j = none) := by
  exact ⟨⟨47, 32, jl, ins 3 1 2 0 1,
      { l0 true [] { sq 5 { job := some 32, s := [(1, 5), (2, 9)] } with bin := { job := some 32, status := 77 } } with jobs := [(32, jl)] },
          by decide +kernel⟩,
    ⟨47, 32, jl, ins 0 1 2 0 0,
        { l0 true [] { sq 5 { job := some 32, s := [(1, 5), (2, 9)] } with bin := { job := some 32 } } with jobs := [(32, jl)] },
            by decide +kernel⟩,
    ⟨47, 32, jl, ins 0 1 2 0 0,
        { l0 true [] { sq 5 { job := some 32, s := [(1, 32767), (2, 9)] } with bin := { job := some 32 } } with jobs := [(32, jl)] },
            by decide +kernel⟩,
    ⟨47, 32, jl, ins 3 1 2 0 0,
        { l0 false [] { sq 5 { job := some 32, s := [(1, 5), (2, 9)] } with bin := { job := some 32, encode := false, reader := { input := [9, 0, 0, 1, 5], start := 4, stop := 9 } } } with jobs := [(32, jl)] },
            by decide +kernel⟩,
    ⟨47, 32, jl, ins 3 1 2 0 0,
        { l0 false [] { sq 5 { job := some 32, s := [(1, 5), (2, 9)] } with bin := { job := some 32, encode := false, reader := { input := [9, 0, 0, 2, 5], start := 4, stop := 9 } } } with jobs := [(32, jl)] },
            by decide +kernel⟩,
    ⟨47, 32, jl, ins 0 1 2 0 0,
        { l0 true [] { sq 5 { job := some 32, s := [(1, 5), (2, 9)] } with bin := { job := some 32 } } with jobs := [(32, jl)] },
            by decide +kernel⟩,
    ⟨47, 32, { j0 with phase := .running, cores := [47], body := List.replicate 24 0 ++ leBytes 8 0x8000000000001000 ++ leBytes 4 3 },
        ins 0 0 0 0 0,
            { l0 true [] { sq 5 { job := some 32, s := [(1, 1)] } with bin := { job := some 32, writer := { bytes := [1, 2, 3], total := 3 } } } with jobs := [(32, { j0 with phase := .running, cores := [47], body := List.replicate 24 0 ++ leBytes 8 0x8000000000001000 ++ leBytes 4 3 })] },
            [1, 2, 3], by decide +kernel⟩⟩

/-- States and operands that meet the further hypotheses of `BectlRunRows`. -/
theorem witness_BectlRunRows_BectlWaitsForTheProgram :
    (∃ (n : Nat) (j : Nat) (x : Job) (i : Ins) (s : State), s.guarded n 5 i = true ∧ (s.seq n 5).job = some j ∧ (s.unit
        n).bin.job = some j ∧ s.job j = some x ∧ (s.unit n).bin.running = true) ∧
    (∃ (n : Nat) (j : Nat) (x : Job) (i : Ins) (s : State) (h : Option (List Byte)), s.guarded n 5 i = true ∧ (s.seq n
        5).job = some j ∧ (s.unit n).bin.job = some j ∧ s.job j = some x ∧ (s.unit n).bin.running = true) := by
  exact ⟨⟨47, 32, jl, ins 3 1 2 0 0,
      { l0 true [] { sq 5 { job := some 32, s := [(1, 5), (2, 9)] } with bin := { job := some 32, running := true } } with jobs := [(32, jl)] },
          by decide +kernel⟩,
    ⟨47, 32, jl, ins 0 1 2 0 0,
        { l0 true [] { sq 5 { job := some 32, s := [(1, 5), (2, 9)] } with bin := { job := some 32, running := true } } with jobs := [(32, jl)] },
            none, by decide +kernel⟩⟩

/-- States and operands that meet the hypotheses of `SyntaxRegisterWords`. -/
theorem witness_SyntaxRegisterWords :
    (∃ (n : Nat) (w : SynWord) (s : State), s.wordRuns n = true) ∧
    (∃ (n : Nat) (w : SynWord) (s : State), s.wordRuns n = true) ∧
    (∃ (n : Nat) (w : SynWord) (s : State), s.wordRuns n = true) ∧
    (∃ (n : Nat) (w : SynWord) (s : State), s.wordRuns n = true) ∧
    (∃ (n : Nat) (w : SynWord) (s : State), s.wordRuns n = true) ∧
    (∃ (n : Nat) (w : SynWord) (s : State), s.wordRuns n = true ∧ fields w false true true true = true ∧ 1 ≤ w.imm ∧
        ((s.unit n).bin.x_ w.a).toNat + w.imm ≤ 8192 ∧ ((s.unit n).bin.x_ w.b).toNat + w.imm ≤ 8192) ∧
    (∃ (n : Nat) (w : SynWord) (s : State) (j : _) (k : _), s.wordRuns n = true ∧ fields w false false false false =
        true ∧ (s.unit n).bin.job = some j ∧ s.ownSet n j = some k) := by
  exact ⟨⟨47, { d := 3, a := 0, b := 0, imm := 32767 }, l0 true []
      { sq 5 { job := some 32 } with bin := { job := some 32, running := true, encode := true, x := [(1, 5), (2, 0xFFFFFFF9), (15, 0x80000000)] } },
          by decide +kernel⟩,
    ⟨47, { d := 15, a := 15, b := 2, imm := 0 }, l0 true []
        { sq 5 { job := some 32 } with bin := { job := some 32, running := true, encode := true, x := [(1, 5), (2, 0xFFFFFFF9), (15, 0x80000000)] } },
            by decide +kernel⟩,
    ⟨47, { d := 0, a := 2, b := 0, imm := 31 }, l0 true []
        { sq 5 { job := some 32 } with bin := { job := some 32, running := true, encode := true, x := [(1, 5), (2, 0xFFFFFFF9), (15, 0x80000000)] } },
            by decide +kernel⟩,
    ⟨47, { d := 3, a := 0, b := 0, imm := 0 }, l0 false []
        { sq 5 { job := some 32 } with bin := { job := some 32, running := true, encode := false, x := [(1, 5), (2, 0xFFFFFFF9), (15, 0x80000000)], reader := { consumed := 77 } } },
            by decide +kernel⟩,
    ⟨47, { d := 1, a := 15, b := 0, imm := 31 }, l0 true []
        { sq 5 { job := some 32 } with bin := { job := some 32, running := true, encode := true, x := [(1, 5), (2, 0xFFFFFFF9), (15, 0x80000000)] } },
            by decide +kernel⟩,
    ⟨47, { d := 0, a := 1, b := 2, imm := 2 }, l0 true []
        { sq 5 { job := some 32 } with bin := { job := some 32, running := true, encode := true, x := [(1, 4), (2, 8190)], ctx := [(4, 7), (5, 8)] } },
            by decide +kernel⟩,
    ⟨47, { d := 0, a := 0, b := 0, imm := 0 }, l0 true []
        { sq 5 { job := some 32 } with bin := { job := some 32, running := true, encode := true, ctuSteps := 5, ctuBins := 3 }, rc := [(0, { job := some 32 })] },
            32, 0, by decide +kernel⟩⟩

/-- States and operands that meet the hypotheses of `SyntaxControlWords`. -/
theorem witness_SyntaxControlWords :
    (∃ (n : Nat) (w : SynWord) (s : State), s.wordRuns n = true) ∧
    (∃ (n : Nat) (w : SynWord) (s : State), s.wordRuns n = true) ∧
    (∃ (n : Nat) (w : SynWord) (s : State), s.wordRuns n = true) ∧
    (∃ (n : Nat) (w : SynWord) (s : State), s.wordRuns n = true ∧ fields w false false false false = true) ∧
    (∃ (n : Nat) (w : SynWord) (s : State), s.wordRuns n = true ∧ fields w false false false true = true ∧ (s.unit
        n).bin.calls.length < 8) ∧
    (∃ (n : Nat) (w : SynWord) (s : State) (r : _) (l : _), s.wordRuns n = true ∧ fields w false false false false =
        true ∧ (s.unit n).bin.calls = r :: l) ∧
    (∃ (n : Nat) (w : SynWord) (s : State) (j : Nat) (a : Nat) (k : Token) (l : List Token), s.wordRuns n = true ∧
        fields w true false false true = true ∧ w.imm < 8 ∧ 1 ≤ w.d ∧ w.d ≤ 14 ∧ (s.unit n).bin.job = some j ∧ s.ends j
            w.imm = some (a, 6) ∧ s.undrained n w.imm j = false ∧ s.chq n w.imm = k :: l) ∧
    (∃ (n : Nat) (w : SynWord) (s : State) (j : _) (b : _), s.wordRuns n = true ∧ fields w false true false true = true
        ∧ w.imm < 8 ∧ w.a ≤ 14 ∧ (s.unit n).bin.job = some j ∧ s.ends j w.imm = some (6, b) ∧ s.undrained n w.imm j =
            false ∧ s.chanFull n w.imm = false) := by
  exact ⟨⟨47, { d := 0, a := 15, b := 0, imm := 32767 }, l0 true []
      { sq 5 { job := some 32 } with bin := { job := some 32, running := true, encode := true, x := [(1, 5), (2, 0xFFFFFFF9), (15, 0x80000000)], pc := 32767 } },
          by decide +kernel⟩,
    ⟨47, { d := 0, a := 0, b := 0, imm := 7 }, l0 true []
        { sq 5 { job := some 32 } with bin := { job := some 32, running := true, encode := true, x := [(1, 5), (2, 0xFFFFFFF9), (15, 0x80000000)] } },
            by decide +kernel⟩,
    ⟨47, { d := 0, a := 2, b := 1, imm := 9 }, l0 true []
        { sq 5 { job := some 32 } with bin := { job := some 32, running := true, encode := true, x := [(1, 5), (2, 0xFFFFFFF9), (15, 0x80000000)] } },
            by decide +kernel⟩,
    ⟨47, { d := 0, a := 0, b := 0, imm := 0 }, l0 true []
        { sq 5 { job := some 32 } with bin := { job := some 32, running := true, encode := true, x := [(1, 5), (2, 0xFFFFFFF9), (15, 0x80000000)], pc := 32767 } },
            by decide +kernel⟩,
    ⟨47, { d := 0, a := 0, b := 0, imm := 32767 }, l0 true []
        { sq 5 { job := some 32 } with bin := { job := some 32, running := true, encode := true, pc := 32767, calls := [1, 2, 3, 4, 5, 6, 7] } },
            by decide +kernel⟩,
    ⟨47, { d := 0, a := 0, b := 0, imm := 0 }, l0 true []
        { sq 5 { job := some 32 } with bin := { job := some 32, running := true, encode := true, calls := [32767] } },
            32767, [], by decide +kernel⟩,
    ⟨47, { d := 14, a := 0, b := 0, imm := 7 }, l0 true [(0, 1), (0, 1), (0, 1), (0, 1), (0, 1), (0, 1), (0, 1), (3, 6)]
        { sq 5 { job := some 32 } with bin := { job := some 32, running := true, encode := true }, chans := [(7, [{ val := 0xFFFFFFFF00000005, job := 32 }])] },
            32, 3, { val := 0xFFFFFFFF00000005, job := 32 }, [], by decide +kernel⟩,
    ⟨47, { d := 0, a := 14, b := 0, imm := 0 }, l0 true [(6, 2)]
        { sq 5 { job := some 32 } with bin := { job := some 32, running := true, encode := true, x := [(1, 5), (2, 0xFFFFFFF9), (15, 0x80000000)] } },
            32, 2, by decide +kernel⟩⟩

/-- States and operands that meet the hypotheses of `SyntaxCodingWords`. -/
theorem witness_SyntaxCodingWords :
    (∃ (n : Nat) (w : SynWord) (s : State) (e : Elt) (v : Nat), s.wordRuns n = true ∧ (s.unit n).bin.encode = true ∧
        w.imm < 1023 ∧ (s.unit n).bin.seg = none ∧ (s.unit n).bin.cfg.descBase + 4 * w.imm + 4 ≤ 32768 ∧ e = readElt
            (s.tab n) (s.unit n).bin.cfg.descBase w.imm ∧ e.bin = 0 ∧ e.sign = false ∧ 1 ≤ e.p1 ∧ e.p1 ≤ 32 ∧ v =
            ((s.unit n).bin.x_ w.d).toNat ∧ v < 2 ^ e.p1 ∧ (e.maxValue = 0xFFFFFF ∨ v ≤ e.maxValue)) ∧
    (∃ (n : Nat) (w : SynWord) (s : State) (c : Coder), s.wordRuns n = true ∧ fields w true true false false = true ∧
        (s.unit n).bin.seg = some c ∧ c.kernel < 2 ∧ (s.unit n).bin.encode = true ∧ ((s.unit n).bin.x_ w.a).getLsbD 0 =
            false) ∧
    (∃ (n : Nat) (w : SynWord) (s : State) (c : Coder), s.wordRuns n = true ∧ fields w true true false false = true ∧
        (s.unit n).bin.seg = some c ∧ c.kernel < 2 ∧ (s.unit n).bin.encode = true ∧ ((s.unit n).bin.x_ w.a).getLsbD 0 =
            false) ∧
    (∃ (n : Nat) (w : SynWord) (s : State) (c : Coder), s.wordRuns n = true ∧ fields w true true false false = true ∧
        (s.unit n).bin.seg = some c ∧ c.kernel < 2 ∧ (s.unit n).bin.encode = false ∧ (s.unit n).bin.ctuBins < (s.unit
            n).bin.cfg.maxBins ∧ c.r - 2 ≤ c.off) ∧
    (∃ (n : Nat) (w : SynWord) (s : State), s.wordRuns n = true ∧ fields w false false false true = true ∧ w.imm < 4 ∧
        (s.unit n).bin.seg = none ∧ (s.unit n).bin.encode = true) ∧
    (∃ (n : Nat) (w : SynWord) (s : State), s.wordRuns n = true ∧ fields w false false false true = true ∧ w.imm < 4 ∧
        (s.unit n).bin.seg = none ∧ (s.unit n).bin.encode = true) ∧
    (∃ (n : Nat) (w : SynWord) (s : State), s.wordRuns n = true ∧ fields w false false false true = true ∧ w.imm < 4 ∧
        (s.unit n).bin.seg = none ∧ (s.unit n).bin.encode = true) ∧
    (∃ (n : Nat) (w : SynWord) (s : State) (c : Coder), s.wordRuns n = true ∧ fields w false false false false = true ∧
        (s.unit n).bin.seg = some c ∧ c.kernel < 2 ∧ c.term = true) ∧
    (∃ (n : Nat) (w : SynWord) (s : State) (c : Coder), s.wordRuns n = true ∧ fields w false false false false = true ∧
        (s.unit n).bin.seg = some c ∧ c.kernel < 2 ∧ c.term = true) ∧
    (∃ (n : Nat) (w : SynWord) (s : State), s.wordRuns n = true ∧ fields w true true false true = true ∧ 1 ≤ w.imm ∧
        w.imm ≤ 32 ∧ (s.unit n).bin.seg = none ∧ (s.unit n).bin.encode = true) ∧
    (∃ (n : Nat) (w : SynWord) (s : State), s.wordRuns n = true ∧ fields w true true false true = true ∧ 1 ≤ w.imm ∧
        w.imm ≤ 32 ∧ (s.unit n).bin.seg = none ∧ (s.unit n).bin.encode = true) ∧
    (∃ (n : Nat) (w : SynWord) (s : State), s.wordRuns n = true ∧ fields w false false false false = true ∧ (s.unit
        n).bin.encode = true) ∧
    (∃ (n : Nat) (w : SynWord) (s : State), s.wordRuns n = true ∧ fields w false false false false = true ∧ (s.unit
        n).bin.encode = true) ∧
    (∃ (n : Nat) (w : SynWord) (s : State), s.wordRuns n = true ∧ fields w false true false true = true ∧ w.imm = 1 ∧
        (s.unit n).bin.encode = true ∧ (s.unit n).bin.writer.nal = false) ∧
    (∃ (n : Nat) (w : SynWord) (s : State), s.wordRuns n = true ∧ fields w false false false true = true ∧ w.imm = 1 ∧
        (s.unit n).bin.encode = true ∧ (s.unit n).bin.writer.nal = true ∧ (s.unit n).bin.writer.insertion = false) ∧
    (∃ (n : Nat) (w : SynWord) (s : State), s.wordRuns n = true ∧ fields w false true false true = true ∧ w.imm = 0 ∧
        (s.unit n).bin.encode = true ∧ (s.unit n).bin.writer.obu = none) ∧
    (∃ (n : Nat) (w : SynWord) (s : State) (p : Nat), s.wordRuns n = true ∧ fields w false false false false = true ∧
        (s.unit n).bin.encode = true ∧ (s.unit n).bin.writer.obu = some p ∧ p + 4 ≤ (s.unit n).bin.writer.total ∧
            (s.unit n).bin.writer.total - (p + 4) < 2 ^ 28 ∧ (s.unit n).bin.writer.bytes.length = (s.unit
            n).bin.writer.total) ∧
    (∃ (n : Nat) (w : SynWord) (s : State) (k : Nat) (h : Byte) (o : Nat), s.wordRuns n = true ∧ fields w true false
        false false = true ∧ 1 ≤ w.d ∧ w.d ≤ 14 ∧ (s.unit n).bin.encode = false ∧ (s.unit n).bin.reader.pos = 8 * k ∧
            (s.unit n).bin.reader.bytes[k]? = some (h, o) ∧ h.getLsbD 1 = false ∧ h.getLsbD 2 = false ∧ (s.unit
            n).bin.reader.bytes.length < 2 ^ 32) := by
  exact ⟨⟨47, { d := 1, a := 0, b := 0, imm := 1022 }, l0 true []
      { sq 5 { job := some 32 } with bin := { job := some 32, running := true, encode := true, x := [(1, 5)], cfg := { descBase := 28676 } }, tab := [(32764, 0x00080000), (32767, 0x0000FFFF)] },
          readElt ((l0 true []
          { sq 5 { job := some 32 } with bin := { job := some 32, running := true, encode := true, x := [(1, 5)], cfg := { descBase := 28676 } }, tab := [(32764, 0x00080000), (32767, 0x0000FFFF)] }).tab
          47) 28676 1022, 5, by decide +kernel⟩,
    ⟨47, { d := 3, a := 1, b := 0, imm := 0 }, l0 true []
        { sq 5 { job := some 32 } with bin := { job := some 32, running := true, encode := true, x := [(1, 4)], seg := some { kernel := 0, r := 510 } } },
            { kernel := 0, r := 510 }, by decide +kernel⟩,
    ⟨47, { d := 0, a := 1, b := 0, imm := 0 }, l0 true []
        { sq 5 { job := some 32 } with bin := { job := some 32, running := true, encode := true, x := [(1, 4)], seg := some { kernel := 1, r := 257 } } },
            { kernel := 1, r := 257 }, by decide +kernel⟩,
    ⟨47, { d := 3, a := 1, b := 0, imm := 0 }, l0 false []
        { sq 5 { job := some 32 } with bin := { job := some 32, running := true, encode := false, seg := some { kernel := 1, r := 510, off := 508 } } },
            { kernel := 1, r := 510, off := 508 }, by decide +kernel⟩,
    ⟨47, { d := 0, a := 0, b := 0, imm := 0 }, l0 true []
        { sq 5 { job := some 32 } with bin := { job := some 32, running := true, encode := true, ctuBins := 4 } },
        by decide +kernel⟩,
    ⟨47, { d := 0, a := 0, b := 0, imm := 2 }, l0 true []
        { sq 5 { job := some 32 } with bin := { job := some 32, running := true, encode := true, ctuBins := 4 } },
        by decide +kernel⟩,
    ⟨47, { d := 0, a := 0, b := 0, imm := 3 }, l0 true []
        { sq 5 { job := some 32 } with bin := { job := some 32, running := true, encode := true, ctuBins := 4 } },
        by decide +kernel⟩,
    ⟨47, { d := 0, a := 0, b := 0, imm := 0 }, l0 true []
        { sq 5 { job := some 32 } with bin := { job := some 32, running := true, encode := true, seg := some { kernel := 0, r := 510, term := true } } },
            { kernel := 0, r := 510, term := true }, by decide +kernel⟩,
    ⟨47, { d := 0, a := 0, b := 0, imm := 0 }, l0 false []
        { sq 5 { job := some 32 } with bin := { job := some 32, running := true, encode := false, seg := some { kernel := 1, r := 510, term := true } } },
            { kernel := 1, r := 510, term := true }, by decide +kernel⟩,
    ⟨47, { d := 3, a := 15, b := 0, imm := 32 }, l0 true []
        { sq 5 { job := some 32 } with bin := { job := some 32, running := true, encode := true, x := [(1, 5), (2, 0xFFFFFFF9), (15, 0x80000000)] } },
            by decide +kernel⟩,
    ⟨47, { d := 0, a := 1, b := 0, imm := 1 }, l0 true []
        { sq 5 { job := some 32 } with bin := { job := some 32, running := true, encode := true, x := [(1, 5), (2, 0xFFFFFFF9), (15, 0x80000000)] } },
            by decide +kernel⟩,
    ⟨47, { d := 0, a := 0, b := 0, imm := 0 }, l0 true []
        { sq 5 { job := some 32 } with bin := { job := some 32, running := true, encode := true, writer := { bits := [true] } } },
            by decide +kernel⟩,
    ⟨47, { d := 0, a := 0, b := 0, imm := 0 }, l0 true []
        { sq 5 { job := some 32 } with bin := { job := some 32, running := true, encode := true } }, by decide +kernel⟩,
    ⟨47, { d := 0, a := 1, b := 0, imm := 1 }, l0 true []
        { sq 5 { job := some 32 } with bin := { job := some 32, running := true, encode := true, x := [(1, 5), (2, 0xFFFFFFF9), (15, 0x80000000)], writer := { insertion := true } } },
            by decide +kernel⟩,
    ⟨47, { d := 0, a := 0, b := 0, imm := 1 }, l0 true []
        { sq 5 { job := some 32 } with bin := { job := some 32, running := true, encode := true, writer := { nal := true, bits := [true] } } },
            by decide +kernel⟩,
    ⟨47, { d := 0, a := 1, b := 0, imm := 0 }, l0 true []
        { sq 5 { job := some 32 } with bin := { job := some 32, running := true, encode := true, x := [(1, 5), (2, 0xFFFFFFF9), (15, 0x80000000)] } },
            by decide +kernel⟩,
    ⟨47, { d := 0, a := 0, b := 0, imm := 0 }, l0 true []
        { sq 5 { job := some 32 } with bin := { job := some 32, running := true, encode := true, writer := { bytes := [10, 0, 0, 0, 0, 7, 8], total := 7, obu := some 1 } } },
            1, by decide +kernel⟩,
    ⟨47, { d := 14, a := 0, b := 0, imm := 0 }, l0 false []
        { sq 5 { job := some 32 } with bin := { job := some 32, running := true, encode := false, reader := { bytes := [(0x10, 0), (5, 1)], input := [0x10, 5], stop := 2 } } },
            0, 0x10, 0, by decide +kernel⟩⟩

/-- States and operands that meet the hypotheses of `WorkQueueCommands`. -/
theorem witness_WorkQueueCommands :
    (∃ (q : Nat) (s : State), q < 1024 ∧ s.hears 7 = true ∧ (s.wq q).state = .disarmed ∧ s.armOk q = true) ∧
    (∃ (q : Nat) (s : State), q < 1024 ∧ s.hears 7 = true ∧ (s.wq q).state = .disarmed ∧ s.armOk q = false) ∧
    (∃ (q : Nat) (s : State), q < 1024 ∧ s.hears 7 = true ∧ (s.wq q).state = .armed) ∧
    (∃ (q : Nat) (s : State), q < 1024 ∧ s.hears 7 = true ∧ (s.wq q).state = .paused) ∧
    (∃ (q : Nat) (s : State), q < 1024 ∧ s.hears 7 = true ∧ (s.wq q).state = .armed ∧ (s.wq q).ready = false ∧ (s.wq
        q).reading = false ∧ s.fetches = true) ∧
    (∃ (q : Nat) (s : State), q < 1024 ∧ s.hears 7 = true ∧ ((s.wq q).state = .paused ∨ (s.wq q).state = .halted) ∧ (∀
        j ∈ (s.wq q).window, ∀ x, s.job j = some x → x.began = true)) ∧
    (∃ (q : Nat) (s : State) (j : _) (x : _), q < 1024 ∧ s.hears 7 = true ∧ ((s.wq q).state = .paused ∨ (s.wq q).state
        = .halted) ∧ (s.wq q).window = [j] ∧ s.bare j x = true ∧ x.began = false ∧ s.holdsOpen j x.clq = false) ∧
    (∃ (q : Nat) (s : State), q < 1024 ∧ s.hears 7 = true ∧ ((s.wq q).state = .paused ∨ (s.wq q).state = .halted) ∧
        (s.wq q).window = []) ∧
    (∃ (q : Nat) (s : State), q < 1024 ∧ s.hears 7 = true ∧ (s.wq q).state ≠ .disarmed) ∧
    (∃ (q : Nat) (s : State), q < 1024 ∧ s.hears 7 = true ∧ (s.wq q).state ≠ .armed) ∧
    (∃ (q : Nat) (s : State), q < 1024 ∧ s.hears 7 = true ∧ (s.wq q).state ≠ .paused) ∧
    (∃ (q : Nat) (s : State), q < 1024 ∧ s.hears 7 = true ∧ (s.wq q).state ≠ .paused ∧ (s.wq q).state ≠ .halted) ∧
    (∃ (q : Nat) (s : State), q < 1024 ∧ s.hears 7 = true ∧ (s.wq q).state ≠ .paused ∧ (s.wq q).state ≠ .halted) ∧
    (∃ (q : Nat) (s : State), q < 1024 ∧ s.hears 7 = true ∧ (s.wq q).window ≠ []) ∧
    (∃ (q : Nat) (s : State), q < 1024 ∧ s.hears 7 = true ∧ (s.wq q).state = .armed ∧ ((s.wq q).ready = true ∨ (s.wq
        q).reading = true ∨ s.fetches = false)) := by
  exact ⟨⟨1023, { g0 { cfg := wcfg, state := .disarmed } with nextJob := 48 }, by decide +kernel⟩,
    ⟨1023, g0 {}, by decide +kernel⟩,
    ⟨1023, { g0 { cfg := wcfg, state := .armed } with nextJob := 48 }, by decide +kernel⟩,
    ⟨1023, { g0 { cfg := wcfg, state := .paused } with nextJob := 48 }, by decide +kernel⟩,
    ⟨1023, { g0 { cfg := wcfg, state := .armed } with nextJob := 48 }, by decide +kernel⟩,
    ⟨1023,
        { g0 { cfg := wcfg, state := .paused, window := [32] } with nextJob := 48, jobs := [(32, { j0 with phase := .running, started := true, began := true, cores := [1] })] },
        by decide, by decide, by decide, fun j hj x hx => by (cases List.mem_singleton.mp hj; cases hx; rfl)⟩,
    ⟨1023,
        { g0 { cfg := wcfg, state := .halted, window := [32] } with nextJob := 48, jobs := [(32, { j0 with phase := .waiting, queue := 1023 })] },
        32, { j0 with phase := .waiting, queue := 1023 }, by decide +kernel⟩,
    ⟨1023, { g0 { cfg := wcfg, state := .halted } with nextJob := 48 }, by decide +kernel⟩,
    ⟨1023, { g0 { cfg := wcfg, state := .paused } with nextJob := 48 }, by decide +kernel⟩,
    ⟨1023, { g0 { cfg := wcfg, state := .paused } with nextJob := 48 }, by decide +kernel⟩,
    ⟨1023, { g0 { cfg := wcfg, state := .halted } with nextJob := 48 }, by decide +kernel⟩,
    ⟨0, { g0 { cfg := wcfg, state := .armed } with nextJob := 48 }, by decide +kernel⟩,
    ⟨1023, { g0 { cfg := wcfg, state := .armed } with nextJob := 48 }, by decide +kernel⟩,
    ⟨1023, { g0 { cfg := wcfg, state := .halted, window := [32] } with nextJob := 48 }, by decide +kernel⟩,
    ⟨1023, { g0 { cfg := wcfg, state := .armed, ready := true } with nextJob := 48 }, by decide +kernel⟩⟩

/-- States and operands that meet the hypotheses of `GeyserRows`. -/
theorem witness_GeyserRows :
    (∃ (q : Nat) (v : DWord) (s : State), s.calm = true ∧ q < 1024 ∧ (s.wq q).reading = true ∧ s.onLink (.owner q) =
        true ∧ v.getLsbD 16 = true ∧ v.toNat % 65536 = (s.wq q).sqNext ∧ s.fetches = true ∧ (s.wq q).window.length <
        256) ∧
    (∃ (q : Nat) (v : DWord) (s : State), s.calm = true ∧ q < 1024 ∧ (s.wq q).reading = true ∧ s.onLink (.owner q) =
        true ∧ (v.getLsbD 16 = false ∨ v.toNat % 65536 ≠ (s.wq q).sqNext ∧ v.toNat % 65536 = ((s.wq q).sqNext + 65536
        - (s.wq q).sqSize) % 65536)) ∧
    (∃ (q : Nat) (v : DWord) (s : State), s.calm = true ∧ q < 1024 ∧ (s.wq q).reading = true ∧ s.onLink (.owner q) =
        true ∧ (s.wq q).state = .armed ∧ v.getLsbD 16 = true ∧ v.toNat % 65536 ≠ (s.wq q).sqNext ∧ v.toNat % 65536 ≠
        ((s.wq q).sqNext + 65536 - (s.wq q).sqSize) % 65536) ∧
    (∃ (q : Nat) (j : Nat) (r : List Nat) (l : List Byte) (x : Job) (s : State), s.calm = true ∧ (s.wq q).bodies = j
        :: r ∧ s.job j = some x ∧ s.onLink (.body q j) = true ∧ (∀ a ∈ s.geyser.asked, a.1 ≠ j) ∧ x.phase = .body ∧
        l.length = 56 ∧ l.head? ≠ some 0x02) ∧
    (∃ (q : Nat) (s : State), s.calm = true ∧ s.geyser.visit = none ∧ s.fetches = true ∧ s.pickVisit = some (q, none)) ∧
    (∃ (q : Nat) (j : Nat) (w : List Nat) (y : Job) (s : State), s.calm = true ∧ (s.wq q).window = j :: w ∧ s.job j =
        some y ∧ y.live = false ∧ (s.wq q).bodies.contains j = false ∧ s.hostReach = true ∧ s.completionsEnd = false ∧
        (s.wq q).full = false ∧ (s.wq q).at 8 8 % 32 = 0 ∧ 32 ≤ s.pcie.mps) ∧
    (∃ (q : Nat) (s : State), s.calm = true ∧ (s.wq q).full = true) ∧
    (∃ (v : Word) (s : State), s.hears 7 = true ∧ fld v 31 26 = 0 ∧ (fld v 15 0 + 65536 - (s.wq (fld v 25 16)).cqHead)
        % 65536 ≤ ((s.wq (fld v 25 16)).cqProd + 65536 - (s.wq (fld v 25 16)).cqHead) % 65536) ∧
    (∃ (v : Word) (s : State), s.hears 7 = true ∧ fld v 31 26 = 0 ∧ ((s.wq (fld v 25 16)).cqProd + 65536 - (s.wq (fld
        v 25 16)).cqHead) % 65536 < (fld v 15 0 + 65536 - (s.wq (fld v 25 16)).cqHead) % 65536) ∧
    (∃ (q : Nat) (v : DWord) (s : State), s.calm = true ∧ q < 1024 ∧ (s.wq q).reading = true ∧ s.onLink (.owner q) =
        true ∧ (v.getLsbD 16 = false ∨ v.toNat % 65536 ≠ (s.wq q).sqNext ∧ v.toNat % 65536 = ((s.wq q).sqNext + 65536
        - (s.wq q).sqSize) % 65536)) := by
  exact ⟨⟨1023, 0xFFFFFFFF0001FFFF,
        { g0 { cfg := wcfg, state := .armed, reading := true, sqNext := 65535 } with nextJob := 48 },
        by decide +kernel⟩,
    ⟨1023, 0, { g0 { cfg := wcfg, state := .armed, reading := true, ready := true } with nextJob := 48 },
        by decide +kernel⟩,
    ⟨1023, 0x00010001, { g0 { cfg := wcfg, state := .armed, reading := true, sqNext := 0 } with nextJob := 48 },
        by decide +kernel⟩,
    ⟨1023, 32, [], bd 0x30 0xFFFF [], { j0 with queue := 1023, body := List.replicate 64 9 },
        { g0 { cfg := wcfg, state := .armed, bodies := [32] } with nextJob := 48, jobs := [(32, { j0 with queue := 1023, body := List.replicate 64 9 })] },
        by decide +kernel⟩,
    ⟨1023, { g0 { cfg := wcfg, state := .armed, ready := true, credit := 1 } with nextJob := 48 }, by decide +kernel⟩,
    ⟨1023, 32, [], { j0 with phase := .retired, queue := 1023, epoch := 3 },
        { g0 { cfg := wcfg, state := .armed, window := [32], lastEpoch := some 2, cqProd := 65535, cqHead := 65530 } with nextJob := 48, jobs := [(32, { j0 with phase := .retired, queue := 1023, epoch := 3 })] },
        by decide +kernel⟩,
    ⟨1023,
        { g0 { cfg := wcfg, state := .armed, window := [32], cqProd := 15, cqHead := 65535 } with nextJob := 48, jobs := [(32, { j0 with phase := .retired, queue := 1023, epoch := 3 })] },
        by decide +kernel⟩,
    ⟨0x03FF0003, { g0 { cfg := wcfg, state := .armed, cqProd := 3, cqHead := 65535 } with nextJob := 48 },
        by decide +kernel⟩,
    ⟨0x03FF0004, { g0 { cfg := wcfg, state := .armed, cqProd := 3, cqHead := 65535 } with nextJob := 48 },
        by decide +kernel⟩,
    ⟨1023, 0x1FFF0, { g0 { cfg := wcfg, state := .armed, reading := true, ready := true } with nextJob := 48 },
        by decide +kernel⟩⟩

/-- States and operands that meet the further hypotheses of `GeyserRows`. -/
theorem witness_GeyserRows_AbortMailbox :
    (∃ (v : Word) (n : Nat) (s : State), s.hears 7 = true ∧ fld v 31 26 = 0 ∧ s.geyser.requests < 8 ∧ s.arbiter (fld v
        25 16) (fld v 15 0) = (n, none)) ∧
    (∃ (v : Word) (n : Nat) (s : State), s.hears 7 = true ∧ fld v 31 26 = 0 ∧ s.geyser.requests < 8 ∧ s.arbiter (fld v
        25 16) (fld v 15 0) = (n, none)) ∧
    (∃ (v : Word) (j : Nat) (x : Job) (s : State), s.hears 7 = true ∧ fld v 31 26 = 0 ∧ s.geyser.requests < 8 ∧
        s.arbiter (fld v 25 16) (fld v 15 0) = (1, some j) ∧ (s.wq (fld v 25 16)).bodies.contains j = false ∧ s.bare j
        x = true ∧ s.holdsOpen j x.clq = false) ∧
    (∃ (v : Word) (s : State), s.hears 7 = true ∧ fld v 31 26 = 0 ∧ 8 ≤ s.geyser.requests) ∧
    (∃ (a : BitVec 8) (o : Nat) (i : Nat) (s : State), s.hears 7 = true ∧ s.geyser.abort.current = some (a.toNat, o,
        i)) ∧
    (∃ (a : BitVec 8) (s : State), s.hears 7 = true ∧ s.geyser.abort.current.map Prod.fst ≠ some a.toNat) ∧
    (∃ (a : BitVec 8) (s : State), s.hears 7 = true ∧ s.geyser.abort.current.map Prod.fst ≠ some a.toNat) ∧
    (∃ (v : Word) (j : Nat) (s : State), s.hears 7 = true ∧ fld v 31 26 = 0 ∧ s.geyser.requests < 8 ∧ s.arbiter (fld v
        25 16) (fld v 15 0) = (1, some j) ∧ (s.wq (fld v 25 16)).bodies.contains j = true) ∧
    (∃ (a : BitVec 8) (o : Nat) (i : Nat) (s : State), s.hears 7 = true ∧ s.geyser.abort.current = some (a.toNat, o,
        i) ∧ s.geyser.abort.waiting = []) := by
  exact ⟨⟨0x03FF0005, 3, { g0 { cfg := wcfg, state := .armed, sqNext := 5 } with nextJob := 48 }, by decide +kernel⟩,
    ⟨0x03FE0005, 4, { g0 { cfg := wcfg, state := .armed } with nextJob := 48 }, by decide +kernel⟩,
    ⟨0x03FF0005, 32, { j0 with phase := .waiting, queue := 1023, seq := 5 },
        { g0 { cfg := wcfg, state := .armed, sqNext := 6, window := [32] } with nextJob := 48, jobs := [(32, { j0 with phase := .waiting, queue := 1023, seq := 5 })] },
        by decide +kernel⟩,
    ⟨0x03FF0005,
        { g0 { cfg := wcfg, state := .armed } with geyser := { abort := { current := some (255, 3, 5), waiting := [(1, 1), (1, 2), (1, 3), (1, 4), (1, 5), (1, 6), (1, 7)], seq := 255 } } },
        by decide +kernel⟩,
    ⟨255, 3, 5,
        { g0 { cfg := wcfg, state := .armed } with geyser := { abort := { current := some (255, 3, 5), waiting := [(1, 1), (1, 2), (1, 3), (1, 4), (1, 5), (1, 6), (1, 7)], seq := 255 } } },
        by decide +kernel⟩,
    ⟨254,
        { g0 { cfg := wcfg, state := .armed } with geyser := { abort := { current := some (255, 3, 5), waiting := [(1, 1), (1, 2), (1, 3), (1, 4), (1, 5), (1, 6), (1, 7)], seq := 255 } } },
        by decide +kernel⟩,
    ⟨0, { g0 { cfg := wcfg, state := .armed } with nextJob := 48 }, by decide +kernel⟩,
    ⟨0x03FF0005, 32,
        { g0 { cfg := wcfg, state := .armed, sqNext := 6, window := [32], bodies := [32] } with nextJob := 48, jobs := [(32, { j0 with phase := .body, queue := 1023, seq := 5 })] },
        by decide +kernel⟩,
    ⟨255, 3, 5,
        { g0 { cfg := wcfg, state := .armed } with geyser := { abort := { current := some (255, 3, 5), waiting := [], seq := 255 } } },
        by decide +kernel⟩⟩

/-- States and operands that meet the hypotheses of `JobFlowRows`. -/
theorem witness_JobFlowRows :
    (∃ (j : Nat) (a : Option (List Byte)) (b : Option (List Byte)) (x : Job) (s : State), s.calm = true ∧ s.job j =
        some x ∧ x.phase = .parsing ∧ x.device = false ∧ x.indirect = false ∧ s.entryReason x = none ∧ x.opcode ≠ 0x11
        ∧ (x.opcode = 0x10 → x.at 48 8 = 0)) ∧
    (∃ (j : Nat) (a : Option (List Byte)) (b : Option (List Byte)) (x : Job) (s : State), s.calm = true ∧ s.job j =
        some x ∧ x.phase = .parsing ∧ x.device = false ∧ x.indirect = false ∧ s.entryReason x = none ∧ x.opcode ≠ 0x11
        ∧ (x.opcode = 0x10 → x.at 48 8 = 0)) ∧
    (∃ (j : Nat) (r : Nat) (a : Option (List Byte)) (b : Option (List Byte)) (x : Job) (s : State), s.calm = true ∧
        s.bare j x = true ∧ x.phase = .parsing ∧ x.device = false ∧ s.entryReason x = some r ∧ s.holdsOpen j x.clq =
        false) ∧
    (∃ (j : Nat) (c : Nat) (p : PlacePlan) (x : Job) (w : Choice) (s : State), s.calm = true ∧ s.takes 5 = true ∧
        s.job j = some x ∧ (s.page 5).groups = 0 ∧ x.stream = none ∧ s.placeReady j x = true ∧ s.oldestReady j x =
        true ∧ s.findOne x = .cores w ∧ w.cores = [c] ∧ x.bufs = [] ∧ x.opcode ≠ 0x21) ∧
    (∃ (j : Nat) (n : Nat) (m : Nat) (l : List Nat) (x : Job) (s : State), s.calm = true ∧ n < 48 ∧ s.job j = some x ∧
        x.stream = some m ∧ (s.core n).queue = j :: l ∧ s.corePowered n = true ∧ s.roomInCore n = true ∧ s.startTurn j
        m = true) ∧
    (∃ (j : Nat) (a : Nat) (p : Nat) (i : Nat) (b : Bool) (x : Job) (hd : List Byte) (h : Option (List Byte)) (s :
        State), s.calm = true ∧ s.job j = some x ∧ x.live = true ∧ x.request = some (b, a) ∧ x.forStage = false ∧
        (s.page 9).fence = false ∧ s.chosenPool (if b = true then .byPool a else .bySize a) = some p ∧ (s.pool
        p).state = .enabled ∧ (s.pool p).head ≠ 0 ∧ (isDev (s.pool p).head = true ∨ s.hostReach = true) ∧ s.readTagged
        (s.pool p).head 16 h = some hd ∧ s.headerGood p (s.pool p).head hd = true ∧ i = ((s.pool p).head - s.poolBase
        p) / 2 ^ s.poolLog2 p) ∧
    (∃ (j : Nat) (n : Nat) (x : Job) (s : State), s.calm = true ∧ s.job j = some x ∧ x.stream = some n ∧ x.phase =
        .running ∧ x.reported = true ∧ s.partsEnded j x n = true ∧ x.opcode = 0x20 ∧ x.bufs = [] ∧ x.staging = []) ∧
    (∃ (j : Nat) (a : Nat) (p : Nat) (b : Bool) (x : Job) (h : Option (List Byte)) (s : State), s.calm = true ∧ s.job
        j = some x ∧ x.live = true ∧ x.request = some (b, a) ∧ (s.page 9).fence = false ∧ s.chosenPool (if b = true
        then .byPool a else .bySize a) = some p ∧ (s.pool p).state = .enabled ∧ (s.pool p).head = 0 ∧ x.tries + 1 <
        s.devField x.epoch 2) ∧
    (∃ (j : Nat) (a : Nat) (p : Nat) (b : Bool) (x : Job) (h : Option (List Byte)) (s : State), s.calm = true ∧ s.job
        j = some x ∧ x.live = true ∧ x.request = some (b, a) ∧ (s.page 9).fence = false ∧ s.chosenPool (if b = true
        then .byPool a else .bySize a) = some p ∧ (s.pool p).state = .enabled ∧ (s.pool p).head = 0 ∧ s.devField
        x.epoch 2 ≤ x.tries + 1 ∧ s.bare j x = true ∧ s.holdsOpen j x.clq = false) ∧
    (∃ (j : Nat) (n : Nat) (x : Job) (s : State), s.calm = true ∧ s.job j = some x ∧ x.stream = some n ∧ x.phase =
        .running ∧ x.reported = true ∧ s.partsEnded j x n = true ∧ x.opcode = 0x10 ∧ x.overflow = false ∧
        s.earlierCoding n x.coding = false ∧ x.bufs = [] ∧ x.staging = []) := by
  exact ⟨⟨32, none, none,
        { j0 with phase := .parsing, body := bd 0x30 0xFFFF (leBytes 8 (2 ^ 63 + 64) ++ leBytes 8 (2 ^ 63 + 128) ++ leBytes 4 1) },
        jz
        ({ j0 with phase := .parsing, body := bd 0x30 0xFFFF (leBytes 8 (2 ^ 63 + 64) ++ leBytes 8 (2 ^ 63 + 128) ++ leBytes 4 1) }),
        by decide +kernel⟩,
    ⟨32, none, none, { j0 with phase := .parsing, stream := some 1, body := bd 0x20 1 [] }, jz
        ({ j0 with phase := .parsing, stream := some 1, body := bd 0x20 1 [] }), by decide +kernel⟩,
    ⟨32, 1, none, none, { j0 with phase := .parsing, body := bd 0x05 0xFFFF [] }, jz
        ({ j0 with phase := .parsing, body := bd 0x05 0xFFFF [] }), by decide +kernel⟩,
    ⟨32, 47, { refs := [], missing := [], width := 0, height := 0, units := [], kept := false, cls := 0 },
        { j0 with phase := .ready, body := bd 0x31 0xFFFF (List.replicate 8 0 ++ leBytes 8 (2 ^ 63 + 3 * 2 ^ 35) ++ leBytes 4 5 ++ [1, 2, 3, 4]) },
        { cores := [47], widths := [], shares := [], cost := Frac.nat 0 }, jz
        ({ j0 with phase := .ready, body := bd 0x31 0xFFFF (List.replicate 8 0 ++ leBytes 8 (2 ^ 63 + 3 * 2 ^ 35) ++ leBytes 4 5 ++ [1, 2, 3, 4]) }),
        by decide +kernel⟩,
    ⟨32, 47, 1, [], { j0 with phase := .placed, stream := some 1, body := bd 0x20 1 [], cores := [47], core := 47 },
        { jz ({ j0 with phase := .placed, stream := some 1, body := bd 0x20 1 [], cores := [47], core := 47 }) with streams := [(1, stl false)], placer := { cores := [(47, { queue := [32] })] }, pers := { dir := [(0, ent0 (par0 []))] } },
        by decide +kernel⟩,
    ⟨32, 15, 15, 0, true, { j0 with phase := .waiting, request := some (true, 15), core := 47 }, poolHeader
        0x8000000000010000 0x8000000000010100 15, none,
        { q1 with jobs := [(32, { j0 with phase := .waiting, request := some (true, 15), core := 47 })] },
        by decide +kernel⟩,
    ⟨32, 1,
        { j0 with phase := .running, stream := some 1, body := bd 0x20 1 [], reported := true, detail := 9, cores := [47] },
        { jz ({ j0 with phase := .running, stream := some 1, body := bd 0x20 1 [], reported := true, detail := 9, cores := [47] }) with streams := [(1, stl false)] },
        by decide +kernel⟩,
    ⟨32, 15, 15, true, { j0 with phase := .waiting, request := some (true, 15), core := 47 }, none,
        { q0 with bpm := { pools := [(15, { state := .enabled })] }, jobs := [(32, { j0 with phase := .waiting, request := some (true, 15), core := 47 })] },
        by decide +kernel⟩,
    ⟨32, 15, 15, true, { j0 with phase := .waiting, request := some (true, 15), tries := 65535 }, none,
        { q0 with bpm := { pools := [(15, { state := .enabled })] }, jobs := [(32, { j0 with phase := .waiting, request := some (true, 15), tries := 65535 })] },
        by decide +kernel⟩,
    ⟨32, 1,
        { j0 with phase := .running, stream := some 1, body := bd 0x10 1 [], reported := true, detail := 9, cores := [47] },
        { jz ({ j0 with phase := .running, stream := some 1, body := bd 0x10 1 [], reported := true, detail := 9, cores := [47] }) with streams := [(1, stl true)] },
        by decide +kernel⟩⟩

/-- States and operands that meet the hypotheses of `SideJobRows`. -/
theorem witness_SideJobRows :
    (∃ (j : Nat) (h : Option (List Byte)) (fs : List (Nat × Nat)) (l : List Byte) (x : Job) (s : State), s.calm = true
        ∧ s.sideJob j x = true ∧ x.opcode = 0x30 ∧ x.stream = none ∧ fs = (if x.indirect = true then x.frags else
        [(x.at 8 8, x.at 24 4)]) ∧ ((∀ f ∈ fs, isDev f.1 = true) ∧ isDev (x.at 16 8) = true ∨ s.hostReach = true ∧
        h.isSome = true) ∧ (s.begin j).gather fs (h.getD []) = some l ∧ s.writeTagOk (x.at 16 8) l.length = true ∧ (∀
        f ∈ fs, isDev f.1 = true)) ∧
    (∃ (j : Nat) (h : Option (List Byte)) (fs : List (Nat × Nat)) (l : List Byte) (x : Job) (s : State), s.calm = true
        ∧ s.sideJob j x = true ∧ x.opcode = 0x30 ∧ x.stream = none ∧ fs = (if x.indirect = true then x.frags else
        [(x.at 8 8, x.at 24 4)]) ∧ ((∀ f ∈ fs, isDev f.1 = true) ∧ isDev (x.at 16 8) = true ∨ s.hostReach = true ∧
        h.isSome = true) ∧ (s.begin j).gather fs (h.getD []) = some l ∧ s.writeTagOk (x.at 16 8) l.length = true) ∧
    (∃ (j : Nat) (l : List Byte) (x : Job) (s : State), s.calm = true ∧ s.sideJob j x = true ∧ x.opcode = 0x31 ∧
        x.stream = none ∧ (isDev (x.at 16 8) = true ∨ s.hostReach = true) ∧ l = (List.range (x.at 24 4)).map (fun i =>
        ((x.body.drop 28).take 4).getD (i % 4) 0) ∧ s.writeTagOk (x.at 16 8) l.length = true) ∧
    (∃ (j : Nat) (x : Job) (s : State), s.calm = true ∧ s.bare j x = true ∧ x.opcode = 0x40 ∧ x.phase = .ready ∧ (∀ y
        ∈ s.jobs, y.1 < j → y.2.queue = x.queue → y.2.live = false)) ∧
    (∃ (j : Nat) (x : Job) (s : State), s.calm = true ∧ s.bare j x = true ∧ x.opcode = 0x41 ∧ x.phase = .ready ∧
        s.barred j x.queue = false ∧ (isDev (x.at 8 8) = true ∨ s.hostReach = true) ∧ x.at 8 8 ≠ 0 ∧ s.writeTagOk
        (x.at 8 8) 8 = true) ∧
    (∃ (j : Nat) (x : Job) (s : State), s.calm = true ∧ s.bare j x = true ∧ x.opcode = 0x41 ∧ x.phase = .ready ∧
        s.barred j x.queue = false ∧ x.at 8 8 = 0) := by
  exact ⟨⟨32, none, [(2 ^ 63 + 64, 5)], [0, 0, 1, 2, 3],
        { j0 with phase := .placed, core := 47, cores := [47], body := bd 0x30 0xFFFF (leBytes 8 (2 ^ 63 + 64) ++ leBytes 8 (2 ^ 63 + 70) ++ leBytes 4 5) },
        { js ({ j0 with phase := .placed, core := 47, cores := [47], body := bd 0x30 0xFFFF (leBytes 8 (2 ^ 63 + 64) ++ leBytes 8 (2 ^ 63 + 70) ++ leBytes 4 5) }) with mem := [(66, 1), (67, 2), (68, 3)] },
        by decide +kernel⟩,
    ⟨32, some [7, 8, 9], [(0x1000, 2), (0x5000, 1)], [7, 8, 9],
        { j0 with phase := .placed, core := 47, cores := [47], indirect := true, frags := [(0x1000, 2), (0x5000, 1)], body := bd 0x30 0xFFFF (leBytes 8 0 ++ leBytes 8 0x9000) },
        js
        ({ j0 with phase := .placed, core := 47, cores := [47], indirect := true, frags := [(0x1000, 2), (0x5000, 1)], body := bd 0x30 0xFFFF (leBytes 8 0 ++ leBytes 8 0x9000) }),
        by decide +kernel⟩,
    ⟨32, [1, 2, 3, 4, 1],
        { j0 with phase := .placed, core := 47, cores := [47], body := bd 0x31 0xFFFF (List.replicate 8 0 ++ leBytes 8 (2 ^ 63 + 70) ++ leBytes 4 5 ++ [1, 2, 3, 4]) },
        js
        ({ j0 with phase := .placed, core := 47, cores := [47], body := bd 0x31 0xFFFF (List.replicate 8 0 ++ leBytes 8 (2 ^ 63 + 70) ++ leBytes 4 5 ++ [1, 2, 3, 4]) }),
        by decide +kernel⟩,
    ⟨32, { j0 with phase := .ready, body := bd 0x40 0xFFFF [] },
        { jz ({ j0 with phase := .ready, body := bd 0x40 0xFFFF [] }) with jobs := [(16, { j0 with phase := .retired }), (32, { j0 with phase := .ready, body := bd 0x40 0xFFFF [] })] },
        by decide +kernel⟩,
    ⟨32,
        { j0 with phase := .ready, body := bd 0x41 0xFFFF (leBytes 8 (2 ^ 63 + 72) ++ leBytes 8 0x1122334455667788) },
        jz
        ({ j0 with phase := .ready, body := bd 0x41 0xFFFF (leBytes 8 (2 ^ 63 + 72) ++ leBytes 8 0x1122334455667788) }),
        by decide +kernel⟩,
    ⟨32, { j0 with phase := .ready, body := bd 0x41 0xFFFF [] }, jz
        ({ j0 with phase := .ready, body := bd 0x41 0xFFFF [] }), by decide +kernel⟩⟩

/-- States and operands that meet the hypotheses of `StreamOperationRows`. -/
theorem witness_StreamOperationRows :
    (∃ (j : Nat) (n : Nat) (k : Nat) (q : Nat) (b : Nat) (v : Nat) (h : Option (List Byte)) (e : PersEntry) (l : List
        Byte) (w : List Nat) (enc : Bool) (x : Job) (s : State), s.calm = true ∧ s.opJob j x n 0x01 = true ∧
        s.blockHeld x = false ∧ s.modeBlock x h = .ok l ∧ blockNat l 0 2 = 1 ∧ modeRsvOk l = true ∧ blockNat l 8 8 = 0
        ∧ s.findPers (x.at 8 4) = some (k, e) ∧ enc = (x.at 12 1 == 1) ∧ bit e.flags (b2n enc) = true ∧ validate e.id
        e.flags e.params enc (s.loadCap (fv (modeOf l) 52)) (s.devField x.epoch 17 == 1) v (modeOf l) = (w, 0) ∧ kSize
        e.params enc w ≤ coresOf e.params enc (s.loadCap (fv (modeOf l) 52)) w ∧ (s.chooseHome n w enc e.params
        (blockMib enc (if enc = true then lookArea w else 0) w) none).1 = some q ∧ s.fitBlock q (blockMib enc (if enc
        = true then lookArea w else 0) w) = some b) ∧
    (∃ (j : Nat) (n : Nat) (v : Nat) (h : Option (List Byte)) (l : List Byte) (w : List Nat) (x : Job) (s : State),
        s.calm = true ∧ s.opJob j x n 0x03 = true ∧ s.blockHeld x = false ∧ s.modeBlock x h = .ok l ∧ s.checkParams x
        n l v = (w, 0) ∧ (s.stream n).resizes w = false) ∧
    (∃ (j : Nat) (n : Nat) (x : Job) (s : State), s.calm = true ∧ s.opJob j x n 0x02 = true ∧ ((s.stream n).encode =
        true ∨ x.at 8 1 ≠ 0)) ∧
    (∃ (j : Nat) (n : Nat) (x : Job) (s : State), s.calm = true ∧ s.opJob j x n 0x02 = true ∧ ((s.stream n).encode =
        true ∨ x.at 8 1 ≠ 0)) ∧
    (∃ (j : Nat) (n : Nat) (x : Job) (s : State), s.calm = true ∧ s.refJob j x n 1 = true ∧ tagOk (x.at 16 8) = true ∧
        336 ≤ x.at 24 4 ∧ (isDev (x.at 16 8) = true ∨ s.hostReach = true) ∧ s.runsOk (x.at 16 8) [(0, (s.begin
        j).queryBytes n)] = true) ∧
    (∃ (j : Nat) (n : Nat) (x : Job) (s : State), s.calm = true ∧ s.refJob j x n 1 = true ∧ tagOk (x.at 16 8) = true ∧
        336 ≤ x.at 24 4 ∧ (isDev (x.at 16 8) = true ∨ s.hostReach = true) ∧ s.runsOk (x.at 16 8) [(0, (s.begin
        j).queryBytes n)] = true) ∧
    (∃ (j : Nat) (n : Nat) (k : Nat) (x : Job) (s : State), s.calm = true ∧ s.refJob j x n 2 = true ∧ (s.stream
        n).select x = some k) ∧
    (∃ (j : Nat) (n : Nat) (k : Nat) (x : Job) (s : State), s.calm = true ∧ s.refJob j x n 2 = true ∧ (s.stream
        n).select x = some k) ∧
    (∃ (j : Nat) (n : Nat) (k : Nat) (x : Job) (s : State), s.calm = true ∧ s.refJob j x n 3 = true ∧ (s.stream
        n).select x = some k) ∧
    (∃ (j : Nat) (n : Nat) (k : Nat) (f : Fmt) (l : List (Nat × List Byte)) (x : Job) (s : State), s.calm = true ∧
        s.refJob j x n 4 = true ∧ (s.stream n).select x = some k ∧ ((s.stream n).slot k).complete = true ∧ fmtOf (x.at
        28 1) = some f ∧ (s.stream n).formatCode k (x.at 28 1) (x.at 32 4) 0 = none ∧ (f.t24 = true ∨ x.at 16 8 % 64 =
        0) ∧ s.tilesOk n k = true ∧ l = ((s.stream n).slotGeom k).runs s.mem f (x.at 32 4) ∧ tagOk (x.at 16 8) = true
        ∧ runsEnd l ≤ x.at 24 4 ∧ (isDev (x.at 16 8) = true ∨ s.hostReach = true) ∧ s.runsOk (x.at 16 8) l = true) ∧
    (∃ (j : Nat) (n : Nat) (k : Nat) (f : Fmt) (l : List (Nat × List Byte)) (x : Job) (s : State), s.calm = true ∧
        s.refJob j x n 4 = true ∧ (s.stream n).select x = some k ∧ ((s.stream n).slot k).complete = true ∧ fmtOf (x.at
        28 1) = some f ∧ (s.stream n).formatCode k (x.at 28 1) (x.at 32 4) 0 = none ∧ (f.t24 = true ∨ x.at 16 8 % 64 =
        0) ∧ s.tilesOk n k = true ∧ l = ((s.stream n).slotGeom k).runs s.mem f (x.at 32 4) ∧ tagOk (x.at 16 8) = true
        ∧ runsEnd l ≤ x.at 24 4 ∧ (isDev (x.at 16 8) = true ∨ s.hostReach = true) ∧ s.runsOk (x.at 16 8) l = true) ∧
    (∃ (j : Nat) (n : Nat) (k : Nat) (x : Job) (s : State), s.calm = true ∧ s.refJob j x n 5 = true ∧ ¬(x.at 9 1 =
        0xFF ∧ x.at 12 4 = 0x80000000) ∧ (s.stream n).select x = some k) ∧
    (∃ (j : Nat) (n : Nat) (x : Job) (s : State), s.calm = true ∧ s.refJob j x n 5 = true ∧ x.at 9 1 = 0xFF ∧ x.at 12
        4 = 0x80000000) ∧
    (∃ (j : Nat) (n : Nat) (k : Nat) (c : Instr) (x : Job) (s : State), s.calm = true ∧ s.refJob j x n k = true ∧ (k,
        c) ∈ [(2, Instr.invalidate j), (3, Instr.markLong j)] ∧ (s.stream n).select x = none) ∧
    (∃ (j : Nat) (n : Nat) (k : Nat) (c : Instr) (x : Job) (s : State), s.calm = true ∧ s.refJob j x n k = true ∧ (k,
        c) ∈ [(2, Instr.invalidate j), (3, Instr.markLong j)] ∧ (s.stream n).select x = none) := by
  exact ⟨⟨32, 1, 0, 3, 0x1000000, 0, some blk, ent1, blk, modeOf blk, false, oj 0x01 (leBytes 8 3 ++ leBytes 4 256 ++
        List.replicate 28 0 ++ leBytes 8 0x1000), so (oj 0x01 (leBytes 8 3 ++ leBytes 4 256 ++ List.replicate 28 0 ++
        leBytes 8 0x1000)), by decide +kernel⟩,
    ⟨32, 1, 0, some (leBytes 2 1 ++ List.replicate 6 0 ++ leBytes 8 (2 ^ 43) ++ List.replicate 80 0 ++ leBytes 2 80 ++
        List.replicate 158 0), (leBytes 2 1 ++ List.replicate 6 0 ++ leBytes 8 (2 ^ 43) ++ List.replicate 80 0 ++
        leBytes 2 80 ++ List.replicate 158 0), setf (modeOf blk) 43 80, oj 0x03 (leBytes 8 0 ++ leBytes 4 256 ++
        List.replicate 28 0 ++ leBytes 8 0x1000),
        { so (oj 0x03 (leBytes 8 0 ++ leBytes 4 256 ++ List.replicate 28 0 ++ leBytes 8 0x1000)) with streams := [(1, { stl false with mode := modeOf blk, openVec := modeOf blk, poolSlots := 1, k := 1 })] },
        by decide +kernel⟩,
    ⟨32, 1, oj 0x02 [1], { so (oj 0x02 [1]) with streams := [(1, stl false)] }, by decide +kernel⟩,
    ⟨32, 1, oj 0x02 [], { so (oj 0x02 []) with streams := [(1, stl true)] }, by decide +kernel⟩,
    ⟨32, 1, rj0 1 (List.replicate 7 0 ++ leBytes 8 (2 ^ 63 + 64) ++ leBytes 4 336),
        { so (rj0 1 (List.replicate 7 0 ++ leBytes 8 (2 ^ 63 + 64) ++ leBytes 4 336)) with streams := [(1, { stl true with slots := [(0, {}), (1, { mark := .short, pending := true, width := 16, height := 16, picId := -2 })] })] },
        by decide +kernel⟩,
    ⟨32, 1, rj0 1 (List.replicate 7 0 ++ leBytes 8 64 ++ leBytes 4 336),
        { so (rj0 1 (List.replicate 7 0 ++ leBytes 8 64 ++ leBytes 4 336)) with streams := [(1, { stl true with slots := [(0, {}), (1, { mark := .short, pending := true, width := 16, height := 16, picId := -2 })] })] },
        by decide +kernel⟩,
    ⟨32, 1, 1, rj0 2 ([255, 0, 0] ++ leBytes 4 (2 ^ 32 - 2)),
        { so (rj0 2 ([255, 0, 0] ++ leBytes 4 (2 ^ 32 - 2))) with streams := [(1, { stl true with slots := [(0, {}), (1, { mark := .short, pending := true, width := 16, height := 16, picId := -2 })] })] },
        by decide +kernel⟩,
    ⟨32, 1, 1, rj0 2 ([1]),
        { so (rj0 2 ([1])) with streams := [(1, { stl true with slots := [(0, {}), (1, { mark := .short, pending := true, width := 16, height := 16, picId := -2 })] })] },
        by decide +kernel⟩,
    ⟨32, 1, 1, rj0 3 ([1, 15]),
        { so (rj0 3 ([1, 15])) with streams := [(1, { stl true with slots := [(0, {}), (1, { mark := .short, pending := true, width := 16, height := 16, picId := -2 })] })] },
        by decide +kernel⟩,
    ⟨32, 1, 1,
        { chroma := 1, depth := 8, bytes := 1, shift := 0, t24 := false, planar := false, decodeOnly := false }, [(0,
        [0, 0]), (64, [0, 0]), (128, [0, 0])], rj0 4 ([1] ++ List.replicate 6 0 ++ leBytes 8 (2 ^ 63 + 0x1000) ++
        leBytes 4 0x10000 ++ [1, 0, 0, 0] ++ leBytes 4 64),
        { so (rj0 4 ([1] ++ List.replicate 6 0 ++ leBytes 8 (2 ^ 63 + 0x1000) ++ leBytes 4 0x10000 ++ [1, 0, 0, 0] ++ leBytes 4 64)) with streams := [(1, { stl true with slots := [(1, { mark := .short, pending := true, width := 2, height := 2 })] })] },
        by decide +kernel⟩,
    ⟨32, 1, 1,
        { chroma := 1, depth := 8, bytes := 1, shift := 0, t24 := false, planar := false, decodeOnly := false }, [(0,
        [0, 0]), (64, [0, 0]), (128, [0, 0])], rj0 4 ([1] ++ List.replicate 6 0 ++ leBytes 8 0x1000 ++ leBytes 4 130
        ++ [1, 0, 0, 0] ++ leBytes 4 64),
        { so (rj0 4 ([1] ++ List.replicate 6 0 ++ leBytes 8 0x1000 ++ leBytes 4 130 ++ [1, 0, 0, 0] ++ leBytes 4 64)) with streams := [(1, { stl true with slots := [(1, { mark := .short, pending := true, width := 2, height := 2 })] })] },
        by decide +kernel⟩,
    ⟨32, 1, 1, rj0 5 ([1]),
        { so (rj0 5 ([1])) with streams := [(1, { stl false with slots := [(0, {}), (1, { mark := .short, pending := true, width := 16, height := 16, picId := -2 })] })] },
        by decide +kernel⟩,
    ⟨32, 1, rj0 5 ([255, 0, 0, 0, 0, 0, 0x80]),
        { so (rj0 5 ([255, 0, 0, 0, 0, 0, 0x80])) with streams := [(1, { stl false with slots := [(0, {}), (1, { mark := .short, pending := true, width := 16, height := 16, picId := -2 })] })] },
        by decide +kernel⟩,
    ⟨32, 1, 2, .invalidate 32, rj0 2 ([0]),
        { so (rj0 2 ([0])) with streams := [(1, { stl true with slots := [(0, {}), (1, { mark := .short, pending := true, width := 16, height := 16, picId := -2 })] })] },
        by decide +kernel⟩,
    ⟨32, 1, 3, .markLong 32, rj0 3 ([255]),
        { so (rj0 3 ([255])) with streams := [(1, { stl true with slots := [(0, {}), (1, { mark := .short, pending := true, width := 16, height := 16, picId := -2 })] })] },
        by decide +kernel⟩⟩

/-- States and operands that meet the hypotheses of `FrameReportRows`. -/
theorem witness_FrameReportRows :
    (∃ (j : Nat) (n : Nat) (p : FrameStart) (e : PersEntry) (x : Job) (s : State), s.calm = true ∧ s.job j = some x ∧
        x.stream = some n ∧ x.opcode = 0x10 ∧ x.phase = .running ∧ x.framed = false ∧ s.startsInOrder n x = true ∧
        s.image (s.stream n) = some e ∧ fv (s.effMode x (s.stream n)) 33 = 0) ∧
    (∃ (j : Nat) (n : Nat) (c : Nat) (k : Nat) (p : FrameClose) (x : Job) (s : State), s.calm = true ∧ s.job j = some
        x ∧ x.stream = some n ∧ x.opcode = 0x10 ∧ x.phase = .running ∧ x.framed = true ∧ x.reported = false ∧
        x.request = none ∧ x.cores = [c] ∧ s.tilesEnded j x = true ∧ s.unreachable (s.areas x) = false ∧ s.needsSecond
        x (assembled x p) = false ∧ x.outMode = 2 ∧ p.drop = [] ∧ x.slot = some k) ∧
    (∃ (j : Nat) (n : Nat) (overs : List (Option (List Byte))) (x : Job) (s : State), s.calm = true ∧ s.job j = some x
        ∧ x.stream = some n ∧ x.opcode = 0x11 ∧ x.phase = .ready ∧ x.framed = false ∧ (∀ y ∈ s.jobs, y.2.phase ≠
        .waiting) ∧ (∀ r, r < x.renditions → s.before j (x.rendStream r) = [] ∧ x.rend r 24 8 = 0) ∧ s.barred j
        x.queue = false ∧ s.ladderCheck x = none) ∧
    (∃ (j : Nat) (n : Nat) (k : Nat) (p : UnitPic) (x : Job) (s : State), s.calm = true ∧ s.job j = some x ∧ x.stream
        = some n ∧ x.opcode = 0x20 ∧ x.phase = .running ∧ x.reported = false ∧ x.framed = false ∧ s.parsesInOrder n x
        = true ∧ p.drop = [] ∧ p.shows = none ∧ x.slot = some k) ∧
    (∃ (j : Nat) (n : Nat) (e : UnitEnd) (x : Job) (s : State), s.calm = true ∧ s.job j = some x ∧ x.stream = some n ∧
        x.opcode = 0x20 ∧ x.phase = .running ∧ x.reported = false ∧ x.framed = true ∧ x.request = none ∧ x.bufs = [] ∧
        x.outSlot = none ∧ s.unreachable (s.areas x) = false ∧ s.lastGap x n = []) ∧
    (∃ (j : Nat) (n : Nat) (x : Job) (s : State), s.calm = true ∧ s.job j = some x ∧ x.stream = some n ∧ x.opcode =
        0x21 ∧ x.phase = .running ∧ s.before j n = [] ∧ x.reported = false ∧ x.bufs = [] ∧ x.staging = [] ∧ (s.stream
        n).drainOrder 17 [] = []) ∧
    (∃ (j : Nat) (n : Nat) (k : Nat) (e : Nat) (l : List Nat) (r : List (Nat × List Byte)) (x : Job) (s : State),
        s.calm = true ∧ s.job j = some x ∧ x.stream = some n ∧ x.opcode = 0x21 ∧ x.phase = .running ∧ s.before j n =
        [] ∧ x.reported = false ∧ x.bufs = [] ∧ x.request = none ∧ (s.stream n).drainOrder 17 [] = k :: l ∧ (s.stream
        n).formatCode k (s.stream n).lastFormat (s.stream n).lastPitch 0 = none ∧ s.pictureRuns n k (s.stream
        n).lastFormat (s.stream n).lastPitch 0 0 false = some (r, e)) := by
  exact ⟨⟨32, 1, { picType := 2, tid := 1, picId := -3, hdrBits := 100, window := [(2, 1)] }, ent1,
        { j0 with phase := .running, stream := some 1, slot := some 0, cores := [47], body := bd 0x10 1 (List.replicate 14 0 ++ [2] ++ List.replicate 17 0 ++ leBytes 8 77) },
        { so ({ j0 with phase := .running, stream := some 1, slot := some 0, cores := [47], body := bd 0x10 1 (List.replicate 14 0 ++ [2] ++ List.replicate 17 0 ++ leBytes 8 77) }) with streams := [(1, { stl true with nextKey := true, mode := modeOf blk, openVec := modeOf blk })] },
        by decide +kernel⟩,
    ⟨32, 1, 47, 0, { mark := 2, longIdx := 3, drop := [], head := [], staged := [] },
        { j0 with phase := .running, stream := some 1, slot := some 0, cores := [47], body := bd 0x10 1 (List.replicate 14 0 ++ [2] ++ List.replicate 17 0 ++ leBytes 8 77), framed := true },
        { so ({ j0 with phase := .running, stream := some 1, slot := some 0, cores := [47], body := bd 0x10 1 (List.replicate 14 0 ++ [2] ++ List.replicate 17 0 ++ leBytes 8 77), framed := true }) with streams := [(1, { stl true with nextKey := true, mode := modeOf blk, openVec := modeOf blk })], cores := [(47, { rc := [(1, { job := some 32, final := some 640 })] })] },
        by decide +kernel⟩,
    ⟨32, 1, [none, none],
        { j0 with phase := .ready, stream := some 1, ladder := (List.replicate 16 0 ++ leBytes 2 1 ++ List.replicate 46 0 ++ leBytes 2 2 ++ List.replicate 46 0), body := bd 0x11 1 (List.replicate 8 0 ++ leBytes 4 64 ++ [1, 0, 2]) },
        { so ({ j0 with phase := .ready, stream := some 1, ladder := (List.replicate 16 0 ++ leBytes 2 1 ++ List.replicate 46 0 ++ leBytes 2 2 ++ List.replicate 46 0), body := bd 0x11 1 (List.replicate 8 0 ++ leBytes 4 64 ++ [1, 0, 2]) }) with streams := [(1, { stl true with mode := setf (modeOf blk) 55 1 }), (2, { stl true with mode := setf (modeOf blk) 55 2 })], pers := { dir := [(0, { ent1 with flags := 7 })] } },
        by decide +kernel⟩,
    ⟨32, 1, 0,
        { picId := -4, outKey := 9, newCvs := true, mark := 2, longIdx := 1, pending := true, drop := [], shows := none, released := [255], grain := false },
        { j0 with phase := .running, stream := some 1, slot := some 0, cores := [47], body := bd 0x20 1 (List.replicate 32 0 ++ leBytes 8 77) },
        { so ({ j0 with phase := .running, stream := some 1, slot := some 0, cores := [47], body := bd 0x20 1 (List.replicate 32 0 ++ leBytes 8 77) }) with streams := [(1, { stl false with mode := modeOf blk })] },
        by decide +kernel⟩,
    ⟨32, 1, {},
        { j0 with phase := .running, stream := some 1, cores := [47], body := bd 0x20 1 (List.replicate 14 0 ++ [0]), framed := true },
        { so ({ j0 with phase := .running, stream := some 1, cores := [47], body := bd 0x20 1 (List.replicate 14 0 ++ [0]), framed := true }) with streams := [(1, { stl false with mode := modeOf blk })] },
        by decide +kernel⟩,
    ⟨32, 1, { j0 with phase := .running, stream := some 1, cores := [47], body := bd 0x21 1 ([]) },
        { so ({ j0 with phase := .running, stream := some 1, cores := [47], body := bd 0x21 1 ([]) }) with streams := [(1, { stl false with mode := modeOf blk })] },
        by decide +kernel⟩,
    ⟨32, 1, 1, 192 + 64, [], [(0, [0, 0]), (64, [0, 0]), (128, [0, 0]), (192, pictureRecord
        { mark := .short, pending := true, width := 2, height := 2 } 1 64 0)],
        { j0 with phase := .running, stream := some 1, cores := [47], body := bd 0x21 1 ([]) },
        { so ({ j0 with phase := .running, stream := some 1, cores := [47], body := bd 0x21 1 ([]) }) with streams := [(1, { stl false with lastFormat := 1, lastPitch := 64, slots := [(1, { mark := .short, pending := true, width := 2, height := 2 })] })] },
        by decide +kernel⟩⟩

/-- States and operands that meet the hypotheses of `PlacerRows`. -/
theorem witness_PlacerRows :
    (∃ (n : Nat) (c : Nat) (q : Nat) (s : State), s.calm = true ∧ (s.stream n).state ≠ .closed ∧ (s.stream n).homeless
        = false ∧ (s.stream n).rehome = none ∧ (c = 1 ∧ s.homeFaulted (s.stream n).home = true ∧ q = noQuad ∨ c = 2 ∧
        (s.active 5 0x068).getLsbD 30 = true ∧ s.localTarget (s.stream n) = some q ∨ c = 3 ∧ s.packMoves (s.stream n)
        = true ∧ q = noQuad)) ∧
    (∃ (n : Nat) (c : Nat) (q : Nat) (s : State), s.calm = true ∧ (s.stream n).state ≠ .closed ∧ (s.stream n).homeless
        = false ∧ (s.stream n).rehome = none ∧ (c = 1 ∧ s.homeFaulted (s.stream n).home = true ∧ q = noQuad ∨ c = 2 ∧
        (s.active 5 0x068).getLsbD 30 = true ∧ s.localTarget (s.stream n) = some q ∨ c = 3 ∧ s.packMoves (s.stream n)
        = true ∧ q = noQuad)) ∧
    (∃ (n : Nat) (c : Nat) (q : Nat) (s : State), s.calm = true ∧ (s.stream n).state ≠ .closed ∧ (s.stream n).homeless
        = false ∧ (s.stream n).rehome = none ∧ (c = 1 ∧ s.homeFaulted (s.stream n).home = true ∧ q = noQuad ∨ c = 2 ∧
        (s.active 5 0x068).getLsbD 30 = true ∧ s.localTarget (s.stream n) = some q ∨ c = 3 ∧ s.packMoves (s.stream n)
        = true ∧ q = noQuad)) ∧
    (∃ (n : Nat) (q : Nat) (b : Nat) (r : Rehome) (s : State), s.calm = true ∧ (s.stream n).rehome = some r ∧
        r.started = false ∧ s.hasPlaced n = false ∧ (∀ y ∈ s.streams, y.2.rehome = none ∨ y.1 = n ∧ y.2.rehome = some
        r) ∧ s.rehomeTarget n (s.stream n) r = some q ∧ s.fitBlock q (s.stream n).blockMib = some b) ∧
    (∃ (n : Nat) (r : Rehome) (s : State), s.calm = true ∧ (s.stream n).rehome = some r ∧ r.started = true ∧ s.noHomes
        r.target = false ∧ (r.rebuild || s.unreadable (s.stream n).home) = false) ∧
    (∃ (n : Nat) (r : Rehome) (s : State), s.calm = true ∧ (s.stream n).rehome = some r ∧ r.started = true ∧ s.noHomes
        r.target = false ∧ (r.rebuild || s.unreadable (s.stream n).home) = true) ∧
    (∃ (n : Nat) (q : Nat) (s : State), s.calm = true ∧ (s.stream n).homeless = true ∧ (s.stream n).state ≠ .closed ∧
        (s.stream n).rehome = none ∧ s.rehomeTarget n (s.stream n) { cause := 1, target := noQuad } = some q) ∧
    (∃ (n : Nat) (c : Nat) (q : Nat) (s : State), s.calm = true ∧ (s.stream n).homeless = false ∧ (s.stream n).state ≠
        .closed ∧ (s.stream n).rehome = none ∧ (s.stream n).again = some (c, q) ∧ q ≠ (s.stream n).home) ∧
    (∃ (v : Word) (s : State), s.hears 5 = true ∧ fld v 31 18 = 0 ∧ fld v 15 10 = 0 ∧ (s.stream (fld v 9 0)).state =
        .opened ∧ (s.stream (fld v 9 0)).rehome = none ∧ fld v 17 16 ≠ (s.stream (fld v 9 0)).home ∧ s.qualifies
        (s.stream (fld v 9 0)).mode (s.stream (fld v 9 0)).blockMib (fld v 17 16) = true) ∧
    (∃ (l : List Nat) (s : State), s.calm = true) ∧
    (∃ (n : Nat) (s : State), s.calm = true ∧ n < 48 ∧ (s.core n).slow = false ∧ s.ratioOf n < fld (s.active 5 0x060)
        15 0 ∧ (s.page (corePage n)).state ≠ .fenced ∧ (s.quad (n / 12)).parked = false ∧ (s.active 5 0x060).getLsbD
        24 = false) ∧
    (∃ (n : Nat) (s : State), s.calm = true ∧ n < 48 ∧ (s.core n).slow = true ∧ fld (s.active 5 0x060) 15 0 + 0x20 ≤
        s.ratioOf n ∧ (s.active 5 0x060).getLsbD 25 = false) ∧
    (∃ (q : Nat) (s : State), s.calm = true ∧ q < 4 ∧ s.mayPark q = true) ∧
    (∃ (q : Nat) (s : State), s.calm = true ∧ q < 4 ∧ (s.quad q).parked = true ∧ (s.quad q).waking = true ∧ (∀ i, i <
        12 → (s.page (corePage (12 * q + i))).groups = 0 ∧ (s.page (cdmaPage (12 * q + i))).groups = 0)) := by
  exact ⟨⟨1, 1, noQuad,
        { so j0 with streams := [(1, { stl false with home := 3 })], pages := [(160, { state := .fenced, cause := .fault })] },
        by decide +kernel⟩,
    ⟨1, 2, 3,
        { so j0 with streams := [(1, { stl false with home := 0, last64 := List.replicate 49 3 })], regs := [(regKey 5 0x868, 0x40000000), (regKey 160 0x840, 16), (regKey 160 0x844, 64)] },
        by decide +kernel⟩,
    ⟨1, 3, noQuad,
        { so j0 with streams := [(1, { stl false with home := 0 })], regs := [(regKey 5 0x840, 0x20FF), (regKey 5 0x868, 0x80000000), (regKey 160 0x840, 16), (regKey 160 0x844, 64)] },
        by decide +kernel⟩,
    ⟨1, 3, 0x1000000, { cause := 4, target := 3 },
        { so j0 with streams := [(1, { stl false with home := 0, rehome := some { cause := 4, target := 3 } })] },
        by decide +kernel⟩,
    ⟨1, { cause := 4, target := 3, started := true, base := 0x1000000 },
        { so j0 with streams := [(1, { stl false with home := 0, rehome := some { cause := 4, target := 3, started := true, base := 0x1000000 }, blockBase := 0, poolSlots := 1, slots := [(0, { mark := .short, width := 16, height := 16 })] })], mem := [(0x80000, 7)] },
        by decide +kernel⟩,
    ⟨1, { cause := 4, target := 3, started := true, base := 0x1000000 },
        { so j0 with streams := [(1, { stl false with home := 0, rehome := some { cause := 4, target := 3, started := true, base := 0x1000000 }, slots := [(0, { mark := .short, pending := true })] })], pages := [(20, { state := .fenced })] },
        by decide +kernel⟩,
    ⟨1, 3, { so j0 with streams := [(1, { stl false with home := 0, homeless := true })] }, by decide +kernel⟩,
    ⟨1, 3, 3, { so j0 with streams := [(1, { stl false with home := 0, again := some (3, 3) })] }, by decide +kernel⟩,
    ⟨0x30001, { so j0 with streams := [(1, { stl false with home := 0 })] }, by decide +kernel⟩,
    ⟨[1, 2, 3, 300], { so j0 with placer := { quads := [(3, { parked := true })] } }, by decide +kernel⟩,
    ⟨47, { so j0 with placer := { cores := [(47, { pt := 0 })] } }, by decide +kernel⟩,
    ⟨47,
        { so j0 with regs := [(regKey 5 0x860, 0x333)], placer := { cores := [(47, { pt := 0xFFF, slow := true })] } },
        by decide +kernel⟩,
    ⟨3,
        { m0 with regs := [(regKey 5 0x868, 0x80000000)], cores := [(47, { seqs := [(1, { stopped := true })], lanes := 255 })] },
        by decide +kernel⟩,
    ⟨3, { m0 with placer := { quads := [(3, { parked := true, waking := true })] } }, by decide +kernel⟩⟩

/-- States and operands that meet the hypotheses of `WaitAndLimitRows`. -/
theorem witness_WaitAndLimitRows :
    (∃ (n : Nat) (s : State), s.calm = true ∧ (s.stream n).state ≠ .closed) ∧
    (∃ (n : Nat) (s : State), s.calm = true ∧ (s.stream n).state ≠ .closed ∧ (s.stream n).saveB.age < (s.stream
        n).saveA.age) ∧
    (∃ (n : Nat) (s : State), s.calm = true ∧ (s.stream n).state ≠ .closed ∧ (s.stream n).saveA.age ≤ (s.stream
        n).saveB.age ∧ 0 < (s.stream n).saveB.age) ∧
    (∃ (n : Nat) (q : Nat) (j : Nat) (m : Nat) (i : Ins) (x : Job) (f : Surf) (s : State), s.guarded n q i = true ∧ q
        < 5 ∧ s.seqJob n q = some (j, x, m) ∧ (s.seq n q).wait = .scoreboard ∧ (s.seq n q).waiting = some (.sbwait n q
        i) ∧ s.surf x m ((s.seq n q).sreg i.a) = some f ∧ s.rowWordBad m f = none ∧ s.surfWait j x m f 0 (s.sint n q
        i.b) 1 = none) ∧
    (∃ (n : Nat) (q : Nat) (j : Nat) (a : Nat) (i : Ins) (k : Token) (l : List Token) (s : State), s.guarded n q i =
        true ∧ (s.seq n q).job = some j ∧ (s.seq n q).wait = .channel ∧ (s.seq n q).waiting = some (.chrecv n q i) ∧
        i.c < 8 ∧ s.ends j i.c = some (a, q) ∧ s.undrained n i.c j = false ∧ s.chq n i.c = k :: l ∧ 1 ≤ i.d ∧ i.d ≤
        30) ∧
    (∃ (n : Nat) (j : Nat) (m : Nat) (w : Nat) (h : Nat) (i : Ins) (l : List Host.Cell) (x : Job) (s : State), s.runs
        n 0 = true ∧ i.pg = 0 ∧ i.pn = false ∧ (s.seq n 0).wait = .source ∧ (s.seq n 0).waiting = some (.bld n 0 i l)
        ∧ kShape i.x = some (w, h) ∧ mPlane i.x < 3 ∧ mOx i.x = 0 ∧ mOy i.x = 0 ∧ fld i.x 11 0 = 0 ∧ s.seqJob n 0 =
        some (j, x, m) ∧ s.surf x m ((s.seq n 0).sreg i.c) = some .source ∧ s.owned n 0 [i.d] = none ∧ s.blockStop j x
        m .source l (mPlane i.x) (s.sint n 0 i.a) (s.sint n 0 i.b) w h = none) ∧
    (∃ (n : Nat) (s : State), s.calm = true ∧ n < 48 ∧ (s.seq n 0).wait = .source) ∧
    (∃ (n : Nat) (j : Nat) (l : List Nat) (s : State), s.calm = true ∧ n < 48 ∧ (s.core n).inside = j :: l ∧ (∀ q, q <
        6 → (s.seq n q).job = none ∨ stallFree (s.seq n q).wait = false)) ∧
    (∃ (n : Nat) (q : Nat) (j : Nat) (x : Job) (e : PersEntry) (s : State), s.calm = true ∧ n < 48 ∧ q < 6 ∧ (s.seq n
        q).job = some j ∧ s.job j = some x ∧ s.jobImage j = some e ∧ (s.seq n q).stopped = false ∧ (s.seq n q).graced
        = false ∧ fld (s.active (corePage n) 0x044) 15 0 * 4096 ≤ (s.seq n q).steps ∧ q = 5 ∧ s.strict x = false ∧
        s.jobEncode j = false) ∧
    (∃ (n : Nat) (q : Nat) (j : Nat) (x : Job) (e : PersEntry) (s : State), s.calm = true ∧ n < 48 ∧ q < 6 ∧ (s.seq n
        q).job = some j ∧ s.job j = some x ∧ s.jobImage j = some e ∧ (s.seq n q).stopped = false ∧ (s.seq n q).graced
        = false ∧ fld (s.active (corePage n) 0x044) 15 0 * 4096 ≤ (s.seq n q).steps ∧ (q ≠ 5 ∨ s.strict x = false ∧
        s.jobEncode j = true)) ∧
    (∃ (n : Nat) (q : Nat) (j : Nat) (x : Job) (e : PersEntry) (s : State), s.calm = true ∧ n < 48 ∧ q < 6 ∧ (s.seq n
        q).job = some j ∧ s.job j = some x ∧ s.jobImage j = some e ∧ (s.seq n q).stopped = false ∧ (s.seq n q).graced
        = false ∧ fld (s.active (corePage n) 0x044) 15 0 * 4096 ≤ (s.seq n q).steps ∧ (q ≠ 5 ∨ s.strict x = false ∧
        s.jobEncode j = true)) ∧
    (∃ (n : Nat) (j : Nat) (s : State), s.calm = true ∧ n < 48 ∧ (s.seq n 5).job = some j ∧ (s.seq n 5).stopped =
        false ∧ (s.seq n 5).graced = true ∧ fld (s.active (corePage n) 0x044) 23 16 * 4096 ≤ (s.seq n 5).steps) ∧
    (∃ (n : Nat) (d : Nat) (p : LookPass) (s : State), s.calm = true ∧ p.core < 48 ∧ s.corePowered p.core = true ∧
        (s.stream n).state ≠ .closed ∧ (s.stream n).encode = true ∧ (s.stream n).field 55 ≠ 2 ∧ (s.stream n).field 32
        ≠ 0 ∧ s.frameAt n d = true ∧ mget (s.stream n).look d = none ∧ (d = 0 ∨ (mget (s.stream n).look (d -
        1)).isSome = true ∨ s.frameAt n (d - 1) = false)) ∧
    (∃ (n : Nat) (s : State), s.calm = true ∧ n < 48 ∧ (s.seq n 0).wait = .source ∧ s.severity 74 = 1 ∨ s.severity 74
        = 2 ∧ (s.seq n 0).job = none) ∧
    (∃ (n : Nat) (j : Nat) (l : List Nat) (s : State), s.calm = true ∧ n < 48 ∧ (s.core n).inside = j :: l ∧ (∀ q, q <
        6 → (s.seq n q).job = none ∨ stallFree (s.seq n q).wait = false) ∧ s.severity 65 = 1) ∧
    (∃ (n : Nat) (q : Nat) (j : Nat) (x : Job) (e : PersEntry) (s : State), s.calm = true ∧ n < 48 ∧ q < 6 ∧ (s.seq n
        q).job = some j ∧ s.job j = some x ∧ s.jobImage j = some e ∧ (s.seq n q).stopped = false ∧ (s.seq n q).graced
        = false ∧ fld (s.active (corePage n) 0x044) 15 0 * 4096 ≤ (s.seq n q).steps ∧ (q ≠ 5 ∨ s.strict x = false ∧
        s.jobEncode j = true) ∧ s.severity 67 = 1) ∧
    (∃ (n : Nat) (j : Nat) (s : State), s.calm = true ∧ n < 48 ∧ (s.seq n 5).job = some j ∧ (s.seq n 5).stopped =
        false ∧ (s.seq n 5).graced = true ∧ fld (s.active (corePage n) 0x044) 23 16 * 4096 ≤ (s.seq n 5).steps ∧
        s.severity 67 = 1) ∧
    (∃ (n : Nat) (q : Nat) (j : Nat) (x : Job) (e : PersEntry) (s : State), s.calm = true ∧ n < 48 ∧ q < 6 ∧ (s.seq n
        q).job = some j ∧ s.job j = some x ∧ s.jobImage j = some e ∧ (s.seq n q).stopped = false ∧ (s.seq n q).graced
        = false ∧ fld (s.active (corePage n) 0x044) 15 0 * 4096 ≤ (s.seq n q).steps ∧ (q ≠ 5 ∨ s.strict x = false ∧
        s.jobEncode j = true) ∧ s.jobs = [(j, x)] ∧ x.live = true ∧ x.opcode ≠ 0x10 ∧ s.strict x = true ∧ s.severity
        67 = 2 ∧ s.faults.stop = .normal ∧ (s.page (corePage n)).state = .running) ∧
    (∃ (n j : Nat) (x : Job) (s : State), s.calm = true ∧ n < 48 ∧ (s.seq n 0).wait = .source ∧ (s.seq n 0).job = some
        j ∧ s.bare j x = true ∧ s.severity 74 = 2 ∧ s.faults.stop = .normal ∧ (s.page (corePage n)).state = .running) ∧
    (∃ (n j : Nat) (l : List Nat) (x : Job) (s : State), s.calm = true ∧ n < 48 ∧ (s.core n).inside = j :: l ∧ (∀ q, q
        < 6 → (s.seq n q).job = none ∨ stallFree (s.seq n q).wait = false) ∧ s.jobs = [(j, x)] ∧ x.live = true ∧
        x.opcode ≠ 0x10 ∧ s.strict x = true ∧ s.severity 65 = 2 ∧ s.faults.stop = .normal ∧ (s.page (corePage
        n)).state = .running) ∧
    (∃ (n j : Nat) (x : Job) (s : State), s.calm = true ∧ n < 48 ∧ (s.seq n 5).job = some j ∧ (s.seq n 5).stopped =
        false ∧ (s.seq n 5).graced = true ∧ fld (s.active (corePage n) 0x044) 23 16 * 4096 ≤ (s.seq n 5).steps ∧
        s.bare j x = true ∧ s.severity 67 = 2 ∧ s.faults.stop = .normal ∧ (s.page (corePage n)).state = .running) := by
  exact ⟨⟨1, { so j0 with streams := [(1, { stl false with home := 0 })] }, by decide +kernel⟩,
    ⟨1, { so j0 with streams := [(1, { stl false with home := 0, saveA := { age := 3 }, saveB := { age := 2 } })] },
        by decide +kernel⟩,
    ⟨1, { so j0 with streams := [(1, { stl false with home := 0, saveA := { age := 2 }, saveB := { age := 2 } })] },
        by decide +kernel⟩,
    ⟨47, 4, 32, 1, ins 0 1 0 0 0, jl, .slot 1 false, l0 true [] (sq 4
        { job := some 32, s := [(1, 1)], wait := .scoreboard, waiting := some (.sbwait 47 4 (ins 0 1 0 0 0)) }),
        by decide +kernel⟩,
    ⟨47, 4, 32, 3, ins 30 1 2 0 0, { val := 0xFFFFFFFF00000005, job := 32 }, [], l0 true [(3, 4)]
        { sq 4 { job := some 32, wait := .channel, waiting := some (.chrecv 47 4 (ins 30 1 2 0 0)) } with chans := [(0, [{ val := 0xFFFFFFFF00000005, job := 32 }])] },
        by decide +kernel⟩,
    ⟨47, 32, 1, 4, 4, ins 1 0 0 2 0, hst, jl,
        { l0 true [] (sq 0 { job := some 32, s := [(2, 0x20)], wait := .source, waiting := some (.bld 47 0 (ins 1 0 0 2 0) hst) }) with mem := [(0x8000, 16)], streams := [(1, { stl true with mode := setf (setf (modeOf blk) 45 1) 47 (2 ^ 63 + 0x8000) })] },
        by decide +kernel⟩,
    ⟨47,
        { l0 true [] (sq 0 { job := some 32, s := [(2, 0x20)], wait := .source, waiting := some (.bld 47 0 (ins 1 0 0 2 0) hst) }) with mem := [(0x8000, 16)], streams := [(1, { stl true with mode := setf (setf (modeOf blk) 45 1) 47 (2 ^ 63 + 0x8000) })] },
        by decide +kernel⟩,
    ⟨47, 32, [], l0 true [] (sq 4 { job := some 32 }), by decide +kernel⟩,
    ⟨47, 5, 32, jl, ent0 (par0 []), l0 false [] (sq 5 { job := some 32, steps := 65535 * 4096 }), by decide +kernel⟩,
    ⟨47, 5, 32, jl, ent0 (par0 []), l0 true [] (sq 5 { job := some 32, steps := 65535 * 4096 }), by decide +kernel⟩,
    ⟨47, 0, 32, jl, ent0 (par0 []), l0 false [] (sq 0 { job := some 32, steps := 65535 * 4096 }), by decide +kernel⟩,
    ⟨47, 32, l0 false [] (sq 5 { job := some 32, steps := 65535 * 4096, graced := true }), by decide +kernel⟩,
    ⟨1, 0,
        { core := 47, copy := [5], stats := [{ intra := 3, inter := 9, mv := 0 }, { intra := 8, inter := 2, mv := 0 }] },
        { l0 true [] {} with jobs := [(32, { jl with body := bd 0x10 1 [] })], streams := [(1, { stl true with mode := setf (modeOf blk) 32 8 })] },
        by decide +kernel⟩,
    ⟨47, { l0 true [] (sq 0 { wait := .source }) with regs := [(regKey 3 (0x840 + 4 * 37), 1)] }, by decide +kernel⟩,
    ⟨47, 32, [], { l0 true [] (sq 4 { job := some 32 }) with regs := [(regKey 3 (0x840 + 4 * 32), 0x10000)] },
        by decide +kernel⟩,
    ⟨47, 0, 32, jl, ent0 (par0 []),
        { l0 false [] (sq 0 { job := some 32, steps := 65535 * 4096 }) with regs := [(regKey 3 (0x840 + 4 * 33), 0x10000)] },
        by decide +kernel⟩,
    ⟨47, 32,
        { l0 false [] (sq 5 { job := some 32, steps := 65535 * 4096, graced := true }) with regs := [(regKey 3 (0x840 + 4 * 33), 0x10000)] },
        by decide +kernel⟩,
    ⟨47, 0, 32, jl, ent0 (par0 []),
        { l0 false [] (sq 0 { job := some 32, steps := 65535 * 4096 }) with streams := [(1, { stl false with mode := setf (setf (modeOf blk) 38 1) 0 0 })] },
        by decide +kernel⟩,
    ⟨47, 32, { j0 with phase := .running },
        { l0 true [] (sq 0 { job := some 32, wait := .source }) with jobs := [(32, { j0 with phase := .running })] },
        by decide +kernel⟩,
    ⟨47, 32, [], jl,
        { l0 true [] (sq 4 { job := some 32 }) with streams := [(1, { stl false with mode := setf (modeOf blk) 38 1 })] },
        by decide +kernel⟩,
    ⟨47, 32, { j0 with phase := .running },
        { l0 false [] (sq 5 { job := some 32, steps := 65535 * 4096, graced := true }) with jobs := [(32, { j0 with phase := .running })] },
        by decide +kernel⟩⟩

/-- States and operands that meet the hypotheses of `ModeAndPersonalityRows`. -/
theorem witness_ModeAndPersonalityRows :
    (∃ (s : State), s.hears 6 = true ∧ s.modes.owed < 4 ∧ s.modeBusy (fld (s.reg 6 0x080) 15 0) = 0) ∧
    (∃ (s : State), s.hears 6 = true ∧ s.modes.owed < 4 ∧ s.modeBusy (fld (s.reg 6 0x080) 15 0) ≠ 0) ∧
    (∃ (s : State), s.hears 6 = true ∧ s.modes.owed < 4 ∧ s.modeBusy (fld (s.reg 6 0x080) 15 0) ≠ 0) ∧
    (∃ (s : State), s.calm = true ∧ s.modes.state = .validating ∧ devRules s.modes.candidate = 0) ∧
    (∃ (s : State), s.calm = true ∧ s.modes.state = .validating ∧ devRules s.modes.candidate = 0) ∧
    (∃ (v : Nat) (s : State), s.calm = true ∧ s.modes.state = .validating ∧ devRules s.modes.candidate = 0 ∧ v ≠ 0) ∧
    (∃ (n : Nat) (s : State), s.calm = true ∧ n < 48 ∧ s.modes.laggards.getLsbD n = true ∧ s.atFrame n = true ∧
        s.lastForOld n = false) ∧
    (∃ (n : Nat) (s : State), s.calm = true ∧ n < 48 ∧ s.modes.laggards.getLsbD n = true ∧ s.atFrame n = true ∧
        s.lastForOld n = false ∧ s.coreEpoch n ≠ s.modes.current) ∧
    (∃ (a : BitVec 8) (m : Mailbox) (s : State), s.hears 6 = true ∧ s.modes.box.ack a.toNat = some m) ∧
    (∃ (h : Option (List Byte)) (s : State), s.calm = true ∧ s.modes.state = .validating) ∧
    (∃ (j : Nat) (n : Nat) (k : Nat) (h : Option (List Byte)) (e : PersEntry) (l : List Byte) (x : Job) (s : State),
        s.calm = true ∧ s.opJob j x n 0x01 = true ∧ s.blockHeld x = false ∧ s.modeBlock x h = .ok l ∧ blockNat l 0 2 =
        1 ∧ modeRsvOk l = true ∧ blockNat l 8 8 = 0 ∧ s.findPers (x.at 8 4) = some (k, e) ∧ bit e.flags (b2n (x.at 12
        1 == 1)) = true ∧ (validate e.id e.flags e.params (x.at 12 1 == 1) (s.loadCap (fv (modeOf l) 52)) (s.devField
        x.epoch 17 == 1) 0x0006 (modeOf l)).2 = 0x0006) ∧
    (∃ (j : Nat) (n : Nat) (h : Option (List Byte)) (l : List Byte) (x : Job) (s : State), s.calm = true ∧ s.opJob j x
        n 0x03 = true ∧ s.blockHeld x = false ∧ s.modeBlock x h = .ok l ∧ (s.checkParams x n l 0x0006).2 = 0x0006) ∧
    (∃ (g : PersImage) (k : Nat) (pb : Nat) (tb : Nat) (len : Nat) (src : Nat) (s : State), s.hears 17 = true ∧
        s.boot.state = .ready ∧ s.pers.busy = none ∧ len = fld (s.reg 17 0x108) 22 0 ∧ src = (s.reg 17 0x104).toNat *
        2 ^ 32 + (s.reg 17 0x100).toNat ∧ 64 ≤ len ∧ len ≤ 4194304 ∧ (isDev src = true → tagOk src = true ∧ s.readRun
        (devOf src) len = true) ∧ (isDev src = false → s.hostReach = true) ∧ PersImage_headerOk g len = true ∧
        g.sections.all PersSection.crcOk = true ∧ g.steppings.contains stepping = true ∧ (s.fuse.secureBoot = true →
        g.keyMatches = true ∧ g.sigValid = true) ∧ (∀ y ∈ s.pers.dir, y.2.id / 65536 ≠ g.id / 65536) ∧ (List.range
        16).find? (fun i => (mget s.pers.dir i).isNone) = some k ∧ firstFit progRoom g.progWords (s.pers.dir.map fun y
        => (y.2.progBase, y.2.progWords)) = some pb ∧ firstFit tabRoom g.tableWords (s.pers.dir.map fun y =>
        (y.2.tabBase, y.2.tabWords)) = some tb) ∧
    (∃ (g : PersImage) (k : Nat) (pb : Nat) (tb : Nat) (len : Nat) (src : Nat) (s : State), s.hears 17 = true ∧
        s.boot.state = .ready ∧ s.pers.busy = none ∧ len = fld (s.reg 17 0x108) 22 0 ∧ src = (s.reg 17 0x104).toNat *
        2 ^ 32 + (s.reg 17 0x100).toNat ∧ 64 ≤ len ∧ len ≤ 4194304 ∧ (isDev src = true → tagOk src = true ∧ s.readRun
        (devOf src) len = true) ∧ (isDev src = false → s.hostReach = true) ∧ PersImage_headerOk g len = true ∧
        g.sections.all PersSection.crcOk = true ∧ g.steppings.contains stepping = true ∧ (s.fuse.secureBoot = true →
        g.keyMatches = true ∧ g.sigValid = true) ∧ (∀ y ∈ s.pers.dir, y.2.id / 65536 ≠ g.id / 65536) ∧ (List.range
        16).find? (fun i => (mget s.pers.dir i).isNone) = some k ∧ firstFit progRoom g.progWords (s.pers.dir.map fun y
        => (y.2.progBase, y.2.progWords)) = some pb ∧ firstFit tabRoom g.tableWords (s.pers.dir.map fun y =>
        (y.2.tabBase, y.2.tabWords)) = some tb) ∧
    (∃ (k : Nat) (s : State), k < 16 ∧ s.hears 17 = true ∧ s.boot.state = .ready ∧ s.pers.busy = none ∧ mget
        s.pers.dir k = none) ∧
    (∃ (k : Nat) (s : State), k < 16 ∧ s.hears 17 = true ∧ s.boot.state = .ready ∧ s.pers.busy = none ∧ (mget
        s.pers.dir k).isSome = true ∧ (∃ y ∈ s.streams, y.2.state ≠ .closed ∧ y.2.pers = k)) ∧
    (∃ (k : Nat) (s : State), k < 16 ∧ s.hears 17 = true ∧ s.boot.state = .ready ∧ s.pers.busy = none ∧ (mget
        s.pers.dir k).isSome = true ∧ (∀ y ∈ s.streams, y.2.state ≠ .closed → y.2.pers ≠ k)) := by
  exact ⟨⟨{ r0 with pages := [(6, { state := .idle })], regs := [(regKey 6 0x080, 1)] }, by decide +kernel⟩,
    ⟨{ r0 with pages := [(6, { state := .idle })], regs := [(regKey 6 0x080, 1)], jobs := [(32, { j0 with epoch := 7 })] },
        by decide +kernel⟩,
    ⟨{ r0 with pages := [(6, { state := .idle })], regs := [(regKey 6 0x080, 1)], modes := { state := .mixed } },
        by decide +kernel⟩,
    ⟨{ r0 with pages := [(6, { state := .idle })], regs := [(regKey 6 0x080, 1)], modes := { state := .validating, asked := 1, candidate := devDefaults, vec := [9] } },
        by decide +kernel⟩,
    ⟨{ r0 with pages := [(6, { state := .idle }), (corePage 47, { state := .idle, enable := true })], regs := [(regKey 6 0x080, 1)], modes := { state := .validating, asked := 1, candidate := devDefaults, vec := [9] } },
        by decide +kernel⟩,
    ⟨5,
        { r0 with pages := [(6, { state := .idle })], regs := [(regKey 6 0x080, 1)], modes := { state := .validating, asked := 1, candidate := devDefaults, vec := [9] } },
        by decide +kernel⟩,
    ⟨47,
        { m0 with modes := { current := 5, laggards := 1 <<< 47 }, pages := [(corePage 47, { state := .idle, enable := true, epoch := 4 })] },
        by decide +kernel⟩,
    ⟨0,
        { m0 with modes := { current := 5, laggards := 1 }, pages := [(corePage 0, { state := .idle, enable := true, epoch := 3 })] },
        by decide +kernel⟩,
    ⟨255, { current := some (1, 7, 8), seq := 1, waiting := [] },
        { r0 with pages := [(6, { state := .idle })], regs := [(regKey 6 0x080, 1)], modes := { box := { current := some (255, 3, 4), seq := 255, waiting := [(7, 8)] } } },
        by decide +kernel⟩,
    ⟨none,
        { r0 with pages := [(6, { state := .idle })], regs := [(regKey 6 0x080, 1)], modes := { state := .validating, asked := 1, candidate := devDefaults, vec := [9] } },
        by decide +kernel⟩,
    ⟨32, 1, 0, some blk, ent1, blk, (oj 0x01 (leBytes 8 3 ++ leBytes 4 256 ++ List.replicate 28 0 ++ leBytes 8
        0x1000)), so (oj 0x01 (leBytes 8 3 ++ leBytes 4 256 ++ List.replicate 28 0 ++ leBytes 8 0x1000)),
        by decide +kernel⟩,
    ⟨32, 1, some (leBytes 2 1 ++ List.replicate 6 0 ++ leBytes 8 (2 ^ 43) ++ List.replicate 80 0 ++ leBytes 2 80 ++
        List.replicate 158 0), (leBytes 2 1 ++ List.replicate 6 0 ++ leBytes 8 (2 ^ 43) ++ List.replicate 80 0 ++
        leBytes 2 80 ++ List.replicate 158 0), oj 0x03 (leBytes 8 0 ++ leBytes 4 256 ++ List.replicate 28 0 ++ leBytes
        8 0x1000),
        { so (oj 0x03 (leBytes 8 0 ++ leBytes 4 256 ++ List.replicate 28 0 ++ leBytes 8 0x1000)) with streams := [(1, { stl false with mode := modeOf blk, openVec := modeOf blk, poolSlots := 1, k := 1 })] },
        by decide +kernel⟩,
    ⟨{ magic := 0x50565453, id := 0x010203, len := 256, format := 1, flags := 3, steppings := [0xB0], progWords := 31744, tableWords := 1, sections := [{ kind := 1, off := 64, len := 64, crcOk := true }], keyMatches := false, sigValid := false, prog := [5], tables := [6], relocs := [], params := par0 [] },
        15, 0, 32255, 256, 2 ^ 63 + 64,
        { m0 with pages := [(17, { state := .idle })], regs := [(regKey 17 0x108, 256), (regKey 17 0x104, 0x80000000), (regKey 17 0x100, 64)], pers := { dir := (List.range 15).map (fun i => (i, { ent0 (par0 []) with id := i * 65536 + 0x100000, progWords := 0, tabBase := 0, tabWords := 32255 })) } },
        by decide⟩,
    ⟨{ magic := 0x50565453, id := 0x010203, len := 4194304, format := 1, flags := 3, steppings := [0xB0], progWords := 31744, tableWords := 1, sections := [{ kind := 1, off := 64, len := 64, crcOk := true }], keyMatches := false, sigValid := false, prog := [5], tables := [6], relocs := [], params := par0 [] },
        15, 0, 32255, 4194304, 64,
        { m0 with pages := [(17, { state := .idle })], regs := [(regKey 17 0x108, 4194304), (regKey 17 0x100, 64)], pers := { dir := (List.range 15).map (fun i => (i, { ent0 (par0 []) with id := i * 65536 + 0x100000, progWords := 0, tabBase := 0, tabWords := 32255 })) } },
        by decide⟩,
    ⟨14, { r0 with pages := [(17, { state := .idle })], pers := { dir := [(15, ent1)] } }, by decide +kernel⟩,
    ⟨15,
        { r0 with pages := [(17, { state := .idle })], pers := { dir := [(15, ent1)] }, streams := [(1, { stl true with pers := 15 })] },
        by decide +kernel⟩,
    ⟨15,
        { r0 with pages := [(17, { state := .idle })], pers := { dir := [(15, ent1)] }, streams := [(1, { stl true with pers := 14 }), (2, { pers := 15 })] },
        by decide +kernel⟩⟩

/-- States and operands that meet the hypotheses of `NetworkIngestRows`. -/
theorem witness_NetworkIngestRows :
    (∃ (p : Nat) (l : Nat) (f : RxFrame) (s : State), s.calm = true ∧ s.linkOk p l = true ∧ (s.link (s.linkOf p l)).up
        = true ∧ f.fec = 0 ∧ f.fcsOk = false) ∧
    (∃ (p : Nat) (l : Nat) (f : RxFrame) (s : State), s.calm = true ∧ s.linkOk p l = true ∧ (s.link (s.linkOf p l)).up
        = true ∧ f.fec = 0 ∧ f.fcsOk = true ∧ (f.bytes.length + 4 < 64 ∨ s.maxFrame p < f.bytes.length + 4)) ∧
    (∃ (p : Nat) (l : Nat) (f : RxFrame) (s : State), s.calm = true ∧ s.linkOk p l = true ∧ (s.link (s.linkOf p l)).up
        = true ∧ f.fec = 0 ∧ f.fcsOk = true ∧ (f.bytes.length + 4 < 64 ∨ s.maxFrame p < f.bytes.length + 4)) ∧
    (∃ (p : Nat) (l : Nat) (i : Nat) (f : RxFrame) (key : List Byte) (pay : List Byte) (port : Nat) (x : Flow) (s :
        State), s.calm = true ∧ s.linkOk p l = true ∧ (s.link (s.linkOf p l)).up = true ∧ f.fec = 0 ∧ f.fcsOk = true ∧
        64 ≤ f.bytes.length + 4 ∧ f.bytes.length + 4 ≤ s.maxFrame p ∧ ((List.range 8).map fun c => f.held.getD c
        0).sum + f.bytes.length + 4 ≤ s.rxRoom p ∧ beAt f.bytes 12 2 ≠ 0x8808 ∧ parseFrame f.bytes = .udp key port pay
        ∧ s.lookup key pay = .flow i ∧ s.flow i = some x ∧ x.action = 0) ∧
    (∃ (p : Nat) (l : Nat) (k : Nat) (f : RxFrame) (s : State), s.calm = true ∧ s.linkOk p l = true ∧ (s.link
        (s.linkOf p l)).up = true ∧ f.fec = 0 ∧ f.fcsOk = true ∧ 64 ≤ f.bytes.length + 4 ∧ f.bytes.length + 4 ≤
        s.maxFrame p ∧ ((List.range 8).map fun c => f.held.getD c 0).sum + f.bytes.length + 4 ≤ s.rxRoom p ∧ beAt
        f.bytes 12 2 ≠ 0x8808 ∧ parseFrame f.bytes = .bad k) ∧
    (∃ (p : Nat) (l : Nat) (k : Nat) (f : RxFrame) (s : State), s.calm = true ∧ s.linkOk p l = true ∧ (s.link
        (s.linkOf p l)).up = true ∧ f.fec = 0 ∧ f.fcsOk = true ∧ 64 ≤ f.bytes.length + 4 ∧ f.bytes.length + 4 ≤
        s.maxFrame p ∧ ((List.range 8).map fun c => f.held.getD c 0).sum + f.bytes.length + 4 ≤ s.rxRoom p ∧ beAt
        f.bytes 12 2 ≠ 0x8808 ∧ parseFrame f.bytes = .bad k) ∧
    (∃ (p : Nat) (l : Nat) (m : BitVec 8) (qs : List Nat) (s : State), s.calm = true ∧ s.linkOk p l = true ∧ (s.link
        (s.linkOf p l)).up = true ∧ (s.portCfg p).getLsbD 21 = true) ∧
    (∃ (p : Nat) (l : Nat) (q : Nat) (s : State), s.calm = true ∧ s.linkOk p l = true ∧ (s.link (s.linkOf p l)).up =
        true ∧ (s.portCfg p).getLsbD 22 = true ∧ q % 65536 ≠ 0) ∧
    (∃ (p : Nat) (l : Nat) (c : Nat) (s : State), s.calm = true ∧ s.linkOk p l = true) ∧
    (∃ (p : Nat) (l : Nat) (c : Nat) (h : Nat) (s : State), s.calm = true ∧ s.linkOk p l = true ∧ c < 8 ∧ (s.link
        (s.linkOf p l)).xoff.contains c = true ∧ (s.xoffAt p).2 < h) ∧
    (∃ (p : Nat) (l : Nat) (c : Nat) (h : Nat) (s : State), s.calm = true ∧ s.linkOk p l = true ∧ c < 8 ∧ (s.link
        (s.linkOf p l)).xoff.contains c = true ∧ h ≤ (s.xoffAt p).2) ∧
    (∃ (p : Nat) (l : Nat) (s : State), s.calm = true ∧ s.linkOk p l = true ∧ (s.link (s.linkOf p l)).up = false) ∧
    (∃ (p : Nat) (l : Nat) (s : State), s.calm = true ∧ s.linkOk p l = true ∧ (s.link (s.linkOf p l)).up = true) ∧
    (∃ (g : Nat) (s : State), s.calm = true ∧ (s.merge g).waiting = true) ∧
    (∃ (d : Nat) (r : RawDepack) (f : RawFrame) (y : Nat × Flow) (s : State), s.calm = true ∧ mget s.net.raws d = some
        r ∧ r.frames.find? RawFrame.late = some f ∧ s.net.flows.find? (fun x => x.2.action == 4 && x.2.target == d) =
        some y ∧ s.flow y.1 = some y.2) ∧
    (∃ (g k : Nat) (h : MergeFrame) (f : Flow) (r : Rtp) (s : State), s.calm = true ∧ (s.merge g).waiting = true ∧
        (s.merge g).next = some k ∧ (s.merge g).held = [h] ∧ s.flow h.flow = some f ∧ f.depack ≠ 3 ∧ parseRtp h.pay =
        some r ∧ f.pt ≠ 255 ∧ r.pt ≠ f.pt) := by
  exact ⟨⟨1, 3, { bytes := rxf, fcsOk := false, held := [], fec := 0 }, n0 ({ up := true }) ([]), by decide +kernel⟩,
    ⟨1, 3, { bytes := rxf.take 59, fcsOk := true, held := [], fec := 0 }, n0 ({ up := true }) ([]), by decide +kernel⟩,
    ⟨1, 3, { bytes := rxf ++ List.replicate 9000 0, fcsOk := true, held := [], fec := 0 }, n0 ({ up := true }) ([]),
        by decide +kernel⟩,
    ⟨1, 3, rxAt, { bytes := rxf, fcsOk := true, held := [1, 2], fec := 0 }, rxKey, [], 5004,
        { key := rxKey, data := dropData, packets := 2 ^ 64 - 1 }, n0 ({ up := true }) ([(rxAt,
        { key := rxKey, data := dropData, packets := 2 ^ 64 - 1 })]), by decide +kernel⟩,
    ⟨1, 3, 3, { bytes := rxf.set 14 0x46, fcsOk := true, held := [], fec := 0 }, n0 ({ up := true }) ([]),
        by decide +kernel⟩,
    ⟨1, 3, 4, { bytes := rxf.set 39 7, fcsOk := true, held := [], fec := 0 }, n0 ({ up := true }) ([]),
        by decide +kernel⟩,
    ⟨1, 3, 0x81, [5, 0, 0, 0, 0, 0, 0, 0], n0 ({ up := true, paused := [(1, 9), (7, 9)] }) ([]), by decide +kernel⟩,
    ⟨1, 3, 65535, n0 ({ up := true }) ([]), by decide +kernel⟩,
    ⟨1, 3, 7, n0 ({ up := true, paused := [(1, 9), (7, 9)] }) ([]), by decide +kernel⟩,
    ⟨1, 3, 7, 2 ^ 20, n0 ({ up := true, xoff := [3, 7] }) ([]), by decide +kernel⟩,
    ⟨1, 3, 7, 0, n0 ({ up := true, xoff := [3, 7] }) ([]), by decide +kernel⟩,
    ⟨1, 3, n0 ({}) ([]), by decide +kernel⟩,
    ⟨1, 3, n0 ({ up := true, paused := [(1, 9)], xoff := [2] }) ([]), by decide +kernel⟩,
    ⟨2047,
        { n0 ({ up := true }) ([]) with net := { flows := [(rxAt, { key := rxKey, data := dropData })], merges := [(2047, { next := some 65535, held := [{ flow := rxAt, port := 1, seq := 1, pay := [] }], waiting := true })] } },
        by decide +kernel⟩,
    ⟨3,
        { base := 0x100000, stride := 0x1000, count := 2, pitch := 64, width := 16, height := 2, rowAddr := 0x8000, frames := [{ k := 0, ts := 5, first := 6 }, { k := 1, ts := 5, first := 6, late := true }] },
        { k := 1, ts := 5, first := 6, late := true }, (rxAt,
        { key := rxKey, data := [4] ++ List.replicate 7 0 ++ [3] ++ List.replicate 23 0 }),
        { n0 ({ up := true }) ([]) with net := { flows := [(rxAt, { key := rxKey, data := [4] ++ List.replicate 7 0 ++ [3] ++ List.replicate 23 0 })], raws := [(3, { base := 0x100000, stride := 0x1000, count := 2, pitch := 64, width := 16, height := 2, rowAddr := 0x8000, frames := [{ k := 0, ts := 5, first := 6 }, { k := 1, ts := 5, first := 6, late := true }] })] } },
        by decide +kernel⟩,
    ⟨2047, 65535, { flow := rxAt, port := 1, seq := 1, pay := [0x80] ++ List.replicate 12 0 },
        { key := rxKey, data := (dropData.set 0 1).set 14 96 },
        { marker := false, pt := 0, seq := 0, ts := 0, ext := false, pay := [0] },
        { n0 ({ up := true }) ([]) with net := { flows := [(rxAt, { key := rxKey, data := (dropData.set 0 1).set 14 96 })], merges := [(2047, { next := some 65535, held := [{ flow := rxAt, port := 1, seq := 1, pay := [0x80] ++ List.replicate 12 0 }], waiting := true })] } },
        by decide +kernel⟩⟩

/-- States and operands that meet the hypotheses of `FlowTableRows`. -/
theorem witness_FlowTableRows :
    (∃ (h : Option (List Byte)) (s : State), s.hears 14 = true ∧ keyOk s.cmdKey = false ∧ s.descWaits s.cmdData = false)
        ∧
    (∃ (h : Option (List Byte)) (s : State), s.hears 14 = true ∧ keyOk s.cmdKey = true ∧ s.descWaits s.cmdData = false ∧
        s.findFlow s.cmdKey = none) ∧
    (∃ (i : Nat) (h : Option (List Byte)) (s : State), s.hears 14 = true ∧ keyOk s.cmdKey = true ∧ s.descWaits s.cmdData
        = false ∧ s.findFlow s.cmdKey = some i) ∧
    (∃ (i : Nat) (h : Option (List Byte)) (s : State), s.hears 14 = true ∧ keyOk s.cmdKey = true ∧ s.descWaits s.cmdData
        = false ∧ s.findFlow s.cmdKey = some i ∧ (s.flow i).isSome = true) ∧
    (∃ (i : Nat) (h : Option (List Byte)) (f : Flow) (s : State), s.hears 14 = true ∧ keyOk s.cmdKey = true ∧
        s.descWaits s.cmdData = false ∧ s.findFlow s.cmdKey = none ∧ f = { key := s.cmdKey, data := s.cmdData } ∧
            (bucket 0 (crc32c s.cmdKey) ++ bucket 1 (crc32c s.cmdKey)).find? (fun e => (s.flow e).isNone) = some i ∧
            s.entryCheck i f (s.readDesc s.cmdData h) false = 0) ∧
    (∃ (h : Option (List Byte)) (s : State), s.hears 14 = true ∧ keyOk s.cmdKey = true ∧ s.descWaits s.cmdData = false ∧
        s.findFlow s.cmdKey = none ∧ (bucket 0 (crc32c s.cmdKey) ++ bucket 1 (crc32c s.cmdKey)).find? (fun e => (s.flow
            e).isNone) = none ∧ s.entryCheck 65536 { key := s.cmdKey, data := s.cmdData } (s.readDesc s.cmdData h) false
            = 0) ∧
    (∃ (i : Nat) (f : Flow) (s : State), s.hears 14 = true ∧ keyOk s.cmdKey = true ∧ s.findFlow s.cmdKey = some i ∧
        s.flow i = some f) ∧
    (∃ (i : Nat) (h : Option (List Byte)) (f : Flow) (s : State), s.hears 14 = true ∧ keyOk s.cmdKey = true ∧
        s.descWaits s.cmdData = false ∧ s.findFlow s.cmdKey = some i ∧ s.flow i = some f ∧ s.entryCheck i
            { f with data := s.cmdData } (s.readDesc s.cmdData h) (!f.rebinds { f with data := s.cmdData }) = 0) ∧
    (∃ (m : Nat) (s : State), s.hears 15 = true ∧ m < 4096 ∧ meterOk (s.meter m).cfg = true) ∧
    (∃ (m : Nat) (s : State), s.hears 15 = true ∧ m < 4096 ∧ meterOk (s.meter m).cfg = false) := by
  exact ⟨⟨none, { n0 {} ([]) with regs := [(regKey 14 0x100, 0x1000)] }, by decide +kernel⟩,
    ⟨none, { n0 {} ([]) with regs := keyRegs }, by decide +kernel⟩,
    ⟨rxAt, none, { n0 {} ([(rxAt, { key := rxKey, data := dropData, packets := 7 })]) with regs := keyRegs },
        by decide +kernel⟩,
    ⟨rxAt, none, { n0 {} ([(rxAt, { key := rxKey, data := dropData, packets := 7 })]) with regs := keyRegs },
        by decide +kernel⟩,
    ⟨rxAt, none, { key := rxKey, data := dropData },
        { n0 {} ((bucket 0 (crc32c rxKey) ++ bucket 1 (crc32c rxKey)).dropLast.map (fun i => (i, { key := [], data := [] }))) with regs := keyRegs },
            by decide +kernel⟩,
    ⟨none, { n0 {} ((bucket 0 (crc32c rxKey) ++ bucket 1 (crc32c rxKey)).map (fun i => (i, { key := [], data := [] }))) with regs := keyRegs },
        by decide +kernel⟩,
    ⟨rxAt, { key := rxKey, data := dropData, packets := 7 },
        { n0 {} ([(rxAt, { key := rxKey, data := dropData, packets := 7 })]) with regs := keyRegs }, by decide +kernel⟩,
    ⟨rxAt, none, { key := rxKey, data := [1] ++ List.replicate 31 0, packets := 7 },
        { n0 {} ([(rxAt, { key := rxKey, data := [1] ++ List.replicate 31 0, packets := 7 })]) with regs := keyRegs },
            by decide +kernel⟩,
    ⟨4095, { n0 {} [] with net := { meters := [(4095, { cfg := [1] ++ leBytes 3 64 ++ leBytes 4 1 ++ List.replicate 8 0, dropped := 9 })] } },
        by decide +kernel⟩,
    ⟨4095, { n0 {} [] with net := { meters := [(4095, { cfg := [1] ++ leBytes 3 63 ++ leBytes 4 1 ++ List.replicate 8 0, dropped := 9 })] } },
        by decide +kernel⟩⟩

/-- States and operands that meet the hypotheses of `EgressRows`. -/
theorem witness_EgressRows :
    (∃ (p : Nat) (q : Nat) (h : Option (List Byte)) (r : Option (List Byte)) (s : State), p < 2 ∧ q < 4096 ∧ s.hears
        (12 + p) = true ∧ (s.egressQ q).port ≠ p) ∧
    (∃ (p : Nat) (q : Nat) (h : Option (List Byte)) (r : Option (List Byte)) (s : State), p < 2 ∧ q < 4096 ∧ s.hears
        (12 + p) = true ∧ (s.egressQ q).port = p ∧ (s.egressQ q).enabled = true) ∧
    (∃ (p : Nat) (q : Nat) (h : Option (List Byte)) (r : Option (List Byte)) (s : State), p < 2 ∧ q < 4096 ∧ s.hears
        (12 + p) = true ∧ (s.egressQ q).port = p ∧ (s.egressQ q).enabled = false ∧ eqFieldsOk (s.egressQ q) = false) ∧
    (∃ (p : Nat) (q : Nat) (h : Option (List Byte)) (r : Option (List Byte)) (s : State), p < 2 ∧ q < 4096 ∧ s.hears
        (12 + p) = true ∧ (s.egressQ q).port = p ∧ (s.egressQ q).enabled = false ∧ eqFieldsOk (s.egressQ q) = true ∧
        (s.egressQ q).kind = 0 ∧ (s.egressQ q).twinEn = false) ∧
    (∃ (p : Nat) (q : Nat) (h : Option (List Byte)) (r : Option (List Byte)) (s : State) (l : List Byte), p < 2 ∧ q <
        4096 ∧ s.hears (12 + p) = true ∧ (s.egressQ q).port = p ∧ (s.egressQ q).enabled = false ∧ eqFieldsOk
        (s.egressQ q) = true ∧ 3 ≤ (s.egressQ q).kind ∧ (s.egressQ q).twinEn = false ∧ (isDev ((s.egressQ q).at 8 8) =
        true ∨ s.hostReach = true) ∧ s.readTagged ((s.egressQ q).at 8 8) 128 h = some l ∧ templateOk
        { s.egressQ q with hdr := l } = true ∧ ({ s.egressQ q with hdr := l } : EgressQ).largest + 4 ≤ s.maxFrame p) ∧
    (∃ (p : Nat) (q : Nat) (h : Option (List Byte)) (r : Option (List Byte)) (s : State), p < 2 ∧ q < 4096 ∧ s.hears
        (12 + p) = true ∧ (s.egressQ q).port = p ∧ (s.egressQ q).build = [] ∧ (s.egressQ q).ready = [] ∧ (s.egressQ
        q).copies = [] ∧ (s.egressQ q).esFrees = []) ∧
    (∃ (p : Nat) (q : Nat) (h : Option (List Byte)) (r : Option (List Byte)) (s : State), p < 2 ∧ q < 4096 ∧ s.hears
        (12 + p) = true ∧ (s.egressQ q).port = p ∧ (s.egressQ q).enabled = true ∧ (s.egressQ q).isTs = true) ∧
    (∃ (q : Nat) (h : Option (List Byte)) (s : State), s.calm = true ∧ q < 4096 ∧ (s.egressQ q).enabled = true ∧
        (s.egressQ q).isTs = true ∧ (s.egressQ q).psiAsked = false) ∧
    (∃ (q : Nat) (h : Option (List Byte)) (s : State), s.calm = true ∧ q < 4096 ∧ (s.egressQ q).enabled = true ∧
        (s.egressQ q).isTs = true ∧ (s.egressQ q).stc ≠ none) ∧
    (∃ (p l d k c e n : Nat) (u : State) (sc : Sched) (cs qs : List Member) (picks : List (Option (Nat × List
        Member))) (b : Piece) (r : List Piece) (s : State), s.calm = true ∧ s.linkOk p l = true ∧ k = s.linkOf p l ∧
        (s.page (12 + p)).groups = 0 ∧ u = s.rejoinLink k ∧ sc = mgetD u.net.scheds k {} ∧ picks = (List.range 8).map
        (fun c => u.pickQueue sc c) ∧ pickMember (fun c => match picks.getD c none with
          | some (e, _) => u.eqNeed e
          | none => 0) (pickFuel sc.classes) sc.classes = some (c, cs) ∧ picks.getD c none = some (e, qs) ∧
        n = u.eqNeed e ∧ (s.egressQ e).kind = 0 ∧ (s.egressQ e).copies = [] ∧ (s.egressQ e).ready = b :: r ∧ b.frees = [] ∧ b.stamp =
        none) ∧
    (∃ (k : Nat) (e : Nat) (t : Nat) (s : State), (s.egressQ e).copies = [] ∧ (s.egressQ e).kind = 0 ∧ (s.egressQ
        e).ready ≠ [] ∧ (∀ x ∈ (s.egressQ e).ready, x.frees = [] ∧ x.stamp = none)) ∧
    (∃ (p : Nat) (v : Word) (s : State), p < 2 ∧ s.hears (12 + p) = true ∧ fld v 30 4 = 0 ∧ 4 ≤ fld v 3 0 ∧ fld v 3 0
        ≤ 12 ∧ v.getLsbD 31 = true ∧ (s.port p).stamps.en = false) ∧
    (∃ (q : Nat) (e : Nat) (p : Packet) (l : List Packet) (h : Option (List Byte)) (s : State), s.calm = true ∧ q <
        4096 ∧ (s.clq q).enabled = true ∧ (s.clq q).cfg.consumer = 1 ∧ (s.clq q).cfg.consumerId = e ∧ (s.clq
        q).reading = none ∧ (s.clq q).complete = p :: l ∧ (s.clq q).flushPending = false ∧ s.netUp = true ∧
        p.crust.typ = .data ∧ s.isTwin e = false ∧ (s.egressQ e).enabled = true ∧ (s.link (s.eqLink (s.egressQ e))).up
        = true ∧ (s.egressQ e).kind = 0 ∧ (s.egressQ e).ready = [] ∧ p.payload.length + 4 ≤ s.maxFrame (s.egressQ
        e).port ∧ bit p.crust.tag 15 = false) ∧
    (∃ (q : Nat) (e : Nat) (p : Packet) (l : List Packet) (h : Option (List Byte)) (s : State), s.calm = true ∧ q <
        4096 ∧ (s.clq q).enabled = true ∧ (s.clq q).cfg.consumer = 1 ∧ (s.clq q).cfg.consumerId = e ∧ (s.clq
        q).reading = none ∧ (s.clq q).complete = p :: l ∧ (s.clq q).flushPending = false ∧ s.netUp = true ∧
        p.crust.typ = .data ∧ s.isTwin e = false ∧ (s.egressQ e).enabled = false) := by
  exact ⟨⟨0, 4095, none, none, { n1 { cfg := eqc 0 0 } with pages := [(12, { state := .idle })] }, by decide +kernel⟩,
    ⟨1, 4095, none, none, n1 { cfg := eqc 0 0, enabled := true }, by decide +kernel⟩,
    ⟨1, 4095, none, none, n1 { cfg := eqc 0 1 }, by decide +kernel⟩,
    ⟨1, 4095, none, none, n1 { cfg := eqc 0 0 }, by decide +kernel⟩,
    ⟨1, 4095, some tmpl, none, n1 { cfg := eqc 3 8900 }, tmpl, by decide +kernel⟩,
    ⟨1, 4095, none, none, n1 { cfg := eqc 0 0, enabled := true, sent := 5, discarded := 6 }, by decide +kernel⟩,
    ⟨1, 4095, none, none, n1 { cfg := eqc 1 0, enabled := true }, by decide +kernel⟩,
    ⟨4095, none, n1 { cfg := eqc 1 0, enabled := true }, by decide +kernel⟩,
    ⟨4095, none, n1 { cfg := eqc 1 0, enabled := true, stc := some (5, 6) }, by decide +kernel⟩,
    ⟨1, 3, 1000, 7, 7, 4095, (nd.rejoinLink 7).eqNeed 4095, nd.rejoinLink 7, mgetD (nd.rejoinLink 7).net.scheds 7 {},
        [{ id := 7, deficit := 1000, fresh := false, quantum := 1000 }],
        [{ id := 4095, deficit := 1500, fresh := false, quantum := 1500 }], (List.range 8).map (fun c =>
        (nd.rejoinLink 7).pickQueue (mgetD (nd.rejoinLink 7).net.scheds 7 {}) c), { bytes := List.replicate 60 5 },
        [], nd, by decide +kernel⟩,
    ⟨7, 4095, 1000, nd, by decide +kernel⟩,
    ⟨1, 0x8000000C, n1 {}, by decide +kernel⟩,
    ⟨4095, 4095, { crust := crust0, payload := [1, 2] }, [], none, ne
        { cfg := eqc 0 0, enabled := true, rate := 100, burst := 3000, tokens := 5 }, by decide +kernel⟩,
    ⟨4095, 4095, { crust := crust0, payload := [1, 2] }, [], none, ne { cfg := eqc 0 0, discarded := 2 ^ 32 - 1 },
        by decide +kernel⟩⟩

/-- States and operands that meet the hypotheses of `ZeroRegistersReadConstant`. -/
theorem witness_ZeroRegistersReadConstant :
    (∃ (n : Nat) (q : Nat) (i : Ins) (s : State), s.guarded n q i = true ∧ i.d = 0 ∧ i.c % 16 = 0) ∧
    (∃ (n : Nat) (q : Nat) (i : Ins) (s : State), s.guarded n q i = true ∧ i.d = 0 ∧ i.a < 8 ∧ i.b < 8) := by
  exact ⟨⟨47, 4, ins 0 1 1 0 7, l0 true [] (sq 4
        { job := some 32, s := [(1, 5), (2, 0xFFFFFFF9), (31, 0x80000000)], p := [(1, 1), (7, 0xF0)], v := [(1, ramp), (31, List.replicate 256 3)], pc := 32767 }),
        by decide +kernel⟩,
    ⟨47, 4, ins 0 7 7 0 7, l0 true [] (sq 4
        { job := some 32, s := [(1, 5), (2, 0xFFFFFFF9), (31, 0x80000000)], p := [(1, 1), (7, 0xF0)], v := [(1, ramp), (31, List.replicate 256 3)], pc := 32767 }),
        by decide +kernel⟩⟩

/-- States and operands that meet the hypotheses of `EmptyQueueReturnsTheWafer`. -/
theorem witness_EmptyQueueReturnsTheWafer :
    (∃ (q : Nat) (n : Nat) (s : State), s.calm = true ∧ q < 4096 ∧ (s.clq q).reading = none ∧ (s.clq q).complete = []) ∧
    (∃ (q : Nat), q < 4096) := by
  exact ⟨⟨4095, 9, c0 {}, by decide +kernel⟩,
    ⟨4095, by decide +kernel⟩⟩

end Sys2Proof.Tests
end

section
/-!
PROOF. The rows of a job's flow, JOB_PARSE to JOB_RETIRE (R35, R127, R138, R182, R185, R213, R442).

The JOB_RETIRE row fails, on a job table that lists one number twice. The table is a plain list, and the row's premises do
not ask that its keys rise. A retiring tiled frame returns its staging buffers (R224, R444); a pool that cannot store the
header of a returned buffer becomes BROKEN (R440), and SEV_CFG may make that fault S4, within the bounds of R531. The
device stop that follows (R542) ends every live entry of the table by its number. A second live entry of the retired
frame's number thus makes the stop rewrite the frame's completion, from OK to 0x41.
-/
namespace Sys2Proof.JobFlow

open Sys2Proof.Machine

/-- An encode frame of stream 1 on two cores, with buffer 1 of pool 15 as the staging buffer of its tile 0. -/
def tiledFrame : Job where
  queue := 0
  seq := 0
  epoch := 0
  body := leBytes 1 0x10
  phase := .running
  stream := some 1
  reported := true
  cores := [46, 47]
  core := 46
  staging := [(0, mkHandle 15 1 1)]

/-- A part that is READY and lists the frame twice under number 32. SEV_CFG makes BPM_POOL_BROKEN an S4 fault. Pool 15 has two
buffers of 256 bytes from device address 0x10000, which no memory backs (the board record names no density), and core 46
owns buffer 1. -/
def twiceListed : State where
  power := { powered := true }
  boot := { state := .ready }
  regs := [(regKey 3 0x858, 0x41045404), (regKey 9 0xA20, 0x10000), (regKey 9 0xA24, 0x80000000), (regKey 9 0xA28, 1),
    (regKey 9 0xA2C, 2), (regKey 9 0xA30, 8)]
  bpm := { pools := [(15, { state := .enabled, owned := 1 })] }
  mem := [(0x108, 8), (0x109, 1), (0x10C, 46)]
  jobs := [(32, tiledFrame), (32, tiledFrame)]
  streams := [(1, { state := .opened, encode := true })]

/-- The frame of `twiceListed` at its retire point, before the faults of the command are taken up. -/
def afterRetire : State := twiceListed.retireEncode 32 tiledFrame 1

/-- The frame meets every premise of the JOB_RETIRE row for an encode frame. -/
theorem twiceListed_meets_retire_premises :
    twiceListed.calm = true ∧ twiceListed.job 32 = some tiledFrame ∧ tiledFrame.stream = some 1 ∧
      tiledFrame.phase = .running ∧ tiledFrame.reported = true ∧ twiceListed.partsEnded 32 tiledFrame 1 = true ∧
      tiledFrame.opcode = 0x10 ∧ tiledFrame.overflow = false ∧
      twiceListed.earlierCoding 1 tiledFrame.coding = false := by decide +kernel

/-- JOB_RETIRE brings the frame to its retire point and then takes up the faults that this raised. -/
theorem exec_jobRetire_twiceListed : exec (.jobRetire 32) twiceListed = .next afterRetire.settle := rfl

/-- The fault of pool 15 becoming BROKEN, attached to no job. -/
def poolBroken : FaultHit := { source := 13, inst := 15, job := none, info := 0 }

/-- At its retire point the frame has completed with OK, its second entry is still live, and the pool's fault waits. -/
theorem afterRetire_completed_fault_due :
    (afterRetire.job 32).map Job.status = some 0 ∧ (afterRetire.jobs.map fun y => (y.1, y.2.live)) = [(32, false), (32, true)] ∧
      afterRetire.due = [poolBroken] := by decide +kernel

/-- The waiting fault stops the device, and the stop leaves the frame with status 0x41 (R542). -/
theorem settle_afterRetire_status : (afterRetire.settle.job 32).map Job.status = some 0x41 := by
  obtain ⟨-, -, hdue⟩ := afterRetire_completed_fault_due
  have hstop : ((settleFaults 63 (({ afterRetire with due := [] }).fireAll [poolBroken])).job 32).map Job.status =
      some 0x41 := by decide +kernel
  have hnormal : afterRetire.faults.stop ≠ .sealed := by decide +kernel
  unfold State.settle
  rw [settleFaults.eq_2, hdue]
  simpa only [if_neg hnormal] using hstop

/-- Refutes O49: JOB_RETIRE of `tiledFrame` in `twiceListed` ends with status 0x41, where the row says OK. -/
theorem not_jobFlowRows : ¬ Obligations.JobFlowRows := by
  unfold Obligations.JobFlowRows
  rintro ⟨-, -, -, -, -, -, retireRow⟩
  obtain ⟨hcalm, hjob, hstream, hphase, hreported, hparts, hop, hoverflow, hearlier⟩ := twiceListed_meets_retire_premises
  obtain ⟨-, encodeRow⟩ := retireRow 32 1 tiledFrame twiceListed hcalm hjob hstream hphase hreported hparts
  obtain ⟨t, ht, -, hcompletion, -⟩ := encodeRow hop hoverflow hearlier
  rw [exec_jobRetire_twiceListed] at ht
  obtain rfl : afterRetire.settle = t := Host.Outcome.next.inj ht
  have hok : (afterRetire.settle.job 32).map Job.status = some 0 := by
    simpa [Function.comp_def] using congrArg (Option.map fun c => c.2.1) hcompletion
  rw [settle_afterRetire_status] at hok
  exact absurd hok (by decide)

end Sys2Proof.JobFlow
end

section
/-!
SUPPORT. Rules for the self-timed rows: a page after a write to it or to another, what a calm part and a heard host write
give, and what a fault that is only logged leaves as it was.
-/
namespace Sys2Proof.SelfTimed

open Sys2Proof.Machine

/-! ### Calm parts and heard writes -/

/-- A calm part is live. -/
theorem live_of_calm {s : State} (h : s.calm = true) : s.live = true := by
  simp only [State.calm, Bool.and_eq_true] at h
  exact h.1

/-- No fault waits in a calm part. -/
theorem due_of_calm {s : State} (h : s.calm = true) : s.due = [] := by
  simp only [State.calm, Bool.and_eq_true, List.isEmpty_iff] at h
  exact h.2

/-- A live part has not been sealed. -/
theorem not_sealed_of_live {s : State} (h : s.live = true) : s.faults.stop ≠ .sealed := by
  simp only [State.live, Bool.and_eq_true, decide_eq_true_eq] at h
  exact h.2

/-- No fault waits where a host write takes effect. -/
theorem due_of_hears {s : State} {p : Nat} (h : s.hears p = true) : s.due = [] := by
  simp only [State.hears, Bool.and_eq_true, List.isEmpty_iff] at h
  exact h.2

@[simp] theorem toL0_due (s : State) : s.toL0.due = s.due := by rw [State.toL0_eq]

@[simp] theorem toL0_comps (s : State) : s.toL0.comps = s.comps := by rw [State.toL0_eq]

@[simp] theorem toL0_regs (s : State) : s.toL0.regs = s.regs := by rw [State.toL0_eq]

/-! ### Pages -/

@[simp] theorem page_modPage_self (s : State) (p : Nat) (f : Page → Page) : (s.modPage p f).page p = f (s.page p) :=
  mgetD_mset_self ..

theorem page_modPage_ne (s : State) {p k : Nat} (f : Page → Page) (h : k ≠ p) : (s.modPage p f).page k = s.page k :=
  mgetD_mset_ne _ _ _ h

theorem page_setCond_ne (s : State) {p k : Nat} (b : Nat) (v : Bool) (h : k ≠ p) : (s.setCond p b v).page k = s.page k :=
  page_modPage_ne _ _ h

theorem page_raiseEvt_ne (s : State) {p k : Nat} (b : Nat) (h : k ≠ p) : (s.raiseEvt p b).page k = s.page k :=
  page_modPage_ne _ _ h

/-- The mask of event bit b holds that bit. -/
theorem getLsbD_eventMask {b : Nat} (hb : b < 32) : (BitVec.ofNat 32 (2 ^ b)).getLsbD b = true := by
  rw [BitVec.getLsbD_ofNat, Nat.testBit_two_pow_self]
  simp [hb]

/-- EVT_RAW follows the condition (R72). -/
theorem evtRaw_setCond (s : State) (p : Nat) {b : Nat} (v : Bool) (hb : b < 32) :
    ((s.setCond p b v).page p).evtRaw.getLsbD b = v := by
  unfold State.setCond
  rw [page_modPage_self]
  cases v
  · simp only [Bool.false_eq_true, if_false, BitVec.getLsbD_and, BitVec.getLsbD_not, getLsbD_eventMask hb,
      Bool.not_true, Bool.and_false]
  · simp only [if_true, BitVec.getLsbD_or, getLsbD_eventMask hb, Bool.or_true]

/-- An occurrence sets its EVT_PEND bit (R72). -/
theorem evtPend_raiseEvt (s : State) (p : Nat) {b : Nat} (hb : b < 32) :
    ((s.raiseEvt p b).page p).evtPend.getLsbD b = true := by
  unfold State.raiseEvt
  rw [page_modPage_self, BitVec.getLsbD_or, getLsbD_eventMask hb, Bool.or_true]

/-! ### Faults that are only logged -/

/-- Nothing of t differs from s but the fault unit and the FAULT page. -/
structure FaultUnitOnly (s t : State) : Prop where
  frame : t = { s with faults := t.faults, pages := t.pages }
  page : ∀ p, p ≠ 3 → t.page p = s.page p

theorem FaultUnitOnly.trans {s t u : State} (h : FaultUnitOnly s t) (k : FaultUnitOnly t u) : FaultUnitOnly s u := by
  refine ⟨?_, fun p hp => (k.page p hp).trans (h.page p hp)⟩
  rw [k.frame, h.frame]

/-- A change of the fault unit's own fields. -/
theorem faultUnitOnly_faults (s : State) (f : FaultUnit) : FaultUnitOnly s { s with faults := f } := ⟨rfl, fun _ _ => rfl⟩

/-- An event of the FAULT page, raised or not. -/
theorem faultUnitOnly_raiseEvt (s : State) (b : Nat) (c : Prop) [Decidable c] :
    FaultUnitOnly s (if c then s.raiseEvt 3 b else s) := by
  split
  · exact ⟨rfl, fun _ hp => page_raiseEvt_ne s b hp⟩
  · exact ⟨rfl, fun _ _ => rfl⟩

/-- Writing a fault record changes the fault unit and its page (R533, R534). -/
theorem faultUnitOnly_record (s : State) (r : FaultRec) : FaultUnitOnly s (s.record r) := by
  unfold State.record
  dsimp only
  split
  · exact ((faultUnitOnly_faults s _).trans (faultUnitOnly_raiseEvt _ 2 _)).trans (faultUnitOnly_raiseEvt _ 0 _)
  · exact (faultUnitOnly_faults s _).trans ⟨rfl, fun _ hp => page_raiseEvt_ne _ 2 hp⟩

/-- A pulse on ERR_N changes the fault unit (R535). -/
theorem faultUnitOnly_pulse (s : State) (sev : Nat) : FaultUnitOnly s (s.pulse sev) := by
  unfold State.pulse
  dsimp only
  split
  · exact faultUnitOnly_faults s _
  · exact ⟨rfl, fun _ _ => rfl⟩

/-- A record takes up the next REC_SEQ, stored or dropped (R533, R534). -/
@[simp] theorem nextSeq_record (s : State) (r : FaultRec) : (s.record r).faults.nextSeq = nextRecSeq s.faults.nextSeq := by
  unfold State.record
  dsimp only
  split
  · split <;> split <;> rfl
  · rfl

@[simp] theorem nextSeq_pulse (s : State) (sev : Nat) : (s.pulse sev).faults.nextSeq = s.faults.nextSeq := by
  unfold State.pulse
  dsimp only
  split <;> rfl

/-- A hit of severity S1 is logged whatever the state of its unit (R536). -/
theorem reactionOf_one (s : State) (h : FaultHit) : s.reactionOf h 1 = .logged := by
  simp [State.reactionOf]

/-- A hit of severity S1 of a source below those of the PCIe interface writes its record and pulses ERR_N (R533, R535). -/
theorem fireAll_logged (s : State) (h : FaultHit) (hknown : (sourceInfo h.source).isSome = true) (hlow : h.source < 8)
    (hsev : s.severity h.source = 1) : s.fireAll [h] = (s.record (s.hitRecord h 1 .logged)).pulse 1 := by
  have hhit : s.hitSeverity h = 1 := by simp [State.hitSeverity, hsev]
  have haer : ∀ x : State, x.correctedAer h = x := fun x => if_neg (by omega)
  simp [State.fireAll, hknown, hhit, reactionOf_one, haer, State.react]

/-- With no fault waiting nothing is taken up, however many may be. -/
theorem settleFaults_of_due (n : Nat) (s : State) (h : s.due = []) : settleFaults n s = s := by
  cases n with
  | zero => rfl
  | succ n => rw [settleFaults.eq_2, h]

/-- Taking up one waiting fault of severity S1 changes nothing but the fault unit, which takes up one REC_SEQ. -/
theorem settle_logged (s : State) (h : FaultHit) (hdue : s.due = [h]) (hlive : s.faults.stop ≠ .sealed)
    (hknown : (sourceInfo h.source).isSome = true) (hlow : h.source < 8) (hsev : s.severity h.source = 1) :
    FaultUnitOnly { s with due := [] } s.settle ∧ s.settle.faults.nextSeq = nextRecSeq s.faults.nextSeq := by
  have hfire := fireAll_logged { s with due := [] } h hknown hlow hsev
  have hlogged := (faultUnitOnly_record { s with due := [] } (State.hitRecord { s with due := [] } h 1 .logged)).trans
    (faultUnitOnly_pulse _ 1)
  rw [← hfire] at hlogged
  have hsettle : s.settle = State.fireAll { s with due := [] } [h] := by
    unfold State.settle
    rw [settleFaults.eq_2, hdue]
    simp only [if_neg hlive]
    exact settleFaults_of_due 63 _ (by rw [hlogged.frame])
  rw [hsettle]
  refine ⟨hlogged, ?_⟩
  rw [hfire, nextSeq_pulse, nextSeq_record]

end Sys2Proof.SelfTimed
end

section
/-!
PROOF. The idle step, the comparators and the read of TIME_LO (R59 to R62, R459, R475).
-/
namespace Sys2Proof.SelfTimed

open Sys2Proof.Machine

/-! ### The idle step -/

/-- A step on an empty queue is an idle cycle. -/
theorem step_of_empty (s : State) (h : s.pending = []) : step s = .next s.idle := by
  unfold step
  rw [h]

/-- Settles O2: an empty queue steps to `idle`, which ticks in a live part alone. -/
theorem idleStepCountsOneCycle : Obligations.IdleStepCountsOneCycle := by
  unfold Obligations.IdleStepCountsOneCycle
  intro s hempty
  rw [step_of_empty s hempty, State.idle]
  constructor
  · intro hdead
    rw [if_neg (by simp [hdead])]
  · intro hlive
    rw [if_pos hlive, State.tick]

/-! ### What a trigger changes -/

/-- Nothing of t differs from s but the DMA channels, the pages, the PCIe function and the trace. -/
def DmaOnly (s t : State) : Prop := t = { s with dma := t.dma, pages := t.pages, pcie := t.pcie, out := t.out }

theorem DmaOnly.refl (s : State) : DmaOnly s s := rfl

theorem DmaOnly.trans {s t u : State} (h : DmaOnly s t) (k : DmaOnly t u) : DmaOnly s u := by
  unfold DmaOnly at *
  rw [k, h]

theorem DmaOnly.comps_eq {s t : State} (h : DmaOnly s t) : t.comps = s.comps := by
  rw [h]

theorem DmaOnly.due_eq {s t : State} (h : DmaOnly s t) : t.due = s.due := by
  rw [h]

theorem dmaOnly_modChan (s : State) (c : Nat) (f : Channel → Channel) : DmaOnly s (s.modChan c f) := rfl

/-- A read of the link leaves or waits for its tag (R99). -/
theorem dmaOnly_issueRead (s : State) (r : HostReq) (a n : Nat) : DmaOnly s (s.issueRead r a n) := by
  unfold State.issueRead
  split
  · unfold DmaOnly
    rw [State.hostAsk_linkOnly]
  · rfl

theorem dmaOnly_fetchDesc (s : State) (c a : Nat) : DmaOnly s (s.fetchDesc c a) := by
  unfold State.fetchDesc
  split
  · exact dmaOnly_modChan s c _
  · exact (dmaOnly_issueRead s _ a 64).trans (dmaOnly_modChan _ c _)

theorem dmaOnly_trigRun (s : State) (c : Nat) : DmaOnly s (s.trigRun c) :=
  (dmaOnly_modChan s c _).trans (dmaOnly_fetchDesc _ c _)

theorem dmaOnly_chanEvt (s : State) (c b : Nat) : DmaOnly s (s.chanEvt c b) := rfl

/-- A trigger runs its channel, is counted, or is lost with an event (R459). -/
theorem dmaOnly_trigger (s : State) (c : Nat) : DmaOnly s (s.trigger c) := by
  have hlost : DmaOnly s ((s.modChan c fun x => { x with trigLost := min (x.trigLost + 1) 255 }).chanEvt c 4) :=
    (dmaOnly_modChan s c _).trans (dmaOnly_chanEvt _ c 4)
  unfold State.trigger
  split
  · exact .refl s
  · split
    · exact hlost
    · split
      · exact dmaOnly_trigRun s c
      · split
        · exact dmaOnly_modChan s c _
        · exact hlost

/-! ### The comparators -/

@[simp] theorem comp_modComp_self (s : State) (n : Nat) (f : Comparator → Comparator) :
    (s.modComp n f).comp n = f (s.comp n) := mgetD_mset_self ..

theorem comp_congr {s t : State} (h : t.comps = s.comps) (n : Nat) : t.comp n = s.comp n := by
  rw [State.comp, h, State.comp]

/-- A comparator after it has fired: armed again one PERIOD later, or disarmed (R61, R459). -/
def rearmed (c : Comparator) : Comparator :=
  { c with armed := c.period != 0, value := if c.period = 0 then c.value else (c.value + c.period) % 2 ^ 64 }

/-- Beside its comparator a firing changes what the triggered channels change. -/
theorem dmaOnly_compFire (s : State) (q k : Nat) : DmaOnly (s.modComp (8 * q + k) rearmed) (s.compFire q k) := by
  unfold State.compFire
  refine List.foldlRecOn (motive := DmaOnly (s.modComp (8 * q + k) rearmed)) _ _ (.refl _) fun t ht g _ => ?_
  dsimp only
  split
  · exact ht.trans (dmaOnly_trigger t _)
  · exact ht

/-- The firing of an armed comparator whose value the timebase has reached raises no fault. -/
theorem exec_comparatorFire {q k : Nat} {s : State} (hcalm : s.calm = true) (hq : q < 4) (hk : k < 8)
    (harmed : (s.comp (8 * q + k)).armed = true) (hreached : (s.comp (8 * q + k)).value ≤ s.time.ns) :
    exec (.comparatorFire q k) s = .next (s.compFire q k) := by
  have hexec : exec (.comparatorFire q k) s = execComparatorFire q k s := rfl
  have hdue : (s.compFire q k).due = [] := (dmaOnly_compFire s q k).due_eq.trans (due_of_calm hcalm)
  simp [hexec, execComparatorFire, act, live_of_calm hcalm, hq, hk, harmed, hreached, State.settle_of_due _ hdue]

@[simp] theorem rsv_comps (s : State) (p : Nat) (mask v : Word) : (s.rsv p mask v).comps = s.comps := by
  unfold State.rsv
  split <;> rfl

@[simp] theorem rsv_due (s : State) (p : Nat) (mask v : Word) : (s.rsv p mask v).due = s.due := by
  unfold State.rsv
  split <;> rfl

@[simp] theorem compCtrl_due (s : State) (q k : Nat) (v : Word) (arm disarm : Bool) :
    (s.compCtrl q k v arm disarm).due = s.due := rfl

/-- A write of CMP_CTRL with ARM. -/
theorem exec_comparatorArm {q k : Nat} {s : State} (v : Word) (hk : k < 8) (h : s.hears (qcompPage q) = true) :
    exec (.comparatorArm q k v) s =
      .next ((s.toL0.compCtrl q k v true (v.getLsbD 30)).rsv (qcompPage q) 0xEFFFFFFF v) := by
  have hexec : exec (.comparatorArm q k v) s = execComparatorArm q k v s := rfl
  rw [hexec, execComparatorArm, hostCmd_quiet _ _ _ h (by simp [hk, due_of_hears h]), if_pos hk]

/-- A write of CMP_CTRL with DISARM and without ARM. -/
theorem exec_comparatorDisarm {q k : Nat} {s : State} (v : Word) (hk : k < 8) (h : s.hears (qcompPage q) = true) :
    exec (.comparatorDisarm q k v) s =
      .next ((s.toL0.compCtrl q k v false true).rsv (qcompPage q) 0xEFFFFFFF v) := by
  have hexec : exec (.comparatorDisarm q k v) s = execComparatorDisarm q k v s := rfl
  rw [hexec, execComparatorDisarm, hostCmd_quiet _ _ _ h (by simp [hk, due_of_hears h]), if_pos hk]

/-- ARM latches the two words of the value, whatever DISARM says. -/
theorem comp_compCtrl_arm (s : State) (q k : Nat) (v : Word) (disarm : Bool) :
    (s.compCtrl q k v true disarm).comp (8 * q + k) =
      { value := (s.reg (qcompPage q) (0x044 + 0x10 * k)).toNat * 2 ^ 32 + (s.reg (qcompPage q) (0x040 + 0x10 * k)).toNat,
        armed := true, period := fld v 27 0 } := by
  simp [State.compCtrl]

/-- DISARM keeps the latched value. -/
theorem comp_compCtrl_disarm (s : State) (q k : Nat) (v : Word) :
    (s.compCtrl q k v false true).comp (8 * q + k) =
      { value := (s.comp (8 * q + k)).value, armed := false, period := fld v 27 0 } := by
  simp [State.compCtrl]

/-- A read of TIME_LO on a served page. -/
theorem exec_timeLoRead {s : State} (h : s.hears 19 = true) :
    exec .timeLoRead s = .next (s.toL0.latchTime.emit (.timeLo (BitVec.ofNat 32 s.toL0.time.ns))) := by
  have hexec : exec .timeLoRead s = execTimeLoRead s := rfl
  simp only [State.hears, Bool.and_eq_true, beq_iff_eq] at h
  obtain ⟨⟨⟨⟨hlinked, hdecodes⟩, -⟩, hserved⟩, -⟩ := h
  have hlinked' : s.toL0.linked = true := by rw [State.toL0_eq]; exact hlinked
  have hdecodes' : s.toL0.decodes = true := by rw [State.toL0_eq]; exact hdecodes
  have hserved' : s.toL0.serving 19 = .served := by rw [State.toL0_eq]; exact hserved
  simp [hexec, execTimeLoRead, hlinked', hdecodes', hserved']

/-- Settles O9, each row from its outcome and from what that leaves in the comparator. -/
theorem comparatorsAndTimebaseReads : Obligations.ComparatorsAndTimebaseReads := by
  unfold Obligations.ComparatorsAndTimebaseReads
  refine ⟨fun q k v s _ hk hears _ => ⟨_, exec_comparatorArm v hk hears, ?_⟩,
    fun q k v s _ hk hears => ⟨_, exec_comparatorDisarm v hk hears, ?_⟩,
    fun q k s hcalm hq hk harmed hreached => ⟨_, exec_comparatorFire hcalm hq hk harmed hreached, ?_⟩,
    fun s hears => ?_⟩
  · rw [comp_congr (rsv_comps ..), comp_compCtrl_arm]
    simp only [State.reg, toL0_regs]
  · rw [comp_congr (rsv_comps ..), comp_compCtrl_disarm, comp_congr (toL0_comps s)]
  · rw [comp_congr (dmaOnly_compFire s q k).comps_eq, comp_modComp_self, rearmed]
    split <;> simp_all
  · rw [exec_timeLoRead hears, State.latchTime, State.toL0_eq]

end Sys2Proof.SelfTimed
end

section
/-!
PROOF. The tempo loop, throttling and TEMPO_UNDER (R41, R46 to R48, R51, R52, R57).
-/
namespace Sys2Proof.SelfTimed

open Sys2Proof.Machine

/-! ### Monitors and the device tempo -/

/-- The pages of the cores lie above the device pages (R25, R65). -/
theorem corePage_ne_two (n : Nat) : corePage n ≠ 2 := by
  unfold corePage
  omega

/-- The TEMPO page says nothing of which cores the loop reads (R46). -/
theorem loopCores_modPage (s : State) (f : Page → Page) : (s.modPage 2 f).loopCores = s.loopCores := by
  unfold State.loopCores
  simp only [page_modPage_ne s f (corePage_ne_two _), State.modPage_placer, State.modPage_boot]

/-- The TEMPO page's events say nothing of the device tempo. -/
theorem deviceTempo_setCond (s : State) (b : Nat) (v : Bool) : (s.setCond 2 b v).deviceTempo = s.deviceTempo := by
  have hcores : (s.setCond 2 b v).loopCores = s.loopCores := loopCores_modPage s _
  rw [State.deviceTempo, hcores]
  rfl

/-- A window joins the last 100 of its monitor (R41). -/
theorem mon_monitorWindow_self (s : State) {m : Nat} (c : Nat) (tj : Int) (h : m < 57) :
    (s.monitorWindow m c tj).mon m = { windows := (c :: (s.mon m).windows).take 100, tj := tj } := by
  rw [State.monitorWindow, if_neg (by omega)]
  exact mgetD_mset_self ..

theorem mon_monitorWindow_ne (s : State) {m k : Nat} (c : Nat) (tj : Int) (h : k ≠ m) :
    (s.monitorWindow m c tj).mon k = s.mon k := by
  unfold State.monitorWindow
  split
  · rfl
  · exact mgetD_mset_ne _ _ _ h

/-- A window changes nothing but the monitors. -/
theorem monitorWindow_frame (s : State) (m c : Nat) (tj : Int) :
    s.monitorWindow m c tj = { s with tempo := { s.tempo with mons := (s.monitorWindow m c tj).tempo.mons } } := by
  unfold State.monitorWindow
  split <;> rfl

/-- The end of TEMPO_UNDER changes nothing but the condition and its event. -/
theorem underEnds_frame (s : State) :
    s.underEnds = { s with tempo := { s.tempo with under := s.underEnds.tempo.under }, pages := s.underEnds.pages } := by
  unfold State.underEnds
  split <;> rfl

theorem mon_underEnds (s : State) (m : Nat) : s.underEnds.mon m = s.mon m := by
  rw [underEnds_frame]
  rfl

theorem page_underEnds_ne (s : State) {p : Nat} (h : p ≠ 2) : s.underEnds.page p = s.page p := by
  unfold State.underEnds
  split
  · exact page_setCond_ne _ 4 false h
  · rfl

theorem deviceTempo_underEnds (s : State) : s.underEnds.deviceTempo = s.deviceTempo := by
  unfold State.underEnds
  split
  · exact deviceTempo_setCond _ 4 false
  · rfl

/-- TEMPO_UNDER goes on only while the device tempo is below 0x02CD (R57). -/
theorem under_underEnds (s : State) : s.underEnds.tempo.under = (s.tempo.under && decide (s.deviceTempo < 0x02CD)) := by
  unfold State.underEnds
  split
  · rename_i h
    obtain ⟨-, hrecovered⟩ := h
    simp [Nat.not_lt.mpr hrecovered]
  · rename_i h
    cases hunder : s.tempo.under with
    | false => rfl
    | true =>
      have hlow : s.deviceTempo < 0x02CD := by simpa [hunder] using h
      simp [hlow]

/-- A monitor window in a calm part. -/
theorem exec_monitorWindow {m c : Nat} {tj : Int} {s : State} (hcalm : s.calm = true) :
    exec (.monitorWindow m c tj) s = .next (s.monitorWindow m c tj).underEnds := by
  have hexec : exec (.monitorWindow m c tj) s = execMonitorWindow m c tj s := rfl
  have hlive := live_of_calm hcalm
  have hdue : (s.monitorWindow m c tj).underEnds.due = [] := by
    rw [underEnds_frame, monitorWindow_frame]
    exact due_of_calm hcalm
  rw [hexec, execMonitorWindow, if_neg (by simp [not_sealed_of_live hlive]), act_quiet _ _ hlive hdue]

/-! ### The voltage loop -/

/-- Within its limits the loop steps as R46 says, never past a limit. -/
theorem loopStep_of_limits {t goal step vmin vmax req : Nat} (h : vmin ≤ vmax) :
    loopStep t goal step vmin vmax req =
      if t + 8 < goal then min (max vmin (min vmax req) + step) vmax
      else if goal + 8 < t then max (max vmin (min vmax req) - step) vmin else max vmin (min vmax req) := by
  have hclamp : min (max req vmin) vmax = max vmin (min vmax req) := by omega
  unfold loopStep
  rw [hclamp]
  by_cases hbelow : t + 8 < goal
  · rw [if_pos hbelow, if_pos hbelow]
    split <;> omega
  · rw [if_neg hbelow, if_neg hbelow]
    by_cases habove : goal + 8 < t
    · rw [if_pos habove, if_pos habove]
      split <;> omega
    · rw [if_neg habove, if_neg habove]

/-- The voltage that a period requests (R46). -/
def loopRequest (s : State) (a : AvsReply) : Nat :=
  let start := if s.tempo.vddReq = 0 then a.readback else s.tempo.vddReq
  let vmin := fld (s.active 2 0x048) 9 0
  let vmax := fld (s.active 2 0x048) 25 16
  if s.loopCores.isEmpty then min (max start vmin) vmax
  else loopStep s.deviceTempo s.goal (fld (s.active 2 0x040) 11 8) vmin vmax start

/-- The loop's registers once a period has written its voltage and has its answer (R46 to R48). -/
def loopTempo (s : State) (a : AvsReply) : Tempo :=
  let req := loopRequest s a
  { s.tempo with
    vddReq := req
    atVmax := decide (req = fld (s.active 2 0x048) 25 16 ∧ s.deviceTempo + 8 < s.goal ∨
      ¬req ≠ s.tempo.vddReq ∧ s.tempo.atVmax)
    atVmin := decide (req = fld (s.active 2 0x048) 9 0 ∧ s.goal + 8 < s.deviceTempo ∨
      ¬req ≠ s.tempo.vddReq ∧ s.tempo.atVmin)
    vddRead := if a.writeOk && a.statusOk then a.readback else s.tempo.vddRead
    avsBad := if a.writeOk && a.statusOk then 0 else s.tempo.avsBad + 1 }

/-- The state once a period has written its voltage. -/
def loopWritten (s : State) (a : AvsReply) : State :=
  (State.emit { s with tempo := loopTempo s a } (.avsWrite (loopRequest s a))).setCond 2 2 (loopTempo s a).atVmax

/-- A period writes its voltage, and loses the regulator at the third bad answer in a row (R48). -/
theorem loopPass_eq (s : State) (a : AvsReply) :
    s.loopPass a = if 3 ≤ (loopTempo s a).avsBad then (loopWritten s a).setLost true else loopWritten s a := rfl

/-- With a core to read, the request is the step of R46 from the voltage last requested. -/
theorem loopRequest_of_cores {s : State} (a : AvsReply) (hcores : s.loopCores ≠ []) :
    loopRequest s a = loopStep s.deviceTempo s.goal (fld (s.active 2 0x040) 11 8) (fld (s.active 2 0x048) 9 0)
      (fld (s.active 2 0x048) 25 16) (if s.tempo.vddReq = 0 then a.readback else s.tempo.vddReq) := by
  simp [loopRequest, hcores]

/-- Losing the regulator, before the fault is taken up. -/
theorem setLost_true (s : State) :
    s.setLost true =
      (State.setCond { s with tempo := { s.tempo with avsLost := true, avsBad := 0 } } 2 3 true).fault 6 0xFFFF none 0 := rfl

/-- A regained regulator. -/
theorem setLost_false (s : State) :
    s.setLost false = State.setCond { s with tempo := { s.tempo with avsLost := false, avsBad := 0 } } 2 3 false := rfl

/-- A page whose group is not pending hands nothing over (R78). -/
theorem boundary_of_not_pending {s : State} {p g : Nat} (h : (s.page p).groups.getLsbD g = false) : s.boundary p g = s := by
  simp [State.boundary, h]

/-- The loop runs from stage 3, with LOOP_EN and a regulator that answers (R46 to R49). -/
def loopRuns (s : State) : Prop :=
  s.tempo.loopStarted = true ∧ s.tempo.avsLost = false ∧ fld (s.active 2 0x040) 0 0 = 1

/-- A period of a running loop is one pass of its body. -/
theorem exec_tempoLoopPeriod_run {a : AvsReply} {s : State} (hlive : s.live = true)
    (hgroups : (s.page 2).groups.getLsbD 0 = false) (hruns : loopRuns s) :
    exec (.tempoLoopPeriod a) s = .next (s.loopPass a).settle := by
  have hexec : exec (.tempoLoopPeriod a) s = execTempoLoopPeriod a s := rfl
  obtain ⟨hstarted, hlost, henabled⟩ := hruns
  rw [hexec, execTempoLoopPeriod, act_live _ _ hlive, boundary_of_not_pending hgroups]
  simp [hstarted, hlost, henabled]

/-- A period of a loop that does not run does nothing. -/
theorem exec_tempoLoopPeriod_rest {a : AvsReply} {s : State} (hcalm : s.calm = true)
    (hgroups : (s.page 2).groups.getLsbD 0 = false) (hrests : ¬loopRuns s) :
    exec (.tempoLoopPeriod a) s = .next s := by
  have hexec : exec (.tempoLoopPeriod a) s = execTempoLoopPeriod a s := rfl
  have hno : ¬(s.tempo.loopStarted = true ∧ ¬s.tempo.avsLost = true ∧ fld (s.active 2 0x040) 0 0 = 1) := by
    simpa [loopRuns] using hrests
  rw [hexec, execTempoLoopPeriod, act_live _ _ (live_of_calm hcalm), boundary_of_not_pending hgroups]
  dsimp only
  rw [if_neg hno, State.settle_of_due _ (due_of_calm hcalm)]

/-- A period of a running loop that keeps its regulator. -/
theorem exec_tempoLoopPeriod_kept {a : AvsReply} {s : State} (hcalm : s.calm = true)
    (hgroups : (s.page 2).groups.getLsbD 0 = false) (hruns : loopRuns s)
    (hkept : a.writeOk = true ∧ a.statusOk = true ∨ s.tempo.avsBad < 2) :
    exec (.tempoLoopPeriod a) s = .next (loopWritten s a) := by
  have hfew : (loopTempo s a).avsBad < 3 := by
    rcases hkept with ⟨hwrite, hstatus⟩ | hbad
    · simp [loopTempo, hwrite, hstatus]
    · have : (loopTempo s a).avsBad ≤ s.tempo.avsBad + 1 := by
        unfold loopTempo
        dsimp only
        split <;> omega
      omega
  rw [exec_tempoLoopPeriod_run (live_of_calm hcalm) hgroups hruns, loopPass_eq, if_neg (by omega),
    State.settle_of_due (loopWritten s a) (due_of_calm hcalm)]

/-- The third bad answer in a row loses the regulator. -/
theorem exec_tempoLoopPeriod_lost {a : AvsReply} {s : State} (hcalm : s.calm = true)
    (hgroups : (s.page 2).groups.getLsbD 0 = false) (hruns : loopRuns s)
    (hbad : ¬(a.writeOk = true ∧ a.statusOk = true)) (hthird : 2 ≤ s.tempo.avsBad) :
    exec (.tempoLoopPeriod a) s = .next ((loopWritten s a).setLost true).settle := by
  have hthree : 3 ≤ (loopTempo s a).avsBad := by
    have : (loopTempo s a).avsBad = s.tempo.avsBad + 1 := by simpa [loopTempo] using hbad
    omega
  rw [exec_tempoLoopPeriod_run (live_of_calm hcalm) hgroups hruns, loopPass_eq, if_pos hthree]

/-- Taking up AVS_LOST at severity S1 leaves the loss and its condition. -/
theorem settle_setLost {s : State} (hlive : s.live = true) (hnone : s.due = []) (hsev : s.severity 6 = 1) :
    (s.setLost true).settle.tempo.avsLost = true ∧ ((s.setLost true).settle.page 2).evtRaw.getLsbD 3 = true ∧
      (s.setLost true).settle.mem = s.mem := by
  have hdue : (s.setLost true).due = [{ source := 6, inst := 0xFFFF, job := none, info := 0 }] := by
    rw [setLost_true, State.fault, State.setCond_due, hnone, List.nil_append]
  obtain ⟨⟨hframe, hpage⟩, -⟩ :=
    settle_logged (s.setLost true) _ hdue (not_sealed_of_live hlive) rfl (by decide) hsev
  refine ⟨by rw [hframe]; rfl, ?_, by rw [hframe]; rfl⟩
  rw [hpage 2 (by decide)]
  exact evtRaw_setCond _ 2 true (by decide)

/-- The trace of a retry: its write while LOOP_EN is 1 (R48, R49). -/
theorem avsAsk_eq (s : State) :
    s.avsAsk = { s with
      out := (if fld (s.active 2 0x040) 0 0 = 1 then [Out.avsWrite s.tempo.vddReq] else []) ++ s.out } := by
  unfold State.avsAsk
  split <;> rfl

/-- A retry that was answered: the loop resumes from the voltage read back (R48). -/
def avsRegained (s : State) (a : AvsReply) : State :=
  { s.avsAsk.setLost false with
    tempo := { (s.avsAsk.setLost false).tempo with vddReq := a.readback, vddRead := a.readback } }

theorem avsAnswered_iff (s : State) (a : AvsReply) :
    s.avsAnswered a = true ↔ a.statusOk = true ∨ a.writeOk = true ∧ fld (s.active 2 0x040) 0 0 = 1 := by
  simp [State.avsAnswered]

theorem exec_avsRetry_answered {a : AvsReply} {s : State} (hcalm : s.calm = true) (hlost : s.tempo.avsLost = true)
    (hanswered : s.avsAnswered a = true) : exec (.avsRetry a) s = .next (avsRegained s a) := by
  have hexec : exec (.avsRetry a) s = execAvsRetry a s := rfl
  have hdue : (avsRegained s a).due = [] := by
    rw [avsRegained, setLost_false, avsAsk_eq]
    exact due_of_calm hcalm
  rw [hexec, execAvsRetry, act_live _ _ (live_of_calm hcalm), if_neg (by simp [hlost]), if_pos hanswered]
  exact congrArg Host.Outcome.next (State.settle_of_due _ hdue)

theorem exec_avsRetry_unanswered {a : AvsReply} {s : State} (hcalm : s.calm = true) (hlost : s.tempo.avsLost = true)
    (hsilent : s.avsAnswered a = false) : exec (.avsRetry a) s = .next s.avsAsk := by
  have hexec : exec (.avsRetry a) s = execAvsRetry a s := rfl
  rw [hexec, execAvsRetry, act_live _ _ (live_of_calm hcalm), if_neg (by simp [hlost]), if_neg (by simp [hsilent])]
  exact congrArg Host.Outcome.next (State.settle_of_due _ (by rw [avsAsk_eq]; exact due_of_calm hcalm))

/-! ### Throttling -/

/-- The ceiling of a throttled part below the limit: raised once the part has cooled by the hysteresis (R51). -/
def raisedCeiling (s : State) (thr hyst floor : Nat) : Nat :=
  max floor (if s.tjMax ≤ (thr : Int) - (hyst : Int) then s.tempo.ceiling + 0x10 else s.tempo.ceiling)

/-- What a sample leaves under the limits of R51: with TJ_MAX taken, throttling starts, lowers its ceiling, raises or holds
it, or ends. -/
def thermalNext (s : State) (thr hyst floor target : Nat) : State :=
  let s0 := { s with tempo := { s.tempo with tjMax := s.tjMax } }
  if (thr : Int) ≤ s.tjMax then
    if s.tempo.throttling then
      { s0 with tempo := { s0.tempo with ceiling := max floor (min s.tempo.ceiling target - 0x10) } }
    else
      State.raiseEvt { s0 with tempo := { s0.tempo with throttling := true, ceiling := max floor (target - 0x10) } } 2 0
  else if !s.tempo.throttling then s0
  else if target ≤ raisedCeiling s thr hyst floor then
    State.raiseEvt { s0 with tempo := { s0.tempo with throttling := false, ceiling := 0 } } 2 1
  else { s0 with tempo := { s0.tempo with ceiling := raisedCeiling s thr hyst floor } }

/-- A sample changes nothing but the throttling and the events of the TEMPO page. -/
theorem thermalNext_frame (s : State) (thr hyst floor target : Nat) :
    thermalNext s thr hyst floor target =
      { s with tempo := (thermalNext s thr hyst floor target).tempo, pages := (thermalNext s thr hyst floor target).pages } := by
  unfold thermalNext
  dsimp only
  split
  · split <;> rfl
  · split
    · rfl
    · split <;> rfl

theorem tjMax_thermalNext (s : State) (thr hyst floor target : Nat) :
    (thermalNext s thr hyst floor target).tempo.tjMax = s.tjMax := by
  unfold thermalNext
  dsimp only
  split
  · split <;> rfl
  · split
    · rfl
    · split <;> rfl

/-- A sample in a calm part, once stage 3 has calibrated the monitors. -/
theorem exec_thermalSample {s : State} (hcalm : s.calm = true) (hcalibrated : s.tempo.calibrated = true) :
    exec .thermalSample s = .next (thermalNext s (fld (s.active 2 0x04C) 7 0) (fld (s.active 2 0x04C) 11 8)
      (fld (s.active 2 0x04C) 31 16) (fld (s.active 2 0x044) 15 0)) := by
  have hexec : exec .thermalSample s = execThermalSample s := rfl
  have hdue (thr hyst floor target : Nat) : (thermalNext s thr hyst floor target).due = [] := by
    rw [thermalNext_frame]
    exact due_of_calm hcalm
  rw [hexec, execThermalSample, act_live _ _ (live_of_calm hcalm), if_neg (by simp [hcalibrated])]
  exact congrArg Host.Outcome.next (State.settle_of_due _ (hdue ..))

section
variable {s : State} {thr hyst floor target : Nat}

/-- At the limit throttling starts (R51). -/
theorem thermalNext_start (hhot : (thr : Int) ≤ s.tjMax) (hfree : s.tempo.throttling = false) :
    thermalNext s thr hyst floor target = State.raiseEvt { s with tempo := { s.tempo with
      tjMax := s.tjMax, throttling := true, ceiling := max floor (target - 0x10) } } 2 0 := by
  simp [thermalNext, hhot, hfree]

/-- At the limit a throttled part lowers its ceiling (R51). -/
theorem thermalNext_lower (hhot : (thr : Int) ≤ s.tjMax) (hthrottled : s.tempo.throttling = true) :
    thermalNext s thr hyst floor target = { s with tempo := { s.tempo with
      tjMax := s.tjMax, ceiling := max floor (min s.tempo.ceiling target - 0x10) } } := by
  simp [thermalNext, hhot, hthrottled]

/-- Below the limit a part that does not throttle only takes TJ_MAX. -/
theorem thermalNext_cool (hcool : s.tjMax < (thr : Int)) (hfree : s.tempo.throttling = false) :
    thermalNext s thr hyst floor target = { s with tempo := { s.tempo with tjMax := s.tjMax } } := by
  simp [thermalNext, Int.not_le.mpr hcool, hfree]

/-- Below the limit a throttled part raises or holds its ceiling while that stays under the target (R51). -/
theorem thermalNext_raise (hcool : s.tjMax < (thr : Int)) (hthrottled : s.tempo.throttling = true)
    (hlow : raisedCeiling s thr hyst floor < target) :
    thermalNext s thr hyst floor target = { s with tempo := { s.tempo with
      tjMax := s.tjMax, ceiling := raisedCeiling s thr hyst floor } } := by
  simp [thermalNext, Int.not_le.mpr hcool, hthrottled, Nat.not_le.mpr hlow]

/-- Below the limit throttling ends once the ceiling reaches the target (R51). -/
theorem thermalNext_end (hcool : s.tjMax < (thr : Int)) (hthrottled : s.tempo.throttling = true)
    (hhigh : target ≤ raisedCeiling s thr hyst floor) :
    thermalNext s thr hyst floor target =
      State.raiseEvt { s with tempo := { s.tempo with tjMax := s.tjMax, throttling := false, ceiling := 0 } } 2 1 := by
  simp [thermalNext, Int.not_le.mpr hcool, hthrottled, hhigh]

end

/-! ### TEMPO_UNDER -/

/-- TEMPO_UNDER sets, before its fault is taken up. -/
def underBegun (s : State) : State :=
  (State.setCond { s with tempo := { s.tempo with under := true } } 2 4 true).fault 7 0xFFFF none 0

/-- TEMPO_UNDER of a calibrated part whose device tempo is below 0x02CD (R57). -/
theorem exec_tempoUnder {s : State} (hlive : s.live = true) (hcalibrated : s.tempo.calibrated = true)
    (hunder : s.tempo.under = false) (hlow : s.deviceTempo < 0x02CD) (hcores : s.loopCores ≠ []) :
    exec .tempoUnder s = .next (underBegun s).settle := by
  have hexec : exec .tempoUnder s = execTempoUnder s := rfl
  rw [hexec, execTempoUnder, act_live _ _ hlive, if_pos ⟨hcalibrated, hlow, by simp [hunder], hcores⟩, underBegun]

/-- Taking up TEMPO_UNDER at severity S1 leaves the condition, memory and the jobs, and takes up one REC_SEQ. -/
theorem settle_underBegun {s : State} (hcalm : s.calm = true) (hsev : s.severity 7 = 1) :
    (underBegun s).settle.tempo.under = true ∧ ((underBegun s).settle.page 2).evtRaw.getLsbD 4 = true ∧
      (underBegun s).settle.mem = s.mem ∧ (underBegun s).settle.jobs = s.jobs ∧
      (underBegun s).settle.faults.nextSeq = nextRecSeq s.faults.nextSeq := by
  have hdue : (underBegun s).due = [{ source := 7, inst := 0xFFFF, job := none, info := 0 }] := by
    rw [underBegun, State.fault, State.setCond_due, due_of_calm hcalm, List.nil_append]
  have hopen : s.faults.stop ≠ .sealed := not_sealed_of_live (live_of_calm hcalm)
  obtain ⟨⟨hframe, hpage⟩, hseq⟩ := settle_logged (underBegun s) _ hdue hopen rfl (by decide) hsev
  refine ⟨by rw [hframe]; rfl, ?_, by rw [hframe]; rfl, by rw [hframe]; rfl, hseq⟩
  rw [hpage 2 (by decide)]
  exact evtRaw_setCond _ 2 true (by decide)

/-! ### The rows together -/

/-- Settles O8, row by row: each outcome is named by an `exec_` lemma, and what it leaves is read off that state. -/
theorem tempoRowsFollowTheLoopRules : Obligations.TempoRowsFollowTheLoopRules := by
  unfold Obligations.TempoRowsFollowTheLoopRules
  refine ⟨?window, ?kept, ?lost, ?rest, ?answered, ?unanswered, ?thermal, ?under⟩
  case window =>
    intro m c tj s hcalm hm
    refine ⟨_, exec_monitorWindow hcalm, ?_, fun k hk => ?_, ?_, ?_, fun p hp => ?_⟩
    · rw [mon_underEnds, mon_monitorWindow_self s c tj hm]
    · rw [mon_underEnds, mon_monitorWindow_ne s c tj hk]
    · rw [deviceTempo_underEnds, under_underEnds, monitorWindow_frame]
    · rw [underEnds_frame, monitorWindow_frame]
    · rw [page_underEnds_ne _ hp, monitorWindow_frame]
      rfl
  case kept =>
    intro a v step vmin vmax s hcalm hstarted hlost hgroups henabled hstep hvmin hvmax hlimits hcores hv hkept
    refine ⟨_, exec_tempoLoopPeriod_kept hcalm hgroups ⟨hstarted, hlost, henabled⟩ hkept, rfl, ?_, ?_, ?_,
      evtRaw_setCond _ 2 _ (by decide), hlost, ?_, ?_, rfl⟩
    · subst hstep hvmin hvmax hv
      exact (loopRequest_of_cores a hcores).trans (loopStep_of_limits hlimits)
    · subst hvmax
      simp [loopWritten, loopTempo]
    · subst hvmin
      simp [loopWritten, loopTempo]
    · rintro ⟨hwrite, hstatus⟩
      simp [loopWritten, loopTempo, hwrite, hstatus]
    · intro hbad
      have hno : (a.writeOk && a.statusOk) = false := by simpa using hbad
      simp [loopWritten, loopTempo, hno]
  case lost =>
    intro a s hcalm hstarted hlost hgroups henabled hbad hthird hsev
    exact ⟨_, exec_tempoLoopPeriod_lost hcalm hgroups ⟨hstarted, hlost, henabled⟩ hbad hthird,
      settle_setLost (s := loopWritten s a) (live_of_calm hcalm) (due_of_calm hcalm) hsev⟩
  case rest =>
    intro a s hcalm hgroups hrests
    refine exec_tempoLoopPeriod_rest hcalm hgroups ?_
    rintro ⟨hstarted, hlost, henabled⟩
    simp [hstarted, hlost, henabled] at hrests
  case answered =>
    intro a s hcalm hlost hanswered
    refine ⟨_, exec_avsRetry_answered hcalm hlost ((avsAnswered_iff s a).mpr hanswered), rfl, rfl, rfl,
      evtRaw_setCond _ 2 false (by decide), ?_, ?_⟩
    · rw [avsRegained, setLost_false, avsAsk_eq]
      rfl
    · rw [avsRegained, setLost_false, avsAsk_eq]
      rfl
  case unanswered =>
    intro a s hcalm hlost hstatus hwrite
    rw [exec_avsRetry_unanswered hcalm hlost (by simp [State.avsAnswered, hstatus, hwrite]), avsAsk_eq]
  case thermal =>
    intro thr hyst floor target s hcalm hcalibrated hthr hhyst hfloor htarget
    have hexec := exec_thermalSample hcalm hcalibrated
    rw [← hthr, ← hhyst, ← hfloor, ← htarget] at hexec
    refine ⟨_, hexec, thermalNext_frame .., tjMax_thermalNext .., fun hhot hfree => ?_, fun hhot hthrottled => ?_,
      fun hcool hthrottled => ⟨raisedCeiling s thr hyst floor, rfl, fun hlow => ?_, fun hhigh => ?_⟩, fun hcool hfree => ?_⟩
    · rw [thermalNext_start hhot hfree]
      exact ⟨rfl, rfl, evtPend_raiseEvt _ 2 (by decide)⟩
    · rw [thermalNext_lower hhot hthrottled]
      exact ⟨hthrottled, rfl, rfl⟩
    · rw [thermalNext_raise hcool hthrottled hlow]
      exact ⟨hthrottled, rfl, rfl⟩
    · rw [thermalNext_end hcool hthrottled hhigh]
      exact ⟨rfl, evtPend_raiseEvt _ 2 (by decide)⟩
    · rw [thermalNext_cool hcool hfree]
      exact ⟨rfl, rfl⟩
  case under =>
    intro s hcalm hcalibrated hunder hlow hcores
    have hexec := exec_tempoUnder (live_of_calm hcalm) hcalibrated hunder hlow hcores
    exact ⟨hexec, fun hsev => ⟨_, hexec, settle_underBegun hcalm hsev⟩⟩

end Sys2Proof.SelfTimed
end

section
/-!
SUPPORT. Rules for the header of a page, and what a host write leaves of the state before it.
-/
namespace Sys2Proof.RegisterPages

open Sys2Proof.Machine Sys2Proof.SelfTimed

/-! ### Changes of one page -/

/-- The page directory ends at page 191 (R65). -/
theorem pageKind_lt {p : Nat} {k : PageKind} (h : pageKind p = some k) : p < 192 := by
  unfold pageKind at h
  split at h
  · omega
  · split at h
    · omega
    · cases h

theorem modPage_modPage (s : State) (p : Nat) (f g : Page → Page) :
    (s.modPage p f).modPage p g = s.modPage p fun x => g (f x) := by
  simp only [State.modPage, mset_mset, State.page, mgetD_mset_self]

/-- Two changes that agree on the present page are one. -/
theorem modPage_congr {s : State} {p : Nat} {f g : Page → Page} (h : f (s.page p) = g (s.page p)) :
    s.modPage p f = s.modPage p g := by
  simp only [State.modPage, h]

/-- No bit that is written is RSV (R15). -/
theorem rsv_of_clear {s : State} {p : Nat} {mask v : Word} (h : v &&& ~~~mask = 0) : s.rsv p mask v = s := if_pos h

/-- A word without bits outside a mask is its part within the mask. -/
theorem and_mask_of_clear {v mask : Word} (h : v &&& ~~~mask = 0) : v &&& mask = v := by
  have hsplit : (v &&& mask) ||| (v &&& ~~~mask) = v := by
    ext i
    simp [← Bool.and_or_distrib_left]
  simpa [h] using hsplit

/-! ### A host write to a served page -/

@[simp] theorem toL0_page (s : State) (p : Nat) : s.toL0.page p = s.page p := by rw [State.toL0_eq]; rfl

@[simp] theorem toL0_serving (s : State) (p : Nat) : s.toL0.serving p = s.serving p := by rw [State.toL0_eq]; rfl

@[simp] theorem toL0_pageState (s : State) (p : Nat) : s.toL0.pageState p = s.pageState p := by rw [State.toL0_eq]; rfl

@[simp] theorem toL0_linked (s : State) : s.toL0.linked = s.linked := by rw [State.toL0_eq]; rfl

@[simp] theorem toL0_decodes (s : State) : s.toL0.decodes = s.decodes := by rw [State.toL0_eq]; rfl

@[simp] theorem toL0_reg (s : State) (p off : Nat) : s.toL0.reg p off = s.reg p off := by rw [State.toL0_eq]; rfl

/-- The host reaches a page that hears its writes, and the page answers (R90, R101, R102). -/
theorem hears_parts {s : State} {p : Nat} (h : s.hears p = true) :
    s.linked = true ∧ s.decodes = true ∧ (pageKind p).isSome = true ∧ s.serving p = .served := by
  simp only [State.hears, Bool.and_eq_true, beq_iff_eq] at h
  obtain ⟨⟨⟨⟨hlinked, hdecodes⟩, hkind⟩, hserved⟩, -⟩ := h
  exact ⟨hlinked, hdecodes, hkind, hserved⟩

/-- A host write that changes its page alone. -/
theorem hostCmd_modPage {s : State} {p : Nat} {f : State → State} (g : Page → Page) (h : s.hears p = true)
    (hf : f s.toL0 = s.toL0.modPage p g) : hostCmd p s f = .next (s.toL0.modPage p g) := by
  rw [hostCmd_quiet p s f h (by rw [hf, State.modPage_due, toL0_due, due_of_hears h]), hf]

end Sys2Proof.RegisterPages
end

section
/-!
PROOF. The lock, the events and the snapshots of a page (R72, R80, R81, R86).
-/
namespace Sys2Proof.RegisterPages

open Sys2Proof.Machine Sys2Proof.SelfTimed

/-- TIMEBASE is page 19 alone (R65). -/
theorem eq_of_pageKind_timebase {p : Nat} (h : pageKind p = some .timebase) : p = 19 := by
  have hall : ∀ q < 192, pageKind q = some .timebase → q = 19 := by decide +kernel
  exact hall p (pageKind_lt h) h

/-- Writes that hold event bits of the page only set them (R72). -/
theorem setEvents_of_clear {s : State} {p : Nat} {k : PageKind} {v : Word} (hk : pageKind p = some k)
    (h : v &&& ~~~evtMask k = 0) :
    s.setEvents p v = s.modPage p fun g => { g with evtPend := g.evtPend ||| v } := by
  simp only [State.setEvents, hk, Option.map_some, Option.getD_some, rsv_of_clear h, and_mask_of_clear h]

theorem clearEvents_of_clear {s : State} {p : Nat} {k : PageKind} {v : Word} (hk : pageKind p = some k)
    (h : v &&& ~~~evtMask k = 0) :
    s.clearEvents p v = s.modPage p fun g => { g with evtPend := g.evtPend &&& ~~~v } := by
  simp only [State.clearEvents, hk, Option.map_some, Option.getD_some, rsv_of_clear h]

/-- A capture outside TIMEBASE (R86). -/
theorem snapTake_of_ne {s : State} {p : Nat} (h : p ≠ 19) :
    s.snapTake p = s.modPage p fun g =>
      { g with snapHeld := true, snapSeq := (g.snapSeq + 1) % 256, snap := s.snapRegs p } :=
  if_neg fun hk => h (eq_of_pageKind_timebase hk)

/-- A lock timeout in a calm part (R81). -/
theorem exec_pageLockTimeout {p : Nat} {s : State} (h : s.calm = true) :
    exec (.pageLockTimeout p) s = .next (s.modPage p fun g => { g with unlocked := false }) :=
  act_quiet s (fun t => t.modPage p fun g => { g with unlocked := false }) (live_of_calm h) (due_of_calm (s := s) h)

/-- Settles O10: each row is a change of its page alone, which raises no fault. -/
theorem pageHeaderRowsWriteTheirFields : Obligations.PageHeaderRowsWriteTheirFields := by
  unfold Obligations.PageHeaderRowsWriteTheirFields
  refine ⟨?unlock, ?relock, fun p s => exec_pageLockTimeout, ?set, ?clear, ?take, ?release⟩
  case unlock => exact fun p s h => hostCmd_modPage _ h rfl
  case relock => exact fun p k s h => hostCmd_modPage _ h rfl
  case set => exact fun p k v s h hk hv => hostCmd_modPage _ h (setEvents_of_clear hk hv)
  case clear => exact fun p k v s h hk hv => hostCmd_modPage _ h (clearEvents_of_clear hk hv)
  case take => exact fun p s h hp => ⟨s.toL0.snapRegs p, hostCmd_modPage _ h (snapTake_of_ne hp)⟩
  case release => exact fun p s h => hostCmd_modPage _ h rfl

end Sys2Proof.RegisterPages
end

section
/-!
PROOF. GO and HAND_OVER (R75, R76, R79, R81).
-/
namespace Sys2Proof.RegisterPages

open Sys2Proof.Machine Sys2Proof.SelfTimed

/-! ### GO -/

/-- The bits of a GO mask below group n. -/
def firstBits (mask : BitVec 16) (n : Nat) : BitVec 16 := (mask.setWidth n).setWidth 16

theorem firstBits_zero (mask : BitVec 16) : firstBits mask 0 = 0 := by
  ext i
  simp [firstBits]

theorem firstBits_all (mask : BitVec 16) : firstBits mask 16 = mask := by simp [firstBits]

/-- One more group of the mask. -/
theorem firstBits_succ (mask : BitVec 16) (n : Nat) :
    firstBits mask (n + 1) = if mask.getLsbD n then firstBits mask n ||| 1#16 <<< n else firstBits mask n := by
  unfold firstBits
  split <;> ext i hi <;> grind

/-- What a GO mask does for one group (R75, R79). -/
def goStep (p : Nat) (mask : BitVec 16) (t : State) (g : Nat) : State :=
  if !mask.getLsbD g then t
  else if !hasGroup p g then t.accessBad p
  else if (t.pageState p).rejects then t.reject p 3 g
  else t.modPage p fun x => { x with groups := x.groups ||| (1#16 <<< g) }

/-- A GO mask locks the page and takes the groups in turn. -/
theorem goWrite_eq (s : State) (p : Nat) (mask : BitVec 16) :
    s.goWrite p mask = (List.range 16).foldl (goStep p mask) (s.modPage p fun x => { x with unlocked := false }) := rfl

/-- A change of a page's header leaves the page's state where it leaves its own STATE. -/
theorem pageState_modPage {s : State} {p : Nat} {f : Page → Page} (h : (f (s.page p)).state = (s.page p).state) :
    (s.modPage p f).pageState p = s.pageState p := by
  have hserving : (s.modPage p f).serving p = s.serving p := rfl
  rw [State.pageState, State.pageState, hserving, page_modPage_self, h]

section
variable {s : State} {p : Nat} {mask : BitVec 16}

/-- The groups of a mask below n, each present, have become pending. -/
theorem foldl_goStep (hin : (s.pageState p).rejects = false)
    (hpresent : ∀ g, g < 16 → mask.getLsbD g = true → hasGroup p g = true) {n : Nat} (hn : n ≤ 16) :
    (List.range n).foldl (goStep p mask) (s.modPage p fun x => { x with unlocked := false }) =
      s.modPage p fun x => { x with unlocked := false, groups := x.groups ||| firstBits mask n } := by
  induction n with
  | zero => simp [firstBits_zero]
  | succ n ih =>
    rw [List.range_succ, List.foldl_append, ih (by omega), List.foldl_cons, List.foldl_nil, firstBits_succ, goStep]
    cases hbit : mask.getLsbD n with
    | false => simp
    | true =>
      have hstay := pageState_modPage (s := s) (p := p)
        (f := fun x => { x with unlocked := false, groups := x.groups ||| firstBits mask n }) rfl
      simp [hpresent n (by omega) hbit, hstay, hin, modPage_modPage, BitVec.or_assoc]

/-- GO for groups that the page has, in service: the page locks and the groups become pending (R75, R79, R81). -/
theorem goWrite_of_present (hin : (s.pageState p).rejects = false)
    (hpresent : ∀ g, g < 16 → mask.getLsbD g = true → hasGroup p g = true) :
    s.goWrite p mask = s.modPage p fun x => { x with unlocked := false, groups := x.groups ||| mask } := by
  rw [goWrite_eq, foldl_goStep hin hpresent (Nat.le_refl 16), firstBits_all]

end

/-! ### The copy of a group -/

/-- Every register that software writes lies below the active view (R73). -/
theorem regDefs_below (k : PageKind) :
    ∀ d ∈ regDefs k, ∀ i < d.count, d.off + d.stride * i < 0x800 := by
  have hlast : ∀ d ∈ regDefs k, d.off + d.stride * (d.count - 1) < 0x800 := by
    cases k <;> decide
  intro d hd i hi
  have hmono : d.stride * i ≤ d.stride * (d.count - 1) := Nat.mul_le_mul_left _ (by omega)
  have := hlast d hd
  omega

/-- So does every register of a commit group. -/
theorem groupOffs_below {k : PageKind} {g o : Nat} (h : o ∈ groupOffs k g) : o < 0x800 := by
  simp only [groupOffs, List.mem_flatMap] at h
  obtain ⟨d, hd, ho⟩ := h
  split at ho
  · split at ho
    · obtain ⟨i, hi, rfl⟩ := List.mem_map.mp ho
      exact regDefs_below k d hd i (List.mem_range.mp hi)
    · cases ho
  · split at ho
    · rename_i hg
      obtain rfl := List.mem_singleton.mp ho
      exact regDefs_below k d hd g hg
    · cases ho
  · cases ho

theorem reg_setReg_self (s : State) (p o : Nat) (w : Word) : (s.setReg p o w).reg p o = w := mgetD_mset_self ..

theorem reg_setReg_ne (s : State) {p o o' : Nat} (w : Word) (h : o' ≠ o) : (s.setReg p o w).reg p o' = s.reg p o' :=
  mgetD_mset_ne _ _ _ (by unfold regKey; omega)

/-- The shadow values of the registers `l` of a page become the active ones (R76). -/
def copyRegs (p : Nat) (l : List Nat) (s : State) : State := l.foldl (fun t o => t.setReg p (o + 0x800) (t.reg p o)) s

theorem copyGroup_of_kind {s : State} {p g : Nat} {k : PageKind} (h : pageKind p = some k) :
    s.copyGroup p g = copyRegs p (groupOffs k g) s := by
  simp only [State.copyGroup, h, copyRegs]

/-- A copy of registers changes nothing but registers. -/
theorem copyRegs_frame (p : Nat) (l : List Nat) (s : State) : copyRegs p l s = { s with regs := (copyRegs p l s).regs } := by
  induction l generalizing s with
  | nil => rfl
  | cons a l ih => exact ih _

/-- After the copy every one of the registers has its shadow value in force, and every shadow value stands. -/
theorem active_copyRegs {p : Nat} {l : List Nat} (hbelow : ∀ o ∈ l, o < 0x800) (s : State) :
    (∀ o < 0x800, (copyRegs p l s).reg p o = s.reg p o) ∧
      ∀ o < 0x800, o ∈ l ∨ s.active p o = s.reg p o → (copyRegs p l s).active p o = s.reg p o := by
  induction l generalizing s with
  | nil => exact ⟨fun _ _ => rfl, fun o _ h => h.resolve_left (List.not_mem_nil)⟩
  | cons a l ih =>
    obtain ⟨hshadow, hactive⟩ := ih (fun o ho => hbelow o (List.mem_cons_of_mem _ ho)) (s.setReg p (a + 0x800) (s.reg p a))
    have hstays : ∀ o < 0x800, (s.setReg p (a + 0x800) (s.reg p a)).reg p o = s.reg p o :=
      fun o ho => reg_setReg_ne s _ (by omega)
    refine ⟨fun o ho => (hshadow o ho).trans (hstays o ho), fun o ho h => (hactive o ho ?_).trans (hstays o ho)⟩
    rw [hstays o ho]
    by_cases heq : o = a
    · subst heq
      exact .inr (reg_setReg_self ..)
    · have hne : (s.setReg p (a + 0x800) (s.reg p a)).active p o = s.active p o := reg_setReg_ne s _ (by omega)
      rw [hne]
      exact h.imp_left fun hmem => (List.mem_cons.mp hmem).resolve_left heq

/-! ### What the unit does with an accepted hand-over -/

/-- Registers and waiting faults stand, and of the pages only the event words change. -/
structure EventsOnly (s t : State) : Prop where
  regs : t.regs = s.regs
  due : t.due = s.due
  pages : ∀ p, t.page p = { s.page p with evtRaw := (t.page p).evtRaw, evtPend := (t.page p).evtPend }

theorem EventsOnly.refl (s : State) : EventsOnly s s := ⟨rfl, rfl, fun _ => rfl⟩

theorem EventsOnly.trans {s t u : State} (h : EventsOnly s t) (k : EventsOnly t u) : EventsOnly s u := by
  refine ⟨k.regs.trans h.regs, k.due.trans h.due, fun p => ?_⟩
  have hpage := k.pages p
  rw [h.pages p] at hpage
  exact hpage

/-- Every page's pending groups stand. -/
theorem EventsOnly.groups {s t : State} (h : EventsOnly s t) (p : Nat) : (t.page p).groups = (s.page p).groups := by
  rw [h.pages p]

/-- An operation that changes neither pages nor registers nor waiting faults. -/
theorem eventsOnly_of_pages {s t : State} (hregs : t.regs = s.regs) (hdue : t.due = s.due) (hpages : t.pages = s.pages) :
    EventsOnly s t :=
  ⟨hregs, hdue, fun p => by rw [State.page, hpages]; rfl⟩

/-- A change of a page's event words. -/
theorem eventsOnly_modPage (s : State) (p : Nat) (f : Page → Page)
    (h : ∀ g, f g = { g with evtRaw := (f g).evtRaw, evtPend := (f g).evtPend }) : EventsOnly s (s.modPage p f) := by
  refine ⟨rfl, rfl, fun q => ?_⟩
  by_cases hq : q = p
  · subst hq
    rw [page_modPage_self]
    exact h _
  · rw [page_modPage_ne s f hq]

theorem eventsOnly_setCond (s : State) (p b : Nat) (v : Bool) : EventsOnly s (s.setCond p b v) :=
  eventsOnly_modPage s p _ fun _ => by
    cases v <;> rfl

theorem eventsOnly_raiseEvt (s : State) (p b : Nat) : EventsOnly s (s.raiseEvt p b) :=
  eventsOnly_modPage s p _ fun _ => rfl

theorem eventsOnly_modChan (s : State) (c : Nat) (f : Channel → Channel) : EventsOnly s (s.modChan c f) :=
  eventsOnly_of_pages rfl rfl rfl

/-- A read of the link leaves or waits for its tag (R99). -/
theorem eventsOnly_issueRead (s : State) (r : HostReq) (a n : Nat) : EventsOnly s (s.issueRead r a n) := by
  unfold State.issueRead
  split
  · rw [State.hostAsk_linkOnly]
    exact eventsOnly_of_pages rfl rfl rfl
  · exact eventsOnly_of_pages rfl rfl rfl

theorem eventsOnly_fetchDesc (s : State) (c a : Nat) : EventsOnly s (s.fetchDesc c a) := by
  unfold State.fetchDesc
  split
  · exact eventsOnly_modChan s c _
  · exact (eventsOnly_issueRead s _ a 64).trans (eventsOnly_modChan _ c _)

theorem eventsOnly_trigRun (s : State) (c : Nat) : EventsOnly s (s.trigRun c) :=
  (eventsOnly_modChan s c _).trans (eventsOnly_fetchDesc _ c _)

/-- A channel that takes a commit up (R450, R459). -/
theorem eventsOnly_chanHanded (s : State) (c : Nat) : EventsOnly s (s.chanHanded c) := by
  have harm := eventsOnly_modChan s c fun x => { x with state := .armed }
  unfold State.chanHanded
  split
  · exact eventsOnly_modChan s c _
  · split
    case' h_1 | h_2 =>
      dsimp only
      split
      · exact (harm.trans (eventsOnly_modChan _ c _)).trans (eventsOnly_trigRun _ c)
      · split
        · exact harm.trans (eventsOnly_trigRun _ c)
        · exact harm
    case h_3 => exact .refl s

/-- The links of a port go down (R483). -/
theorem eventsOnly_retrain (s : State) (port : Nat) : EventsOnly s (s.retrain port) := by
  have hlinks : EventsOnly s ((List.range 4).foldl (fun t l => t.modLink (4 * port + l) fun _ => {}) s) :=
    List.foldlRecOn (motive := EventsOnly s) _ _ (.refl s) fun t ht l _ => ht.trans (eventsOnly_of_pages rfl rfl rfl)
  have hconds (t : State) : EventsOnly t (t.portConds port) :=
    (eventsOnly_setCond t _ _ _).trans (eventsOnly_setCond _ _ _ _)
  unfold State.retrain
  dsimp only
  split
  · exact (hlinks.trans (eventsOnly_raiseEvt _ _ _)).trans (hconds _)
  · exact hlinks.trans (hconds _)

/-- Outside TIMEBASE the unit leaves the registers that a hand-over has copied. -/
theorem eventsOnly_handed (s old : State) {p : Nat} (g : Nat) (hp : p ≠ 19) : EventsOnly s (s.handed old p g) := by
  unfold State.handed
  split
  case h_1 htime => exact absurd (eq_of_pageKind_timebase htime) hp
  case h_2 =>
    split
    · exact eventsOnly_retrain s _
    · exact .refl s
  case h_3 =>
    split
    · exact eventsOnly_of_pages rfl rfl rfl
    · exact .refl s
  case h_4 => exact eventsOnly_setCond s _ _ _
  case h_5 => exact ((eventsOnly_setCond s _ _ _).trans (eventsOnly_setCond _ _ _ _)).trans (eventsOnly_setCond _ _ _ _)
  case h_6 =>
    split
    · exact eventsOnly_of_pages rfl rfl rfl
    · exact .refl s
  case h_7 =>
    split
    · exact eventsOnly_of_pages rfl rfl rfl
    · exact .refl s
  case h_8 => exact eventsOnly_chanHanded s _
  case h_9 => exact eventsOnly_chanHanded s _
  case h_10 => exact .refl s

/-! ### The hand-over -/

/-- The state with group g of page p no longer pending. -/
def withdrawn (s : State) (p g : Nat) : State := s.modPage p fun x => { x with groups := x.groups &&& ~~~(1#16 <<< g) }

theorem withdrawn_group (s : State) (p : Nat) {g : Nat} (hg : g < 16) :
    ((withdrawn s p g).page p).groups.getLsbD g = false := by
  rw [withdrawn, page_modPage_self]
  simp [hg]

/-- The checks of a commit look at no page header (R76). -/
theorem handReject_withdrawn (s : State) (p g : Nat) : (withdrawn s p g).handReject p g = s.handReject p g := rfl

/-- A hand-over in service: the group is no longer pending, and its values are rejected or taken up (R76). -/
theorem handOver_of_accepts {s : State} {p g : Nat} (hin : (s.pageState p).rejects = false) :
    s.handOver p g = if s.handReject p g ≠ 0 then (withdrawn s p g).reject p (s.handReject p g) g
      else ((withdrawn s p g).copyGroup p g).handed (withdrawn s p g) p g := by
  simp only [State.handOver, hin, Bool.false_eq_true, if_false, ← withdrawn.eq_1, handReject_withdrawn]

/-- HAND_OVER at a boundary, with no late write. -/
theorem exec_handOver {s : State} {p g : Nat} (hcalm : s.calm = true) (hg : g < 16)
    (hpending : (s.page p).groups.getLsbD g = true) (hparked : s.pageParked p = false) (hserved : s.serving p = .served)
    (hboundary : s.atBoundary p g = true) (hquiet : (s.handOver p g).due = []) :
    exec (.handOver p g []) s = .next (s.handOver p g) := by
  have hexec : exec (.handOver p g []) s = execHandOver p g [] s := rfl
  rw [hexec, execHandOver, act_live _ _ (live_of_calm hcalm)]
  dsimp only [List.foldl_nil]
  rw [if_neg (by simp [hpending, hparked, hserved, hboundary, hg]), State.settle_of_due _ hquiet]

/-- A rejected commit names its reason and group, unless an earlier one stands (R69). -/
theorem page_reject (s : State) (p reason group : Nat) :
    ((s.reject p reason group).page p).commitReject = true ∧
      ((s.reject p reason group).page p).groups = (s.page p).groups ∧
      ((s.page p).commitReject = false → ((s.reject p reason group).page p).rejectReason = reason ∧
        ((s.reject p reason group).page p).rejectGroup = group) := by
  unfold State.reject
  rw [page_modPage_self]
  cases hset : (s.page p).commitReject <;> simp [hset]

/-- An accepted hand-over keeps faults and pending groups of the state without the group. -/
theorem accepted_kept (s : State) {p : Nat} (g : Nat) (hp : p ≠ 19) :
    EventsOnly ((withdrawn s p g).copyGroup p g) (((withdrawn s p g).copyGroup p g).handed (withdrawn s p g) p g) :=
  eventsOnly_handed _ _ g hp

/-- Copying a group changes nothing but registers. -/
theorem copyGroup_frame (s : State) (p g : Nat) : s.copyGroup p g = { s with regs := (s.copyGroup p g).regs } := by
  cases hk : pageKind p with
  | none => simp only [State.copyGroup, hk]
  | some k =>
    rw [copyGroup_of_kind hk]
    exact copyRegs_frame ..

/-- Settles O11: GO from the fold over its groups; HAND_OVER from the copy of the group and from what the unit keeps. -/
theorem commitTakesEffectAtHandOver : Obligations.CommitTakesEffectAtHandOver := by
  unfold Obligations.CommitTakesEffectAtHandOver
  refine ⟨fun p mask s hears hin hpresent => ?go, fun p g s hcalm hg hpending hparked hserved hin hboundary hp => ?handOver⟩
  case go =>
    refine ⟨_, hostCmd_modPage _ hears (goWrite_of_present (by rwa [toL0_pageState]) hpresent), ?_, ?_, ?_⟩
    · exact modPage_congr (by rw [page_modPage_self])
    · rw [page_modPage_self]
    · rw [page_modPage_self, toL0_page]
  case handOver =>
    have hdue : (withdrawn s p g).due = [] := due_of_calm hcalm
    have hout := handOver_of_accepts (g := g) hin
    by_cases hreason : s.handReject p g = 0
    · rw [if_neg fun h => h hreason] at hout
      have hkept := accepted_kept s g hp
      have hframe := copyGroup_frame (withdrawn s p g) p g
      refine ⟨_, exec_handOver hcalm hg hpending hparked hserved hboundary ?_, ?_, fun _ k o hk ho => ?_,
        fun h => absurd hreason h⟩
      · rw [hout, hkept.due, hframe]
        exact hdue
      · rw [hout, hkept.groups, hframe]
        exact withdrawn_group s p hg
      · obtain ⟨-, hactive⟩ := active_copyRegs (p := p) (fun o => groupOffs_below (k := k) (g := g)) (withdrawn s p g)
        rw [hout, State.active, State.reg, hkept.regs, copyGroup_of_kind hk]
        exact hactive o (groupOffs_below ho) (.inl ho)
    · rw [if_pos hreason] at hout
      obtain ⟨hset, hgroups, hnamed⟩ := page_reject (withdrawn s p g) p (s.handReject p g) g
      refine ⟨_, exec_handOver hcalm hg hpending hparked hserved hboundary ?_, ?_, fun h => absurd h hreason,
        fun _ => ⟨?_, ?_, ?_⟩⟩
      · rw [hout]
        exact hdue
      · rw [hout, hgroups]
        exact withdrawn_group s p hg
      · rw [hout]
        rfl
      · rw [hout]
        exact hset
      · intro hfirst
        rw [hout]
        refine hnamed ?_
        rw [withdrawn, page_modPage_self]
        exact hfirst

end Sys2Proof.RegisterPages
end

section
/-!
PROOF. Writes and reads of registers, and accesses through the windows (R64, R66, R67, R73, R277).
-/
namespace Sys2Proof.RegisterPages

open Sys2Proof.Machine Sys2Proof.SelfTimed

/-! ### Requests to BAR0 -/

/-- A request to BAR0 of a part that the host reaches (R101, R102). -/
theorem barRequest_reached {s : State} {f : State → State} (hlinked : s.linked = true) (hdecodes : s.decodes = true) :
    barRequest s f = .next (f s.toL0) := by
  simp [barRequest, hlinked, hdecodes]

/-- A page that is served is not that of a sealed part (R90). -/
theorem not_sealed_of_served {s : State} {p : Nat} (h : s.serving p = .served) : s.faults.stop ≠ .sealed := by
  intro hsealed
  simp only [State.serving, hsealed, if_true] at h
  split at h <;> cases h

/-- A refused access of a part that is not sealed (R64). -/
theorem refusedAccess_of_served {s : State} (h : s.serving 0 = .served) : s.refusedAccess = s.accessBad 0 :=
  if_neg (not_sealed_of_served h)

/-! ### Register writes -/

section
variable {s : State} {off len : Nat} {v : DWord} {h : HostAnswers}

/-- A 4-byte write (R64). -/
theorem exec_registerWrite_four (hlinked : s.linked = true) (hdecodes : s.decodes = true) (hoff : off < 0x400000)
    (hclean : h.poisoned = false) (haligned : off % 4 = 0) :
    exec (.registerWrite off 4 v h) s = writeWord off (v.setWidth 32) h s := by
  have hexec : exec (.registerWrite off 4 v h) s = execRegisterWrite off 4 v h s := rfl
  rw [hexec, execRegisterWrite, if_neg (by simp [hlinked, hdecodes, hclean, hoff, accessOk, haligned])]
  rfl

/-- An 8-byte write goes on with its upper word where the lower one ends in a next state (R64). -/
theorem exec_registerWrite_eight {t : State} (hlinked : s.linked = true) (hdecodes : s.decodes = true)
    (hoff : off < 0x400000) (hclean : h.poisoned = false) (haligned : off % 8 = 0)
    (hlower : writeWord off (v.setWidth 32) h s = .next t) :
    exec (.registerWrite off 8 v h) s = writeWord (off + 4) ((v >>> 32).setWidth 32) h t := by
  have hexec : exec (.registerWrite off 8 v h) s = execRegisterWrite off 8 v h s := rfl
  have hwords : wordsOf off 8 v = [(off, v.setWidth 32), (off + 4, (v >>> 32).setWidth 32)] := rfl
  rw [hexec, execRegisterWrite, if_neg (by simp [hlinked, hdecodes, hclean, hoff, accessOk, haligned]), hwords]
  dsimp only
  rw [hlower]

/-- A write that BAR0 refuses, for its data or its size (R64, R101). -/
theorem exec_registerWrite_refused (hears : s.hears 0 = true) (hoff : off < 0x400000)
    (hbad : h.poisoned = true ∨ accessOk off len true = false) :
    exec (.registerWrite off len v h) s =
      .next (if h.poisoned then s.toL0.report .poisonedTlp else s.toL0.accessBad 0) := by
  have hexec : exec (.registerWrite off len v h) s = execRegisterWrite off len v h s := rfl
  obtain ⟨hlinked, hdecodes, -, hserved⟩ := hears_parts hears
  have hrefused : s.toL0.refusedAccess = s.toL0.accessBad 0 := refusedAccess_of_served (by rwa [toL0_serving])
  rw [hexec, execRegisterWrite, if_pos (by rcases hbad with h | h <;> simp [h]), barRequest_reached hlinked hdecodes,
    if_neg (by omega), hrefused]

end

/-- Neither one byte nor two is a size of a write (R64). -/
theorem accessOk_short {off len : Nat} (h : len = 1 ∨ len = 2) : accessOk off len true = false := by
  rcases h with rfl | rfl <;> simp [accessOk]

section
variable {p o : Nat} {k : PageKind} {w : Word} {h : HostAnswers} {s : State}

/-- The upper half of a page takes no write (R73). -/
theorem writeWord_upper (hp : p < 192) (hlow : 0x800 ≤ o) (ho : o < 0x1000) (hk : pageKind p = some k) :
    writeWord (p * 0x1000 + o) w h s = hostCmd p s fun s => s.accessBad p := by
  have hpage : (p * 0x1000 + o) / 0x1000 = p := by omega
  have hoffset : (p * 0x1000 + o) % 0x1000 = o := by omega
  simp only [writeWord, hpage, hoffset, hk, if_neg (show ¬512 ≤ p by omega), if_pos hlow]

/-- A write to the common header. -/
theorem writeWord_header (hp : p < 192) (ho : o < 0x040) (hk : pageKind p = some k) :
    writeWord (p * 0x1000 + o) w h s = hostCmd p s fun s => s.writeHeader p o k w := by
  have hpage : (p * 0x1000 + o) / 0x1000 = p := by omega
  have hoffset : (p * 0x1000 + o) % 0x1000 = o := by omega
  simp only [writeWord, hpage, hoffset, hk, if_neg (show ¬512 ≤ p by omega), if_neg (show ¬0x800 ≤ o by omega), if_pos ho]

end

/-- PAGE_SCRATCH stores what it is given (R73). -/
theorem writeHeader_scratch (s : State) (p : Nat) (k : PageKind) (w : Word) :
    s.writeHeader p 0x038 k w = s.modPage p fun g => { g with scratch := w } :=
  rsv_of_clear (by simp [headerMask])

/-! ### Register reads -/

@[simp] theorem length_leBytes (n x : Nat) : (leBytes n x).length = n := by
  induction n generalizing x with
  | zero => rfl
  | succ n ih => simp [leBytes, ih]

/-- A source in service is not claimable, so that no message is owed for it (R469, R474). -/
theorem modSrc_of_inService {s : State} {n : Nat} {f : IntSource → IntSource} (h : (f (s.src n)).inService = true) :
    s.modSrc n f = { s with intc := { s.intc with srcs := mset s.intc.srcs n (f (s.src n)) } } := by
  have hbusy : State.claimable { s with intc := { s.intc with srcs := mset s.intc.srcs n (f (s.src n)) } } n = false := by
    simp only [State.claimable, State.src, mgetD_mset_self]
    simp only [State.src] at h
    simp [h]
  unfold State.modSrc
  simp only [hbusy, Bool.and_false, Bool.false_eq_true, if_false]

/-- A read changes the service of an interrupt source, or the latch of the timebase, and nothing else (R17). -/
theorem readWord_frame (s : State) (off : Nat) :
    (s.readWord off).2 = { s with intc := (s.readWord off).2.intc, time := (s.readWord off).2.time } := by
  unfold State.readWord
  dsimp only
  split
  · rfl
  · split
    · rfl
    · rfl
    · split
      · split
        · rfl
        · rw [State.claimSource, modSrc_of_inService rfl]
      · split <;> rfl

/-- A 4-byte read below the windows. -/
theorem exec_windowAccess_read {s : State} {off : Nat} (hlinked : s.linked = true) (hdecodes : s.decodes = true)
    (hoff : off < 0x200000) (haligned : off % 4 = 0) :
    exec (.windowAccess off 4 none) s =
      .next ((s.toL0.readWord off).2.emit (.barRead (leBytes 4 (s.toL0.readWord off).1.toNat) false)) := by
  have hexec : exec (.windowAccess off 4 none) s = execWindowAccess off 4 none s := rfl
  have hword : off / 4 * 4 = off := by omega
  have hread : s.toL0.regRead off 4 = (leBytes 4 (s.toL0.readWord off).1.toNat, (s.toL0.readWord off).2) := by
    simp [State.regRead, accessOk, haligned, hword, List.take_of_length_le]
  rw [hexec, execWindowAccess, barRequest_reached hlinked hdecodes, if_neg (by omega), if_pos hoff, hread]

/-- A read of PAGE_SCRATCH of a served page that holds no snapshot. -/
theorem readWord_scratch {s : State} {p : Nat} (hkind : (pageKind p).isSome = true) (hserved : s.serving p = .served)
    (hheld : (s.page p).snapHeld = false) : s.readWord (p * 0x1000 + 0x038) = ((s.page p).scratch, s) := by
  obtain ⟨k, hk⟩ := Option.isSome_iff_exists.mp hkind
  have hpage : (p * 0x1000 + 0x038) / 0x1000 = p := by omega
  have hoffset : (p * 0x1000 + 0x038) % 0x1000 = 0x038 := by omega
  simp [State.readWord, hpage, hoffset, hk, hserved, State.regValue, hheld, State.liveValue, State.headerValue]

/-! ### Windows -/

section
variable {s : State} {w x : Nat}

/-- In service the windows of a part that is not sealed are served (R90). -/
theorem windowsServed_of_ready (hready : s.boot.state = .ready) (hserved : s.serving 0 = .served) :
    s.windowsServed = true := by
  simp [State.windowsServed, hready, not_sealed_of_served hserved]

/-- A window of target NONE reaches nothing (R66, R67). -/
theorem windowAt_none (hw : w < 8) (hx : x < 0x10000) (hnone : fld (s.reg 0 (0x100 + 4 * w)) 31 24 = 0) :
    s.windowAt (0x200000 + w * 0x40000 + 4 * x) = none := by
  have hwindow : (0x200000 + w * 0x40000 + 4 * x - 0x200000) / 0x40000 = w := by omega
  simp [State.windowAt, hwindow, hnone, targetSize]

/-- The word of WINDOW_SEL that shows the contexts of core n from their start. -/
def contextSel (n : Nat) : Word := BitVec.ofNat 32 (4 * 2 ^ 24 + n * 2 ^ 16)

theorem fld_contextSel {n : Nat} (hn : n < 48) :
    fld (contextSel n) 31 24 = 4 ∧ fld (contextSel n) 23 16 = n ∧ fld (contextSel n) 15 0 = 0 := by
  unfold fld bits contextSel
  rw [BitVec.toNat_ofNat]
  omega

/-- A CONTEXT window of a core that is not parked (R66, R67). -/
theorem windowAt_context {n : Nat} (hw : w < 8) (hx : x < 8192) (hn : n < 48)
    (hsel : s.reg 0 (0x100 + 4 * w) = contextSel n) (hparked : s.pageParked (corePage n) = false) :
    s.windowAt (0x200000 + w * 0x40000 + 4 * x) = some (4, n, 4 * x) := by
  have hwindow : (0x200000 + w * 0x40000 + 4 * x - 0x200000) / 0x40000 = w := by omega
  have hbyte : (0x200000 + w * 0x40000 + 4 * x) % 0x40000 = 4 * x := by omega
  obtain ⟨htarget, hinst, hbase⟩ := fld_contextSel hn
  simp only [State.windowAt, hwindow, hsel, htarget, hinst, hbase, hbyte, hparked, targetSize]
  rw [if_neg (by omega), if_neg (by simp [hn]), Nat.zero_mul, Nat.zero_add]

/-- A word written to the contexts of a fenced core (R277). -/
theorem targetWrite_context {n a : Nat} {v : Word} (hfenced : s.coreFenced n = true) :
    s.targetWrite 4 n a v = some (s.modBin n fun b => { b with ctx := mset b.ctx (a / 4) v }) :=
  if_pos hfenced

section
variable {off : Nat} (hlinked : s.linked = true) (hdecodes : s.decodes = true) (hlow : 0x200000 ≤ off)
  (hhigh : off < 0x400000) (haligned : off % 4 = 0)
include hlinked hdecodes hlow hhigh

/-- A 4-byte read through a window. -/
theorem exec_windowAccess_windowRead :
    exec (.windowAccess off 4 none) s =
      .next ((s.toL0.windowRead off 4).2.emit (.barRead (s.toL0.windowRead off 4).1 false)) := by
  have hexec : exec (.windowAccess off 4 none) s = execWindowAccess off 4 none s := rfl
  rw [hexec, execWindowAccess, barRequest_reached hlinked hdecodes, if_neg (by omega), if_neg (by omega)]

include haligned

/-- A 4-byte write through a window. -/
theorem exec_windowAccess_windowWrite (v : DWord) :
    exec (.windowAccess off 4 (some v)) s = .next (s.toL0.windowWrite off (v.setWidth 32)) := by
  have hexec : exec (.windowAccess off 4 (some v)) s = execWindowAccess off 4 (some v) s := rfl
  rw [hexec, execWindowAccess.eq_1, if_neg (by omega), barRequest_reached hlinked hdecodes, if_neg (by omega),
    if_pos (by simp [accessOk, haligned])]
  rfl

end

/-- A read through a window that reaches nothing (R67). -/
theorem windowRead_none {off : Nat} (haligned : off % 4 = 0) (hserved : s.windowsServed = true)
    (hnone : s.windowAt off = none) : s.windowRead off 4 = ([0, 0, 0, 0], s.accessBad 0) := by
  simp [State.windowRead, accessOk, haligned, hserved, hnone, List.replicate]

end

/-! ### The obligation -/

/-- Settles O13: every access from the register or the window that it reaches. -/
theorem registerAndWindowAccesses : Obligations.RegisterAndWindowAccesses := by
  unfold Obligations.RegisterAndWindowAccesses
  refine ⟨?scratch, ?upper, ?short, ?poisoned, ?read, ?readScratch, ?eight, ?noTarget, ?context⟩
  case scratch =>
    intro p v h s hears hp hclean
    obtain ⟨hlinked, hdecodes, hkind, -⟩ := hears_parts hears
    obtain ⟨k, hk⟩ := Option.isSome_iff_exists.mp hkind
    rw [exec_registerWrite_four hlinked hdecodes (by omega) hclean (by omega), writeWord_header hp (by omega) hk]
    exact hostCmd_modPage _ hears (writeHeader_scratch _ p k _)
  case upper =>
    intro p o v h s hears hp hlow ho haligned hclean
    obtain ⟨hlinked, hdecodes, hkind, -⟩ := hears_parts hears
    obtain ⟨k, hk⟩ := Option.isSome_iff_exists.mp hkind
    rw [exec_registerWrite_four hlinked hdecodes (by omega) hclean (by omega), writeWord_upper hp hlow ho hk]
    exact hostCmd_modPage _ hears rfl
  case short =>
    intro off len v h s hears hoff hlen hclean
    rw [exec_registerWrite_refused hears hoff (.inr (accessOk_short hlen)), if_neg (by simp [hclean])]
  case poisoned =>
    intro off len v h s hears hoff hbad
    rw [exec_registerWrite_refused hears hoff (.inl hbad), if_pos hbad]
  case read =>
    intro p o s hears _ hp ho haligned
    obtain ⟨hlinked, hdecodes, -, -⟩ := hears_parts hears
    refine ⟨_, exec_windowAccess_read hlinked hdecodes (by omega) (by omega),
      ⟨leBytes 4 (s.toL0.readWord (p * 0x1000 + o)).1.toNat, length_leBytes .., ?_⟩, ?_⟩
    · rw [readWord_frame]
      rfl
    · rw [readWord_frame, State.toL0_eq]
      exact ⟨rfl, rfl, rfl, rfl, rfl⟩
  case readScratch =>
    intro p s hears hp hheld
    obtain ⟨hlinked, hdecodes, hkind, hserved⟩ := hears_parts hears
    rw [exec_windowAccess_read hlinked hdecodes (by omega) (by omega),
      readWord_scratch hkind (by rwa [toL0_serving]) (by rwa [toL0_page]), toL0_page]
  case eight =>
    intro off v h s t hears hoff haligned hclean hlower hlinked' hdecodes'
    obtain ⟨hlinked, hdecodes, -, -⟩ := hears_parts hears
    rw [exec_registerWrite_four hlinked hdecodes hoff hclean (by omega)] at hlower
    rw [exec_registerWrite_eight hlinked hdecodes hoff hclean haligned hlower,
      exec_registerWrite_four hlinked' hdecodes' (by omega) hclean (by omega)]
  case noTarget =>
    intro w x s hears hready hw hx hsel
    obtain ⟨hlinked, hdecodes, -, hserved⟩ := hears_parts hears
    have hwindows : s.toL0.windowsServed = true :=
      windowsServed_of_ready (by rw [State.toL0_eq]; exact hready) (by rwa [toL0_serving])
    rw [exec_windowAccess_windowRead hlinked hdecodes (by omega) (by omega),
      windowRead_none (by omega) hwindows (windowAt_none hw hx (by rwa [toL0_reg]))]
  case context =>
    intro w x n v s hears hready hw hx hn hsel hfenced hparked
    obtain ⟨hlinked, hdecodes, -, hserved⟩ := hears_parts hears
    have hwindows : s.toL0.windowsServed = true :=
      windowsServed_of_ready (by rw [State.toL0_eq]; exact hready) (by rwa [toL0_serving])
    have hat := windowAt_context (s := s.toL0) hw hx hn (by rwa [toL0_reg]) (by rw [State.toL0_eq]; exact hparked)
    have hwrite : s.toL0.windowWrite (0x200000 + w * 0x40000 + 4 * x) (v.setWidth 32) =
        s.toL0.modBin n fun b => { b with ctx := mset b.ctx x (v.setWidth 32) } := by
      have hfenced' : s.toL0.coreFenced n = true := by rw [State.toL0_eq]; exact hfenced
      simp [State.windowWrite, hwindows, hat, targetWrite_context hfenced']
    refine ⟨_, exec_windowAccess_windowWrite hlinked hdecodes (by omega) (by omega) (by omega) v, ?_, ?_⟩
    · rw [hwrite]
      simp [State.modBin, State.modUnit, State.unit]
    · rw [hwrite]
      rfl

end Sys2Proof.RegisterPages
end

section
/-!
PROOF. Allocation from the buffer pools (R441, R442).

The row POOL_ALLOCATE for a pool with no buffer free fails, on a job table that is not in rising order. A job that goes on waiting
has its entry written again, with what it holds already. The table is a plain list and the row's premises do not ask that its
keys rise; a write puts an entry before the first greater key, so that behind such a key the old entry stays and the table grows.
On a table in rising order the row holds (`exec_poolAllocate_empty_of_sorted`).
-/
namespace Sys2Proof.RegisterPages

open Sys2Proof.Machine Sys2Proof.SelfTimed

/-! ### Job tables -/

/-- On a map in rising order, writing what a key holds changes nothing. -/
theorem mset_of_mget {α : Type} {m : Map α} {k : Nat} {v : α} (hsorted : msorted m = true) (h : mget m k = some v) :
    mset m k v = m := by
  induction m with
  | nil => cases h
  | cons e t ih =>
    obtain ⟨c, w⟩ := e
    by_cases heq : k = c
    · subst heq
      simp only [mget, if_true, Option.some.injEq] at h
      simp [mset, h]
    · simp only [mget, if_neg heq] at h
      have hnot : ¬k < c := by
        intro hlt
        rw [mget_none_of_lt fun y hy => Nat.lt_trans hlt (msorted_lt hsorted y hy)] at h
        cases h
      simp only [mset, if_neg hnot, if_neg heq, ih (msorted_tail hsorted) h]

/-- On a job table in rising order, a change that gives a job what it has changes nothing. -/
theorem modJob_of_sorted {s : State} {j : Nat} {x : Job} {f : Job → Job} (hsorted : msorted s.jobs = true)
    (hjob : s.job j = some x) (hsame : f x = x) : s.modJob j f = s := by
  have hlisted : mget s.jobs j = some x := hjob
  simp only [State.modJob, mupd, hlisted, hsame, mset_of_mget hsorted hlisted]

/-! ### A request of an empty pool -/

/-- What a request of arguments b and a names (R441). -/
def allocReq (b : Bool) (a : Nat) : AllocReq := if b then .byPool a else .bySize a

section
variable {j a p : Nat} {b : Bool} {x : Job} {h : Option (List Byte)} {s : State}

/-- A pool with no buffer free raises its event (R441). -/
theorem allocate_empty {r : AllocReq} {who : Agent} (hfence : (s.page 9).fence = false) (hpool : s.chosenPool r = some p)
    (henabled : (s.pool p).state = .enabled) (hhead : (s.pool p).head = 0) :
    s.allocate r who h = (.empty p, s.raiseEvt 9 2) := by
  simp [State.allocate, hpool, hfence, henabled, hhead]

/-- A request whose pool has no buffer free reads no header. -/
theorem allocHeld_empty {r : AllocReq} (hpool : s.chosenPool r = some p) (hhead : (s.pool p).head = 0) :
    s.allocHeld r = false := by
  simp [State.allocHeld, hpool, hhead]

variable (hcalm : s.calm = true) (hjob : s.job j = some x) (hlive : x.live = true) (hrequest : x.request = some (b, a))
  (hphase : x.phase ≠ .parsing) (hfence : (s.page 9).fence = false) (hpool : s.chosenPool (allocReq b a) = some p)
  (henabled : (s.pool p).state = .enabled) (hhead : (s.pool p).head = 0) (htries : x.tries < s.devField x.epoch 2)
include hcalm hjob hlive hrequest hphase hfence hpool henabled hhead htries

/-- Before its last retry a job whose pool has no buffer free goes on waiting: its entry is written again (R442). -/
theorem exec_poolAllocate_empty :
    exec (.poolAllocate j b a h) s =
      .next ((s.raiseEvt 9 2).modJob j fun y => { y with request := some (b, a), forStage := x.forStage }) := by
  have hexec : exec (.poolAllocate j b a h) s = execPoolAllocate j b a h s := rfl
  have hmay : s.mayAsk x b a = true := by simp [State.mayAsk, hrequest, hphase]
  have hanswer := allocate_empty (h := h) (who := .core x.core) hfence hpool henabled hhead
  have hask : s.askPool j x b a h =
      (s.raiseEvt 9 2).modJob j fun y => { y with request := some (b, a), forStage := x.forStage } := by
    have hearly : ¬s.devField x.epoch 2 ≤ x.tries := Nat.not_le_of_lt htries
    unfold allocReq at hanswer
    simp [State.askPool, hanswer, hrequest, hearly]
  have hheld : s.allocHeld (if b then .byPool a else .bySize a) = false := allocHeld_empty hpool hhead
  rw [hexec, execPoolAllocate, act_live _ _ (live_of_calm hcalm)]
  simp only [hjob, hlive, hmay, hheld, hask, Bool.not_false, and_self, if_true]
  exact congrArg _ (State.settle_of_due _ (due_of_calm hcalm))

/-- On a job table in rising order it changes nothing but the pool's event. -/
theorem exec_poolAllocate_empty_of_sorted (hsorted : msorted s.jobs = true) :
    exec (.poolAllocate j b a h) s = .next (s.raiseEvt 9 2) := by
  rw [exec_poolAllocate_empty hcalm hjob hlive hrequest hphase hfence hpool henabled hhead htries,
    modJob_of_sorted (s := s.raiseEvt 9 2) hsorted hjob (by rw [← hrequest])]

end

/-! ### The counterexample -/

/-- A job that waits for a buffer of pool 15. -/
def waiter : Job where
  queue := 0
  seq := 0
  epoch := 0
  body := []
  phase := .waiting
  request := some (true, 15)

/-- A part that is READY, whose pool 15 is enabled with no buffer free, and which lists job 1 before job 0. -/
def fallingTable : State where
  power := { powered := true }
  boot := { state := .ready }
  bpm := { pools := [(15, { state := .enabled })] }
  jobs := [(1, waiter), (0, waiter)]

/-- Job 0 of `fallingTable` meets every premise of the row. -/
theorem fallingTable_meets_premises :
    fallingTable.calm = true ∧ fallingTable.job 0 = some waiter ∧ waiter.live = true ∧
      waiter.request = some (true, 15) ∧ waiter.phase ≠ .parsing ∧ (fallingTable.page 9).fence = false ∧
      fallingTable.chosenPool (.byPool 15) = some 15 ∧ (fallingTable.pool 15).state = .enabled ∧
      (fallingTable.pool 15).head = 0 ∧ waiter.tries < fallingTable.devField waiter.epoch 2 := by decide +kernel

/-- Refutes O20: POOL_ALLOCATE of job 0 in `fallingTable` ends with three entries in the job table, where the row says that
nothing but the pool's event changes. -/
theorem not_bufferAllocationRows : ¬ Obligations.BufferAllocationRows := by
  unfold Obligations.BufferAllocationRows
  rintro ⟨-, -, -, -, -, -, -, -, -, emptyRow, -⟩
  obtain ⟨hcalm, hjob, hlive, hrequest, hphase, hfence, hpool, henabled, hhead, htries⟩ := fallingTable_meets_premises
  have hrow := emptyRow 0 15 15 true waiter none fallingTable hcalm hjob hlive hrequest hphase hfence hpool henabled hhead
    htries
  rw [exec_poolAllocate_empty hcalm hjob hlive hrequest hphase hfence hpool henabled hhead htries] at hrow
  have hlength := congrArg (fun t => t.jobs.length) (Host.Outcome.next.inj hrow)
  exact absurd hlength (by decide)

end Sys2Proof.RegisterPages
end

section
/-!
SUPPORT. What the end of a unit's work, and a device stop, leave of a page whose unit is under reset.

UNIT_RESET of a DMA engine stops its channels (R465). That may return a buffer whose header cannot be written, or one that the
channel does not own; BPM_POOL_BROKEN or BPM_NOT_OWNER then fires before the command ends (R440, R445), and at severity S4 it
stops the device (R542). None of this returns a page from OFFLINE: the operations below leave every page that reads OFFLINE so,
and raise no fault of a unit that R536 could fence.
-/
namespace Sys2Proof.RegisterPages

open Sys2Proof.Machine Sys2Proof.SelfTimed

/-! ### The relation -/

/-- A fault of a source of the whole part, attached to no job: its reaction fences no unit and ends no single job (R536). -/
def unitless (h : FaultHit) : Prop := h.source < 32 ∧ h.job = none

/-- Every page that reads OFFLINE goes on to do so, in reset as before, and only faults without a unit have come up. -/
structure ResetStands (s t : State) : Prop where
  pages : ∀ p, (s.page p).state = .offline →
    (t.page p).state = .offline ∧ (t.page p).resetting = (s.page p).resetting
  faults : (∀ h ∈ s.due, unitless h) → ∀ h ∈ t.due, unitless h

namespace ResetStands

theorem refl (s : State) : ResetStands s s := ⟨fun _ h => ⟨h, rfl⟩, id⟩

theorem trans {s t u : State} (h : ResetStands s t) (k : ResetStands t u) : ResetStands s u := by
  refine ⟨fun p hp => ?_, k.faults ∘ h.faults⟩
  obtain ⟨hstate, hresetting⟩ := h.pages p hp
  obtain ⟨hstate', hresetting'⟩ := k.pages p hstate
  exact ⟨hstate', hresetting'.trans hresetting⟩

/-- An operation that changes neither pages nor waiting faults. -/
theorem of_pages {s t : State} (hpages : t.pages = s.pages) (hdue : t.due = s.due) : ResetStands s t :=
  ⟨fun p hp => by rw [State.page, hpages]; exact ⟨hp, rfl⟩, fun h => by rwa [hdue]⟩

/-- An operation that changes only events of the pages. -/
theorem of_events {s t : State} (h : EventsOnly s t) : ResetStands s t :=
  ⟨fun p hp => by rw [h.pages p]; exact ⟨hp, rfl⟩, fun hs => by rwa [h.due]⟩

/-- A fold of operations. -/
theorem foldl {α : Type} {f : State → α → State} (hf : ∀ t x, ResetStands t (f t x)) (l : List α) (s : State) :
    ResetStands s (l.foldl f s) :=
  List.foldlRecOn (motive := ResetStands s) l f (.refl s) fun t ht x _ => ht.trans (hf t x)

end ResetStands

/-- A change of a page's header that leaves OFFLINE and the reset. -/
theorem resetStands_modPage (s : State) (p : Nat) (f : Page → Page)
    (h : ∀ g, g.state = .offline → (f g).state = .offline ∧ (f g).resetting = g.resetting) :
    ResetStands s (s.modPage p f) := by
  refine ⟨fun q hq => ?_, id⟩
  by_cases heq : q = p
  · subst heq
    rw [page_modPage_self]
    exact h _ hq
  · rw [page_modPage_ne s f heq]
    exact ⟨hq, rfl⟩

theorem resetStands_setCond (s : State) (p b : Nat) (v : Bool) : ResetStands s (s.setCond p b v) :=
  .of_events (eventsOnly_setCond s p b v)

theorem resetStands_raiseEvt (s : State) (p b : Nat) : ResetStands s (s.raiseEvt p b) := .of_events (eventsOnly_raiseEvt s p b)

/-- A fault without a unit comes up. -/
theorem resetStands_fault (s : State) {src inst info : Nat} (h : src < 32) : ResetStands s (s.fault src inst none info) := by
  refine ⟨fun p hp => ⟨hp, rfl⟩, fun hs k hk => ?_⟩
  rcases List.mem_append.mp hk with hk | hk
  · exact hs k hk
  · rw [List.mem_singleton.mp hk]
    exact ⟨h, rfl⟩

theorem resetStands_report (s : State) (e : AerError) : ResetStands s (s.report e) := by
  rw [State.report_linkOnly]
  exact .of_pages rfl rfl

/-! ### Queues, channels and buffers -/

theorem resetStands_modClq (s : State) (q : Nat) (f : Clq → Clq) : ResetStands s (s.modClq q f) := .of_pages rfl rfl

theorem resetStands_modPool (s : State) (p : Nat) (f : Pool → Pool) : ResetStands s (s.modPool p f) := .of_pages rfl rfl

theorem resetStands_setOwner (s : State) (p i : Nat) (o : Owner) : ResetStands s (s.setOwner p i o) := .of_pages rfl rfl

theorem resetStands_cellEvents (s : State) : ResetStands s s.cellEvents := resetStands_setCond s _ _ _

theorem resetStands_abandon (s : State) (q : Nat) : ResetStands s (s.abandon q) :=
  (resetStands_modClq s q _).trans (resetStands_cellEvents (s.clearOpen q))

theorem resetStands_modChan (s : State) (c : Nat) (f : Channel → Channel) : ResetStands s (s.modChan c f) := .of_pages rfl rfl

theorem resetStands_chanEvt (s : State) (c b : Nat) : ResetStands s (s.chanEvt c b) :=
  (resetStands_modChan s c _).trans (resetStands_setCond _ _ _ _)

theorem resetStands_writeTagged (s : State) (a : Nat) (l : List Byte) (content : Bool) :
    ResetStands s (s.writeTagged a l content) := by
  unfold State.writeTagged
  split
  · split
    · exact .of_pages rfl rfl
    · exact .refl s
  · rw [State.hostPut_linkOnly]
    exact .of_pages rfl rfl

theorem resetStands_breakPool (s : State) (p cause : Nat) : ResetStands s (s.breakPool p cause) := by
  unfold State.breakPool
  exact ((resetStands_modPool s p _).trans (resetStands_setCond _ 9 0 true)).trans (resetStands_fault _ (by decide))

theorem resetStands_pushBuffer (s : State) (p i : Nat) : ResetStands s (s.pushBuffer p i) := by
  unfold State.pushBuffer
  dsimp only
  split
  · split
    · exact (resetStands_writeTagged s _ _ _).trans (resetStands_modPool _ p _)
    · exact resetStands_breakPool s p 3
  · exact .refl s

theorem resetStands_dropOwner (s : State) (p i kind : Nat) : ResetStands s (s.dropOwner p i kind) := by
  unfold State.dropOwner
  extract_lets o t
  have htaken : ResetStands s t := resetStands_setOwner s p i o
  split
  · exact (htaken.trans (resetStands_modPool t p _)).trans (resetStands_pushBuffer _ p i)
  · exact htaken

theorem resetStands_notOwner (s : State) (h : Nat) (a : Agent) : ResetStands s (s.notOwner h a) := by
  unfold State.notOwner
  extract_lets _ t
  have hnoted : ResetStands s t := .of_pages rfl rfl
  exact (hnoted.trans (resetStands_raiseEvt t 9 1)).trans (resetStands_fault _ (by decide))

theorem resetStands_release (s : State) (h : Nat) (a : Agent) : ResetStands s (s.release h a) := by
  unfold State.release
  split
  · exact resetStands_dropOwner s _ _ _
  · exact resetStands_notOwner s h a

theorem resetStands_dropCore (s : State) (h : Nat) : ResetStands s (s.dropCore h) := by
  unfold State.dropCore
  split
  · exact resetStands_dropOwner s _ _ _
  · exact .refl s

theorem resetStands_dropDma (s : State) (c : Nat) : ResetStands s (s.dropDma c) := by
  unfold State.dropDma
  split
  · exact (resetStands_modChan s c _).trans (resetStands_release _ _ _)
  · exact .refl s

theorem resetStands_dropClqOut (s : State) (c : Nat) : ResetStands s (s.dropClqOut c) := by
  unfold State.dropClqOut
  split
  · split
    · split
      · split
        · exact resetStands_abandon s _
        · exact .refl s
      · exact resetStands_modClq s _ _
    · exact .refl s
  · exact .refl s

theorem resetStands_chanError (s : State) (c err : Nat) : ResetStands s (s.chanError c err) := by
  unfold State.chanError
  extract_lets x s1 s2 s3 s4
  have hstatus : ResetStands s s1 := by
    unfold s1
    split
    · split
      · exact resetStands_writeTagged s _ _ _
      · exact .refl s
    · exact .refl s
  have hended : ResetStands s s3 :=
    ((hstatus.trans (resetStands_dropClqOut s1 c)).trans (resetStands_dropDma _ c)).trans (resetStands_modChan s2 c _)
  have hevent : ResetStands s s4 := hended.trans (resetStands_chanEvt s3 c 2)
  split
  · exact hended
  · split
    · exact hevent.trans (resetStands_fault s4 (by decide))
    · exact hevent

theorem resetStands_chanStop (s : State) (c : Nat) : ResetStands s (s.chanStop c) := by
  unfold State.chanStop
  dsimp only
  split
  · exact .refl s
  · exact .refl s
  · exact resetStands_modChan s c _
  · exact resetStands_modChan s c _
  · split
    · split
      · exact resetStands_modChan s c _
      · exact resetStands_chanError s c 7
    · exact resetStands_chanError s c 7

theorem resetStands_resetChan (s : State) (c : Nat) : ResetStands s (s.resetChan c) :=
  ((resetStands_chanStop s c).trans (resetStands_modChan _ c _)).trans (resetStands_setCond _ _ _ _)

/-! ### Triggers and discontinuities -/

theorem resetStands_trigRun (s : State) (c : Nat) : ResetStands s (s.trigRun c) := .of_events (eventsOnly_trigRun s c)

theorem resetStands_trigger (s : State) (c : Nat) : ResetStands s (s.trigger c) := by
  have hlost (f : Channel → Channel) : ResetStands s ((s.modChan c f).chanEvt c 4) :=
    (resetStands_modChan s c _).trans (resetStands_chanEvt _ c 4)
  unfold State.trigger
  split
  · exact .refl s
  · split
    · exact hlost _
    · split
      · exact resetStands_trigRun s c
      · split
        · exact resetStands_modChan s c _
        · exact hlost _

theorem resetStands_notice (s : State) (q : Nat) : ResetStands s (s.notice q State.trigger) := by
  unfold State.notice
  dsimp only
  split
  · exact .of_pages rfl rfl
  · split
    · exact resetStands_trigger s _
    · exact .refl s

theorem resetStands_linkDiscont (s : State) (q tag : Nat) (frees : List Nat) : ResetStands s (s.linkDiscont q tag frees) := by
  unfold State.linkDiscont
  extract_lets hold s1 s2
  have hlinked : ResetStands s s1 := resetStands_modClq s q _
  have hheld : ResetStands s s2 := by
    unfold s2
    split
    · exact hlinked.trans (resetStands_raiseEvt s1 8 3)
    · exact hlinked
  exact (hheld.trans (resetStands_notice s2 q)).trans (resetStands_cellEvents _)

theorem resetStands_discontinuity (s : State) (q : Nat) (mine : Bool) (tag : Nat) (frees : List Nat) :
    ResetStands s (s.discontinuity q mine tag frees) := by
  unfold State.discontinuity
  split
  · exact ((resetStands_modClq s q _).trans (resetStands_notice _ q)).trans (resetStands_cellEvents _)
  · exact resetStands_linkDiscont s q tag frees

/-! ### Cores -/

theorem resetStands_modJob (s : State) (j : Nat) (f : Job → Job) : ResetStands s (s.modJob j f) := .of_pages rfl rfl

theorem resetStands_modStream (s : State) (n : Nat) (f : Stream → Stream) : ResetStands s (s.modStream n f) := .of_pages rfl rfl

theorem resetStands_modUnit (s : State) (n : Nat) (f : Core → Core) : ResetStands s (s.modUnit n f) := .of_pages rfl rfl

theorem resetStands_modSeq (s : State) (n q : Nat) (f : Seq → Seq) : ResetStands s (s.modSeq n q f) := .of_pages rfl rfl

theorem resetStands_modBin (s : State) (n : Nat) (f : Bin → Bin) : ResetStands s (s.modBin n f) := .of_pages rfl rfl

theorem resetStands_modPlace (s : State) (n : Nat) (f : CorePlace → CorePlace) : ResetStands s (s.modPlace n f) :=
  .of_pages rfl rfl

theorem resetStands_saveContext (s : State) (n m : Nat) : ResetStands s (s.saveContext n m) := resetStands_modStream s m _

theorem resetStands_switchSeq (s : State) (n q j : Nat) : ResetStands s (s.switchSeq n q j) := by
  unfold State.switchSeq
  split
  · exact .refl s
  · extract_lets x s1
    have hsaved : ResetStands s s1 := by
      unfold s1
      split
      · split
        · exact .refl s
        · exact resetStands_saveContext s n _
      · exact .refl s
    split
    · exact hsaved.trans (resetStands_modSeq s1 n q _)
    · exact hsaved.trans (resetStands_modSeq s1 n q _)

theorem resetStands_switchBin (s : State) (n j : Nat) : ResetStands s (s.switchBin n j) := by
  unfold State.switchBin
  split
  · exact .refl s
  · extract_lets b s1
    have hsaved : ResetStands s s1 := by
      unfold s1
      split
      · split
        · exact .refl s
        · exact resetStands_saveContext s n _
      · exact .refl s
    split
    · exact hsaved.trans (resetStands_modBin s1 n _)
    · exact hsaved.trans (resetStands_modBin s1 n _)

theorem resetStands_startSeq (s : State) (n q j : Nat) : ResetStands s (s.startSeq n q j) :=
  (resetStands_switchSeq s n q j).trans (resetStands_modSeq _ n q _)

theorem resetStands_startBin (s : State) (n j : Nat) : ResetStands s (s.startBin n j) := by
  unfold State.startBin
  extract_lets t
  have hturned : ResetStands s t := resetStands_switchBin s n j
  exact hturned.trans (resetStands_modBin t n _)

theorem resetStands_endSeq (s : State) (n q j : Nat) : ResetStands s (s.endSeq n q j) := by
  unfold State.endSeq
  extract_lets s1 s2
  have hended : ResetStands s s1 := resetStands_modSeq s n q _
  have hreleased : ResetStands s s2 := by
    unfold s2
    split
    · exact hended
    · exact hended.trans (resetStands_modUnit s1 n _)
  split
  · exact hreleased.trans (resetStands_startSeq s2 n q _)
  · exact hreleased

theorem resetStands_endBin (s : State) (n j : Nat) : ResetStands s (s.endBin n j) := by
  unfold State.endBin
  extract_lets s1
  have hended : ResetStands s s1 := resetStands_modBin s n _
  split
  · exact hended.trans (resetStands_startBin s1 n _)
  · exact hended

theorem resetStands_clearUnit (s : State) (n j : Nat) : ResetStands s (s.clearUnit n j) := by
  unfold State.clearUnit
  extract_lets s1 s2
  have hseqs : ResetStands s s1 := by
    refine .foldl (fun t q => ?_) _ s
    split
    · exact resetStands_endSeq t n q j
    · exact .refl t
  have hbin : ResetStands s s2 := by
    unfold s2
    split
    · exact hseqs.trans (resetStands_endBin s1 n j)
    · exact hseqs
  exact hbin.trans (resetStands_modUnit s2 n _)

/-- A core page that reads OFFLINE does not follow its core's work (R71). -/
theorem resetStands_coreState (s : State) (n : Nat) : ResetStands s (s.coreState n) :=
  (resetStands_modPage s (corePage n) _ fun g hg => by simp [hg]).trans (resetStands_setCond _ _ _ _)

theorem resetStands_offCore (s : State) (j n : Nat) : ResetStands s (s.offCore j n) :=
  ((resetStands_clearUnit s n j).trans (resetStands_modPlace _ n _)).trans (resetStands_coreState _ n)

/-! ### Jobs -/

theorem resetStands_dropWindow (s : State) (stream : Nat) (w : Nat × Nat × Nat) : ResetStands s (s.dropWindow stream w) :=
  .of_pages rfl rfl

theorem resetStands_unplace (s : State) (j : Nat) : ResetStands s (s.unplace j) := by
  unfold State.unplace
  split
  · exact .refl s
  · extract_lets s1 s2 s3
    have hoff : ResetStands s s1 := .foldl (fun t n => resetStands_offCore t j n) _ s
    have hread : ResetStands s s2 := by
      unfold s2
      split
      · exact hoff.trans (resetStands_modStream s1 _ _)
      · exact hoff
    have hwindows : ResetStands s s3 := hread.trans (.foldl (fun t w => resetStands_dropWindow t _ w) _ s2)
    exact hwindows.trans (resetStands_modJob s3 j _)

theorem resetStands_stopChannels (s : State) (j : Nat) : ResetStands s (s.stopChannels j) := by
  refine .foldl (fun t c => ?_) _ s
  exact (resetStands_chanStop t c.1).trans (resetStands_modChan _ c.1 _)

theorem resetStands_dropWaiting (s : State) (j q : Nat) : ResetStands s (s.dropWaiting j q) := by
  unfold State.dropWaiting
  split
  · exact resetStands_modClq s q _
  · exact .refl s

theorem resetStands_undoMarks (s : State) (x : Job) : ResetStands s (s.undoMarks x) := by
  unfold State.undoMarks
  split
  · exact .refl s
  · exact resetStands_modStream s _ _

theorem resetStands_failSlot (s : State) (x : Job) : ResetStands s (s.failSlot x) := by
  unfold State.failSlot
  split
  · exact resetStands_modStream s _ _
  · exact .refl s

theorem resetStands_discard (s : State) (j : Nat) : ResetStands s (s.discard j) := by
  unfold State.discard
  split
  · exact .refl s
  · rename_i x _
    extract_lets s1 s2 s3 s4 s5
    have hforgotten : ResetStands s s2 := (resetStands_stopChannels s j).trans (resetStands_dropWaiting s1 j _)
    have habandoned : ResetStands s s3 := by
      unfold s3
      split
      · exact hforgotten.trans (resetStands_abandon s2 _)
      · exact hforgotten
    have hreturned : ResetStands s s4 := habandoned.trans (.foldl (fun t h => resetStands_dropCore t h) _ s3)
    have hunplaced : ResetStands s s5 :=
      ((hreturned.trans (resetStands_undoMarks s4 x)).trans (resetStands_failSlot _ x)).trans (resetStands_unplace _ j)
    exact hunplaced.trans (resetStands_modJob s5 j _)

theorem resetStands_migrated (s : State) (j : Nat) : ResetStands s (s.migrated j) := by
  unfold State.migrated
  split
  · split
    · exact (resetStands_modJob s j _).trans (resetStands_modStream _ _ _)
    · exact .refl s
  · exact .refl s

theorem resetStands_opFailed (s : State) (x : Job) : ResetStands s (s.opFailed x) := by
  unfold State.opFailed
  split
  · split
    · exact resetStands_modStream s _ _
    · exact .refl s
  · exact .refl s

theorem resetStands_finish (s : State) (j status detail : Nat) : ResetStands s (s.finish j status detail) := by
  unfold State.finish
  extract_lets s1
  have hretired : ResetStands s s1 := (resetStands_modJob s j _).trans (resetStands_migrated _ j)
  split
  · exact hretired.trans (resetStands_opFailed s1 _)
  · exact hretired

theorem resetStands_endFrame (s : State) (j : Nat) (x : Job) : ResetStands s (s.endFrame j x) := by
  unfold State.endFrame
  split
  · exact resetStands_discontinuity s _ _ _ _
  · exact .refl s

/-! ### The reactions of R536 -/

/-- The tempo loop's reset clears events of page 2 (R72). -/
theorem resetStands_tempoReset (s : State) : ResetStands s s.tempoReset := by
  refine ⟨fun p hp => ?_, id⟩
  have hpage : s.tempoReset.page p = mgetD (mupd s.pages 2 fun g => { g with evtRaw := 0 }) p Page.reset := rfl
  rw [hpage, mupd]
  cases hlisted : mget s.pages 2 with
  | none => exact ⟨hp, rfl⟩
  | some g =>
    by_cases heq : p = 2
    · subst heq
      have hg : s.page 2 = g := by simp [State.page, mgetD, hlisted]
      rw [hg] at hp ⊢
      rw [mgetD_mset_self]
      exact ⟨hp, rfl⟩
    · rw [mgetD_mset_ne _ _ _ heq]
      exact ⟨hp, rfl⟩

theorem resetStands_failAttempt (s : State) (sub inst : Nat) : ResetStands s (s.failAttempt sub inst) := by
  unfold State.failAttempt
  extract_lets b s1 _ s2
  have hrecorded : ResetStands s s2 := .of_pages rfl rfl
  have hreset : ResetStands s s2.tempoReset := hrecorded.trans (resetStands_tempoReset s2)
  split
  · exact hreset.trans (.of_pages rfl rfl)
  · split
    · exact hreset.trans (.of_pages rfl rfl)
    · exact hreset.trans (.of_pages rfl rfl)

theorem resetStands_stopQueues (s : State) : ResetStands s s.stopQueues := by
  refine .foldl (fun t q => ?_) _ s
  split
  · split
    · exact resetStands_discontinuity t _ _ _ _
    · exact .refl t
  · exact .refl t

theorem resetStands_deviceStop (s : State) (src rec : Nat) : ResetStands s (s.deviceStop src rec) := by
  unfold State.deviceStop
  split
  · exact resetStands_failAttempt s _ _
  · extract_lets _ s1 s2 s3
    have hstopped : ResetStands s s1 := .of_pages rfl rfl
    have hqueues : ResetStands s s2 := hstopped.trans (resetStands_stopQueues s1)
    have hjobs : ResetStands s s3 := by
      refine hqueues.trans (.foldl (fun t j => ?_) _ s2)
      split
      · refine ResetStands.trans ?_ (resetStands_finish _ _ _ _)
        refine ResetStands.trans ?_ (resetStands_discard _ _)
        split
        · exact resetStands_endFrame t _ _
        · exact .refl t
      · exact .refl t
    exact (hjobs.trans (resetStands_setCond s3 3 3 true)).trans (resetStands_report _ _)

theorem resetStands_seal (s : State) (src : Nat) : ResetStands s (s.seal src) :=
  (resetStands_report s .uncorrectableInternal).trans (.of_pages rfl rfl)

/-- The reaction to a fault without a unit is a record, a device stop or the seal (R536). -/
theorem resetStands_react (s : State) {h : FaultHit} (hu : unitless h) (r : Reaction) (rec : Nat) :
    ResetStands s (s.react h r rec) := by
  obtain ⟨hsource, hjob⟩ := hu
  have hfence : fencePage h.source h.inst = none := if_pos hsource
  cases r with
  | logged => exact .refl s
  | jobFailed => simp only [State.react, hjob]; exact .refl s
  | jobRetried => simp only [State.react, hjob]; exact .refl s
  | fenced => simp only [State.react, hjob, State.fenceUnit, hfence]; exact .refl s
  | deviceStop => exact resetStands_deviceStop s _ _
  | sealed => exact resetStands_seal s _

/-! ### Taking faults up -/

/-- An event of the FAULT page, raised or not. -/
theorem resetStands_raiseFaultEvt (s : State) (b : Nat) (c : Prop) [Decidable c] :
    ResetStands s (if c then s.raiseEvt 3 b else s) := by
  split
  · exact resetStands_raiseEvt s 3 b
  · exact .refl s

/-- A change of the fault unit's own fields. -/
theorem resetStands_faults (s : State) (f : FaultUnit) : ResetStands s { s with faults := f } := .of_pages rfl rfl

theorem resetStands_record (s : State) (r : FaultRec) : ResetStands s (s.record r) := by
  unfold State.record
  dsimp only
  split
  · exact ((resetStands_faults s _).trans (resetStands_raiseFaultEvt _ 2 _)).trans (resetStands_raiseFaultEvt _ 0 _)
  · exact (resetStands_faults s _).trans (resetStands_raiseEvt _ 3 2)

theorem resetStands_pulse (s : State) (sev : Nat) : ResetStands s (s.pulse sev) := by
  unfold State.pulse
  dsimp only
  split
  · exact resetStands_faults s _
  · exact .refl s

theorem resetStands_correctedAer (s : State) (h : FaultHit) : ResetStands s (s.correctedAer h) := by
  unfold State.correctedAer
  split
  · exact resetStands_report s _
  · exact .refl s

/-- One hit without a unit is recorded, and its reaction follows. -/
theorem resetStands_fireAll (s : State) {h : FaultHit} (hu : unitless h) : ResetStands s (s.fireAll [h]) := by
  cases hknown : (sourceInfo h.source).isSome with
  | false =>
    have hnone : s.fireAll [h] = s := by simp [State.fireAll, hknown]
    rw [hnone]
    exact .refl s
  | true =>
    simp only [State.fireAll, List.filter_cons, hknown, List.filter_nil, if_true, List.foldl_cons, List.foldl_nil]
    exact (((resetStands_record s _).trans (resetStands_pulse _ _)).trans (resetStands_correctedAer _ h)).trans
      (resetStands_react _ hu _ _)

/-- The faults of a command are taken up. -/
theorem resetStands_settleFaults (n : Nat) (s : State) (hs : ∀ h ∈ s.due, unitless h) :
    ResetStands s (settleFaults n s) := by
  induction n generalizing s with
  | zero => exact .refl s
  | succ n ih =>
    rw [settleFaults.eq_2]
    split
    · exact .refl s
    · rename_i h l hdue
      split
      · exact ⟨fun p hp => ⟨hp, rfl⟩, fun _ k hk => absurd hk List.not_mem_nil⟩
      · rw [hdue] at hs
        have hrest : ResetStands s { s with due := l } :=
          ⟨fun p hp => ⟨hp, rfl⟩, fun _ k hk => hs k (List.mem_cons_of_mem h hk)⟩
        have hfired := hrest.trans (resetStands_fireAll { s with due := l } (hs h List.mem_cons_self))
        exact hfired.trans (ih _ (hfired.faults (by rwa [hdue])))

theorem resetStands_settle {s : State} (hs : ∀ h ∈ s.due, unitless h) : ResetStands s s.settle :=
  resetStands_settleFaults 64 s hs

end Sys2Proof.RegisterPages
end

section
/-!
PROOF. Units that leave service and return to it (R71, R92, R541).
-/
namespace Sys2Proof.RegisterPages

open Sys2Proof.Machine Sys2Proof.SelfTimed

/-! ### Leaving service -/

/-- What a change of a page's header leaves of the work of a unit. -/
theorem pageBusy_modPage (s : State) (p : Nat) (f : Page → Page) (q : Nat) : (s.modPage p f).pageBusy q = s.pageBusy q := rfl

@[simp] theorem toL0_pageBusy (s : State) (p : Nat) : s.toL0.pageBusy p = s.pageBusy p := by rw [State.toL0_eq]; rfl

/-- A core that leaves the count of laggards changes the MODE page alone (R385). -/
theorem page_setLaggards_ne (s : State) (l : BitVec 48) {p : Nat} (hp : p ≠ 6) : (s.setLaggards l).page p = s.page p := by
  unfold State.setLaggards
  dsimp only
  split
  · rw [page_raiseEvt_ne _ 0 hp, page_setCond_ne _ 1 false hp]
    rfl
  · rfl

theorem due_setLaggards (s : State) (l : BitVec 48) : (s.setLaggards l).due = s.due := by
  unfold State.setLaggards
  dsimp only
  split <;> rfl

/-- A page that leaves service keeps its own header. -/
theorem page_left_self (s : State) (p : Nat) : (s.left p).page p = s.page p := by
  unfold State.left
  split
  · rename_i n hcore
    refine page_setLaggards_ne s _ ?_
    rintro rfl
    cases hcore
  · rfl

theorem due_left (s : State) (p : Nat) : (s.left p).due = s.due := by
  unfold State.left
  split
  · exact due_setLaggards s _
  · rfl

/-- A page that returns, and is no core's, has nothing to apply (R385). -/
theorem rejoined_of_no_core {p : Nat} (h : pageCore p = none) (s : State) : s.rejoined p = s := by
  simp only [State.rejoined, h]

@[simp] theorem leaves_fence (g : Page) : g.leaves.fence = g.fence := by
  unfold Page.leaves
  split
  · rfl
  · split <;> rfl

/-! ### The rows -/

section
variable {p : Nat} {s : State}

/-- A unit without work that is fenced by software (R71). -/
theorem fenceOn_free (hstate : (s.page p).state = .idle ∨ (s.page p).state = .running) (hdraining : (s.page p).draining = false)
    (hfree : s.pageBusy p = false) :
    s.fenceOn p = (s.modPage p fun g => { ({ g with fence := true } : Page).leaves with
      state := .fenced, draining := false, cause := .software }).left p := by
  have hdrain : s.fenceOn p = (s.modPage p fun g => { g with fence := true }).fenceDrain p .software := by
    rcases hstate with h | h <;> simp [State.fenceOn, h, hdraining]
  rw [hdrain, State.fenceDrain, pageBusy_modPage, hfree, if_neg Bool.false_ne_true, modPage_modPage]

/-- FENCE = 0 of a unit other than a core that software fenced (R71). -/
theorem fenceOff_software (hcore : pageCore p = none) (hstate : (s.page p).state = .fenced)
    (hcause : (s.page p).cause = .software) :
    s.fenceOff p = s.modPage p fun g => { g with fence := false, state := .idle, cause := .none } := by
  simp [State.fenceOff, hcause, hstate, rejoined_of_no_core hcore, modPage_modPage]

/-- ENABLE = 0 reads 0 (R71). -/
theorem enable_enableOff : ((s.enableOff p).page p).enable = false := by
  rw [State.enableOff, page_left_self, page_modPage_self]

/-- ENABLE = 1 of a unit other than a core changes its page alone, and reads 1 (R71). -/
theorem enableOn_no_core (hcore : pageCore p = none) :
    (s.enableOn p).due = s.due ∧ ((s.enableOn p).page p).enable = true := by
  unfold State.enableOn
  dsimp only
  split
  · rename_i h
    exact ⟨rfl, h⟩
  · rw [rejoined_of_no_core hcore]
    split
    · exact ⟨rfl, by rw [page_modPage_self]⟩
    · exact ⟨rfl, by rw [page_modPage_self]⟩
    · exact ⟨rfl, by rw [page_modPage_self]⟩

/-- The end of a reset of one unit that is no core's (R71). -/
theorem endReset_no_core (hcore : pageCore p = none) (pass : Bool) :
    s.endReset p pass = s.modPage p fun g => { g with
      resetting := false, epoch := s.modes.current
      state := if pass && !(s.page p).fence then .idle else .fenced
      cause := if !pass then .selftest else if (s.page p).fence then .software else .none } := by
  simp only [State.endReset, hcore]
  rfl

/-- The work of a unit that drains has ended (R71). -/
theorem exec_unitDrained (hcalm : s.calm = true) (hdraining : (s.page p).draining = true) (hfree : s.pageBusy p = false) :
    exec (.unitDrained p) s = .next (if (s.page p).cause = .none
      then s.modPage p fun g => { g with draining := false, state := .idle }
      else (s.modPage p fun g => { g.leaves with draining := false, state := .fenced }).left p) := by
  have hexec : exec (.unitDrained p) s = execUnitDrained p s := rfl
  have hdue := due_of_calm hcalm
  rw [hexec, execUnitDrained, act_live _ _ (live_of_calm hcalm)]
  simp only [hdraining, hfree, Bool.not_true, Bool.false_eq_true, or_self, if_false]
  split
  · exact congrArg _ (State.settle_of_due _ hdue)
  · exact congrArg _ (State.settle_of_due _ ((due_left _ p).trans hdue))

end

/-! ### UNIT_RESET -/

theorem resetStands_modPort (s : State) (p : Nat) (f : NetPort → NetPort) : ResetStands s (s.modPort p f) := .of_pages rfl rfl

/-- The unit behind a page that is neither a core's nor a quadrant's returns to reset values (R92). -/
theorem resetStands_resetUnit (s : State) {p : Nat} (hcore : pageKind p ≠ some .core) (hquad : pageKind p ≠ some .quad) :
    ResetStands s (s.resetUnit p) := by
  unfold State.resetUnit
  dsimp only
  split
  case h_1 h => exact absurd h hcore
  case h_2 => exact .foldl resetStands_resetChan _ s
  case h_3 => exact .foldl resetStands_resetChan _ s
  case h_6 h => exact absurd h hquad
  case h_8 => exact (resetStands_modPort s _ _).trans (.of_events (eventsOnly_retrain _ _))
  case h_15 => exact .refl s
  all_goals exact .of_pages rfl rfl

/-- A unit reset starts on a page (R71): it reads OFFLINE, in reset, and only faults without a unit have come up. -/
theorem startReset_of_quiet {s : State} {p : Nat} (hcore : pageKind p ≠ some .core) (hquad : pageKind p ≠ some .quad)
    (hdue : s.due = []) :
    ((s.startReset p).page p).state = .offline ∧ ((s.startReset p).page p).resetting = true ∧
      ∀ h ∈ (s.startReset p).due, unitless h := by
  have hunit := (resetStands_resetUnit (s.resetView p) hcore hquad).faults
  have hview : (s.resetView p).due = [] := hdue
  rw [hview] at hunit
  refine ⟨?_, ?_, hunit fun h hmem => absurd hmem List.not_mem_nil⟩
  · rw [State.startReset, page_modPage_self]
  · rw [State.startReset, page_modPage_self]

/-- UNIT_RESET of a fenced unit that is neither a core nor a quadrant (R71). -/
theorem exec_unitReset {s : State} {p : Nat} {k : PageKind} (hears : s.hears p = true) (hk : pageKind p = some k)
    (hfences : noFence k = false) (hquad : k ≠ .quad) (hfenced : s.pageState p = .fenced) :
    exec (.unitReset p) s = .next (s.toL0.startReset p).settle := by
  have hexec : exec (.unitReset p) s = execUnitReset p s := rfl
  have hone : s.toL0.quadResets p = [] := if_neg (by rw [hk]; simpa using hquad)
  rw [hexec, execUnitReset, hostCmd_heard p s _ hears]
  simp [hk, hfences, State.unitReset, hfenced, State.beginReset, hone]

/-- A reset of one page ends in a calm part (R71). -/
theorem exec_unitResetDone {s : State} {p : Nat} {t : SelfTest} (hcalm : s.calm = true) (hcore : pageCore p = none)
    (hquad : pageKind p ≠ some .quad) (hresetting : (s.page p).resetting = true) :
    exec (.unitResetDone p t) s = .next (s.endReset p t.ok) := by
  have hexec : exec (.unitResetDone p t) s = execUnitResetDone p t s := rfl
  have hends : s.resetEnds p t = s.endReset p t.ok := by simp [State.resetEnds, hresetting, hcore]
  have hdue : (s.endReset p t.ok).due = [] := by
    rw [endReset_no_core hcore]
    exact due_of_calm hcalm
  rw [hexec, execUnitResetDone, act_live _ _ (live_of_calm hcalm)]
  simp [hresetting, hquad, hends, hdue]

/-- Settles O12: each row from the change of its page; UNIT_RESET from what taking faults up leaves of a page in reset. -/
theorem unitRowsEnterAndLeaveService : Obligations.UnitRowsEnterAndLeaveService := by
  unfold Obligations.UnitRowsEnterAndLeaveService
  refine ⟨?fence, ?unfence, ?disable, ?enable, ?reset, ?resetDone, ?drained⟩
  case fence =>
    intro p k s hears hk hfences hstate hdraining hfree
    have hon := fenceOn_free (s := s.toL0) (p := p) (by simpa using hstate) (by simpa using hdraining) (by simpa using hfree)
    have hexec : exec (.unitFence p) s = .next (s.toL0.fenceOn p) := by
      refine (hostCmd_quiet p s (fun t => if ((pageKind p).map noFence).getD true then t.accessBad p else t.fenceOn p)
        hears ?_).trans ?_
      · simp [hk, hfences, hon, due_left, due_of_hears hears]
      · simp [hk, hfences]
    refine ⟨_, hexec, ?_⟩
    rw [hon, page_left_self, page_modPage_self]
    exact ⟨leaves_fence _, rfl, rfl⟩
  case unfence =>
    intro p s hears hcore hstate hcause
    exact hostCmd_modPage _ hears (fenceOff_software hcore (by simpa using hstate) (by simpa using hcause))
  case disable =>
    intro p s hears
    refine ⟨_, hostCmd_quiet p s (fun t => t.enableOff p) hears ?_, enable_enableOff⟩
    rw [State.enableOff, due_left, State.modPage_due, toL0_due, due_of_hears hears]
  case enable =>
    intro p s hears hcore
    obtain ⟨hdue, henable⟩ := enableOn_no_core (s := s.toL0) hcore
    exact ⟨_, hostCmd_quiet p s (fun t => t.enableOn p) hears (by rw [hdue, toL0_due, due_of_hears hears]), henable⟩
  case reset =>
    intro p k s hears hk hfences hcore hquad hfenced
    obtain ⟨hstate, hresetting, hfaults⟩ := startReset_of_quiet (s := s.toL0) (p := p) (by rw [hk]; simpa using hcore)
      (by rw [hk]; simpa using hquad) (by rw [toL0_due, due_of_hears hears])
    obtain ⟨hstate', hresetting'⟩ := (resetStands_settle hfaults).pages p hstate
    exact ⟨_, exec_unitReset hears hk hfences hquad hfenced, hstate', hresetting'.trans hresetting⟩
  case resetDone =>
    intro p x s hcalm hcore hquad hresetting
    refine ⟨_, exec_unitResetDone hcalm hcore hquad hresetting, ?_⟩
    rw [endReset_no_core hcore, page_modPage_self]
    refine ⟨rfl, ?_, ?_⟩
    · simp
    · cases x.ok <;> simp
  case drained =>
    intro p s hcalm hdraining hfree
    refine ⟨_, exec_unitDrained hcalm hdraining hfree, ?_⟩
    split
    · rw [page_modPage_self]
      exact ⟨rfl, rfl⟩
    · rw [page_left_self, page_modPage_self]
      exact ⟨rfl, rfl⟩

end Sys2Proof.RegisterPages
end

section
/-!
SUPPORT. Rules for the PCIe function: what a configuration access and a request to BAR2 give over an active link, and what the
traffic that the power state held back leaves as it was.
-/
namespace Sys2Proof.HostLink

open Sys2Proof.Machine Sys2Proof.SelfTimed Sys2Proof.RegisterPages

/-! ### Requests of the host -/

@[simp] theorem modPcie_due (s : State) (f : Pcie → Pcie) : (s.modPcie f).due = s.due := rfl

@[simp] theorem toL0_live (s : State) : s.toL0.live = s.live := by rw [State.toL0_eq]; rfl

@[simp] theorem toL0_boot (s : State) : s.toL0.boot = s.boot := by rw [State.toL0_eq]

@[simp] theorem toL0_mem (s : State) : s.toL0.mem = s.mem := by rw [State.toL0_eq]

@[simp] theorem toL0_bar2Addr (s : State) (x : Nat) : s.toL0.bar2Addr x = s.bar2Addr x := by rw [State.toL0_eq]; rfl

@[simp] theorem toL0_frozenRun (s : State) (a n : Nat) : s.toL0.frozenRun a n = s.frozenRun a n := by rw [State.toL0_eq]; rfl

@[simp] theorem toL0_readRun (s : State) (a n : Nat) : s.toL0.readRun a n = s.readRun a n := by rw [State.toL0_eq]; rfl

@[simp] theorem toL0_writeRun (s : State) (a n : Nat) : s.toL0.writeRun a n = s.writeRun a n := by rw [State.toL0_eq]; rfl

@[simp] theorem toL0_devBytes (s : State) (a n : Nat) : s.toL0.devBytes a n = s.devBytes a n := by rw [State.toL0_eq]; rfl

/-- A configuration request over an active link that raises no fault (R95). -/
theorem cfgAccess_quiet {s : State} {f : State → State} (hlinked : s.linked = true)
    (hquiet : (f (s.toL0.modPcie fun x => { x with cfgAnswered := true })).due = []) :
    cfgAccess s f = .next (f (s.toL0.modPcie fun x => { x with cfgAnswered := true })) := by
  rw [cfgAccess, if_pos hlinked, State.settle_of_due _ hquiet]

/-- A configuration write that changes the PCIe function alone. -/
theorem cfgAccess_modPcie {s : State} (g : Pcie → Pcie) (hlinked : s.linked = true) (hdue : s.due = []) :
    cfgAccess s (fun t => t.modPcie g) = .next (s.toL0.modPcie fun x => g { x with cfgAnswered := true }) :=
  cfgAccess_quiet hlinked (by simp [hdue])

/-- A memory request that a BAR takes and that raises no fault (R102). -/
theorem memRequest_quiet {s : State} {inside : Bool} {f : State → State} (hcalm : s.calm = true) (hlinked : s.linked = true)
    (hdecodes : s.decodes = true) (hinside : inside = true) (hquiet : (f s.toL0).due = []) :
    memRequest s inside f = .next (f s.toL0) := by
  have hact : act s.toL0 f = .next (f s.toL0) := act_quiet _ _ (by simp [live_of_calm hcalm]) hquiet
  simp [memRequest, hlinked, hdecodes, hinside, hact]

/-! ### AER errors (R101) -/

/-- A reported error has its status bit set. -/
theorem mem_aerStatus_report (s : State) (e : AerError) : e ∈ (s.report e).pcie.aerStatus := by
  have hset : e ∈ (if s.pcie.aerStatus.contains e then s.pcie.aerStatus else s.pcie.aerStatus ++ [e]) := by
    split
    · simp_all
    · simp
  unfold State.report
  dsimp only
  split
  · rw [State.send, State.emit_pcie, State.toL0_eq]
    exact hset
  · exact hset

/-- Without a link an error is recorded and no message leaves. -/
theorem report_unlinked {s : State} {e : AerError} (h : s.linked = false) :
    s.report e = s.modPcie fun x => { x with
      aer := e :: x.aer, aerStatus := if x.aerStatus.contains e then x.aerStatus else x.aerStatus ++ [e] } := by
  simp [State.report, h, State.modPcie]

theorem report_due (s : State) (e : AerError) : (s.report e).due = s.due := by rw [State.report_linkOnly]

theorem report_job (s : State) (e : AerError) (j : Nat) : (s.report e).job j = s.job j := by
  rw [State.report_linkOnly]
  rfl

/-! ### Traffic -/

/-- Nothing of t differs from s but what was sent, the queues' record of what is to be sent, and in the PCIe function IN_L1,
the writes, reads and messages held back, and the errors recorded. -/
def TrafficOnly (s t : State) : Prop :=
  t = { s with
    pcie := { s.pcie with
      inL1 := t.pcie.inL1, heldWrites := t.pcie.heldWrites, waits := t.pcie.waits, pba := t.pcie.pba, aer := t.pcie.aer,
      aerStatus := t.pcie.aerStatus }
    geyser := t.geyser
    out := t.out }

theorem TrafficOnly.refl (s : State) : TrafficOnly s s := rfl

theorem TrafficOnly.trans {s t u : State} (h : TrafficOnly s t) (k : TrafficOnly t u) : TrafficOnly s u := by
  unfold TrafficOnly at *
  rw [k, h]

theorem TrafficOnly.foldl {α : Type} {f : State → α → State} (hf : ∀ t x, TrafficOnly t (f t x)) (l : List α)
    (s : State) : TrafficOnly s (l.foldl f s) :=
  List.foldlRecOn (motive := TrafficOnly s) l f (.refl s) fun t ht x _ => ht.trans (hf t x)

theorem TrafficOnly.due_eq {s t : State} (h : TrafficOnly s t) : t.due = s.due := by
  rw [h]

/-- The link and the settings of the bus stand. -/
theorem TrafficOnly.bus_eq {s t : State} (h : TrafficOnly s t) :
    t.pcie.linkUp = s.pcie.linkUp ∧ t.pcie.speed = s.pcie.speed ∧ t.pcie.width = s.pcie.width ∧
      t.pcie.d3hot = s.pcie.d3hot ∧ t.pcie.bme = s.pcie.bme := by
  rw [h]
  exact ⟨rfl, rfl, rfl, rfl, rfl⟩

theorem trafficOnly_send (s : State) (o : Out) : TrafficOnly s (s.send o) := by
  rw [State.send, State.toL0_eq]
  rfl

theorem trafficOnly_report (s : State) (e : AerError) : TrafficOnly s (s.report e) := by
  unfold State.report
  dsimp only
  split
  · refine .trans ?_ (trafficOnly_send _ _)
    rfl
  · rfl

theorem trafficOnly_putOut (s : State) (a : Nat) (bs : List Byte) (c : Bool) : TrafficOnly s (s.putOut a bs c) :=
  .foldl (fun t _ => trafficOnly_send t _) _ s

theorem trafficOnly_hostPut (s : State) (a : Nat) (bs : List Byte) (c : Bool) : TrafficOnly s (s.hostPut a bs c) := by
  unfold State.hostPut
  split
  · exact trafficOnly_putOut s a bs c
  · rfl

theorem trafficOnly_hostAsk (s : State) (a n : Nat) (c : Bool) : TrafficOnly s (s.hostAsk a n c) :=
  .foldl (fun t _ => trafficOnly_send t _) _ s

/-- The writes held back go out (R104). -/
theorem trafficOnly_putHeld (s : State) : TrafficOnly s s.putHeld := by
  unfold State.putHeld
  split
  · refine .trans ?_ (.foldl (fun t (w : Nat × List Byte × Bool) => trafficOnly_putOut t w.1 w.2.1 w.2.2) _ _)
    rfl
  · exact .refl s

/-- Reads that waited for a tag go out (R99). -/
theorem trafficOnly_pumpReads (n : Nat) (s : State) : TrafficOnly s (s.pumpReads n) := by
  induction n generalizing s with
  | zero => exact .refl s
  | succ n ih =>
    unfold State.pumpReads
    split
    · rfl
    · split
      · refine .trans ?_ ((trafficOnly_hostAsk _ _ _ _).trans (ih _))
        rfl
      · rfl

theorem trafficOnly_readDone (s : State) : TrafficOnly s s.readDone := by
  unfold State.readDone
  split
  · exact .refl s
  · exact trafficOnly_pumpReads _ s

/-- The messages of set PBA bits go out (R476). -/
theorem trafficOnly_flushPba (s : State) : TrafficOnly s s.flushPba := by
  unfold State.flushPba
  split
  · exact .refl s
  · refine .foldl (fun t v => ?_) _ s
    split
    · refine .trans ?_ (trafficOnly_send _ _)
      rfl
    · exact .refl t

theorem trafficOnly_modWq (s : State) (q : Nat) (f : Queue → Queue) : TrafficOnly s (s.modWq q f) := rfl

theorem trafficOnly_putStatus (s : State) (q : Nat) : TrafficOnly s (s.putStatus q) := trafficOnly_hostPut s _ _ _

/-- The status words due on a queue go out (R122, R123). -/
theorem trafficOnly_statusWord (s : State) (q : Nat) : TrafficOnly s (s.statusWord q) := by
  have hvisits (t : State) (f : Queue → Queue) (l : List Nat) :
      TrafficOnly t (l.foldl (fun u _ => u.putStatus q) (t.modWq q f)) :=
    (trafficOnly_modWq t q f).trans (.foldl (fun u _ => trafficOnly_putStatus u q) l _)
  unfold State.statusWord
  dsimp only
  split
  · exact .refl s
  · split
    · exact ((trafficOnly_modWq s q _).trans (trafficOnly_putStatus _ q)).trans (hvisits _ _ _)
    · exact hvisits s _ _

/-- What goes on when the bus is there again is traffic alone. -/
theorem trafficOnly_busResumed (s : State) : TrafficOnly s s.busResumed := by
  have hheld : TrafficOnly s s.putHeld.readDone.flushPba :=
    ((trafficOnly_putHeld s).trans (trafficOnly_readDone _)).trans (trafficOnly_flushPba _)
  unfold State.busResumed
  split
  · exact .refl s
  · exact hheld.trans (.foldl (fun t (q : Nat × Queue) => trafficOnly_statusWord t q.1) _ _)

/-! ### Nothing held back -/

theorem putHeld_of_nil {s : State} (h : s.pcie.heldWrites = []) : s.putHeld = s := by
  have hcleared : { s with pcie := { s.pcie with heldWrites := [] } } = s := by rw [← h]
  rw [State.putHeld, h, List.foldl_nil, hcleared, ite_self]

theorem flushPba_of_zero {s : State} (h : s.pcie.pba = 0) : s.flushPba = s := by
  have hnone : ∀ v : Nat, (if s.pcie.pba.getLsbD v && s.vecOpen v then
      { s with pcie := { s.pcie with pba := s.pcie.pba &&& ~~~ (1#128 <<< v) } }.sendMsix v else s) = s := by simp [h]
  have hfold (l : List Nat) : l.foldl (fun t v => if t.pcie.pba.getLsbD v && t.vecOpen v then
      { t with pcie := { t.pcie with pba := t.pcie.pba &&& ~~~ (1#128 <<< v) } }.sendMsix v else t) s = s := by
    induction l with
    | nil => rfl
    | cons v l ih => rw [List.foldl_cons, hnone, ih]
  rw [State.flushPba, hfold, ite_self]

/-- A part that holds nothing back and has no queue does nothing when the bus is there again. -/
theorem busResumed_of_idle {s : State} (hpba : s.pcie.pba = 0) (hqueues : s.geyser.queues = [])
    (hheld : s.pcie.heldWrites = []) (hwaits : s.pcie.waits = []) : s.busResumed = s := by
  rw [State.busResumed, hqueues, List.foldl_nil, putHeld_of_nil hheld, State.readDone, if_pos hwaits, flushPba_of_zero hpba,
    ite_self]

end Sys2Proof.HostLink
end

section
/-!
PROOF. Configuration, the power states and the link (R93, R95, R101, R103, R105, R106, R107).
-/
namespace Sys2Proof.HostLink

open Sys2Proof.Machine Sys2Proof.SelfTimed Sys2Proof.RegisterPages

/-! ### Configuration requests -/

/-- A request that is put off before the first answer (R95). -/
theorem exec_configRequest_retry {s : State} (r : CfgReq) (hlinked : s.linked = true) (hdue : s.due = [])
    (hfirst : s.pcie.cfgAnswered = false) : exec (.configRequest r true) s = .next (s.toL0.emit .cfgRetry) := by
  have hexec : exec (.configRequest r true) s = execConfigRequest r true s := rfl
  rw [hexec, execConfigRequest, if_pos ⟨hlinked, rfl, by simp [hfirst]⟩, State.settle_of_due _ (by simp [hdue])]

/-- A request that is not put off is answered (R95). -/
theorem exec_configRequest_answered {s : State} (r : CfgReq) {retry : Bool}
    (h : retry = false ∨ s.pcie.cfgAnswered = true) :
    exec (.configRequest r retry) s = cfgAccess s fun t => t.configure r := by
  have hexec : exec (.configRequest r retry) s = execConfigRequest r retry s := rfl
  rw [hexec, execConfigRequest, if_neg (by rcases h with h | h <;> simp [h])]

/-- A configuration write after which the bus may be there again: what follows the write itself is traffic alone. -/
theorem cfgAccess_busResumed {s : State} (g : Pcie → Pcie) (hlinked : s.linked = true) (hdue : s.due = []) :
    ∃ t, cfgAccess s (fun t => (t.modPcie g).busResumed) = .next t ∧
      TrafficOnly (s.toL0.modPcie fun x => g { x with cfgAnswered := true }) t := by
  have htraffic := trafficOnly_busResumed (s.toL0.modPcie fun x => g { x with cfgAnswered := true })
  exact ⟨_, cfgAccess_quiet hlinked (htraffic.due_eq.trans (by simp [hdue])), htraffic⟩

theorem exec_d0Return {s : State} (hlinked : s.linked = true) (hdue : s.due = []) :
    ∃ t, exec .d0Return s = .next t ∧ t.pcie.d3hot = false := by
  obtain ⟨t, ht, htraffic⟩ := cfgAccess_busResumed (fun x => { x with d3hot := false }) hlinked hdue
  obtain ⟨-, -, -, hd3hot, -⟩ := htraffic.bus_eq
  exact ⟨t, ht, hd3hot⟩

theorem exec_bmeSet {s : State} (hlinked : s.linked = true) (hdue : s.due = []) :
    ∃ t, exec .bmeSet s = .next t ∧ t.pcie.bme = true := by
  obtain ⟨t, ht, htraffic⟩ := cfgAccess_busResumed (fun x => { x with bme := true }) hlinked hdue
  obtain ⟨-, -, -, -, hbme⟩ := htraffic.bus_eq
  exact ⟨t, ht, hbme⟩

/-! ### The link -/

theorem exec_l1Entry {s : State} (hcalm : s.calm = true) (hlinked : s.linked = true) (haspm : s.pcie.aspmL1 = true)
    (hl0 : s.pcie.inL1 = false) :
    exec .l1Entry s = .next ((s.modPcie fun x => { x with inL1 := true }).emit .l1Request) := by
  have hexec : exec .l1Entry s = execL1Entry s := rfl
  have hdue : ((s.modPcie fun x => { x with inL1 := true }).emit .l1Request).due = [] := due_of_calm (s := s) hcalm
  rw [hexec, execL1Entry, act_live _ _ (live_of_calm hcalm), if_pos ⟨hlinked, haspm, by simp [hl0]⟩,
    State.settle_of_due _ hdue]

/-- The state with its link down (R101). -/
def linkLost (s : State) : State := s.modPcie fun x => { x with linkUp := false, speed := 0, width := 0, inL1 := false }

theorem linked_linkLost (s : State) : (linkLost s).linked = false := by simp [linkLost, State.linked, State.modPcie]

/-- A lost link is a surprise down, of which no message can leave (R101). -/
theorem exec_pcieLinkDown {s : State} (hlinked : s.linked = true) :
    exec .pcieLinkDown s = .next ((linkLost s).report .surpriseDown) := by
  have hexec : exec .pcieLinkDown s = execPcieLinkDown s := rfl
  rw [hexec, execPcieLinkDown, if_neg (by simp [hlinked]), linkLost]

/-- The state with its link up at a speed and a width (R93). -/
def linkTrained (s : State) (speed width : Nat) : State :=
  s.modPcie fun x => { x with linkUp := true, speed := speed, width := width, inL1 := false }

/-- Training to a speed and a width that the part supports (R93, R547). -/
theorem exec_pcieLinkTrained {s : State} {v : Nat} {met : LinkMet} (hpower : s.power.powered = true)
    (hperst : s.power.perstHigh = true) (hlow : 1 ≤ v) (hhigh : v ≤ 5)
    (hwidth : met.width = 1 ∨ met.width = 4 ∨ met.width = 8 ∨ met.width = 16) :
    exec (.pcieLinkTrained v met) s =
      .next ((met.errs.filter aerOfLink).foldl State.report (linkTrained s v met.width)).busResumed := by
  have hexec : exec (.pcieLinkTrained v met) s = execPcieLinkTrained v met s := rfl
  rw [hexec, execPcieLinkTrained, if_neg (by simp [hpower, hperst]; omega), linkTrained]

/-- Settles O14: each row from its outcome; where the bus resumes, from traffic leaving the link and the bus settings. -/
theorem pcieConfigurationRows : Obligations.PcieConfigurationRows := by
  unfold Obligations.PcieConfigurationRows
  refine ⟨fun r s => exec_configRequest_retry r, ?mse, ?power,
    fun s hlinked hdue => ⟨exec_d0Return hlinked hdue, exec_bmeSet hlinked hdue⟩, fun s => exec_l1Entry, ?down, ?trained⟩
  case mse =>
    intro b y s hlinked hdue hanswered
    rw [exec_configRequest_answered _ hanswered]
    exact cfgAccess_modPcie (fun x => { x with mse := b }) hlinked hdue
  case power =>
    intro s hlinked hdue
    exact ⟨cfgAccess_modPcie _ hlinked hdue, cfgAccess_modPcie _ hlinked hdue, cfgAccess_modPcie _ hlinked hdue⟩
  case down =>
    intro s hlinked
    have hrecorded := mem_aerStatus_report (linkLost s) .surpriseDown
    have hout := exec_pcieLinkDown hlinked
    rw [report_unlinked (linked_linkLost s)] at hrecorded hout
    exact ⟨_, hout, rfl, rfl, rfl, rfl, rfl, hrecorded⟩
  case trained =>
    intro v w l s hpower hperst hlow hhigh hwidth
    have hreports : TrafficOnly (linkTrained s v w) ((l.filter aerOfLink).foldl State.report (linkTrained s v w)) :=
      .foldl trafficOnly_report _ _
    obtain ⟨hup, hspeed, hlanes, -, -⟩ := (hreports.trans (trafficOnly_busResumed _)).bus_eq
    refine ⟨_, exec_pcieLinkTrained hpower hperst hlow hhigh hwidth, hup, hspeed, hlanes, ?_⟩
    rintro rfl hpba hqueues hheld hwaits
    exact busResumed_of_idle (s := linkTrained s v w) hpba hqueues hheld hwaits

end Sys2Proof.HostLink
end

section
/-!
PROOF. BAR2 and the ends of reads of host memory (R97, R100, R101, R102, R560).
-/
namespace Sys2Proof.HostLink

open Sys2Proof.Machine Sys2Proof.SelfTimed Sys2Proof.RegisterPages

/-! ### BAR2 -/

section
variable {s : State} {off len a : Nat} {bs : List Byte}
variable (hcalm : s.calm = true) (hlinked : s.linked = true) (hdecodes : s.decodes = true)
include hcalm hlinked hdecodes

/-- A read of readable bytes in service (R97). -/
theorem exec_bar2Read_readable (hinside : s.inBar2 off len = true) (hready : s.boot.state = .ready)
    (haddr : s.bar2Addr off = some a) (hfrozen : s.frozenRun a len = false) (hread : s.readRun a len = true) :
    exec (.bar2Read off len false) s = .next (s.toL0.emit (.barRead (s.devBytes a len) false)) := by
  have hexec : exec (.bar2Read off len false) s = execBar2Read off len false s := rfl
  rw [hexec, execBar2Read, memRequest_quiet hcalm hlinked hdecodes hinside] <;>
    simp [hready, haddr, hfrozen, hread, due_of_calm hcalm]

/-- A write of writable bytes in service (R97). -/
theorem exec_bar2Write_writable (hinside : s.inBar2 off bs.length = true)
    (hready : s.boot.state = .ready) (haddr : s.bar2Addr off = some a) (hwrite : s.writeRun a bs.length = true) :
    exec (.bar2Write off bs false) s = .next (s.toL0.write a bs) := by
  have hexec : exec (.bar2Write off bs false) s = execBar2Write off bs false s := rfl
  rw [hexec, execBar2Write, memRequest_quiet hcalm hlinked hdecodes hinside] <;>
    simp [hready, haddr, hwrite, State.write, due_of_calm hcalm]

/-- A write during boot is refused (R96, log entry 39). -/
theorem exec_bar2Write_booting (hinside : s.inBar2 off bs.length = true) (hboot : s.boot.state = .booting) :
    exec (.bar2Write off bs false) s = .next (s.toL0.accessBad 16) := by
  have hexec : exec (.bar2Write off bs false) s = execBar2Write off bs false s := rfl
  rw [hexec, execBar2Write, memRequest_quiet hcalm hlinked hdecodes hinside] <;>
    simp [hboot, State.bar2Refused, State.accessBad, due_of_calm hcalm]

end

/-! ### Reads of host memory -/

/-- A good completion brings the link out of L1 (R107). -/
theorem exec_hostReadComplete_ok {s : State} (w : HostRead) (hcalm : s.calm = true) (hlinked : s.linked = true) :
    exec (.hostReadComplete w .ok) s = .next s.toL0 := by
  have hexec : exec (.hostReadComplete w .ok) s = execHostReadComplete w .ok s := rfl
  rw [hexec, execHostReadComplete, act_live _ _ (live_of_calm hcalm), if_neg (by simp [hlinked])]
  dsimp only
  rw [State.settle_of_due _ (by simp [due_of_calm hcalm])]

/-- The failed read of a job that does not exist hits no one (R100). -/
theorem readFailed_jobInput_none {s : State} {j : Nat} (h : s.job j = none) : s.readFailed (.jobInput j) = s := by
  simp [State.readFailed, h]

/-- A completion timeout of a read for which no job waits is only reported (R100, R101). -/
theorem exec_completionTimeout_unwanted {s : State} {j : Nat} (hcalm : s.calm = true) (henabled : s.pcie.ctoDisable = false)
    (hjob : s.job j = none) : exec (.completionTimeout (.jobInput j)) s = .next (s.report .completionTimeout) := by
  have hexec : exec (.completionTimeout (.jobInput j)) s = execCompletionTimeout (.jobInput j) s := rfl
  rw [hexec, execCompletionTimeout, act_live _ _ (live_of_calm hcalm), if_neg (by simp [henabled]),
    readFailed_jobInput_none (by rw [report_job, hjob]), State.settle_of_due _ (by rw [report_due, due_of_calm hcalm])]

/-- Settles O15: each row from its outcome; a stored run leaves every byte outside it. -/
theorem bar2AndHostReadRows : Obligations.Bar2AndHostReadRows := by
  unfold Obligations.Bar2AndHostReadRows
  refine ⟨fun off len a s => exec_bar2Read_readable, ?write, fun off bs s => exec_bar2Write_booting,
    fun w s => exec_hostReadComplete_ok w, fun j s => exec_completionTimeout_unwanted⟩
  case write =>
    intro off a bs s hcalm hlinked hdecodes hinside hready haddr hwrite
    have hstored : s.toL0.write a bs = { s.toL0 with mem := memPutAll s.mem a bs } := by rw [State.write, toL0_mem]
    refine ⟨_, exec_bar2Write_writable hcalm hlinked hdecodes hinside hready haddr hwrite, hstored, fun x hx => ?_⟩
    rw [hstored]
    exact memByte_memPutAll_out s.mem a x bs hx

end Sys2Proof.HostLink
end

section
/-!
SUPPORT. Rules for the Placer's rows: its records of streams, cores and quadrants after a write to the same and to another, what a log
record leaves as it was, and folds that change one record at a time.
-/
namespace Sys2Proof.Placement

open Sys2Proof.Machine Sys2Proof.SelfTimed Sys2Proof.RegisterPages

/-! ### The records -/

@[simp] theorem stream_modStream_self (s : State) (n : Nat) (f : Stream → Stream) :
    (s.modStream n f).stream n = f (s.stream n) := mgetD_mset_self ..

theorem stream_modStream_ne (s : State) {n m : Nat} (f : Stream → Stream) (h : m ≠ n) :
    (s.modStream n f).stream m = s.stream m := mgetD_mset_ne _ _ _ h

@[simp] theorem core_modPlace_self (s : State) (n : Nat) (f : CorePlace → CorePlace) :
    (s.modPlace n f).core n = f (s.core n) := mgetD_mset_self ..

theorem core_modPlace_ne (s : State) {n m : Nat} (f : CorePlace → CorePlace) (h : m ≠ n) :
    (s.modPlace n f).core m = s.core m := mgetD_mset_ne _ _ _ h

@[simp] theorem quad_modQuad_self (s : State) (q : Nat) (f : QuadPlace → QuadPlace) :
    (s.modQuad q f).quad q = f (s.quad q) := mgetD_mset_self ..

theorem quad_modQuad_ne (s : State) {q r : Nat} (f : QuadPlace → QuadPlace) (h : r ≠ q) :
    (s.modQuad q f).quad r = s.quad r := mgetD_mset_ne _ _ _ h

@[simp] theorem unit_modUnit_self (s : State) (n : Nat) (f : Core → Core) :
    (s.modUnit n f).unit n = f (s.unit n) := mgetD_mset_self ..

theorem unit_modUnit_ne (s : State) {n m : Nat} (f : Core → Core) (h : m ≠ n) :
    (s.modUnit n f).unit m = s.unit m := mgetD_mset_ne _ _ _ h

@[simp] theorem toL0_stream (s : State) (n : Nat) : s.toL0.stream n = s.stream n := by rw [State.toL0_eq]; rfl

@[simp] theorem toL0_jobs (s : State) : s.toL0.jobs = s.jobs := by rw [State.toL0_eq]

@[simp] theorem toL0_qualifies (s : State) (mode : List Nat) (mib q : Nat) :
    s.toL0.qualifies mode mib q = s.qualifies mode mib q := by rw [State.toL0_eq]; rfl

/-! ### Log records -/

/-- Nothing of t differs from s but the units that a log record passes through on its way out, the events of pages, and the count
of lost records (R204). -/
structure LogOnly (s t : State) : Prop extends EventsOnly s t where
  frame : t = { s with
    placer := { s.placer with lost := t.placer.lost }, geyser := t.geyser, qm := t.qm, dma := t.dma, pages := t.pages
    pcie := t.pcie, out := t.out }

theorem LogOnly.refl (s : State) : LogOnly s s := ⟨.refl s, rfl⟩

theorem LogOnly.trans {s t u : State} (h : LogOnly s t) (k : LogOnly t u) : LogOnly s u := by
  refine ⟨h.toEventsOnly.trans k.toEventsOnly, ?_⟩
  rw [k.frame, h.frame]

section
variable {s t : State} (h : LogOnly s t)
include h

theorem LogOnly.mem : t.mem = s.mem := by rw [h.frame]

theorem LogOnly.jobs : t.jobs = s.jobs := by rw [h.frame]

theorem LogOnly.stream (n : Nat) : t.stream n = s.stream n := by rw [h.frame]; rfl

theorem LogOnly.core (n : Nat) : t.core n = s.core n := by rw [h.frame]; rfl

theorem LogOnly.quad (q : Nat) : t.quad q = s.quad q := by rw [h.frame]; rfl

theorem LogOnly.unit (n : Nat) : t.unit n = s.unit n := by rw [h.frame]; rfl

theorem LogOnly.pageState (p : Nat) : (t.page p).state = (s.page p).state := by rw [h.pages p]

end

theorem logOnly_setCond (s : State) (p b : Nat) (v : Bool) : LogOnly s (s.setCond p b v) := ⟨eventsOnly_setCond s p b v, rfl⟩

theorem logOnly_raiseEvt (s : State) (p b : Nat) : LogOnly s (s.raiseEvt p b) := ⟨eventsOnly_raiseEvt s p b, rfl⟩

/-- A change of the count of lost records. -/
theorem logOnly_lost (s : State) (n : Nat) : LogOnly s { s with placer := { s.placer with lost := n } } :=
  ⟨eventsOnly_of_pages rfl rfl rfl, rfl⟩

theorem eventsOnly_chanEvt (s : State) (c b : Nat) : EventsOnly s (s.chanEvt c b) :=
  (eventsOnly_modChan s c _).trans (eventsOnly_setCond _ _ _ _)

/-- A trigger changes of the pages only their events (R459). -/
theorem eventsOnly_trigger (s : State) (c : Nat) : EventsOnly s (s.trigger c) := by
  have hlost : EventsOnly s ((s.modChan c fun x => { x with trigLost := min (x.trigLost + 1) 255 }).chanEvt c 4) :=
    (eventsOnly_modChan s c _).trans (eventsOnly_chanEvt _ c 4)
  unfold State.trigger
  split
  · exact .refl s
  · split
    · exact hlost
    · split
      · exact eventsOnly_trigRun s c
      · split
        · exact eventsOnly_modChan s c _
        · exact hlost

theorem logOnly_trigger (s : State) (c : Nat) : LogOnly s (s.trigger c) := by
  refine ⟨eventsOnly_trigger s c, ?_⟩
  have hframe : s.trigger c = _ := dmaOnly_trigger s c
  rw [hframe]

/-- The consumer of a queue learns of a packet (R430, R432). -/
theorem logOnly_notice (s : State) (q : Nat) : LogOnly s (s.notice q State.trigger) := by
  unfold State.notice
  dsimp only
  split
  · exact ⟨eventsOnly_of_pages rfl rfl rfl, rfl⟩
  · split
    · exact logOnly_trigger s _
    · exact .refl s

/-- A packet of the log queue (R204). -/
theorem logOnly_logPacket {s t : State} {q : Nat} {b : List Byte} (h : s.logPacket q b = some t) : LogOnly s t := by
  have hlinked (p : Packet) : LogOnly s (s.linkPacket q p) := ⟨eventsOnly_of_pages rfl rfl rfl, rfl⟩
  unfold State.logPacket at h
  dsimp only at h
  split at h
  · obtain rfl := Option.some.inj h
    exact ((hlinked _).trans (logOnly_notice _ q)).trans (logOnly_setCond _ 8 0 _)
  · cases h

/-- A log record is written, lost, or not asked for (R204). -/
theorem logOnly_log (s : State) (stream kind quad cores arg flags : Nat) :
    LogOnly s (s.log stream kind quad cores arg flags) := by
  unfold State.log
  extract_lets w q drop s1
  have hlost : LogOnly s s1 := by
    unfold s1
    split
    · exact .refl s
    · split
      · rename_i t ht
        exact ((logOnly_logPacket ht).trans (logOnly_lost t 0)).trans (logOnly_raiseEvt _ 5 4)
      · exact .refl s
  split
  · exact .refl s
  · split
    · rename_i t ht
      split at ht
      · exact hlost.trans (logOnly_logPacket ht)
      · cases ht
    · exact hlost.trans (logOnly_lost s1 _)

/-! ### Folds that change one record at a time -/

/-- A fold over the indices below k whose step n changes record n alone, by `f n`, has changed each of those records once. The
invariant P is what the steps keep of the rest of the state. -/
theorem foldl_range_records {β : Type} {P : State → Prop} {get : State → Nat → β} {g : State → Nat → State} {f : Nat → β → β}
    (hkeep : ∀ u n, P u → P (g u n)) (hself : ∀ u n, P u → get (g u n) n = f n (get u n))
    (hother : ∀ u n m, P u → m ≠ n → get (g u n) m = get u m) {s : State} (hs : P s) (k : Nat) :
    P ((List.range k).foldl g s) ∧
      ∀ m, get ((List.range k).foldl g s) m = if m < k then f m (get s m) else get s m := by
  induction k with
  | zero => exact ⟨hs, fun m => rfl⟩
  | succ k ih =>
    obtain ⟨hP, hget⟩ := ih
    rw [List.range_succ, List.foldl_append, List.foldl_cons, List.foldl_nil]
    refine ⟨hkeep _ k hP, fun m => ?_⟩
    by_cases hm : m = k
    · subst hm
      rw [hself _ _ hP, hget, if_neg (Nat.lt_irrefl m), if_pos (Nat.lt_succ_self m)]
    · rw [hother _ _ _ hP hm, hget]
      by_cases hlt : m < k
      · rw [if_pos hlt, if_pos (by omega)]
      · rw [if_neg hlt, if_neg (by omega)]

end Sys2Proof.Placement
end

section
/-!
PROOF. The re-homing rows (R194, R196, R206).
-/
namespace Sys2Proof.Placement

open Sys2Proof.Machine Sys2Proof.SelfTimed Sys2Proof.RegisterPages

/-! ### A re-home starts -/

/-- A stream whose re-home starts (R194). -/
def rehoming (cause target : Nat) (t : Stream) : Stream :=
  { t with rehome := some { cause := cause, target := target }, again := none, homeless := false }

section
variable {s : State} {n c q : Nat} (hopen : (s.stream n).state ≠ .closed) (hnone : (s.stream n).rehome = none)
include hopen hnone

/-- Beside its stream the start of a re-home changes what its log record changes. -/
theorem logOnly_rehomeStart : LogOnly (s.modStream n (rehoming c q)) (s.rehomeStart n c q) := by
  have hstart : s.rehomeStart n c q = ((s.modStream n (rehoming c q)).log n 3 (quadByte (s.stream n).home q) 0 c 0).stallCond := by
    unfold State.rehomeStart
    dsimp only
    rw [if_neg (by simp [hopen, hnone])]
    rfl
  rw [hstart]
  exact (logOnly_log _ ..).trans (logOnly_setCond _ 5 3 _)

theorem stream_rehomeStart_self : (s.rehomeStart n c q).stream n = rehoming c q (s.stream n) := by
  rw [(logOnly_rehomeStart hopen hnone).stream, stream_modStream_self]

/-- An event that starts a re-home raises no fault, and leaves memory, jobs and the other streams. -/
theorem act_rehomeStart {f : State → State} (hcalm : s.calm = true) (hf : f s = s.rehomeStart n c q) :
    ∃ t, act s f = .next t ∧ t.mem = s.mem ∧ t.jobs = s.jobs ∧ t.stream n = rehoming c q (s.stream n) ∧
      ∀ m, m ≠ n → t.stream m = s.stream m := by
  have hlog := logOnly_rehomeStart (c := c) (q := q) hopen hnone
  refine ⟨_, act_quiet s f (live_of_calm hcalm) ?_, ?_⟩
  · rw [hf, hlog.due]
    exact due_of_calm hcalm
  · rw [hf]
    exact ⟨hlog.mem, hlog.jobs, stream_rehomeStart_self hopen hnone, fun m hm => by
      rw [hlog.stream, stream_modStream_ne s _ hm]⟩

end

/-- A stream that has a home only takes the re-home up. -/
theorem rehoming_of_home {t : Stream} (h : t.homeless = false) (c q : Nat) :
    rehoming c q t = { t with rehome := some { cause := c, target := q }, again := none } := by
  cases t
  cases h
  rfl

/-- REHOME_START for a faulted home, a better quadrant or consolidation (R194, R196). -/
theorem exec_rehomeStart {n c q : Nat} {s : State} (hcalm : s.calm = true) (hopen : (s.stream n).state ≠ .closed)
    (hhome : (s.stream n).homeless = false) (hnone : (s.stream n).rehome = none)
    (hcause : c = 1 ∧ s.homeFaulted (s.stream n).home = true ∧ q = noQuad ∨
      c = 2 ∧ (s.active 5 0x068).getLsbD 30 = true ∧ s.localTarget (s.stream n) = some q ∨
      c = 3 ∧ s.packMoves (s.stream n) = true ∧ q = noQuad) :
    ∃ t, exec (.rehomeStart n c) s = .next t ∧ t.mem = s.mem ∧ t.jobs = s.jobs ∧
      t.stream n = rehoming c q (s.stream n) ∧ ∀ m, m ≠ n → t.stream m = s.stream m := by
  have hexec : exec (.rehomeStart n c) s = execRehomeStart n c s := rfl
  rw [hexec, execRehomeStart]
  refine act_rehomeStart hopen hnone hcalm ?_
  have hmay : ¬((s.stream n).state = .closed ∨ (s.stream n).homeless = true) := by simp [hopen, hhome]
  dsimp only
  rw [if_neg hmay]
  obtain ⟨rfl, hfault, rfl⟩ | ⟨rfl, hlocality, htarget⟩ | ⟨rfl, hpack, rfl⟩ := hcause
  · exact if_pos hfault
  · simp [hlocality, htarget]
  · exact if_pos hpack

/-- REHOME_RETRY of a stream without a home, once there is one for it (R194). -/
theorem exec_rehomeRetry_homeless {n q : Nat} {s : State} (hcalm : s.calm = true) (hhomeless : (s.stream n).homeless = true)
    (hopen : (s.stream n).state ≠ .closed) (hnone : (s.stream n).rehome = none)
    (htarget : s.rehomeTarget n (s.stream n) { cause := 1, target := noQuad } = some q) :
    ∃ t, exec (.rehomeRetry n) s = .next t ∧ t.mem = s.mem ∧ t.jobs = s.jobs ∧
      t.stream n = rehoming 1 noQuad (s.stream n) ∧ ∀ m, m ≠ n → t.stream m = s.stream m := by
  have hexec : exec (.rehomeRetry n) s = execRehomeRetry n s := rfl
  rw [hexec, execRehomeRetry]
  exact act_rehomeStart hopen hnone hcalm (by simp [hhomeless, htarget])

/-- REHOME_RETRY of an abandoned re-home (R194). -/
theorem exec_rehomeRetry_again {n c q : Nat} {s : State} (hcalm : s.calm = true) (hhome : (s.stream n).homeless = false)
    (hopen : (s.stream n).state ≠ .closed) (hnone : (s.stream n).rehome = none) (hagain : (s.stream n).again = some (c, q))
    (haway : q ≠ (s.stream n).home) :
    ∃ t, exec (.rehomeRetry n) s = .next t ∧ t.mem = s.mem ∧ t.jobs = s.jobs ∧
      t.stream n = rehoming c q (s.stream n) ∧ ∀ m, m ≠ n → t.stream m = s.stream m := by
  have hexec : exec (.rehomeRetry n) s = execRehomeRetry n s := rfl
  rw [hexec, execRehomeRetry]
  exact act_rehomeStart hopen hnone hcalm (by simp [hhome, hagain, haway])

/-! ### REHOME_REQ -/

/-- A field that reads 0 has no bit set (R9). -/
theorem getLsbD_of_fld {w : Word} {hi lo i : Nat} (h : fld w hi lo = 0) (hlo : lo ≤ i) (hhi : i ≤ hi) :
    w.getLsbD i = false := by
  have hbit : ((w.toNat / 2 ^ lo) % 2 ^ (hi + 1 - lo)).testBit (i - lo) = false := by
    rw [fld, bits] at h
    rw [h, Nat.zero_testBit]
  rw [Nat.testBit_mod_two_pow, Nat.testBit_div_two_pow, decide_eq_true (by omega), Bool.true_and,
    Nat.sub_add_cancel hlo] at hbit
  exact hbit

/-- The request register has TARGET in [17:16] and STREAM in [9:0] alone (R206). -/
theorem rehomeReq_clear {v : Word} (hhigh : fld v 31 18 = 0) (hmid : fld v 15 10 = 0) : v &&& ~~~0x000303FF = 0 := by
  have hmask : ∀ i < 32, (10 ≤ i ∧ i ≤ 15) ∨ 18 ≤ i ∨ (0x000303FF#32).getLsbD i = true := by decide
  ext i hi
  rw [← BitVec.getLsbD_eq_getElem, ← BitVec.getLsbD_eq_getElem, BitVec.getLsbD_and, BitVec.getLsbD_not]
  obtain ⟨hlo, hup⟩ | hlo | hset := hmask i hi
  · simp [getLsbD_of_fld hmid hlo hup]
  · simp [getLsbD_of_fld hhigh hlo (by omega)]
  · simp [hset]

/-- REHOME_REQ for an open stream at home elsewhere than in a quadrant that qualifies (R206). -/
theorem exec_rehomeReq {v : Word} {s : State} (hears : s.hears 5 = true) (hclear : v &&& ~~~0x000303FF = 0)
    (hopened : (s.stream (fld v 9 0)).state = .opened) (hnone : (s.stream (fld v 9 0)).rehome = none)
    (haway : fld v 17 16 ≠ (s.stream (fld v 9 0)).home)
    (hqualifies : s.qualifies (s.stream (fld v 9 0)).mode (s.stream (fld v 9 0)).blockMib (fld v 17 16) = true) :
    ∃ t, exec (.rehomeReq v) s = .next t ∧ t.mem = s.mem ∧ t.jobs = s.jobs ∧
      t.stream (fld v 9 0) = rehoming 4 (fld v 17 16) (s.stream (fld v 9 0)) := by
  have hexec : exec (.rehomeReq v) s = execRehomeReq v s := rfl
  have hopen : (s.toL0.stream (fld v 9 0)).state ≠ .closed := by simp [hopened]
  have hnone' : (s.toL0.stream (fld v 9 0)).rehome = none := by simp [hnone]
  have hlog := logOnly_rehomeStart (c := 4) (q := fld v 17 16) hopen hnone'
  refine ⟨s.toL0.rehomeStart (fld v 9 0) 4 (fld v 17 16), ?_, ?_, ?_, ?_⟩
  · rw [hexec, execRehomeReq, hostCmd_heard _ _ _ hears]
    dsimp only
    rw [rsv_of_clear hclear, if_neg (by simp [hopened, hnone, haway, hqualifies])]
    exact congrArg _ (State.settle_of_due _ (by rw [hlog.due, State.modStream_due, toL0_due, due_of_hears hears]))
  · rw [hlog.mem, State.modStream_mem, HostLink.toL0_mem]
  · rw [hlog.jobs, State.modStream_jobs, toL0_jobs]
  · rw [stream_rehomeStart_self hopen hnone', toL0_stream]

/-! ### REHOME_ALLOCATE -/

/-- A re-home that is alone reserves the first fit of its target, once its stream has no placed job (R194). -/
theorem exec_rehomeAllocate {n q b : Nat} {r : Rehome} {s : State} (hcalm : s.calm = true)
    (hrehome : (s.stream n).rehome = some r) (hwaits : r.started = false) (hfree : s.hasPlaced n = false)
    (halone : ∀ y ∈ s.streams, y.2.rehome = none ∨ y.1 = n ∧ y.2.rehome = some r)
    (htarget : s.rehomeTarget n (s.stream n) r = some q) (hfit : s.fitBlock q (s.stream n).blockMib = some b) :
    exec (.rehomeAllocate n) s = .next (s.modStream n fun t => { t with
      rehome := some { r with target := q, started := true, rebuild := s.unreadable t.home, base := b } }) := by
  have hexec : exec (.rehomeAllocate n) s = execRehomeAllocate n s := rfl
  have hfirst : ∀ y ∈ s.streams, y.1 < n → y.2.rehome = none := fun y hy hlt =>
    (halone y hy).resolve_right fun h => Nat.ne_of_lt hlt h.1
  have hplain : ∀ y ∈ s.streams, y.2.rehome = none ∨ y.2.rehome = some r := fun y hy => (halone y hy).imp_right And.right
  rw [hexec, execRehomeAllocate, act_live _ _ (live_of_calm hcalm)]
  simp only [hrehome, hwaits, hfree, htarget, hfit]
  rw [if_neg ?mayGo, if_neg ?vacant]
  · exact congrArg _ (State.settle_of_due _ (due_of_calm hcalm))
  case mayGo =>
    simp only [Bool.false_eq_true, Bool.not_not, false_or, List.any_eq_true, Bool.and_eq_true, decide_eq_true_eq]
    rintro ⟨y, hy, hlt, hwaiting⟩
    simp [hfirst y hy hlt] at hwaiting
  case vacant =>
    simp only [List.any_eq_true]
    rintro ⟨y, hy, hholds⟩
    obtain hnone | hsame := hplain y hy
    · simp [hnone] at hholds
    · simp [hsame, hwaits] at hholds

/-! ### REHOME_DONE -/

/-- The copy of a block changes nothing but device memory. -/
theorem copyBlock_frame (s : State) (t : Stream) (base : Nat) : s.copyBlock t base = { s with mem := (s.copyBlock t base).mem } := by
  unfold State.copyBlock
  exact List.foldlRecOn (motive := fun u : State => u = { s with mem := u.mem }) _ _ rfl fun u hu p _ => by rw [hu]; rfl

/-- A stream in its new home (R194): after a rebuild with what its mirror holds, and with unused slots. -/
def rehomed (s : State) (t : Stream) (r : Rehome) (rebuild : Bool) : Stream :=
  let u : Stream := { t with
    home := r.target, blockBase := r.base, rehome := none, migrate := true, last64 := []
    k := s.kOf t }
  (if rebuild then { u with
      slots := u.slots.map (fun y => (y.1, y.2.cleared)), rc := {}, nextKey := u.nextKey || u.encode
      mode := u.mirror.mode, saveA := {}, saveB := {}, record := u.mirror.seq, slices := [], ctxLost := true } else u).mirrored

theorem rehomed_home (s : State) (t : Stream) (r : Rehome) (rebuild : Bool) :
    (rehomed s t r rebuild).home = r.target ∧ (rehomed s t r rebuild).blockBase = r.base ∧
      (rehomed s t r rebuild).rehome = none ∧ (rehomed s t r rebuild).migrate = true := by
  cases rebuild <;> exact ⟨rfl, rfl, rfl, rfl⟩

/-- A rebuild leaves every slot unused and with no picture to write (R194). -/
theorem slots_rehomed_rebuilt (s : State) (t : Stream) (r : Rehome) :
    ∀ y ∈ (rehomed s t r true).slots, y.2.mark = .unused ∧ y.2.pending = false := by
  intro y hy
  obtain ⟨z, -, rfl⟩ := List.mem_map.mp (show y ∈ t.slots.map fun y => (y.1, y.2.cleared) from hy)
  exact ⟨rfl, rfl⟩

/-- The move changes device memory, its stream, and what its log record and event change (R194). -/
theorem logOnly_moveHome (s : State) (n : Nat) (t : Stream) (r : Rehome) (rebuild : Bool) :
    LogOnly ((if rebuild then s else s.copyBlock t r.base).modStream n fun _ => rehomed s t r rebuild)
      (s.moveHome n t r rebuild) :=
  (logOnly_log _ ..).trans (logOnly_raiseEvt _ 5 2)

/-- REHOME_DONE while the target takes homes (R194). -/
theorem exec_rehomeDone {n : Nat} {r : Rehome} {s : State} (hcalm : s.calm = true) (hrehome : (s.stream n).rehome = some r)
    (hstarted : r.started = true) (htakes : s.noHomes r.target = false) :
    exec (.rehomeDone n) s = .next (s.moveHome n (s.stream n) r (r.rebuild || s.unreadable (s.stream n).home)) := by
  have hexec : exec (.rehomeDone n) s = execRehomeDone n s := rfl
  rw [hexec, execRehomeDone, act_live _ _ (live_of_calm hcalm)]
  simp only [hrehome, hstarted, htakes, Bool.not_true, Bool.false_eq_true, if_false]
  refine congrArg _ (State.settle_of_due _ ?_)
  rw [(logOnly_moveHome ..).due, State.modStream_due]
  split
  · exact due_of_calm hcalm
  · rw [copyBlock_frame]
    exact due_of_calm hcalm

/-- A moved stream is at home in its new block, and the others stand (R194). -/
theorem moveHome_moves (s : State) (n : Nat) (t : Stream) (r : Rehome) (rebuild : Bool) :
    (s.moveHome n t r rebuild).stream n = rehomed s t r rebuild ∧ (s.moveHome n t r rebuild).jobs = s.jobs ∧
      (∀ m, m ≠ n → (s.moveHome n t r rebuild).stream m = s.stream m) ∧
      (s.moveHome n t r rebuild).mem = if rebuild then s.mem else (s.copyBlock t r.base).mem := by
  have hlog := logOnly_moveHome s n t r rebuild
  have hbase : (if rebuild then s else s.copyBlock t r.base) =
      { s with mem := if rebuild then s.mem else (s.copyBlock t r.base).mem } := by
    split
    · rfl
    · exact copyBlock_frame s t r.base
  rw [hbase] at hlog
  refine ⟨?_, hlog.jobs, fun m hm => ?_, hlog.mem⟩
  · rw [hlog.stream, stream_modStream_self]
  · rw [hlog.stream, stream_modStream_ne _ _ hm]
    rfl

end Sys2Proof.Placement
end

section
/-!
PROOF. The tempo and the power of cores (R180, R195 to R200, R203, R385).
-/
namespace Sys2Proof.Placement

open Sys2Proof.Machine Sys2Proof.SelfTimed Sys2Proof.RegisterPages

/-! ### PLACER_TEMPO_REFRESH -/

/-- Nothing of t differs from s but the Placer. -/
def PlacerOnly (s t : State) : Prop := t = { s with placer := t.placer }

theorem PlacerOnly.refl (s : State) : PlacerOnly s s := rfl

theorem PlacerOnly.due {s t : State} (h : PlacerOnly s t) : t.due = s.due := by
  rw [h]

theorem PlacerOnly.trans {s t u : State} (h : PlacerOnly s t) (k : PlacerOnly t u) : PlacerOnly s u := by
  unfold PlacerOnly at *
  rw [k, h]

theorem placerOnly_modQuad (s : State) (q : Nat) (f : QuadPlace → QuadPlace) : PlacerOnly s (s.modQuad q f) := rfl

section
variable (s : State) (q n : Nat) (f : QuadPlace → QuadPlace)

@[simp] theorem modQuad_due : (s.modQuad q f).due = s.due := rfl

@[simp] theorem modQuad_mem : (s.modQuad q f).mem = s.mem := rfl

@[simp] theorem modQuad_jobs : (s.modQuad q f).jobs = s.jobs := rfl

@[simp] theorem modQuad_unit : (s.modQuad q f).unit n = s.unit n := rfl

@[simp] theorem modQuad_core : (s.modQuad q f).core n = s.core n := rfl

end

/-- A core's record with the tempo of its monitor times its lanes, where its quadrant is powered and live (R180). -/
def tempoRead (s : State) (n : Nat) (c : CorePlace) : CorePlace :=
  if (s.quad (n / 12)).parked ∨ s.time.ns < (s.quad (n / 12)).liveAt then c
  else { c with pt := s.monTempo n * (s.unit n).lanes / 256 % 65536 }

/-- A core's record with whether it holds a job now (R195). -/
def busySampled (c : CorePlace) : CorePlace := { c with busyLog := (c.busy :: c.busyLog).take 100 }

/-- A quadrant's record with the load measured (R203). -/
def loadTaken (s : State) (l : List Nat) (q : Nat) (p : QuadPlace) : QuadPlace :=
  { p with
    dramLoad := min 255 (l.getD q 0)
    dramHigh := decide (fld (s.active 5 0x068) 23 16 < min 255 (l.getD q 0)) ||
      (p.dramHigh && decide (fld (s.active 5 0x068) 23 16 ≤ min 255 (l.getD q 0) + 16)) }

/-- The tempo of one core is read. -/
def tempoStep (u : State) (n : Nat) : State :=
  if (u.quad (n / 12)).parked ∨ u.time.ns < (u.quad (n / 12)).liveAt then u
  else u.modPlace n fun c => { c with pt := u.monTempo n * (u.unit n).lanes / 256 % 65536 }

/-- The tempo of the cores below k is read. -/
def temposRead (s : State) (k : Nat) : State := (List.range k).foldl tempoStep s

/-- The cores below k are sampled. -/
def coresSampled (s : State) (k : Nat) : State := (List.range k).foldl (fun u n => u.modPlace n busySampled) s

/-- The quadrants below k take the load that is measured in part s. -/
def loadsTaken (s : State) (l : List Nat) (u : State) (k : Nat) : State :=
  (List.range k).foldl (fun u q => u.modQuad q (loadTaken s l q)) u

/-- A refresh reads every core's tempo, samples whether it is busy, and takes every quadrant's load. -/
def refreshed (s : State) (l : List Nat) : State := loadsTaken s l (coresSampled (temposRead s 48) 48) 4

/-- The rest of the state stands, and of the Placer all but the cores' records. -/
def CoresOnly (s u : State) : Prop := u = { s with placer := { s.placer with cores := u.placer.cores } }

theorem CoresOnly.refl (s : State) : CoresOnly s s := rfl

theorem CoresOnly.modPlace {s u : State} (h : CoresOnly s u) (n : Nat) (f : CorePlace → CorePlace) :
    CoresOnly s (u.modPlace n f) := by
  unfold CoresOnly at *
  rw [h]
  rfl

theorem CoresOnly.placerOnly {s u : State} (h : CoresOnly s u) : PlacerOnly s u := by
  unfold CoresOnly at h
  rw [PlacerOnly, h]

/-- One core's tempo is read, from monitors, lanes and quadrants that the cores before it have left. -/
theorem tempoStep_eq {s u : State} (h : CoresOnly s u) (n : Nat) :
    tempoStep u n = u.modPlace n (tempoRead s n) ∨ tempoStep u n = u ∧ ∀ c, tempoRead s n c = c := by
  have hquad : u.quad (n / 12) = s.quad (n / 12) := by rw [h]; rfl
  have htime : u.time = s.time := by rw [h]
  have hmon : u.monTempo n = s.monTempo n := by rw [h]; rfl
  have hunit : u.unit n = s.unit n := by rw [h]; rfl
  unfold tempoStep tempoRead
  rw [hquad, htime, hmon, hunit]
  split
  · exact .inr ⟨rfl, fun _ => rfl⟩
  · exact .inl rfl

theorem core_temposRead (s : State) (k : Nat) :
    CoresOnly s (temposRead s k) ∧
      ∀ n, (temposRead s k).core n = if n < k then tempoRead s n (s.core n) else s.core n := by
  refine foldl_range_records (P := CoresOnly s) (get := State.core) (f := tempoRead s) (s := s) (fun u n hu => ?keep)
    (fun u n hu => ?self) (fun u n m hu hm => ?other) (.refl s) k
  case keep =>
    obtain h | ⟨h, -⟩ := tempoStep_eq hu n
    · rw [h]
      exact hu.modPlace n _
    · rwa [h]
  case self =>
    obtain h | ⟨h, hid⟩ := tempoStep_eq hu n
    · rw [h, core_modPlace_self]
    · rw [h, hid]
  case other =>
    obtain h | ⟨h, -⟩ := tempoStep_eq hu n
    · rw [h, core_modPlace_ne _ _ hm]
    · rw [h]

theorem core_coresSampled (s : State) (k : Nat) :
    CoresOnly s (coresSampled s k) ∧
      ∀ n, (coresSampled s k).core n = if n < k then busySampled (s.core n) else s.core n :=
  foldl_range_records (P := CoresOnly s) (get := State.core) (f := fun _ => busySampled) (s := s)
    (fun _ n hu => hu.modPlace n _) (fun u n _ => core_modPlace_self u n _) (fun u _ _ _ hm => core_modPlace_ne u _ hm)
    (.refl s) k

theorem quad_loadsTaken (s u : State) (l : List Nat) (k : Nat) :
    (PlacerOnly u (loadsTaken s l u k) ∧ ∀ n, (loadsTaken s l u k).core n = u.core n) ∧
      ∀ q, (loadsTaken s l u k).quad q = if q < k then loadTaken s l q (u.quad q) else u.quad q :=
  foldl_range_records (P := fun v => PlacerOnly u v ∧ ∀ n, v.core n = u.core n) (get := State.quad) (f := loadTaken s l) (s := u)
    (fun v q ⟨hv, hcore⟩ => ⟨hv.trans (placerOnly_modQuad v q _), hcore⟩) (fun v q _ => quad_modQuad_self v q _)
    (fun v _ _ _ hr => quad_modQuad_ne v _ hr) ⟨.refl u, fun _ => rfl⟩ k

/-- A refresh changes the Placer alone: each core's record and each quadrant's. -/
theorem refreshed_records (s : State) (l : List Nat) :
    PlacerOnly s (refreshed s l) ∧
      (∀ n < 48, (refreshed s l).core n = busySampled (tempoRead s n (s.core n))) ∧
      ∀ q < 4, ((refreshed s l).quad q).dramLoad = min 255 (l.getD q 0) := by
  obtain ⟨htempo, hpt⟩ := core_temposRead s 48
  obtain ⟨hsample, hbusy⟩ := core_coresSampled (temposRead s 48) 48
  obtain ⟨⟨hload, hcore⟩, hquad⟩ := quad_loadsTaken s (coresSampled (temposRead s 48) 48) l 4
  refine ⟨(htempo.placerOnly.trans hsample.placerOnly).trans hload, fun n hn => ?_, fun q hq => ?_⟩
  · rw [refreshed, hcore, hbusy, if_pos hn, hpt, if_pos hn]
  · rw [refreshed, hquad, if_pos hq, loadTaken]

/-- What a refresh makes of a core's record (R180, R195). -/
theorem busySampled_tempoRead (s : State) (n : Nat) (c : CorePlace) :
    ((s.quad (n / 12)).parked = false → (s.quad (n / 12)).liveAt ≤ s.time.ns →
        (busySampled (tempoRead s n c)).pt = s.monTempo n * (s.unit n).lanes / 256 % 65536) ∧
      ((s.quad (n / 12)).parked = true → (busySampled (tempoRead s n c)).pt = c.pt) ∧
      (busySampled (tempoRead s n c)).busyLog = (c.busy :: c.busyLog).take 100 ∧
      (busySampled (tempoRead s n c)).slow = c.slow ∧ (busySampled (tempoRead s n c)).inside = c.inside ∧
      (busySampled (tempoRead s n c)).queue = c.queue := by
  unfold tempoRead
  split
  · rename_i hrests
    refine ⟨fun hpowered hlive => ?_, fun _ => rfl, rfl, rfl, rfl, rfl⟩
    exact absurd hrests (by simp [hpowered, hlive])
  · rename_i hruns
    exact ⟨fun _ _ => rfl, fun hparked => absurd (.inl hparked) hruns, rfl, rfl, rfl, rfl⟩

/-- A refresh in a calm part. -/
theorem exec_placerTempoRefresh {l : List Nat} {s : State} (hcalm : s.calm = true) :
    exec (.placerTempoRefresh l) s = .next (refreshed s l) := by
  have hexec : exec (.placerTempoRefresh l) s = act s (fun t => refreshed t l) := rfl
  obtain ⟨hframe, -⟩ := refreshed_records s l
  rw [hexec]
  exact act_quiet s (fun t => refreshed t l) (live_of_calm hcalm) (hframe.due.trans (due_of_calm hcalm))

/-! ### Slow cores -/

/-- A core's record with its slow flag set or cleared. -/
def slowSet (v : Bool) (c : CorePlace) : CorePlace := { c with slow := v }

/-- Under KEEP a core below the floor is marked slow, with a log record (R198, R199). -/
theorem exec_coreSlow_keep {n : Nat} {s : State} (hcalm : s.calm = true) (hn : n < 48) (hsteady : (s.core n).slow = false)
    (hlow : s.ratioOf n < fld (s.active 5 0x060) 15 0) (hkeep : (s.active 5 0x060).getLsbD 24 = false) :
    ∃ t, exec (.coreSlow n) s = .next t ∧ LogOnly (s.modPlace n (slowSet true)) t := by
  have hexec : exec (.coreSlow n) s = execCoreSlow n s := rfl
  have hlog : LogOnly (s.modPlace n (slowSet true)) ((s.modPlace n (slowSet true)).slowCond.log 0xFFFF 5
      (quadByte (n / 12) (n / 12)) (coreMask [n]) (min 255 (s.ratioOf n / 4)) 0) :=
    (logOnly_setCond _ 5 0 _).trans (logOnly_log _ ..)
  have hguard : ¬(48 ≤ n ∨ (s.core n).slow = true ∨ fld (s.active 5 0x060) 15 0 ≤ s.ratioOf n) := by
    rintro (h | h | h)
    · omega
    · simp [hsteady] at h
    · omega
  refine ⟨_, ?_, hlog⟩
  rw [hexec, execCoreSlow, act_live _ _ (live_of_calm hcalm)]
  dsimp only
  rw [if_neg hguard, if_neg (fun h => Bool.false_ne_true (hkeep.symm.trans h.1))]
  exact congrArg _ (State.settle_of_due _ (hlog.due.trans (due_of_calm hcalm)))

/-- A core that has recovered is slow no longer; without AUTO_RETURN nothing else happens (R198, R200). -/
theorem exec_slowClear {n : Nat} {s : State} (hcalm : s.calm = true) (hn : n < 48)
    (hhigh : fld (s.active 5 0x060) 15 0 + 0x20 ≤ s.ratioOf n) (hstays : (s.active 5 0x060).getLsbD 25 = false) :
    exec (.slowClear n) s = .next (s.modPlace n (slowSet false)).slowCond := by
  have hexec : exec (.slowClear n) s = execSlowClear n s := rfl
  rw [hexec, execSlowClear, act_live _ _ (live_of_calm hcalm)]
  dsimp only
  rw [if_neg (by omega), if_neg (fun h => Bool.false_ne_true (hstays.symm.trans h.1))]
  exact congrArg _ (State.settle_of_due _ (due_of_calm hcalm))

/-! ### Laggards -/

/-- A core that leaves the count of laggards changes nothing but the mode unit and its page (R385). -/
theorem dropLaggard_frame (s : State) (n : Nat) :
    s.dropLaggard n = { s with modes := (s.dropLaggard n).modes, pages := (s.dropLaggard n).pages } := by
  unfold State.dropLaggard State.setLaggards
  dsimp only
  split <;> rfl

/-- It leaves the epoch in force and the vectors (R385). -/
theorem modes_dropLaggard (s : State) (n : Nat) :
    (s.dropLaggard n).modes = { s.modes with
      laggards := s.modes.laggards &&& ~~~(1#48 <<< n), state := (s.dropLaggard n).modes.state } := by
  unfold State.dropLaggard State.setLaggards
  dsimp only
  split <;> rfl

theorem corePage_ne_six (n : Nat) : corePage n ≠ 6 := by
  unfold corePage
  omega

theorem corePage_injective {n m : Nat} (h : corePage n = corePage m) : n = m := by
  unfold corePage at h
  omega

/-- Every core's page keeps its header. -/
theorem page_dropLaggard_core (s : State) (n m : Nat) : (s.dropLaggard n).page (corePage m) = s.page (corePage m) :=
  page_setLaggards_ne s _ (corePage_ne_six m)

/-! ### QUADRANT_PARK -/

/-- The Placer's record of a core that was switched off, `lanes` its healthy lanes (R180, R196). -/
def switchedOff (lanes : Nat) (c : CorePlace) : CorePlace :=
  { c with lastStream := none, pt := if c.ran then c.pt else 0x400 * lanes / 256 }

/-- One core of quadrant q is switched off. -/
def parkStep (q : Nat) (u : State) (i : Nat) : State := (u.coreOff (12 * q + i)).dropLaggard (12 * q + i)

/-- The first k cores of quadrant q are switched off. -/
def switchOff (q : Nat) (s : State) (k : Nat) : State := (List.range k).foldl (parkStep q) s

/-- Switching cores off leaves all but the cores, the Placer, the mode unit and the pages. -/
def ParkFrame (s u : State) : Prop := u = { s with cores := u.cores, placer := u.placer, modes := u.modes, pages := u.pages }

theorem ParkFrame.refl (s : State) : ParkFrame s s := rfl

theorem ParkFrame.trans {s t u : State} (h : ParkFrame s t) (k : ParkFrame t u) : ParkFrame s u := by
  unfold ParkFrame at *
  rw [k, h]

theorem ParkFrame.due {s u : State} (h : ParkFrame s u) : u.due = s.due := by rw [h]

theorem ParkFrame.mem {s u : State} (h : ParkFrame s u) : u.mem = s.mem := by rw [h]

theorem ParkFrame.jobs {s u : State} (h : ParkFrame s u) : u.jobs = s.jobs := by rw [h]

theorem parkFrame_coreOff (s : State) (n : Nat) : ParkFrame s (s.coreOff n) := rfl

theorem parkFrame_dropLaggard (s : State) (n : Nat) : ParkFrame s (s.dropLaggard n) := by
  rw [ParkFrame, dropLaggard_frame]

theorem unit_coreOff_self (s : State) (n : Nat) : (s.coreOff n).unit n = { lanes := (s.unit n).lanes } :=
  unit_modUnit_self s n fun u => { lanes := u.lanes }

theorem core_coreOff_self (s : State) (n : Nat) : (s.coreOff n).core n = switchedOff (s.unit n).lanes (s.core n) :=
  core_modPlace_self ..

theorem unit_coreOff_ne (s : State) {n m : Nat} (h : m ≠ n) : (s.coreOff n).unit m = s.unit m :=
  unit_modUnit_ne s (fun u => { lanes := u.lanes }) h

theorem core_coreOff_ne (s : State) {n m : Nat} (h : m ≠ n) : (s.coreOff n).core m = s.core m := core_modPlace_ne _ _ h

theorem unit_parkStep (q : Nat) (u : State) (i m : Nat) : (parkStep q u i).unit m = (u.coreOff (12 * q + i)).unit m := by
  rw [parkStep, dropLaggard_frame]
  rfl

theorem core_parkStep (q : Nat) (u : State) (i m : Nat) : (parkStep q u i).core m = (u.coreOff (12 * q + i)).core m := by
  rw [parkStep, dropLaggard_frame]
  rfl

/-- The hardware and the record of each of the first k cores are those of a core switched off (R180, R196). -/
theorem switchOff_cores (q : Nat) (s : State) (k : Nat) :
    ParkFrame s (switchOff q s k) ∧
      ∀ i, ((switchOff q s k).unit (12 * q + i), (switchOff q s k).core (12 * q + i)) =
        if i < k then
          ({ lanes := (s.unit (12 * q + i)).lanes }, switchedOff (s.unit (12 * q + i)).lanes (s.core (12 * q + i)))
        else (s.unit (12 * q + i), s.core (12 * q + i)) := by
  refine foldl_range_records (P := ParkFrame s) (get := fun u i => (u.unit (12 * q + i), u.core (12 * q + i)))
    (f := fun _ x => ({ lanes := x.1.lanes }, switchedOff x.1.lanes x.2)) (s := s) (fun u i hu => ?keep) (fun u i _ => ?self)
    (fun u i m _ hm => ?other) (.refl s) k
  case keep => exact (hu.trans (parkFrame_coreOff u _)).trans (parkFrame_dropLaggard _ _)
  case self => rw [unit_parkStep, core_parkStep, unit_coreOff_self, core_coreOff_self]
  case other => rw [unit_parkStep, core_parkStep, unit_coreOff_ne u (by omega), core_coreOff_ne u (by omega)]

/-- A quadrant's record once it has parked. -/
def quadParked (p : QuadPlace) : QuadPlace := { p with parked := true, waking := false }

/-- A quadrant that may park does so, with its log record and event (R196). -/
theorem exec_quadrantPark {q : Nat} {s : State} (hcalm : s.calm = true) (hq : q < 4) (hmay : s.mayPark q = true) :
    ∃ t, exec (.quadrantPark q) s = .next t ∧ LogOnly ((switchOff q s 12).modQuad q quadParked) t := by
  have hexec : exec (.quadrantPark q) s = act s fun s => if 4 ≤ q ∨ !s.mayPark q then s else
    (((switchOff q s 12).modQuad q quadParked).log 0xFFFF 8 (quadByte 15 q) 0 0 0).raiseEvt 5 5 := rfl
  have hlog : LogOnly ((switchOff q s 12).modQuad q quadParked)
      ((((switchOff q s 12).modQuad q quadParked).log 0xFFFF 8 (quadByte 15 q) 0 0 0).raiseEvt 5 5) :=
    (logOnly_log _ ..).trans (logOnly_raiseEvt _ 5 5)
  obtain ⟨hframe, -⟩ := switchOff_cores q s 12
  have hdue : ((switchOff q s 12).modQuad q quadParked).due = [] := by
    rw [modQuad_due, hframe.due, due_of_calm hcalm]
  refine ⟨_, ?_, hlog⟩
  rw [hexec, act_live _ _ (live_of_calm hcalm), if_neg (by simp [hmay, hq]),
    State.settle_of_due _ (hlog.due.trans hdue)]

/-! ### QUADRANT_POWER_UP -/

/-- A page without a pending group hands nothing over (R79). -/
theorem handAll_of_no_groups {s : State} {p : Nat} (h : (s.page p).groups = 0) : s.handAll p = s := by
  refine List.foldlRecOn (motive := fun t => t = s) _ _ rfl fun t ht g _ => ?_
  rw [ht, h]
  simp

/-- A core applies the epoch in force: beside its record, its page and the mode unit nothing changes (R385). -/
theorem applyEpoch_frame (s : State) (n : Nat) :
    s.applyEpoch n = { s with
      placer := { s.placer with cores := (s.applyEpoch n).placer.cores }, modes := (s.applyEpoch n).modes
      pages := (s.applyEpoch n).pages } := by
  unfold State.applyEpoch
  dsimp only
  split
  · rw [dropLaggard_frame]
  · rw [dropLaggard_frame]
    rfl

theorem modes_applyEpoch (s : State) (n : Nat) :
    (s.applyEpoch n).modes = { s.modes with
      laggards := s.modes.laggards &&& ~~~(1#48 <<< n), state := (s.applyEpoch n).modes.state } := by
  unfold State.applyEpoch
  dsimp only
  split <;> exact modes_dropLaggard ..

/-- The core's page shows the epoch in force (R385). -/
theorem page_applyEpoch_self (s : State) (n : Nat) :
    (s.applyEpoch n).page (corePage n) = { s.page (corePage n) with epoch := s.modes.current } := by
  unfold State.applyEpoch
  dsimp only
  split
  · rename_i hsame
    rw [page_dropLaggard_core, ← hsame]
    rfl
  · rw [page_dropLaggard_core, page_modPage_self]
    rfl

theorem page_applyEpoch_ne (s : State) {n m : Nat} (h : m ≠ n) :
    (s.applyEpoch n).page (corePage m) = s.page (corePage m) := by
  unfold State.applyEpoch
  dsimp only
  split
  · rw [page_dropLaggard_core]
  · rw [page_dropLaggard_core, page_modPage_ne _ _ fun heq => h (corePage_injective heq)]
    rfl

/-- The verdict under which every core of the quadrant passes. -/
def allPass : SelfTest := { ok := true, cores := [] }

theorem coreWoken_allPass (s : State) (n : Nat) :
    s.coreWoken n allPass = if (s.page (corePage n)).state = .fenced then s else s.applyEpoch n := rfl

/-- The first k cores of quadrant q wake. -/
def wake (q : Nat) (s : State) (k : Nat) : State := (List.range k).foldl (fun u i => u.coreWoken (12 * q + i) allPass) s

/-- Waking cores leaves all but their records, the mode unit and the pages; the epoch in force stands. -/
structure WakeFrame (s u : State) : Prop where
  frame : u = { s with placer := { s.placer with cores := u.placer.cores }, modes := u.modes, pages := u.pages }
  current : u.modes.current = s.modes.current

theorem WakeFrame.refl (s : State) : WakeFrame s s := ⟨rfl, rfl⟩

theorem WakeFrame.trans {s t u : State} (h : WakeFrame s t) (k : WakeFrame t u) : WakeFrame s u := by
  refine ⟨?_, k.current.trans h.current⟩
  rw [k.frame, h.frame]

theorem WakeFrame.due {s u : State} (h : WakeFrame s u) : u.due = s.due := by rw [h.frame]

theorem WakeFrame.mem {s u : State} (h : WakeFrame s u) : u.mem = s.mem := by rw [h.frame]

theorem WakeFrame.jobs {s u : State} (h : WakeFrame s u) : u.jobs = s.jobs := by rw [h.frame]

theorem WakeFrame.quad {s u : State} (h : WakeFrame s u) (q : Nat) : u.quad q = s.quad q := by
  rw [h.frame]
  rfl

theorem wakeFrame_applyEpoch (s : State) (n : Nat) : WakeFrame s (s.applyEpoch n) :=
  ⟨applyEpoch_frame s n, by rw [modes_applyEpoch]⟩

/-- A core's page once the core has woken: a fenced core stays as it was. -/
def wokenPage (epoch : Nat) (g : Page) : Page := if g.state = .fenced then g else { g with epoch := epoch }

theorem epoch_wokenPage {g : Page} (h : g.state ≠ .fenced) (epoch : Nat) : (wokenPage epoch g).epoch = epoch := by
  rw [wokenPage, if_neg h]

/-- Every core of the first k that is not fenced shows the epoch in force (R385). -/
theorem wake_pages (q : Nat) (s : State) (k : Nat) :
    WakeFrame s (wake q s k) ∧
      ∀ i, (wake q s k).page (corePage (12 * q + i)) =
        if i < k then wokenPage s.modes.current (s.page (corePage (12 * q + i))) else s.page (corePage (12 * q + i)) := by
  refine foldl_range_records (P := WakeFrame s) (get := fun u i => u.page (corePage (12 * q + i)))
    (f := fun _ => wokenPage s.modes.current) (s := s) (fun u i hu => ?keep) (fun u i hu => ?self)
    (fun u i m _ hm => ?other) (.refl s) k
  case keep =>
    rw [coreWoken_allPass]
    split
    · exact hu
    · exact hu.trans (wakeFrame_applyEpoch u _)
  case self =>
    rw [coreWoken_allPass, wokenPage]
    split
    · rfl
    · rw [page_applyEpoch_self, hu.current]
  case other =>
    rw [coreWoken_allPass]
    split
    · rfl
    · exact page_applyEpoch_ne u (by omega)

/-- The quadrant's record at its power-up at time `ns` (R180, R197). -/
def quadLive (ns : Nat) (p : QuadPlace) : QuadPlace := { p with parked := false, waking := false, liveAt := ns + 100000 }

/-- The pending commits of the first k cores of quadrant q and of their channels hand over (R79). -/
def handCores (q : Nat) (s : State) (k : Nat) : State :=
  (List.range k).foldl (fun u i => (u.handAll (corePage (12 * q + i))).handAll (cdmaPage (12 * q + i))) s

theorem handCores_of_no_groups {q k : Nat} {s : State}
    (h : ∀ i < k, (s.page (corePage (12 * q + i))).groups = 0 ∧ (s.page (cdmaPage (12 * q + i))).groups = 0) :
    handCores q s k = s := by
  refine List.foldlRecOn (motive := fun u => u = s) _ _ rfl fun u hu i hi => ?_
  obtain ⟨hcore, hdma⟩ := h i (List.mem_range.mp hi)
  rw [hu, handAll_of_no_groups hcore, handAll_of_no_groups hdma]

/-- A quadrant without pending commits powers up: its cores wake (R79, R197). -/
theorem exec_quadrantPowerUp {q : Nat} {s : State} (hcalm : s.calm = true) (hq : q < 4) (hparked : (s.quad q).parked = true)
    (hwaking : (s.quad q).waking = true)
    (hgroups : ∀ i < 12, (s.page (corePage (12 * q + i))).groups = 0 ∧ (s.page (cdmaPage (12 * q + i))).groups = 0) :
    exec (.quadrantPowerUp q allPass) s = .next (wake q (s.modQuad q (quadLive s.time.ns)) 12) := by
  have hexec : exec (.quadrantPowerUp q allPass) s = act s fun s => if 4 ≤ q ∨ !(s.quad q).parked ∨ !(s.quad q).waking then s
    else wake q (handCores q (s.modQuad q (quadLive s.time.ns)) 12) 12 := rfl
  have hhand : handCores q (s.modQuad q (quadLive s.time.ns)) 12 = s.modQuad q (quadLive s.time.ns) :=
    handCores_of_no_groups hgroups
  obtain ⟨hframe, -⟩ := wake_pages q (s.modQuad q (quadLive s.time.ns)) 12
  have hdue : (wake q (s.modQuad q (quadLive s.time.ns)) 12).due = [] := by
    rw [hframe.due, modQuad_due, due_of_calm hcalm]
  rw [hexec, act_live _ _ (live_of_calm hcalm), if_neg (by simp [hparked, hwaking, hq]), hhand, State.settle_of_due _ hdue]

end Sys2Proof.Placement
end

section
/-!
PROOF. The Placer's rows together (R180, R194 to R200, R203, R206, R385).
-/
namespace Sys2Proof.Placement

open Sys2Proof.Machine Sys2Proof.SelfTimed Sys2Proof.RegisterPages

/-- Settles O53, row by row: each outcome is named by an `exec_` lemma, and what it leaves is read off that state. -/
theorem placerRows : Obligations.PlacerRows := by
  unfold Obligations.PlacerRows
  refine ⟨?start, fun n q b r s => exec_rehomeAllocate, ?done, ?homeless, ?again, ?request, ?refresh, ?slow, ?clear, ?park,
    ?powerUp⟩
  case start =>
    intro n c q s hcalm hopen hhome hnone hcause
    obtain ⟨t, hexec, hmem, hjobs, hself, hothers⟩ := exec_rehomeStart hcalm hopen hhome hnone hcause
    exact ⟨t, hexec, hmem, hjobs, hself.trans (rehoming_of_home hhome c q), hothers⟩
  case done =>
    intro n r s hcalm hrehome hstarted htakes
    obtain ⟨hself, hjobs, hothers, hmem⟩ :=
      moveHome_moves s n (s.stream n) r (r.rebuild || s.unreadable (s.stream n).home)
    obtain ⟨hhome, hbase, hended, hmigrate⟩ :=
      rehomed_home s (s.stream n) r (r.rebuild || s.unreadable (s.stream n).home)
    refine ⟨_, exec_rehomeDone hcalm hrehome hstarted htakes, by rw [hself, hhome], by rw [hself, hbase],
      by rw [hself, hended], by rw [hself, hmigrate], hjobs, hothers, fun hreadable => ?_, fun hlost => ?_⟩
    · rw [hreadable] at hself hmem ⊢
      exact ⟨by rw [hself]; rfl, hmem⟩
    · rw [hlost] at hself hmem ⊢
      exact ⟨hmem, by rw [hself]; exact slots_rehomed_rebuilt s _ r⟩
  case homeless =>
    intro n q s hcalm hhomeless hopen hnone htarget
    obtain ⟨t, hexec, hmem, hjobs, hself, -⟩ := exec_rehomeRetry_homeless hcalm hhomeless hopen hnone htarget
    exact ⟨t, hexec, hmem, hjobs, hself⟩
  case again =>
    intro n c q s hcalm hhome hopen hnone hagain haway
    obtain ⟨t, hexec, hmem, hjobs, hself, -⟩ := exec_rehomeRetry_again hcalm hhome hopen hnone hagain haway
    exact ⟨t, hexec, hmem, hjobs, hself.trans (rehoming_of_home hhome c q)⟩
  case request =>
    intro v s hears hhigh hmid hopened hnone haway hqualifies
    obtain ⟨t, hexec, hmem, hjobs, hself⟩ :=
      exec_rehomeReq hears (rehomeReq_clear hhigh hmid) hopened hnone haway hqualifies
    exact ⟨t, hexec, hmem, hjobs, by rw [hself]; rfl⟩
  case refresh =>
    intro l s hcalm
    obtain ⟨hframe, hcores, hloads⟩ := refreshed_records s l
    refine ⟨_, exec_placerTempoRefresh hcalm, hframe, fun n hn => ?_, fun n hn => ?_, fun n hn => ?_, hloads⟩
    all_goals
      rw [hcores n hn]
      obtain ⟨hread, hheld, hrest⟩ := busySampled_tempoRead s n (s.core n)
    · exact hread
    · exact hheld
    · exact hrest
  case slow =>
    intro n s hcalm hn hsteady hlow _ _ hkeep
    obtain ⟨t, hexec, hlog⟩ := exec_coreSlow_keep hcalm hn hsteady hlow hkeep
    exact ⟨t, hexec, by rw [hlog.core, core_modPlace_self, slowSet], hlog.jobs, hlog.pageState _⟩
  case clear =>
    intro n s hcalm hn _ hhigh hstays
    refine ⟨_, exec_slowClear hcalm hn hhigh hstays, rfl, ?_⟩
    rw [State.slowCond, (logOnly_setCond ..).core, core_modPlace_self, slowSet]
  case park =>
    intro q s hcalm hq hmay
    obtain ⟨t, hexec, hlog⟩ := exec_quadrantPark hcalm hq hmay
    obtain ⟨hframe, hcores⟩ := switchOff_cores q s 12
    refine ⟨t, hexec, by rw [hlog.quad, quad_modQuad_self, quadParked], ?_, ?_, fun i hi => ?_⟩
    · rw [hlog.mem, modQuad_mem, hframe.mem]
    · rw [hlog.jobs, modQuad_jobs, hframe.jobs]
    · obtain ⟨hunit, hcore⟩ := Prod.mk.inj ((hcores i).trans (if_pos hi))
      rw [hlog.unit, hlog.core, modQuad_unit, modQuad_core, hunit, hcore]
      exact ⟨rfl, rfl⟩
  case powerUp =>
    intro q s hcalm hq hparked hwaking hgroups
    obtain ⟨hframe, hpages⟩ := wake_pages q (s.modQuad q (quadLive s.time.ns)) 12
    have hquad : (wake q (s.modQuad q (quadLive s.time.ns)) 12).quad q = quadLive s.time.ns (s.quad q) := by
      rw [hframe.quad, quad_modQuad_self]
    refine ⟨_, exec_quadrantPowerUp hcalm hq hparked hwaking hgroups, by rw [hquad, quadLive], by rw [hquad, quadLive],
      by rw [hquad, quadLive], by rw [hframe.jobs, modQuad_jobs], by rw [hframe.mem, modQuad_mem], fun i hi hserves => ?_⟩
    rw [hpages, if_pos hi]
    exact epoch_wokenPage hserves _

end Sys2Proof.Placement
end

section
/-!
PROOF. The mode and personality rows (R313 to R321, R373 to R390): the statement fails.

VALIDATOR_TIMEOUT of a STREAM_PARAMS says that device memory stands. The refusal discards the job (R139), and that stops every DMA
channel that the job started (R36, R452). A running channel that owns its buffer releases it when it stops (R445, R457), which writes
the buffer's owner record in device memory (R443). The row asks that the job holds neither cores, buffers, windows nor references;
it does not ask that no channel runs for it.
-/
namespace Sys2Proof.Placement

open Sys2Proof.Machine Sys2Proof.SelfTimed

/-! ### The refusal -/

/-- The read of a mode block changes nothing but the PCIe function and the trace (R99). -/
theorem askBlock_linkOnly (s : State) (x : Job) :
    s.askBlock x = { s with pcie := (s.askBlock x).pcie, out := (s.askBlock x).out } := by
  unfold State.askBlock State.askTagged
  split
  · split
    · rfl
    · exact State.hostAsk_linkOnly s _ _ _
  · rfl

/-- A STREAM_PARAMS whose mode no other rule refuses is refused with 0x0006 (R319). -/
theorem validatorTimeout_params {s : State} {j n : Nat} {x : Job} {h : Option (List Byte)} {l : List Byte}
    (hop : s.opJob j x n 0x03 = true) (hheld : s.blockHeld x = false) (hblock : s.modeBlock x h = .ok l)
    (hcheck : (s.checkParams x n l 0x0006).2 = 0x0006) :
    s.validatorTimeout j h = (s.askBlock x).refuse j (0x31, 0x0006) := by
  simp only [State.opJob, Bool.and_eq_true, beq_iff_eq, Bool.not_eq_true', Option.isNone_iff_eq_none, Bool.or_eq_true] at hop
  obtain ⟨⟨⟨⟨⟨⟨⟨⟨⟨⟨⟨⟨hjob, hstream⟩, hopcode⟩, hphase⟩, hstarted⟩, hturn⟩, hstate⟩, hhome⟩, -⟩, -⟩, -⟩, -⟩, -⟩ := hop
  have hhomed : (s.stream n).homeless = false := hhome.resolve_left (by decide)
  have hblock' : (s.askBlock x).modeBlock x h = .ok l := by
    rw [askBlock_linkOnly]
    exact hblock
  have hcheck' : ((s.askBlock x).checkParams x n l 0x0006).2 = 0x0006 := by
    rw [askBlock_linkOnly]
    exact hcheck
  simp [State.validatorTimeout, State.runParams, State.opStart, hjob, hstream, hopcode, hphase, hturn, hhomed, hstarted, hstate,
    hheld, hblock', hcheck']

/-! ### The counterexample -/

/-- An image that decodes profile 1 in 4:2:0 of 8 bits. -/
def plainImage : PersEntry where
  id := 3
  flags := 1
  unsigned := false
  progBase := 0
  progWords := 8
  tabBase := 0
  tabWords := 8
  params :=
    { marginEnc := 8, marginDec := 8, vsr := [], ctuOf := [], defRefs := [], defLook := [], refLimit := 4, qpMax := 51, lag := 0
      lookRate := 0, chEnc := [], chDec := [], entries := [], limitEntry := 0, ctus := [], rates := []
      profiles := [{ code := 1, enc := false, dec := true, chromas := [1], depths := [8] }], levels := [] }

/-- A decode stream of 16 by 16 pixels, in 4:2:0 of 8 bits and profile 1. -/
def plainStream : Stream where
  state := .opened
  mode := [16, 16, 1, 8, 1, 0, 0, 1, 1] ++ List.replicate 34 0 ++ [16]
  k := 1

/-- A STREAM_PARAMS of stream 1 whose turn has come; its mode block lies at host address 0x1000. -/
def paramsJob : Job where
  queue := 0
  seq := 0
  epoch := 0
  body := leBytes 1 3 ++ List.replicate 15 0 ++ leBytes 4 256 ++ List.replicate 28 0 ++ leBytes 8 0x1000
  phase := .waiting
  stream := some 1

/-- A mode block of version 1 that changes no field. -/
def emptyBlock : List Byte := leBytes 2 1 ++ List.replicate 254 0

/-- The descriptor of a write to buffer 1 of pool 15. -/
def bufferWrite : Desc where
  addr := 0
  src := 0
  dst := 0
  len := 64
  ctrl := 0
  next := 0
  handle := mkHandle 15 1 1
  clq := 0
  tag := 0
  pitch := 0
  status := 0

/-- A part that is READY, with host memory in reach, whose DMA channel 0 runs for job 32 and owns buffer 1 of pool 15 beside the
host. The owner table of the pool lies at 0x100. -/
def channelRuns : State where
  power := { powered := true, perstHigh := true }
  boot := { state := .ready }
  pcie := { linkUp := true, bme := true }
  regs := [(regKey 9 0xA28, 1), (regKey 9 0xA2C, 2)]
  bpm := { pools := [(15, { state := .enabled, owned := 1 })] }
  mem := [(0x108, 5), (0x109, 1)]
  dma := { chans := [(0, { state := .running, job := some 32, desc := some bufferWrite, total := 64, owns := true })] }
  pers := { dir := [(0, plainImage)] }
  jobs := [(32, paramsJob)]
  streams := [(1, plainStream)]

/-- The job meets every premise of the row for STREAM_PARAMS. -/
theorem channelRuns_meets_premises :
    channelRuns.calm = true ∧ channelRuns.opJob 32 paramsJob 1 0x03 = true ∧ channelRuns.blockHeld paramsJob = false ∧
      channelRuns.modeBlock paramsJob (some emptyBlock) = .ok emptyBlock ∧
      (channelRuns.checkParams paramsJob 1 emptyBlock 0x0006).2 = 0x0006 := by decide +kernel

/-- The part once the job is refused. -/
def channelStopped : State := (channelRuns.askBlock paramsJob).refuse 32 (0x31, 0x0006)

/-- The job ends as the row says, with no fault waiting; but the owner record of buffer 1 names the host alone. -/
theorem channelStopped_outcome :
    channelStopped.due = [] ∧
      (channelStopped.job 32).map (fun y => (y.phase, y.status, y.detail)) = some (.retired, 0x31, 0x0006) ∧
      memByte channelRuns.mem 0x108 = 5 ∧ memByte channelStopped.mem 0x108 = 1 := by decide +kernel

/-- Refutes O55: VALIDATOR_TIMEOUT of job 32 in `channelRuns` changes the byte of device memory at 0x108. -/
theorem not_modeAndPersonalityRows : ¬ Obligations.ModeAndPersonalityRows := by
  unfold Obligations.ModeAndPersonalityRows
  rintro ⟨-, -, -, -, -, -, -, -, paramsRow, -⟩
  obtain ⟨hcalm, hop, hheld, hblock, hcheck⟩ := channelRuns_meets_premises
  obtain ⟨hdue, -, hbefore, hafter⟩ := channelStopped_outcome
  obtain ⟨t, ht, hmem, -⟩ := paramsRow 32 1 (some emptyBlock) emptyBlock paramsJob channelRuns hcalm hop hheld hblock hcheck
  have htimeout : channelRuns.validatorTimeout 32 (some emptyBlock) = channelStopped :=
    validatorTimeout_params hop hheld hblock hcheck
  have hexec : exec (.validatorTimeout (some 32) (some emptyBlock)) channelRuns = .next channelStopped := by
    rw [← htimeout] at hdue ⊢
    exact act_quiet channelRuns (fun s => s.validatorTimeout 32 (some emptyBlock)) (live_of_calm hcalm) hdue
  rw [hexec] at ht
  obtain rfl : channelStopped = t := Host.Outcome.next.inj ht
  rw [hmem, hbefore] at hafter
  exact absurd hafter (by decide)

end Sys2Proof.Placement
end

section
/-!
SUPPORT. Rules for the instructions of a sequencer: what counting the instruction and going on to the next one leave as they were,
what the reads of registers and block registers return after each write, and the outcome of a block instruction that completes
(R233, R237, R242, R358).
-/
namespace Sys2Proof.CodingPipeline

open Sys2Proof.Machine Sys2Proof.SelfTimed

/-! ### Changes of the cores alone -/

/-- Nothing of t differs from s but the cores. -/
structure UnitsOnly (s t : State) : Prop where
  frame : t = { s with cores := t.cores }

theorem UnitsOnly.refl (s : State) : UnitsOnly s s := ⟨rfl⟩

theorem UnitsOnly.modUnit {s t : State} (h : UnitsOnly s t) (n : Nat) (f : Core → Core) : UnitsOnly s (t.modUnit n f) := by
  constructor
  rw [State.modUnit, h.frame]

theorem UnitsOnly.modSeq {s t : State} (h : UnitsOnly s t) (n q : Nat) (f : Seq → Seq) : UnitsOnly s (t.modSeq n q f) := by
  rw [State.modSeq]
  exact h.modUnit n _

theorem UnitsOnly.modBlk {s t : State} (h : UnitsOnly s t) (n b : Nat) (f : Block → Block) : UnitsOnly s (t.modBlk n b f) := by
  rw [State.modBlk]
  exact h.modUnit n _

theorem UnitsOnly.advance {s t : State} (h : UnitsOnly s t) (n q : Nat) : UnitsOnly s (t.advance n q) := by
  rw [State.advance]
  exact h.modSeq n q _

theorem UnitsOnly.setV {s t : State} (h : UnitsOnly s t) (n q v : Nat) (g : BitVec 256) (f : Nat → Int) :
    UnitsOnly s (t.setV n q v g f) := by
  rw [State.setV]
  exact h.modSeq n q _

theorem UnitsOnly.setB {s t : State} (h : UnitsOnly s t) (n b w z : Nat) (f : Nat → Nat → Int) : UnitsOnly s (t.setB n b w z f) := by
  rw [State.setB]
  exact h.modBlk n b _

theorem UnitsOnly.due {s t : State} (h : UnitsOnly s t) : t.due = s.due := by rw [h.frame]

theorem UnitsOnly.mem {s t : State} (h : UnitsOnly s t) : t.mem = s.mem := by rw [h.frame]

theorem UnitsOnly.regs {s t : State} (h : UnitsOnly s t) : t.regs = s.regs := by rw [h.frame]

theorem unitsOnly_counted (s : State) (n q : Nat) (c : Instr) : UnitsOnly s (s.counted n q c) := by
  unfold State.counted
  split
  · exact .refl s
  · exact (UnitsOnly.refl s).modSeq n q _

/-- Counting an instruction changes nothing but the cores. -/
theorem counted_frame (s : State) (n q : Nat) (c : Instr) :
    s.counted n q c = { s with cores := (s.counted n q c).cores } := (unitsOnly_counted s n q c).frame

/-! ### Reads after writes of a core -/

section
variable (s : State) (n q b : Nat)

@[simp] theorem seq_modSeq (f : Seq → Seq) : (s.modSeq n q f).seq n q = f (s.seq n q) := by
  simp [State.seq, State.modSeq]

@[simp] theorem blk_modSeq (f : Seq → Seq) : (s.modSeq n q f).blk n b = s.blk n b := by
  simp [State.blk, State.modSeq]

@[simp] theorem blk_modBlk (f : Block → Block) : (s.modBlk n b f).blk n b = f (s.blk n b) := by
  simp [State.blk, State.modBlk]

@[simp] theorem belem_modSeq (f : Seq → Seq) (x y : Nat) : (s.modSeq n q f).belem n b x y = s.belem n b x y := by
  simp [State.belem]

@[simp] theorem mem_advance : (s.advance n q).mem = s.mem := rfl

@[simp] theorem regs_advance : (s.advance n q).regs = s.regs := rfl

@[simp] theorem belem_advance (x y : Nat) : (s.advance n q).belem n b x y = s.belem n b x y := belem_modSeq ..

@[simp] theorem velem_advance (v e : Nat) : ((s.advance n q).seq n q).velem v e = (s.seq n q).velem v e := by
  simp [State.advance, Seq.velem]

end

/-! ### What a counted instruction reads -/

section
variable (s : State) (n q : Nat) (c : Instr)

/-- A counted instruction differs from the one before in its step count at most. -/
theorem seq_counted : ∃ k, (s.counted n q c).seq n q = { s.seq n q with steps := k } := by
  unfold State.counted
  split
  · exact ⟨_, rfl⟩
  · exact ⟨_, seq_modSeq ..⟩

@[simp] theorem job_counted : ((s.counted n q c).seq n q).job = (s.seq n q).job := by
  obtain ⟨k, hk⟩ := seq_counted s n q c
  rw [hk]

@[simp] theorem sreg_counted (r : Nat) : ((s.counted n q c).seq n q).sreg r = (s.seq n q).sreg r := by
  obtain ⟨k, hk⟩ := seq_counted s n q c
  rw [hk]
  rfl

@[simp] theorem velem_counted (v e : Nat) : ((s.counted n q c).seq n q).velem v e = (s.seq n q).velem v e := by
  obtain ⟨k, hk⟩ := seq_counted s n q c
  rw [hk]
  rfl

@[simp] theorem sint_counted (r : Nat) : (s.counted n q c).sint n q r = s.sint n q r := by simp [State.sint]

@[simp] theorem blk_counted (b : Nat) : (s.counted n q c).blk n b = s.blk n b := by
  unfold State.counted
  split
  · rfl
  · exact blk_modSeq ..

@[simp] theorem belem_counted (b x y : Nat) : (s.counted n q c).belem n b x y = s.belem n b x y := by
  simp [State.belem]

@[simp] theorem owned_counted (bs : List Nat) : (s.counted n q c).owned n q bs = s.owned n q bs := by
  simp [State.owned]

@[simp] theorem seqJob_counted : (s.counted n q c).seqJob n q = s.seqJob n q := by
  have hjobs (j : Nat) : (s.counted n q c).job j = s.job j := by rw [counted_frame]; rfl
  simp [State.seqJob, hjobs]

@[simp] theorem mem_counted : (s.counted n q c).mem = s.mem := (unitsOnly_counted s n q c).mem

@[simp] theorem free_counted : (s.counted n q c).free = s.free := by rw [counted_frame]

@[simp] theorem due_counted : (s.counted n q c).due = s.due := (unitsOnly_counted s n q c).due

@[simp] theorem stream_counted (m : Nat) : (s.counted n q c).stream m = s.stream m := by
  rw [counted_frame]
  rfl

@[simp] theorem surf_counted (x : Job) (m : Nat) (w : Word) : (s.counted n q c).surf x m w = s.surf x m w := by
  rw [counted_frame]
  rfl

@[simp] theorem blockStop_counted (j : Nat) (x : Job) (m : Nat) (f : Surf) (l : List Host.Cell) (pl : Nat) (ox oy : Int) (w h : Nat) :
    (s.counted n q c).blockStop j x m f l pl ox oy w h = s.blockStop j x m f l pl ox oy w h := by
  rw [counted_frame]
  rfl

@[simp] theorem surfSample_counted (x : Job) (m : Nat) (f : Surf) (pl : Nat) (l : List Host.Cell) (ox oy : Int) (dx dy : Nat) :
    (s.counted n q c).surfSample x m f pl l ox oy dx dy = s.surfSample x m f pl l ox oy dx dy := by
  rw [counted_frame]
  rfl

@[simp] theorem writeOk_counted : (s.counted n q c).writeOk = s.writeOk := by
  rw [counted_frame]
  rfl

@[simp] theorem surfBad_counted (x : Job) (m : Nat) (f : Surf) (ok : Nat → Bool) (l : List Host.Cell) (pl : Nat) (ox oy : Int)
    (w h : Nat) : (s.counted n q c).surfBad x m f ok l pl ox oy w h = s.surfBad x m f ok l pl ox oy w h := by
  rw [counted_frame]
  rfl

end

/-! ### Elements -/

/-- An element's own value is kept exactly. -/
@[simp] theorem elem_toInt (v : Elem) : elem v.toInt = v := BitVec.ofInt_toInt

theorem toInt_elem_belem (s : State) (n b x y : Nat) : (elem (s.belem n b x y)).toInt = s.belem n b x y := by
  rw [State.belem, elem_toInt]

theorem toInt_elem_velem (x : Seq) (v e : Nat) : (elem (x.velem v e)).toInt = x.velem v e := by
  rw [Seq.velem, elem_toInt]

theorem elem_natCast (k : Nat) : elem (k : Int) = BitVec.ofNat 24 k := BitVec.ofInt_natCast ..

/-- The saturated value fits an element (R243). -/
theorem toInt_elem_sat24 (k : Int) : (elem (sat24 k)).toInt = sat24 k := by
  rw [elem, BitVec.toInt_ofInt]
  unfold sat24
  exact Int.bmod_eq_of_le (by omega) (by omega)

/-! ### Writes of vector and block registers -/

/-- Every element whose guard bit is set takes its value (R242). -/
theorem velem_setV_all (s : State) (n q v : Nat) (f : Nat → Int) {e : Nat} (he : e < 256) :
    ((s.setV n q v (BitVec.allOnes 256) f).seq n q).velem v e = (elem (f e)).toInt := by
  have hread : ((List.range 256).map fun k => if (BitVec.allOnes 256).getLsbD k = true then elem (f k)
      else (mgetD (s.seq n q).v v []).getD k 0).getD e 0 = elem (f e) := by
    rw [List.getD_eq_getElem?_getD, List.getElem?_map, List.getElem?_range he, Option.map_some, Option.getD_some,
      BitVec.getLsbD_allOnes, decide_eq_true he, if_pos rfl]
  rw [State.setV, seq_modSeq, Seq.velem, mgetD_mset_self, hread]

/-- A fold of writes leaves a key that none of them names. -/
theorem mgetD_foldl_mset_of_ne {α : Type} (key : Nat → Nat) (val : Nat → α) (k : Nat) (d : α) (l : List Nat) (m : Map α)
    (h : ∀ e ∈ l, key e ≠ k) : mgetD (l.foldl (fun m e => mset m (key e) (val e)) m) k d = mgetD m k d := by
  induction l generalizing m with
  | nil => rfl
  | cons e l ih =>
    obtain ⟨he, hl⟩ := List.forall_mem_cons.mp h
    rw [List.foldl_cons, ih _ hl, mgetD_mset_ne _ _ _ he.symm]

/-- A fold of writes that agree on a key leaves their value at it. -/
theorem mgetD_foldl_mset_of_mem {α : Type} (key : Nat → Nat) (val : Nat → α) {k : Nat} {v : α} (d : α) (l : List Nat) (m : Map α)
    (hmem : ∃ e ∈ l, key e = k) (hval : ∀ e ∈ l, key e = k → val e = v) :
    mgetD (l.foldl (fun m e => mset m (key e) (val e)) m) k d = v := by
  induction l generalizing m with
  | nil => simp at hmem
  | cons e l ih =>
    obtain ⟨he, hl⟩ := List.forall_mem_cons.mp hval
    rw [List.foldl_cons]
    by_cases hlater : ∃ e ∈ l, key e = k
    · exact ih _ hlater hl
    · have hkey : key e = k := by
        obtain ⟨e', he', hk⟩ := hmem
        rcases List.mem_cons.mp he' with rfl | he'
        · exact hk
        · exact absurd ⟨e', he', hk⟩ hlater
      rw [mgetD_foldl_mset_of_ne _ _ _ _ _ _ fun e' he' hk => hlater ⟨e', he', hk⟩, hkey, mgetD_mset_self, he hkey]

/-- The w by h elements of a block from column ox and row oy on, written row by row, change those elements and no other. -/
theorem mgetD_writeRect {α : Type} (val : Nat → α) (d : α) (m : Map α) {w h ox oy x y : Nat} (hfit : ox + w ≤ 64) (hx : x < 64) :
    mgetD ((List.range (w * h)).foldl (fun m e => mset m (64 * (oy + e / w) + ox + e % w) (val e)) m) (64 * y + x) d =
      if ox ≤ x ∧ x < ox + w ∧ oy ≤ y ∧ y < oy + h then val (w * (y - oy) + (x - ox)) else mgetD m (64 * y + x) d := by
  have hkey {e : Nat} (he : e < w * h) : e / w < h ∧ e % w < w :=
    ⟨Nat.div_lt_of_lt_mul he, Nat.mod_lt _ (Nat.pos_of_lt_mul_right he)⟩
  split
  case isTrue hin =>
    obtain ⟨hx0, hx1, hy0, hy1⟩ := hin
    have hcol : (w * (y - oy) + (x - ox)) % w = x - ox := by rw [Nat.mul_add_mod, Nat.mod_eq_of_lt (by omega)]
    have hrow : (w * (y - oy) + (x - ox)) / w = y - oy := by
      rw [Nat.mul_add_div (by omega), Nat.div_eq_of_lt (by omega), Nat.add_zero]
    refine mgetD_foldl_mset_of_mem _ _ d _ m ⟨w * (y - oy) + (x - ox), List.mem_range.mpr ?_, by rw [hcol, hrow]; omega⟩
      fun e he hk => ?_
    · calc w * (y - oy) + (x - ox) < w * (y - oy) + w := by omega
        _ = w * (y - oy + 1) := (Nat.mul_succ ..).symm
        _ ≤ w * h := Nat.mul_le_mul_left w (by omega)
    · obtain ⟨-, hmod⟩ := hkey (List.mem_range.mp he)
      obtain ⟨hdiv, hcolumn⟩ : e / w = y - oy ∧ e % w = x - ox := by omega
      rw [← Nat.div_add_mod e w, hdiv, hcolumn]
  case isFalse hout =>
    refine mgetD_foldl_mset_of_ne _ _ _ d _ m fun e he hk => hout ?_
    obtain ⟨hdiv, hmod⟩ := hkey (List.mem_range.mp he)
    generalize e / w = row, e % w = col at hk hdiv hmod
    omega

/-- A shape is at most 64 wide (R241). -/
theorem width_le_of_kShape {x : Word} {w h : Nat} (hshape : kShape x = some (w, h)) : w ≤ 64 := by
  have hsize {c z : Nat} (hz : shapeOf c = some z) : z ≤ 64 := by
    obtain ⟨hc, hz⟩ := Option.ite_none_right_eq_some.mp hz
    obtain rfl := Option.some.inj hz
    have hpow : 2 ^ c ≤ 2 ^ 4 := Nat.pow_le_pow_right (by decide) (by omega)
    omega
  unfold kShape at hshape
  split at hshape
  next w' h' hw hh =>
    obtain ⟨rfl, rfl⟩ := Prod.mk.inj (Option.some.inj hshape)
    exact hsize hw
  next => cases hshape

/-- A block write changes the top-left w by h elements and no other (R241). -/
theorem belem_setB (s : State) (n b : Nat) (f : Nat → Nat → Int) {w h x y : Nat} (hw : w ≤ 64) (hx : x < 64) :
    (s.setB n b w h f).belem n b x y = if x < w ∧ y < h then (elem (f x y)).toInt else s.belem n b x y := by
  have hrect := mgetD_writeRect (fun e => elem (f (e % w) (e / w))) 0 (s.blk n b).data (w := w) (h := h) (ox := 0) (oy := 0) (y := y)
    (by omega) hx
  simp only [Nat.zero_add, Nat.add_zero, Nat.zero_le, true_and, Nat.sub_zero] at hrect
  simp only [State.belem, State.setB, blk_modBlk, hrect]
  split
  case isTrue hin =>
    obtain ⟨hcol, -⟩ := hin
    rw [Nat.mul_add_mod, Nat.mod_eq_of_lt hcol, Nat.mul_add_div (by omega), Nat.div_eq_of_lt hcol, Nat.add_zero]
  case isFalse => rfl

/-! ### The outcome of a block instruction -/

/-- An unguarded block instruction of a stage sequencer that completes and raises no fault. -/
theorem act_block_done {s t : State} {n q : Nat} {c : Instr} {i : Ins} {body : State → SeqRes} (hruns : s.runs n q = true)
    (hstage : q < 5) (hpg : i.pg = 0) (hpn : i.pn = false) (hbody : body (s.counted n q c) = .done t) (hdue : t.due = s.due) :
    act s (fun s => runSeq s n q c i true false .block body) = .next (t.advance n q) := by
  obtain ⟨hcalm, hready⟩ := Bool.and_eq_true_iff.mp hruns
  have hrun : runSeq s n q c i true false .block body = t.advance n q := by
    rw [State.counted] at hbody
    simp [runSeq, hready, hpg, hpn, hstage, hbody]
  rw [act_quiet _ _ (live_of_calm hcalm) (by rw [hrun]; exact hdue.trans (due_of_calm hcalm)), hrun]

/-- A sequencer instruction with its job and stream. -/
theorem withJob_of_seqJob {s : State} {n q j m : Nat} {x : Job} (h : s.seqJob n q = some (j, x, m)) (f : Nat → Job → Nat → SeqRes) :
    withJob s n q f = f j x m := by
  rw [withJob, h]

end Sys2Proof.CodingPipeline
end

section
/-!
PROOF. Block movement: BLD, BST, BGET, BPUT and BFILL (R216, R248 to R251).
-/
namespace Sys2Proof.CodingPipeline

open Sys2Proof.Machine

/-! ### Updates outside the cores -/

/-- What a LOAD notes of its read lies outside the cores, memory and the registers (R331, R368). -/
theorem noteRead_frame (s : State) (j : Nat) (x : Job) (m : Nat) (f : Surf) :
    s.noteRead j x m f = { s with jobs := (s.noteRead j x m f).jobs, streams := (s.noteRead j x m f).streams } := by
  unfold State.noteRead
  split
  · dsimp only
    split
    · split <;> rfl
    · rfl
  · split <;> rfl
  · rfl
  · rfl

theorem due_noteRead (s : State) (j : Nat) (x : Job) (m : Nat) (f : Surf) : (s.noteRead j x m f).due = s.due := by
  rw [noteRead_frame]

theorem mem_noteRead (s : State) (j : Nat) (x : Job) (m : Nat) (f : Surf) : (s.noteRead j x m f).mem = s.mem := by
  rw [noteRead_frame]

theorem regs_noteRead (s : State) (j : Nat) (x : Job) (m : Nat) (f : Surf) : (s.noteRead j x m f).regs = s.regs := by
  rw [noteRead_frame]

theorem belem_noteRead (s : State) (j : Nat) (x : Job) (m : Nat) (f : Surf) (n b px py : Nat) :
    (s.noteRead j x m f).belem n b px py = s.belem n b px py := by
  rw [noteRead_frame]
  rfl

/-- The state whose next open value is number k (log entry 2). -/
def drawn (k : Nat) (s : State) : State := { s with free := k }

theorem due_drawn (k : Nat) (s : State) : (drawn k s).due = s.due := rfl

theorem mem_drawn (k : Nat) (s : State) : (drawn k s).mem = s.mem := rfl

theorem regs_drawn (k : Nat) (s : State) : (drawn k s).regs = s.regs := rfl

theorem belem_drawn (k : Nat) (s : State) (n b x y : Nat) : (drawn k s).belem n b x y = s.belem n b x y := rfl

/-! ### What each row leaves -/

section
variable {n q : Nat} {i : Ins} {s : State}

/-- The state once BLD has moved its samples. -/
def loaded (n q : Nat) (i : Ins) (l : List Host.Cell) (s : State) (w h j : Nat) (x : Job) (m : Nat) (f : Surf) : State :=
  (drawn (s.free + 4096) ((s.counted n q (.bld n q i l)).setB n i.d w h fun dx dy =>
    (s.surfSample x m f (mPlane i.x) l (s.sint n q i.a) (s.sint n q i.b) dx dy : Nat))).noteRead j x m f

theorem mem_loaded (l : List Host.Cell) (w h j : Nat) (x : Job) (m : Nat) (f : Surf) :
    (loaded n q i l s w h j x m f).mem = s.mem := by
  rw [loaded, mem_noteRead, mem_drawn, ((unitsOnly_counted ..).setB ..).mem]

theorem regs_loaded (l : List Host.Cell) (w h j : Nat) (x : Job) (m : Nat) (f : Surf) :
    (loaded n q i l s w h j x m f).regs = s.regs := by
  rw [loaded, regs_noteRead, regs_drawn, ((unitsOnly_counted ..).setB ..).regs]

/-- The block that BLD loads holds the samples of the surface. -/
theorem belem_loaded (l : List Host.Cell) {w h : Nat} (j : Nat) (x : Job) (m : Nat) (f : Surf) {dx dy : Nat} (hw : w ≤ 64)
    (hdx : dx < w) (hdy : dy < h) : (loaded n q i l s w h j x m f).belem n i.d dx dy =
      (BitVec.ofNat 24 (s.surfSample x m f (mPlane i.x) l (s.sint n q i.a) (s.sint n q i.b) dx dy)).toInt := by
  rw [loaded, belem_noteRead, belem_drawn, belem_setB _ _ _ _ hw (by omega), if_pos ⟨hdx, hdy⟩, elem_natCast]

/-- The state once BST has stored its elements in `mem`. -/
def stored (n q : Nat) (i : Ins) (s : State) (mem : List Host.Cell) : State :=
  { s.counted n q (.bst n q i) with mem := mem }

/-- The memory that BST leaves: the clipped elements inside the plane and outside concealed CTUs, stored one after another
(R250, R364). -/
def storedMem (n q : Nat) (i : Ins) (s : State) (w h : Nat) (x : Job) (m k : Nat) : List Host.Cell :=
  (List.range (w * h)).foldl (fun m' e =>
    let g := (s.stream m).slotGeom k
    let z := planeSize g.w g.h g.chroma (mPlane i.x)
    let px := s.sint n q i.a + (e % w : Nat)
    let py := s.sint n q i.b + (e / w : Nat)
    if 0 ≤ px ∧ px < z.1 ∧ 0 ≤ py ∧ py < z.2 ∧ s.concealedAt x (s.stream m) k (mPlane i.x) px.toNat py.toNat = false then
      g.store m' (min (mPlane i.x) 1) (if mPlane i.x = 0 then px.toNat else 2 * px.toNat + (mPlane i.x - 1)) py.toNat
        (max 0 (min (s.belem n i.a (e % w) (e / w)) (2 ^ g.depth - 1))).toNat
    else m') s.mem

/-- A sample of the luma plane or of a chroma plane, in the terms of the plane it is stored in. -/
theorem store_plane (g : Geom) (mem : List Host.Cell) (pl px py v : Nat) :
    (if pl = 0 then g.store mem 0 px py v else g.store mem 1 (2 * px + (pl - 1)) py v) =
      g.store mem (min pl 1) (if pl = 0 then px else 2 * px + (pl - 1)) py v := by
  split
  case isTrue h => rw [h, Nat.zero_min]
  case isFalse h => rw [Nat.min_eq_right (Nat.one_le_iff_ne_zero.mpr h)]

/-- A block whose 16 by 16 elements from column 4 × OX and row 4 × OY are those of a vector. -/
def vectorPut (i : Ins) (v : Seq) (k : Block) : Block :=
  { k with data := (List.range (16 * 16)).foldl (fun m e =>
      mset m (64 * (4 * mOy i.x + e / 16) + 4 * mOx i.x + e % 16) (elem (v.velem i.a e))) k.data }

/-- BPUT changes its 16 by 16 elements and no other (R251). -/
theorem belem_vectorPut (t : State) (v : Seq) {x y : Nat} (hok : getPutOk i.x = true) (hx : x < 64) :
    (t.modBlk n i.d (vectorPut i v)).belem n i.d x y =
      if 4 * mOx i.x ≤ x ∧ x < 4 * mOx i.x + 16 ∧ 4 * mOy i.x ≤ y ∧ y < 4 * mOy i.x + 16 then
        v.velem i.a (16 * (y - 4 * mOy i.x) + (x - 4 * mOx i.x)) else t.belem n i.d x y := by
  have hox : mOx i.x ≤ 12 := by
    simp only [getPutOk, Bool.and_eq_true, decide_eq_true_eq] at hok
    obtain ⟨⟨⟨-, hox⟩, -⟩, -⟩ := hok
    exact hox
  rw [State.belem, blk_modBlk, vectorPut, mgetD_writeRect _ _ _ (by omega) hx]
  split
  · exact toInt_elem_velem ..
  · rfl

end

/-! ### Outcomes -/

section
variable {n q : Nat} {i : Ins} {s : State}
variable (hruns : s.runs n q = true) (hstage : q < 5) (hpg : i.pg = 0) (hpn : i.pn = false)
include hruns hstage hpg hpn

/-- BLD whose samples are there (R249). -/
theorem exec_bld {l : List Host.Cell} {w h j m : Nat} {x : Job} {f : Surf} (hshape : kShape i.x = some (w, h))
    (hplane : mPlane i.x < 3) (hox : mOx i.x = 0) (hoy : mOy i.x = 0) (hrest : fld i.x 11 0 = 0) (hjob : s.seqJob n q = some (j, x, m))
    (hsurf : s.surf x m ((s.seq n q).sreg i.c) = some f) (howned : s.owned n q [i.d] = none)
    (hstop : s.blockStop j x m f l (mPlane i.x) (s.sint n q i.a) (s.sint n q i.b) w h = none) :
    exec (.bld n q i l) s = .next ((loaded n q i l s w h j x m f).advance n q) := by
  have hexec : exec (.bld n q i l) s = execBld n q i l s := rfl
  have hfields : ¬(3 ≤ mPlane i.x ∨ mOx i.x ≠ 0 ∨ mOy i.x ≠ 0 ∨ fld i.x 11 0 ≠ 0) := by simp [hplane, hox, hoy, hrest]
  rw [hexec, execBld]
  refine act_block_done hruns hstage hpg hpn ?_ ?_
  · simp only [hshape, if_neg hfields, withJob_of_seqJob ((seqJob_counted s n q _).trans hjob), sreg_counted, surf_counted, hsurf,
      owned_counted, howned, sint_counted, blockStop_counted, hstop, surfSample_counted, free_counted]
    rfl
  · rw [loaded, due_noteRead, due_drawn, ((unitsOnly_counted ..).setB ..).due]

/-- BST to the own picture (R250). -/
theorem exec_bst {w h j m k : Nat} {x : Job} (hshape : kShape i.x = some (w, h)) (hplane : mPlane i.x < 3) (hd : i.d = 0)
    (hrest : fld i.x 11 0 = 0) (hjob : s.seqJob n q = some (j, x, m)) (hsurf : s.surf x m ((s.seq n q).sreg i.c) = some (.slot k true))
    (howned : s.owned n q [i.a] = none) (hchroma : mPlane i.x ≠ 0 → ((s.stream m).slotGeom k).chroma ≠ 0)
    (hbad : s.surfBad x m (.slot k true) s.writeOk [] (mPlane i.x) (s.sint n q i.a) (s.sint n q i.b) w h = none) :
    exec (.bst n q i) s = .next ((stored n q i s (storedMem n q i s w h x m k)).advance n q) := by
  have hexec : exec (.bst n q i) s = execBst n q i s := rfl
  have hfields : ¬(3 ≤ mPlane i.x ∨ i.d ≠ 0 ∨ fld i.x 11 0 ≠ 0) := by simp [hplane, hd, hrest]
  have hpresent : ¬(mPlane i.x ≠ 0 ∧ ((s.stream m).slotGeom k).chroma = 0) := fun ⟨hc, hz⟩ => hchroma hc hz
  rw [hexec, execBst]
  refine act_block_done hruns hstage hpg hpn ?_ (due_counted ..)
  simp only [hshape, if_neg hfields, withJob_of_seqJob ((seqJob_counted s n q _).trans hjob), sreg_counted, surf_counted, hsurf,
    owned_counted, howned, sint_counted, stream_counted, if_neg hpresent, writeOk_counted, surfBad_counted, hbad, belem_counted,
    mem_counted, store_plane, Bool.not_eq_true']
  rfl

/-- BGET (R251). -/
theorem exec_bget (hok : getPutOk i.x = true) (howned : s.owned n q [i.a] = none) :
    exec (.bget n q i) s = .next (((s.counted n q (.bget n q i)).setV n q i.d (BitVec.allOnes 256) fun e =>
      s.belem n i.a (4 * mOx i.x + e % 16) (4 * mOy i.x + e / 16)).advance n q) := by
  have hexec : exec (.bget n q i) s = execBget n q i s := rfl
  rw [hexec, execBget]
  refine act_block_done hruns hstage hpg hpn ?_ (due_counted ..)
  simp only [hok, Bool.not_true, Bool.false_eq_true, if_false, owned_counted, howned, belem_counted]

/-- BPUT (R251). -/
theorem exec_bput (hok : getPutOk i.x = true) (howned : s.owned n q [i.d] = none) :
    exec (.bput n q i) s = .next (((s.counted n q (.bput n q i)).modBlk n i.d (vectorPut i (s.seq n q))).advance n q) := by
  have hexec : exec (.bput n q i) s = execBput n q i s := rfl
  rw [hexec, execBput]
  refine act_block_done hruns hstage hpg hpn ?_ (due_counted ..)
  simp only [hok, Bool.not_true, Bool.false_eq_true, if_false, owned_counted, howned, velem_counted]
  rfl

/-- BFILL (R251). -/
theorem exec_bfill {w h : Nat} (hshape : kShape i.x = some (w, h)) (hrest : fld i.x 11 0 = 0) (howned : s.owned n q [i.d] = none) :
    exec (.bfill n q i) s = .next (((s.counted n q (.bfill n q i)).setB n i.d w h fun _ _ =>
      sat24 (s.sint n q i.a)).advance n q) := by
  have hexec : exec (.bfill n q i) s = execBfill n q i s := rfl
  rw [hexec, execBfill]
  refine act_block_done hruns hstage hpg hpn ?_ (due_counted ..)
  simp only [hshape, hrest, ne_eq, not_true_eq_false, if_false, owned_counted, howned, sint_counted]

end

/-- Settles O33, row by row: each outcome is named by an `exec_` lemma, and what it leaves is read off that state. -/
theorem lenongBlockRows : Obligations.LenongBlockRows := by
  unfold Obligations.LenongBlockRows
  intro n q i s hruns hstage hpg hpn
  refine ⟨?load, ?store, ?get, ?put, ?fill⟩
  case load =>
    intro l w h j x m f hshape hplane hox hoy hrest hjob hsurf howned hstop
    refine ⟨_, exec_bld hruns hstage hpg hpn hshape hplane hox hoy hrest hjob hsurf howned hstop, ?_, ?_, fun dx dy hdx hdy => ?_⟩
    · rw [mem_advance, mem_loaded]
    · rw [regs_advance, regs_loaded]
    · rw [belem_advance, belem_loaded _ _ _ _ _ (width_le_of_kShape hshape) hdx hdy]
  case store =>
    intro w h j x m k hshape hplane hd hrest hjob hsurf howned hchroma hbad
    refine ⟨_, exec_bst hruns hstage hpg hpn hshape hplane hd hrest hjob hsurf howned hchroma hbad, ?_, rfl⟩
    rw [stored, counted_frame]
    rfl
  case get =>
    intro hok howned
    refine ⟨_, exec_bget hruns hstage hpg hpn hok howned, ?_, fun e he => ?_⟩
    · refine UnitsOnly.frame ?_
      exact .advance (.setV (unitsOnly_counted ..) ..) ..
    · rw [velem_advance, velem_setV_all _ _ _ _ _ he, toInt_elem_belem]
  case put =>
    intro hok howned
    refine ⟨_, exec_bput hruns hstage hpg hpn hok howned, ?_, fun x y hx _ => ?_⟩
    · refine UnitsOnly.frame ?_
      exact .advance (.modBlk (unitsOnly_counted ..) ..) ..
    · rw [belem_advance, belem_vectorPut _ _ hok hx, belem_counted]
  case fill =>
    intro w h hshape hrest howned
    refine ⟨_, exec_bfill hruns hstage hpg hpn hshape hrest howned, ?_, fun x y hx _ => ?_⟩
    · refine UnitsOnly.frame ?_
      exact .advance (.setB (unitsOnly_counted ..) ..) ..
    · rw [belem_advance, belem_setB _ _ _ _ (width_le_of_kShape hshape) hx, belem_counted, toInt_elem_sat24, State.sint]

end Sys2Proof.CodingPipeline
end

section
/-!
PROOF. The stage channels (R208, R209, R222, R238, R270): the statement fails.

CHSEND goes on whenever its channel takes a token, says the row. But R222 has the pilot of every core of a frame but the lead core
read the frame record before its first row start, and until the lead core has written the record that pilot's CHSEND waits for it.
The row's premises speak of the channel alone and not of the record.
-/
namespace Sys2Proof.CodingPipeline

open Sys2Proof.Machine

/-- An image whose channel 0 leads from the pilot to stage 0, in both directions. -/
def pilotImage : PersEntry where
  id := 3
  flags := 0
  unsigned := false
  progBase := 0
  progWords := 8
  tabBase := 0
  tabWords := 8
  params :=
    { marginEnc := 8, marginDec := 8, vsr := [], ctuOf := [], defRefs := [], defLook := [], refLimit := 4, qpMax := 51, lag := 0
      lookRate := 0, chEnc := [(5, 0)], chDec := [(5, 0)], entries := [], limitEntry := 0, ctus := [], rates := []
      profiles := [], levels := [] }

/-- A running encode frame of stream 1 on cores 46 and 47. Core 46, the lead core, has not written the frame record. -/
def sharedFrame : Job where
  queue := 0
  seq := 0
  epoch := 0
  body := leBytes 1 0x10
  phase := .running
  stream := some 1
  core := 46
  cores := [46, 47]

/-- A part that is READY, where the pilot of core 47 works on job 32, the frame, and no token is on any channel. -/
def recordMissing : State where
  power := { powered := true, perstHigh := true }
  boot := { state := .ready }
  pages := [(corePage 47, { state := .running })]
  pers := { dir := [(0, pilotImage)] }
  jobs := [(32, sharedFrame)]
  streams := [(1, { state := .opened, encode := true })]
  placer := { cores := [(47, { inside := [32] })] }
  cores := [(47, { seqs := [(5, { job := some 32 })] })]

/-- CHSEND of the token (s2, s1) on channel 0, without a guard and without a block register. -/
def plainSend : Ins where
  pn := false
  pg := 0
  d := 0
  a := 1
  b := 2
  c := 0
  x := 0

/-- The CHSEND meets every premise of its row. -/
theorem recordMissing_meets_premises :
    recordMissing.guarded 47 5 plainSend = true ∧ (recordMissing.seq 47 5).job = some 32 ∧
      recordMissing.ends 32 plainSend.c = some (5, 0) ∧ recordMissing.chanFull 47 plainSend.c = false ∧
      recordMissing.undrained 47 plainSend.c 32 = false := by decide +kernel

/-- The pilot once it waits for the frame record. -/
def sendHeld : State :=
  (recordMissing.counted 47 5 (.chsend 47 5 plainSend)).modSeq 47 5 fun x =>
    { x with wait := .memory, waiting := some (.chsend 47 5 plainSend) }

/-- CHSEND waits, since the frame record is missing (R222). -/
theorem exec_chsend_recordMissing : exec (.chsend 47 5 plainSend) recordMissing = .next sendHeld := rfl

/-- Refutes O39: CHSEND in `recordMissing` waits for the frame record and leaves its channel empty. -/
theorem not_lenongChannelRows : ¬ Obligations.LenongChannelRows := by
  unfold Obligations.LenongChannelRows
  intro h
  obtain ⟨hguard, hjob, hends, hroom, hdrained⟩ := recordMissing_meets_premises
  obtain ⟨sendRow, -⟩ := h 47 5 32 plainSend recordMissing hguard hjob (by decide)
  obtain ⟨t, ht, -, hqueue⟩ := sendRow 0 hends (by decide) hroom hdrained
  rw [exec_chsend_recordMissing] at ht
  obtain rfl : sendHeld = t := Host.Outcome.next.inj ht
  have hempty : sendHeld.chq 47 plainSend.c = [] := by decide +kernel
  simp [hempty] at hqueue

end Sys2Proof.CodingPipeline
end

section
/-!
SUPPORT. Rules for the bin engine: reads after writes of an engine, the engine that a word starts from, what it reads there, and the
outcome of a word that completes (R295, R296, R306, R307).
-/
namespace Sys2Proof.CodingPipeline

open Sys2Proof.Machine

theorem UnitsOnly.modBin {s t : State} (h : UnitsOnly s t) (n : Nat) (f : Bin → Bin) : UnitsOnly s (t.modBin n f) := by
  rw [State.modBin]
  exact h.modUnit n _

theorem UnitsOnly.modRc {s t : State} (h : UnitsOnly s t) (n k : Nat) (f : RcSet → RcSet) : UnitsOnly s (t.modRc n k f) := by
  rw [State.modRc]
  exact h.modUnit n _

theorem UnitsOnly.popToken {s t : State} (h : UnitsOnly s t) (n c : Nat) : UnitsOnly s (t.popToken n c) := by
  rw [State.popToken]
  exact h.modUnit n _

theorem UnitsOnly.pushToken {s t : State} (h : UnitsOnly s t) (n c : Nat) (k : Token) : UnitsOnly s (t.pushToken n c k) := by
  rw [State.pushToken]
  exact h.modUnit n _

end Sys2Proof.CodingPipeline

namespace Sys2Proof.BinEngine

open Sys2Proof.Machine Sys2Proof.SelfTimed Sys2Proof.Placement Sys2Proof.CodingPipeline

/-! ### Reads after writes of a bin engine -/

@[simp] theorem unit_modBin (s : State) (n : Nat) (f : Bin → Bin) :
    (s.modBin n f).unit n = { s.unit n with bin := f (s.unit n).bin } := unit_modUnit_self ..

theorem modBin_modBin (s : State) (n : Nat) (f g : Bin → Bin) : (s.modBin n f).modBin n g = s.modBin n fun b => g (f b) := by
  simp [State.modBin, State.modUnit, State.unit, mset_mset]

@[simp] theorem x_setX_self (b : Bin) {r : Nat} (h : r ≠ 0) (v : Word) : (b.setX r v).x_ r = v := by
  simp [Bin.x_, Bin.setX, h]

theorem x_setX_ne (b : Bin) {r k : Nat} (h : k ≠ r) (v : Word) : (b.setX r v).x_ k = b.x_ k := by
  unfold Bin.setX
  split
  · rfl
  · rw [Bin.x_, Bin.x_, mgetD_mset_ne _ _ _ h]

@[simp] theorem reader_setX (b : Bin) (r : Nat) (v : Word) : (b.setX r v).reader = b.reader := by
  unfold Bin.setX
  split <;> rfl

/-! ### The engine that a word starts from -/

/-- An engine once word c has been counted against its parse limit (R306): one that waited was counted before. -/
def stepped (c : Instr) (b : Bin) : Bin := { b with ctuSteps := b.ctuSteps + if b.waiting = some c then 0 else 1 }

/-- The engine of core n that word c works on: counted, with the room that its output has (R140). -/
def wordBin (s : State) (n : Nat) (c : Instr) : Bin := s.capped (stepped c (s.unit n).bin)

/-- The state once word c of core n has been counted. -/
def wordStart (s : State) (n : Nat) (c : Instr) : State :=
  if (s.unit n).bin.waiting = some c then s else s.modBin n fun b => { b with ctuSteps := b.ctuSteps + 1 }

theorem stepped_of_waiting {c : Instr} {b : Bin} (h : b.waiting = some c) : stepped c b = b := by
  rw [stepped, if_pos h]
  rfl

theorem stepped_of_not_waiting {c : Instr} {b : Bin} (h : b.waiting ≠ some c) :
    stepped c b = { b with ctuSteps := b.ctuSteps + 1 } := by
  rw [stepped, if_neg h]

theorem stepped_eq (c : Instr) (b : Bin) :
    (if b.waiting = some c then b else { b with ctuSteps := b.ctuSteps + 1 }) = stepped c b := by
  split
  case isTrue h => exact (stepped_of_waiting h).symm
  case isFalse h => exact (stepped_of_not_waiting h).symm

section
variable (s : State) (n : Nat) (c : Instr)

@[simp] theorem x_wordBin (r : Nat) : (wordBin s n c).x_ r = (s.unit n).bin.x_ r := rfl
@[simp] theorem calls_wordBin : (wordBin s n c).calls = (s.unit n).bin.calls := rfl
@[simp] theorem job_wordBin : (wordBin s n c).job = (s.unit n).bin.job := rfl
@[simp] theorem encode_wordBin : (wordBin s n c).encode = (s.unit n).bin.encode := rfl
@[simp] theorem seg_wordBin : (wordBin s n c).seg = (s.unit n).bin.seg := rfl

/-- Of the writer a word's start changes nothing but the room. -/
theorem writer_wordBin : (wordBin s n c).writer =
    { (s.unit n).bin.writer with cap := (s.capped (s.unit n).bin).writer.cap } := rfl

theorem unitsOnly_wordStart : UnitsOnly s (wordStart s n c) := by
  unfold wordStart
  split
  · exact .refl s
  · exact (UnitsOnly.refl s).modBin n _

@[simp] theorem unit_wordStart : (wordStart s n c).unit n = { s.unit n with bin := stepped c (s.unit n).bin } := by
  unfold wordStart
  split
  case isTrue h => rw [stepped_of_waiting h]
  case isFalse h => rw [unit_modBin, stepped_of_not_waiting h]

theorem capped_wordStart : (wordStart s n c).capped ((wordStart s n c).unit n).bin = wordBin s n c := by
  rw [unit_wordStart, (unitsOnly_wordStart s n c).frame]
  rfl

/-- Whatever a word makes of its engine replaces the engine before the word was counted. -/
theorem modBin_wordStart (b : Bin) : (wordStart s n c).modBin n (fun _ => b) = s.modBin n fun _ => b := by
  unfold wordStart
  split
  · rfl
  · rw [modBin_modBin]

@[simp] theorem chq_wordStart (k : Nat) : (wordStart s n c).chq n k = s.chq n k := by simp [State.chq]

@[simp] theorem rcSet_wordStart (k : Nat) : (wordStart s n c).rcSet n k = s.rcSet n k := by simp [State.rcSet]

@[simp] theorem ownSet_wordStart (j : Nat) : (wordStart s n c).ownSet n j = s.ownSet n j := by simp [State.ownSet]

@[simp] theorem tab_wordStart : (wordStart s n c).tab n = s.tab n := by
  have htab : ((wordStart s n c).unit n).tab = (s.unit n).tab := by rw [unit_wordStart]
  funext k
  rw [State.tab, State.tabWord, htab, (unitsOnly_wordStart s n c).frame]
  rfl

@[simp] theorem ends_wordStart (j k : Nat) : (wordStart s n c).ends j k = s.ends j k := by
  rw [(unitsOnly_wordStart s n c).frame]
  rfl

@[simp] theorem chanFull_wordStart (k : Nat) : (wordStart s n c).chanFull n k = s.chanFull n k := by simp [State.chanFull]

@[simp] theorem worksOn_wordStart (k e : Nat) : (wordStart s n c).worksOn n k e = s.worksOn n k e := by
  simp [State.worksOn, State.seq, stepped]

@[simp] theorem undrained_wordStart (k j : Nat) : (wordStart s n c).undrained n k j = s.undrained n k j := by
  have hinside : ((wordStart s n c).core n).inside = (s.core n).inside := by
    rw [(unitsOnly_wordStart s n c).frame]
    rfl
  simp [State.undrained, hinside]

end

/-! ### The outcome of a word that completes -/

/-- An engine that goes on to `pc`, or to the next word. -/
def nextWord (b : Bin) (pc : Option Nat) : Bin := { b with pc := pc.getD ((b.pc + 1) % 32768), waiting := none }

section
variable {s : State} {n : Nat} {c : Instr}

/-- What a finished word leaves, in terms of the engine it started from. -/
theorem wordDone_eq (f : Bin → Bin) (pc : Option Nat) :
    s.wordDone n c f pc = s.modBin n fun _ => nextWord (f (wordBin s n c)) pc := by
  simp only [State.wordDone, wordBin, ← stepped_eq]
  rfl

/-- A word in range that completes, on an engine that runs. -/
theorem runWord_ok {fits codes : Bool} {body : State → Bin → WordEnd} {t : State} {b : Bin} {pc : Option Nat}
    (hruns : s.wordRuns n = true) (hfits : fits = true) (hbody : body (wordStart s n c) (wordBin s n c) = .ok (t, b, pc)) :
    runWord s n c fits codes body = t.modBin n fun _ => nextWord b pc := by
  simp only [State.wordRuns, Bool.and_eq_true, Bool.or_eq_true, Bool.not_eq_true', decide_eq_true_eq] at hruns
  obtain ⟨⟨⟨-, hready⟩, herror⟩, hlimit⟩ := hruns
  have hwithin : ¬((!decide ((s.unit n).bin.waiting = some c)) = true ∧ (!(s.unit n).bin.encode) = true ∧
      (s.unit n).bin.cfg.maxSteps ≤ (s.unit n).bin.ctuSteps) := by
    rintro ⟨-, hdecode, hover⟩
    rcases hlimit with h | h
    · simp [h] at hdecode
    · omega
  have hcode : ¬(codes = true ∧ (s.unit n).bin.inError = true) := by simp [herror]
  rw [← capped_wordStart] at hbody
  unfold wordStart at hbody
  unfold runWord
  dsimp only
  rw [if_neg (by simp [hready]), if_neg hwithin, if_neg (by simp [hfits]), if_neg hcode, hbody]
  rfl

/-- A word that completes raises no fault, unless its own effect does. -/
theorem act_word {fits : State → Bool} {codes : Bool} {body : State → Bin → WordEnd} {t : State} {b : Bin} {pc : Option Nat}
    (hruns : s.wordRuns n = true) (hfits : fits s = true) (hbody : body (wordStart s n c) (wordBin s n c) = .ok (t, b, pc))
    (hunits : UnitsOnly s t) :
    act s (fun s => runWord s n c (fits s) codes body) =
      .next (t.modBin n fun _ => nextWord b pc) := by
  have hcalm : s.calm = true := by
    simp only [State.wordRuns, Bool.and_eq_true] at hruns
    obtain ⟨⟨⟨hcalm, -⟩, -⟩, -⟩ := hruns
    exact hcalm
  have hrun := runWord_ok (codes := codes) hruns hfits hbody
  rw [act_quiet _ _ (live_of_calm hcalm) (by rw [hrun, (hunits.modBin n _).due]; exact due_of_calm hcalm), hrun]

/-- A word that changes its engine alone. -/
theorem act_engine_word {fits : State → Bool} {codes : Bool} {body : State → Bin → WordEnd} {f : Bin → Bin} {pc : Option Nat}
    (hruns : s.wordRuns n = true) (hfits : fits s = true)
    (hbody : body (wordStart s n c) (wordBin s n c) = .ok (wordStart s n c, f (wordBin s n c), pc)) :
    act s (fun s => runWord s n c (fits s) codes body) = .next (s.wordDone n c f pc) := by
  rw [act_word hruns hfits hbody (unitsOnly_wordStart s n c), modBin_wordStart, wordDone_eq]

theorem plainWord_done {fits codes : Bool} {body : Bin → Except BinStop Bin} {f : Bin → Bin} (hruns : s.wordRuns n = true)
    (hfits : fits = true) (hbody : body (wordBin s n c) = .ok (f (wordBin s n c))) :
    plainWord s n c fits codes body = .next (s.wordDone n c f none) :=
  act_engine_word (fits := fun _ => fits) hruns hfits (by rw [hbody]; rfl)

theorem jumpWord_done {fits : Bool} {body : Bin → Except BinStop (Bin × Option Nat)} {f : Bin → Bin} {pc : Option Nat}
    (hruns : s.wordRuns n = true) (hfits : fits = true) (hbody : body (wordBin s n c) = .ok (f (wordBin s n c), pc)) :
    jumpWord s n c fits body = .next (s.wordDone n c f pc) :=
  act_engine_word (fits := fun _ => fits) hruns hfits (by rw [hbody]; rfl)

/-- A word that changes its engine alone changes nothing outside the cores. -/
theorem unitsOnly_wordDone (f : Bin → Bin) (pc : Option Nat) : UnitsOnly s (s.wordDone n c f pc) := by
  rw [wordDone_eq]
  exact (UnitsOnly.refl s).modBin n _

theorem bin_wordDone (f : Bin → Bin) (pc : Option Nat) : ((s.wordDone n c f pc).unit n).bin =
    nextWord (f (wordBin s n c)) pc := by
  rw [wordDone_eq, unit_modBin]

end

end Sys2Proof.BinEngine
end

section
/-!
PROOF. The register words LI, ADD, ANDI, SHL, SHR, MIN and BITS, and CCOPY and CTU (R281, R295, R296, R335).
-/
namespace Sys2Proof.BinEngine

open Sys2Proof.Machine Sys2Proof.CodingPipeline

/-- The lesser of two registers is picked by their signed comparison. -/
theorem word_min_toInt (v u : Word) : word (min v.toInt u.toInt) = if u.slt v = true then u else v := by
  have hpick : min v.toInt u.toInt = (if u.slt v = true then u else v).toInt := by
    simp only [BitVec.slt, decide_eq_true_eq]
    split
    · omega
    · omega
  rw [word, hpick, BitVec.ofInt_toInt]

/-! ### The count that a CTU latches -/

/-- The engine after k steps against its parse limit. -/
def atStep (k : Nat) (b : Bin) : Bin := { b with ctuSteps := k }

theorem carry_atStep (k : Nat) (b : Bin) (c : Coder) (v : Bool) : (atStep k b).carry c v = atStep k (b.carry c v) := by
  unfold Bin.carry
  split <;> rfl

/-- The engine once the top of the low of its coder is resolved, before the range doubles (R279). -/
def resolved (b : Bin) (c : Coder) : Bin :=
  if c.low < 256 then b.carry c false
  else if 512 ≤ c.low then b.carry { c with low := c.low - 512 } true
  else { b with seg := some { c with low := c.low - 256, outst := c.outst + 1 } }

/-- The engine once the range of its coder has doubled. -/
def doubled (b : Bin) : Bin := { b with seg := b.seg.map fun d => { d with r := 2 * d.r, low := 2 * d.low } }

theorem renormEnc_narrow (m : Nat) {b : Bin} {c : Coder} (hseg : b.seg = some c) (hr : c.r < 256) :
    Bin.renormEnc (m + 1) b = Bin.renormEnc m (doubled (resolved b c)) := by
  rw [Bin.renormEnc, hseg]
  exact if_neg (Nat.not_le.mpr hr)

theorem renormEnc_wide (m : Nat) {b : Bin} (h : ∀ c, b.seg = some c → 256 ≤ c.r) : Bin.renormEnc m b = b := by
  cases m with
  | zero => rfl
  | succ m =>
    rw [Bin.renormEnc]
    split
    · rfl
    next c hseg => exact if_pos (h c hseg)

theorem resolved_atStep (k : Nat) (b : Bin) (c : Coder) : resolved (atStep k b) c = atStep k (resolved b c) := by
  unfold resolved
  split
  · exact carry_atStep ..
  · split
    · exact carry_atStep ..
    · rfl

/-- Renormalization does not look at the step count. -/
theorem renormEnc_atStep (k m : Nat) (b : Bin) : Bin.renormEnc m (atStep k b) = atStep k (Bin.renormEnc m b) := by
  induction m generalizing b with
  | zero => rfl
  | succ m ih =>
    by_cases hwide : ∀ c, b.seg = some c → 256 ≤ c.r
    · rw [renormEnc_wide _ hwide, renormEnc_wide]
      exact hwide
    · obtain ⟨c, hc⟩ := Classical.not_forall.mp hwide
      obtain ⟨hseg, hnarrow⟩ := Classical.not_imp.mp hc
      have hr : c.r < 256 := Nat.lt_of_not_le hnarrow
      rw [renormEnc_narrow m hseg hr, ← ih, renormEnc_narrow m (b := atStep k b) hseg hr, resolved_atStep]
      rfl

theorem flushArith_atStep (k : Nat) (b : Bin) (c : Coder) : (atStep k b).flushArith c = atStep k (b.flushArith c) := by
  have hrenorm : Bin.renormEnc 9 { atStep k b with seg := some { c with r := 2 } } =
      atStep k (Bin.renormEnc 9 { b with seg := some { c with r := 2 } }) :=
    renormEnc_atStep k 9 { b with seg := some { c with r := 2 } }
  unfold Bin.flushArith
  rw [hrenorm]
  generalize Bin.renormEnc 9 { b with seg := some { c with r := 2 } } = b1
  have hseg : (atStep k b1).seg = b1.seg := rfl
  simp only [hseg]
  cases b1.seg with
  | none => rfl
  | some d =>
    simp only [carry_atStep]
    rfl

/-- The count of a CTU does not depend on the step count (R335). -/
theorem counted_atStep (k : Nat) (b : Bin) : (atStep k b).counted = b.counted := by
  have hseg : (atStep k b).seg = b.seg := rfl
  have hwriter (b : Bin) : (atStep k b).writer = b.writer := rfl
  unfold Bin.counted Bin.flushBits
  rw [hseg]
  cases b.seg with
  | none => rfl
  | some c => simp only [flushArith_atStep, hwriter]

/-- The close of a CTU latches its count (R335). -/
theorem latched_closeCtu (r : RcSet) (v : Nat) : (r.closeCtu v).latched = r.latched ++ [v] := by
  unfold RcSet.closeCtu
  simp only [apply_ite RcSet.latched, ite_self]

/-! ### The copy of contexts -/

/-- CCOPY as though through a buffer (R296). -/
def copyContexts (w : SynWord) (b : Bin) : Bin :=
  { b with ctx := (List.range w.imm).foldl (fun m k =>
      mset m ((b.x_ w.b).toNat + k) (mgetD b.ctx ((b.x_ w.a).toNat + k) 0)) b.ctx }

theorem ctx_copyContexts (w : SynWord) (b : Bin) {k : Nat} (hk : k < w.imm) :
    mgetD (copyContexts w b).ctx ((b.x_ w.b).toNat + k) 0 = mgetD b.ctx ((b.x_ w.a).toNat + k) 0 := by
  refine mgetD_foldl_mset_of_mem _ _ _ _ _ ⟨k, List.mem_range.mpr hk, rfl⟩ fun e _ he => ?_
  rw [Nat.add_left_cancel he]

/-! ### Outcomes -/

section
variable {s : State} {n : Nat} {w : SynWord} (hruns : s.wordRuns n = true)
include hruns

/-- CCOPY whose ranges lie in the context memory (R281, R296). -/
theorem exec_ccopy (hfields : fields w false true true true = true) (himm : 1 ≤ w.imm)
    (hfrom : ((s.unit n).bin.x_ w.a).toNat + w.imm ≤ 8192) (hto : ((s.unit n).bin.x_ w.b).toNat + w.imm ≤ 8192) :
    exec (.ccopy n w) s = .next (s.wordDone n (.ccopy n w) (copyContexts w) none) := by
  have hexec : exec (.ccopy n w) s = execCcopy n w s := rfl
  have hrange : ¬(8192 < ((s.unit n).bin.x_ w.a).toNat + w.imm ∨ 8192 < ((s.unit n).bin.x_ w.b).toNat + w.imm) := by omega
  have hsize : w.imm ≤ 8192 := by omega
  rw [hexec, execCcopy]
  exact plainWord_done hruns (by simp only [hfields, himm, hsize, decide_true, Bool.and_true]) (if_neg hrange)

/-- The state once CTU of core n has closed a CTU of frame set k. -/
def ctuClosed (s : State) (n k : Nat) (w : SynWord) : State :=
  ((wordStart s n (.synCtu n w)).modRc n k fun r => r.closeCtu (s.capped (s.unit n).bin).counted).modBin n fun _ =>
    nextWord { wordBin s n (.synCtu n w) with ctuBins := 0, ctuSteps := 0 } none

/-- CTU of a job that holds a frame set (R296, R335). -/
theorem exec_synCtu {j k : Nat} (hfields : fields w false false false false = true) (hjob : (s.unit n).bin.job = some j)
    (hset : s.ownSet n j = some k) : exec (.synCtu n w) s = .next (ctuClosed s n k w) := by
  have hexec : exec (.synCtu n w) s = execSynCtu n w s := rfl
  have hcount : (wordBin s n (.synCtu n w)).counted = (s.capped (s.unit n).bin).counted :=
    counted_atStep _ (s.capped (s.unit n).bin)
  rw [hexec, execSynCtu]
  refine act_word (fits := fun _ => fields w false false false false) hruns hfields ?_
    ((unitsOnly_wordStart s n (.synCtu n w)).modRc n k fun r => r.closeCtu (s.capped (s.unit n).bin).counted)
  simp only [job_wordBin, hjob, Option.bind_some, ownSet_wordStart, hset, hcount]

end

section
variable (s : State) (n k : Nat) (w : SynWord)

theorem unitsOnly_ctuClosed : UnitsOnly s (ctuClosed s n k w) := ((unitsOnly_wordStart ..).modRc ..).modBin ..

theorem latched_ctuClosed : ((ctuClosed s n k w).rcSet n k).latched =
    (s.rcSet n k).latched ++ [(s.capped (s.unit n).bin).counted] := by
  simp [ctuClosed, State.rcSet, State.modRc, latched_closeCtu]

end

/-- Settles O44, word by word: each register word is one function of the engine, and CCOPY and CTU have their `exec_` lemmas. -/
theorem syntaxRegisterWords : Obligations.SyntaxRegisterWords := by
  unfold Obligations.SyntaxRegisterWords
  intro n w s hruns
  refine ⟨?registers, ?copy, ?ctu⟩
  case registers =>
    simp only [List.forall_mem_cons, List.not_mem_nil, false_implies, implies_true, and_true]
    refine ⟨fun h => ?li, fun _ => ?add, fun h => ?andi, fun h => ?shl, fun h => ?shr, fun h => ?min, fun h => ?bits⟩
    case li => exact plainWord_done hruns h rfl
    case add => exact plainWord_done hruns rfl rfl
    case andi => exact plainWord_done hruns h rfl
    case shl => exact plainWord_done hruns h rfl
    case shr => exact plainWord_done hruns h rfl
    case min => exact plainWord_done hruns h (by rw [x_wordBin, x_wordBin, word_min_toInt])
    case bits => exact plainWord_done hruns h rfl
  case copy =>
    intro hfields himm hfrom hto
    refine ⟨_, exec_ccopy hruns hfields himm hfrom hto, (unitsOnly_wordDone _ _).frame, fun k hk => ?_⟩
    rw [bin_wordDone]
    exact ctx_copyContexts w (wordBin s n (.ccopy n w)) hk
  case ctu =>
    intro j k hfields hjob hset
    refine ⟨_, exec_synCtu hruns hfields hjob hset, (unitsOnly_ctuClosed s n k w).frame, ?_, ?_, latched_ctuClosed s n k w⟩
    · rw [ctuClosed, unit_modBin]
      rfl
    · rw [ctuClosed, unit_modBin]
      rfl

end Sys2Proof.BinEngine
end

section
/-!
PROOF. The control words END, BZ, BNZ, BLT, JMP, CALL and RET, and the tokens of RECV and SEND (R208, R296, R297).
-/
namespace Sys2Proof.BinEngine

open Sys2Proof.Machine Sys2Proof.CodingPipeline

/-! ### Tokens of a channel -/

@[simp] theorem chq_modBin (s : State) (n k : Nat) (f : Bin → Bin) : (s.modBin n f).chq n k = s.chq n k := by
  simp [State.chq]

@[simp] theorem chq_popToken (s : State) (n k : Nat) : (s.popToken n k).chq n k = (s.chq n k).tail := by
  simp [State.chq, State.popToken]

@[simp] theorem chq_pushToken (s : State) (n k : Nat) (v : Token) : (s.pushToken n k v).chq n k = s.chq n k ++ [v] := by
  simp [State.chq, State.pushToken]

/-! ### Outcomes -/

/-- The state once RECV has taken token v into its two registers. -/
def received (s : State) (n : Nat) (w : SynWord) (v : Token) : State :=
  ((wordStart s n (.synRecv n w)).popToken n w.imm).modBin n fun _ =>
    nextWord (((wordBin s n (.synRecv n w)).setX w.d (v.val.setWidth 32)).setX (w.d + 1) ((v.val >>> 32).setWidth 32)) none

/-- The token that SEND of job j puts together from two registers. -/
def tokenOf (b : Bin) (w : SynWord) (j : Nat) : Token := { val := b.x_ (w.a + 1) ++ b.x_ w.a, job := j }

/-- The state once SEND has sent token v. -/
def sent (s : State) (n : Nat) (w : SynWord) (v : Token) : State :=
  ((wordStart s n (.synSend n w)).pushToken n w.imm v).modBin n fun _ => nextWord (wordBin s n (.synSend n w)) none

section
variable (s : State) (n : Nat) (w : SynWord) (v : Token)

theorem unitsOnly_received : UnitsOnly s (received s n w v) := ((unitsOnly_wordStart ..).popToken ..).modBin ..

theorem chq_received : (received s n w v).chq n w.imm = (s.chq n w.imm).tail := by simp [received]

theorem x_received (hd : w.d ≠ 0) : ((received s n w v).unit n).bin.x_ w.d = v.val.setWidth 32 := by
  rw [received, unit_modBin]
  calc (((wordBin s n (.synRecv n w)).setX w.d (v.val.setWidth 32)).setX (w.d + 1) ((v.val >>> 32).setWidth 32)).x_ w.d
    _ = ((wordBin s n (.synRecv n w)).setX w.d (v.val.setWidth 32)).x_ w.d := x_setX_ne _ (by omega) _
    _ = v.val.setWidth 32 := x_setX_self _ hd _

theorem x_succ_received : ((received s n w v).unit n).bin.x_ (w.d + 1) = (v.val >>> 32).setWidth 32 := by
  rw [received, unit_modBin]
  exact x_setX_self _ (Nat.succ_ne_zero _) _

theorem unitsOnly_sent : UnitsOnly s (sent s n w v) := ((unitsOnly_wordStart ..).pushToken ..).modBin ..

theorem chq_sent : (sent s n w v).chq n w.imm = s.chq n w.imm ++ [v] := by simp [sent]

end

section
variable {s : State} {n : Nat} {w : SynWord} (hruns : s.wordRuns n = true)
include hruns

/-- CALL with room on the stack (R296). -/
theorem exec_synCall (hfields : fields w false false false true = true) (hroom : (s.unit n).bin.calls.length < 8) :
    exec (.synCall n w) s = .next (s.wordDone n (.synCall n w)
      (fun b => { b with calls := (b.pc + 1) % 32768 :: b.calls }) (some w.imm)) := by
  have hexec : exec (.synCall n w) s = execSynCall n w s := rfl
  rw [hexec, execSynCall]
  exact jumpWord_done hruns hfields (if_neg (Nat.not_le.mpr hroom))

/-- RET with an address on the stack (R296). -/
theorem exec_synRet {r : Nat} {l : List Nat} (hfields : fields w false false false false = true)
    (hcalls : (s.unit n).bin.calls = r :: l) :
    exec (.synRet n w) s = .next (s.wordDone n (.synRet n w) (fun b => { b with calls := l }) (some r)) := by
  have hexec : exec (.synRet n w) s = execSynRet n w s := rfl
  rw [hexec, execSynRet]
  exact jumpWord_done hruns hfields (by simp only [calls_wordBin, hcalls])

/-- RECV on a channel that the engine receives from and that holds a token (R208, R297). -/
theorem exec_synRecv {j a : Nat} {v : Token} {l : List Token} (hfields : fields w true false false true = true) (himm : w.imm < 8)
    (hd : w.d ≤ 14) (hjob : (s.unit n).bin.job = some j) (hends : s.ends j w.imm = some (a, 6))
    (hdrained : s.undrained n w.imm j = false) (hqueue : s.chq n w.imm = v :: l) :
    exec (.synRecv n w) s = .next (received s n w v) := by
  have hexec : exec (.synRecv n w) s = execSynRecv n w s := rfl
  rw [hexec, execSynRecv]
  refine act_word (fits := fun _ => fields w true false false true && decide (w.imm < 8) && decide (w.d ≤ 14)) hruns
    (by simp only [hfields, himm, hd, decide_true, Bool.and_true]) ?_ ((unitsOnly_wordStart ..).popToken ..)
  simp only [job_wordBin, hjob, ends_wordStart, hends, Option.map_some, ne_eq, not_true_eq_false, if_false, undrained_wordStart,
    hdrained, chq_wordStart, hqueue]

/-- SEND on a channel that the engine sends to and that takes a token (R208, R297). -/
theorem exec_synSend {j b : Nat} (hfields : fields w false true false true = true) (himm : w.imm < 8) (ha : w.a ≤ 14)
    (hjob : (s.unit n).bin.job = some j) (hends : s.ends j w.imm = some (6, b)) (hdrained : s.undrained n w.imm j = false)
    (hroom : s.chanFull n w.imm = false) :
    exec (.synSend n w) s = .next (sent s n w (tokenOf (s.unit n).bin w j)) := by
  have hexec : exec (.synSend n w) s = execSynSend n w s := rfl
  rw [hexec, execSynSend]
  refine act_word (fits := fun _ => fields w false true false true && decide (w.imm < 8) && decide (w.a ≤ 14)) hruns
    (by simp only [hfields, himm, ha, decide_true, Bool.and_true]) ?_ ((unitsOnly_wordStart ..).pushToken ..)
  have hsender : ¬((wordStart s n (.synSend n w)).ends j w.imm).map Prod.fst ≠ some 6 := by simp [hends]
  have hgo : ¬((wordStart s n (.synSend n w)).undrained n w.imm j = true ∨
      (wordStart s n (.synSend n w)).chanFull n w.imm = true) := by simp [hdrained, hroom]
  rw [job_wordBin, hjob]
  dsimp only
  rw [if_neg hsender, if_neg hgo]
  rfl

end

/-- Settles O45, word by word: a jump is a function of the engine, and RECV and SEND have their `exec_` lemmas. -/
theorem syntaxControlWords : Obligations.SyntaxControlWords := by
  unfold Obligations.SyntaxControlWords
  intro n w s hruns
  refine ⟨?stop, ?branches, ?call, ?ret, ?receive, ?send⟩
  case stop => exact fun hfields => plainWord_done hruns hfields rfl
  case branches =>
    simp only [List.forall_mem_cons, List.not_mem_nil, false_implies, implies_true, and_true, decide_eq_true_eq]
    refine ⟨fun h => ?zero, fun h => ?nonzero, fun h => ?less, fun h => ?always⟩
    case zero => exact jumpWord_done hruns h rfl
    case nonzero => exact jumpWord_done hruns h rfl
    case less => exact jumpWord_done hruns h (by simp only [BitVec.slt, decide_eq_true_eq]; rfl)
    case always => exact jumpWord_done hruns h rfl
  case call => exact exec_synCall hruns
  case ret => exact fun r l => exec_synRet hruns
  case receive =>
    intro j a v l hfields himm hd0 hd hjob hends hdrained hqueue
    refine ⟨_, exec_synRecv hruns hfields himm hd hjob hends hdrained hqueue, (unitsOnly_received s n w v).frame, ?_,
      x_received s n w v (by omega), x_succ_received s n w v⟩
    rw [chq_received, hqueue, List.tail_cons]
  case send =>
    intro j b hfields himm ha hjob hends hdrained hroom
    exact ⟨_, exec_synSend hruns hfields himm ha hjob hends hdrained hroom, (unitsOnly_sent ..).frame, chq_sent ..⟩

end Sys2Proof.BinEngine
end

section
/-!
PROOF. BECTL_CONFIG, CTX_INIT, CDF_INIT, CTX_MOVE, CDF_MOVE, READER_SET and WRITER_SET (R282, R298, R299, R303, R305, R310).
-/
namespace Sys2Proof.BinEngine

open Sys2Proof.Machine Sys2Proof.SelfTimed Sys2Proof.CodingPipeline

/-! ### What the pilot's counted instruction leaves of its core -/

section
variable (s : State) (n q : Nat) (c : Instr)

/-- Counting an instruction changes nothing of its core but the sequencers. -/
theorem unit_counted : ∃ l, (s.counted n q c).unit n = { s.unit n with seqs := l } := by
  unfold State.counted
  split
  · exact ⟨_, rfl⟩
  · exact ⟨_, by rw [State.modSeq, Placement.unit_modUnit_self]⟩

@[simp] theorem bin_counted : ((s.counted n q c).unit n).bin = (s.unit n).bin := by
  obtain ⟨l, hl⟩ := unit_counted s n q c
  rw [hl]

@[simp] theorem tabWord_counted (k : Nat) : (s.counted n q c).tabWord n k = s.tabWord n k := by
  obtain ⟨l, hl⟩ := unit_counted s n q c
  rw [State.tabWord, hl, counted_frame]
  rfl

@[simp] theorem tabHalf_counted (k e : Nat) : (s.counted n q c).tabHalf n k e = s.tabHalf n k e := by
  simp [State.tabHalf]

@[simp] theorem bin_advance : ((s.advance n q).unit n).bin = (s.unit n).bin := by
  rw [State.advance, State.modSeq, Placement.unit_modUnit_self]

end

@[simp] theorem bopA_counted (s : State) (n : Nat) (c : Instr) (i : Ins) : (s.counted n 5 c).bopA n i = s.bopA n i := by
  simp [State.bopA]

@[simp] theorem bopB_counted (s : State) (n : Nat) (c : Instr) (i : Ins) : (s.counted n 5 c).bopB n i = s.bopB n i := by
  simp [State.bopB]

/-! ### The outcome of a BECTL operation -/

/-- An instruction of a sequencer whose guard lets it act, where it is allowed, that completes and raises no fault (R242). -/
theorem act_scalar_done {s t : State} {n q : Nat} {c : Instr} {i : Ins} {sta pil : Bool} {body : State → SeqRes}
    (hguarded : s.guarded n q i = true) (hplace : (if q < 5 then sta else pil) = true) (hbody : body (s.counted n q c) = .done t)
    (hdue : t.due = s.due) :
    act s (fun s => runSeq s n q c i sta pil .scalar body) = .next (t.advance n q) := by
  simp only [State.guarded, State.runs, Bool.and_eq_true] at hguarded
  obtain ⟨⟨hcalm, hready⟩, hguard⟩ := hguarded
  have hallowed : ¬(if q < 5 then !sta else !pil) = true := by
    rw [← apply_ite Bool.not, hplace]
    decide
  have hrun : runSeq s n q c i sta pil .scalar body = t.advance n q := by
    have hacts : ¬(GuardForm.scalar = .scalar ∧ ((s.seq n q).guard i).getLsbD 0 = false) := by
      rintro ⟨-, hskip⟩
      exact absurd (hguard.symm.trans hskip) (by decide)
    have hunblocked : ¬(GuardForm.scalar = .block ∧ i.pg = 0 ∧ i.pn = true) := fun h => nomatch h.1
    have hform : ¬(GuardForm.scalar = .block ∧ i.pg ≠ 0) := fun h => nomatch h.1
    have hnotReady : ¬(!s.seqReady n q) = true := by
      rw [hready]
      decide
    rw [State.counted] at hbody
    rw [runSeq, if_neg hnotReady]
    dsimp only
    rw [if_neg hacts, if_neg hunblocked, if_neg hallowed, if_neg hform, hbody]
  rw [act_quiet _ _ (live_of_calm hcalm) (by rw [hrun]; exact hdue.trans (due_of_calm hcalm)), hrun]

/-- A BECTL operation on a job that the engine has reached, which completes and changes the cores alone (R303, R304). -/
theorem bectl_done {s t : State} {n j : Nat} {i : Ins} {x : Job} {c : Instr} {mayRun : Bool} {body : State → Nat → Job → SeqRes}
    (hready : s.bectlReady n i j x = true) (hbody : body (s.counted n 5 c) j x = .done t) (hunits : UnitsOnly s t) :
    bectl s n 5 c i mayRun body = .next (t.advance n 5) := by
  simp only [State.bectlReady, Bool.and_eq_true, beq_iff_eq, Bool.not_eq_true'] at hready
  obtain ⟨⟨⟨⟨hguarded, hpilot⟩, hengine⟩, hidle⟩, hjob⟩ := hready
  refine act_scalar_done hguarded rfl ?_ hunits.due
  have hfound : (s.counted n 5 c).job j = some x := by
    rw [counted_frame]
    exact hjob
  simp only [bin_counted, hengine, job_counted, hpilot, hidle, hfound, hbody, ne_eq, not_true_eq_false, Bool.false_eq_true,
    false_and, if_false]

/-- A BECTL operation that changes the engine alone. -/
theorem bectl_engine_done {s : State} {n j : Nat} {i : Ins} {x : Job} {c : Instr} {mayRun : Bool}
    {body : State → Nat → Job → SeqRes} {f : Bin → Bin} (hready : s.bectlReady n i j x = true)
    (hbody : body (s.counted n 5 c) j x = .done ((s.counted n 5 c).modBin n f)) :
    bectl s n 5 c i mayRun body = .next (((s.counted n 5 c).modBin n f).advance n 5) :=
  bectl_done hready hbody ((unitsOnly_counted ..).modBin ..)

/-! ### The context memory and the CDF memory -/

/-- A run of entries of a map from `first` on. -/
def writeRun {α : Type} (first count : Nat) (val : Nat → α) (m : Map α) : Map α :=
  (List.range count).foldl (fun m k => mset m (first + k) (val k)) m

theorem mgetD_writeRun_in {α : Type} {first count : Nat} (val : Nat → α) (m : Map α) (d : α) {k : Nat} (hk : k < count) :
    mgetD (writeRun first count val m) (first + k) d = val k := by
  refine mgetD_foldl_mset_of_mem _ _ _ _ _ ⟨k, List.mem_range.mpr hk, rfl⟩ fun e _ he => ?_
  rw [Nat.add_left_cancel he]

theorem mgetD_writeRun_out {α : Type} {first count : Nat} (val : Nat → α) (m : Map α) (d : α) {k : Nat}
    (hk : k < first ∨ first + count ≤ k) : mgetD (writeRun first count val m) k d = mgetD m k d := by
  refine mgetD_foldl_mset_of_ne _ _ _ _ _ _ fun e he hek => ?_
  have := List.mem_range.mp he
  omega

/-- Runs of the same width, one behind the other, write each its own entries. -/
theorem mgetD_writeRuns {α : Type} (width first : Nat) (val : Nat → Nat → α) (m : Map α) (d : α) (count : Nat) {k e : Nat}
    (hk : k < count) (he : e < width) :
    mgetD ((List.range count).foldl (fun m k => writeRun (width * (first + k)) width (val k) m) m) (width * (first + k) + e) d =
      val k e := by
  induction count with
  | zero => omega
  | succ count ih =>
    rw [List.range_succ, List.foldl_append, List.foldl_cons, List.foldl_nil]
    by_cases hlast : k = count
    · subst hlast
      exact mgetD_writeRun_in _ _ _ he
    · have hbefore : width * (first + k) + width ≤ width * (first + count) := by
        rw [← Nat.mul_succ]
        exact Nat.mul_le_mul_left _ (by omega)
      rw [mgetD_writeRun_out _ _ _ (Or.inl (by omega))]
      exact ih (by omega)

/-- A run of contexts. -/
theorem ctx_foldl_setCtx (first count : Nat) (val : Nat → Nat) (b : Bin) :
    ((List.range count).foldl (fun b k => b.setCtx (first + k) (val k)) b).ctx =
      writeRun first count (fun k => BitVec.ofNat 32 (val k)) b.ctx :=
  (List.foldl_hom Bin.ctx fun _ _ => rfl).symm

/-! ### Bytes of device memory -/

theorem drop_memGetAll (m : List Host.Cell) (a k n : Nat) : (memGetAll m a (k + n)).drop k = memGetAll m (a + k) n := by
  induction k generalizing a with
  | zero => simp
  | succ k ih => rw [Nat.succ_add, memGetAll, List.drop_succ_cons, ih, Nat.add_right_comm, Nat.add_assoc]

theorem take_memGetAll (m : List Host.Cell) (a k n : Nat) : (memGetAll m a (k + n)).take k = memGetAll m a k := by
  induction k generalizing a with
  | zero => simp [memGetAll]
  | succ k ih => rw [Nat.succ_add, memGetAll, List.take_succ_cons, ih, memGetAll]

/-- A field of bytes read from memory is the number that stands there. -/
theorem leNat_field_memGetAll (m : List Host.Cell) (a : Nat) {k z n : Nat} (h : k + z ≤ n) :
    leNat (((memGetAll m a n).drop k).take z) = memNat m (a + k) z := by
  obtain ⟨r, rfl⟩ := Nat.exists_eq_add_of_le h
  rw [Nat.add_assoc, drop_memGetAll, take_memGetAll, memNat]

/-! ### Outcomes -/

/-- CTX_INIT of the contexts from `first` on (R282). -/
def initContexts (s : State) (n : Nat) (i : Ins) (b : Bin) : Bin :=
  (List.range (bits (s.bopA n i) 29 16)).foldl (fun b k => b.setCtx (bits (s.bopA n i) 12 0 + k)
    (initCtx (barg i % 4) (bits (s.bopB n i) 7 0) (s.tabWord n (bits (s.bopB n i) 30 16 + k)).toNat)) b

/-- CDF_INIT of the CDFs from `first` on (R303). -/
def initCdfs (s : State) (n : Nat) (i : Ins) (b : Bin) : Bin :=
  let first := bits (s.bopA n i) 10 0
  let count := bits (s.bopA n i) 27 16
  { b with cdf := writeRun (16 * first) (16 * count) (s.tabHalf n (bits (s.bopB n i) 14 0)) b.cdf }

/-- The contexts from `first` on as they stand in memory from address a on (R310). -/
def loadContexts (mem : List Host.Cell) (a first count : Nat) (b : Bin) : Bin :=
  (List.range count).foldl (fun b k => b.setCtx (first + k) (leNat (memGetAll mem (a + 4 * k) 4))) b

/-- Entry e of the CDF that stands in memory at address a. -/
def cdfEntry (mem : List Host.Cell) (a e : Nat) : Nat := leNat (((memGetAll mem a 32).drop (2 * e)).take 2)

/-- The CDF memory with its CDF `first + k` as it stands in memory behind k CDFs at address a. -/
def loadCdf (mem : List Host.Cell) (a first : Nat) (m : Map Nat) (k : Nat) : Map Nat :=
  writeRun (16 * (first + k)) 16 (cdfEntry mem (a + 32 * k)) m

/-- The CDFs from `first` on as they stand in memory from address a on (R310). -/
def loadCdfs (mem : List Host.Cell) (a first count : Nat) (b : Bin) : Bin :=
  (List.range count).foldl (fun b k => { b with cdf := loadCdf mem a first b.cdf k }) b

theorem ctx_loadContexts (mem : List Host.Cell) (a first : Nat) {count e : Nat} (b : Bin) (he : e < count) :
    mgetD (loadContexts mem a first count b).ctx (first + e) 0 = BitVec.ofNat 32 (memNat mem (a + 4 * e) 4) := by
  rw [loadContexts, ctx_foldl_setCtx, mgetD_writeRun_in _ _ _ he, memNat]

theorem cdf_loadCdfs (mem : List Host.Cell) (a first : Nat) {count e : Nat} (b : Bin) (he : e < 16 * count) :
    mgetD (loadCdfs mem a first count b).cdf (16 * first + e) 0 = memNat mem (a + 2 * e) 2 := by
  have hfold : (loadCdfs mem a first count b).cdf = (List.range count).foldl (loadCdf mem a first) b.cdf := by
    rw [loadCdfs, List.foldl_hom Bin.cdf]
    intro _ _
    dsimp only
  have hentry : 16 * first + e = 16 * (first + e / 16) + e % 16 := by omega
  have haddr : a + 32 * (e / 16) + 2 * (e % 16) = a + 2 * e := by omega
  unfold loadCdf at hfold
  rw [hfold, hentry, mgetD_writeRuns 16 first (fun k => cdfEntry mem (a + 32 * k)) _ _ _ (by omega) (Nat.mod_lt _ (by decide)),
    cdfEntry, leNat_field_memGetAll _ _ (by omega), haddr]

/-- A load of state from the side data of a slot that is ready for it (R220, R310). -/
theorem moveState_load {s : State} {n j m k : Nat} {i : Ins} {x : Job} {limit size count first : Nat} {get : Bin → Nat → List Byte}
    {put : Nat → List Byte → Bin → Bin} (hstream : x.stream = some m) (hslot : k = bits (barg i) 20 16)
    (hload : bit (barg i) 23 = true) (hpool : k < (s.stream m).poolSlots)
    (hready : x.slot = some k ∨ (mgetD (s.stream m).slots k {}).entropyReady = true) (halign : s.bopB n i % 4 = 0)
    (hcount : 1 ≤ count) (hfit : first + count ≤ limit) (hside : s.bopB n i + size * count ≤ 65536) :
    moveState s n j x i limit size count first get put = .done (s.modBin n fun b => (List.range count).foldl (fun b e =>
      put (first + e) (memGetAll s.mem (((s.stream m).slotGeom k).sideAddr + s.bopB n i + size * e) size) b) b) := by
  subst hslot
  have hargs : ¬(count = 0 ∨ limit < count ∨ s.bopB n i % 4 ≠ 0 ∨ 65536 < s.bopB n i + size * count ∨
      (s.stream m).poolSlots ≤ bits (barg i) 20 16) := by omega
  have hgo : ¬(x.slot ≠ some (bits (barg i) 20 16) ∧
      (!(mgetD (s.stream m).slots (bits (barg i) 20 16) {}).entropyReady) = true) := by
    rintro ⟨hne, hwait⟩
    rcases hready with h | h
    · exact hne h
    · simp [h] at hwait
  rw [moveState, hstream]
  dsimp only
  rw [if_neg hargs, if_neg (Nat.not_lt.mpr hfit), if_pos hload, if_neg hgo]

section
variable {s : State} {n j : Nat} {i : Ins} {x : Job} (hready : s.bectlReady n i j x = true)
include hready

/-- CONFIG of the descriptor base (R305). -/
theorem exec_bectlConfig_descBase (hfield : barg i % 256 = 0) (hv : s.bopA n i < 32768) :
    exec (.bectlConfig n 5 i) s = .next (((s.counted n 5 (.bectlConfig n 5 i)).modBin n fun b =>
      { b with cfg := { b.cfg with descBase := s.bopA n i } }).advance n 5) := by
  have hexec : exec (.bectlConfig n 5 i) s = execBectlConfig n 5 i s := rfl
  have hbits : bits (barg i) 7 0 = 0 := by simpa [bits] using hfield
  rw [hexec, execBectlConfig]
  refine bectl_engine_done hready ?_
  simp only [hbits, bopA_counted, hv, decide_true, if_true]

/-- CONFIG of the bin limit of a CTU, clamped to the device value (R305). -/
theorem exec_bectlConfig_maxBins (hfield : barg i % 256 = 3) (hpos : 1 ≤ s.bopA n i) (hv : s.bopA n i < 2 ^ 24) :
    exec (.bectlConfig n 5 i) s = .next (((s.counted n 5 (.bectlConfig n 5 i)).modBin n fun b =>
      { b with cfg := { b.cfg with maxBins := min (s.bopA n i) b.cfg.devBins } }).advance n 5) := by
  have hexec : exec (.bectlConfig n 5 i) s = execBectlConfig n 5 i s := rfl
  have hbits : bits (barg i) 7 0 = 3 := by simpa [bits] using hfield
  rw [hexec, execBectlConfig]
  refine bectl_engine_done hready ?_
  simp only [hbits, bopA_counted, hpos, hv, decide_true, Bool.and_self, if_true]

/-- CTX_INIT of TABLE6 or DUALRATE contexts (R282). -/
theorem exec_ctxInit (hkernel : barg i % 4 < 2) (hcount : 1 ≤ bits (s.bopA n i) 29 16)
    (hfit : bits (s.bopA n i) 12 0 + bits (s.bopA n i) 29 16 ≤ 8192)
    (htab : bits (s.bopB n i) 30 16 + bits (s.bopA n i) 29 16 ≤ 32768) :
    exec (.ctxInit n 5 i) s = .next (((s.counted n 5 (.ctxInit n 5 i)).modBin n (initContexts s n i)).advance n 5) := by
  have hexec : exec (.ctxInit n 5 i) s = execCtxInit n 5 i s := rfl
  have hargs : ¬(bits (s.bopA n i) 29 16 = 0 ∨ 8192 < bits (s.bopA n i) 29 16 ∨ barg i % 4 = 2 ∨
      32768 < bits (s.bopB n i) 30 16 + bits (s.bopA n i) 29 16) := by omega
  have hbool : barg i % 4 ≠ 3 := by omega
  rw [hexec, execCtxInit]
  refine bectl_engine_done hready ?_
  simp only [bopA_counted, bopB_counted, tabWord_counted, if_neg hargs, if_neg (Nat.not_lt.mpr hfit), hbool, false_and, if_false]
  rfl

/-- CDF_INIT (R303). -/
theorem exec_cdfInit (hhigh : bits (s.bopA n i) 31 28 = 0) (hmid : bits (s.bopA n i) 15 11 = 0)
    (hcount : 1 ≤ bits (s.bopA n i) 27 16) (hfit : bits (s.bopA n i) 10 0 + bits (s.bopA n i) 27 16 ≤ 2048)
    (htab : bits (s.bopB n i) 14 0 + 8 * bits (s.bopA n i) 27 16 ≤ 32768) :
    exec (.cdfInit n 5 i) s = .next (((s.counted n 5 (.cdfInit n 5 i)).modBin n (initCdfs s n i)).advance n 5) := by
  have hexec : exec (.cdfInit n 5 i) s = execCdfInit n 5 i s := rfl
  have hargs : ¬(bits (s.bopA n i) 27 16 = 0 ∨ 2048 < bits (s.bopA n i) 27 16 ∨ bits (s.bopA n i) 31 28 ≠ 0 ∨
      bits (s.bopA n i) 15 11 ≠ 0 ∨ 32768 < bits (s.bopB n i) 14 0 + 8 * bits (s.bopA n i) 27 16) := by omega
  rw [hexec, execCdfInit]
  refine bectl_engine_done hready ?_
  simp only [bopA_counted, bopB_counted, tabHalf_counted, if_neg hargs, if_neg (Nat.not_lt.mpr hfit)]
  rfl

section
variable {m k : Nat} (hstream : x.stream = some m) (hslot : k = bits (barg i) 20 16) (hload : bit (barg i) 23 = true)
  (hpool : k < (s.stream m).poolSlots) (hgo : x.slot = some k ∨ (mgetD (s.stream m).slots k {}).entropyReady = true)
  (halign : s.bopB n i % 4 = 0)
include hstream hslot hload hpool hgo halign

/-- CTX_MOVE that loads (R310). -/
theorem exec_ctxMove (hcount : 1 ≤ bits (s.bopA n i) 29 16) (hfit : bits (s.bopA n i) 12 0 + bits (s.bopA n i) 29 16 ≤ 8192)
    (hside : s.bopB n i + 4 * bits (s.bopA n i) 29 16 ≤ 65536) :
    exec (.ctxMove n 5 i) s = .next (((s.counted n 5 (.ctxMove n 5 i)).modBin n
      (loadContexts s.mem (((s.stream m).slotGeom k).sideAddr + s.bopB n i) (bits (s.bopA n i) 12 0)
        (bits (s.bopA n i) 29 16))).advance n 5) := by
  have hexec : exec (.ctxMove n 5 i) s = execCtxMove n 5 i s := rfl
  rw [hexec, execCtxMove]
  refine bectl_engine_done hready ?_
  rw [bopA_counted, moveState_load hstream hslot hload (by rwa [stream_counted]) (by rwa [stream_counted]) (by rwa [bopB_counted])
    hcount hfit (by rwa [bopB_counted]), mem_counted, stream_counted, bopB_counted]
  rfl

/-- CDF_MOVE that loads (R310). -/
theorem exec_cdfMove (hcount : 1 ≤ bits (s.bopA n i) 27 16) (hfit : bits (s.bopA n i) 10 0 + bits (s.bopA n i) 27 16 ≤ 2048)
    (hside : s.bopB n i + 32 * bits (s.bopA n i) 27 16 ≤ 65536) :
    exec (.cdfMove n 5 i) s = .next (((s.counted n 5 (.cdfMove n 5 i)).modBin n
      (loadCdfs s.mem (((s.stream m).slotGeom k).sideAddr + s.bopB n i) (bits (s.bopA n i) 10 0)
        (bits (s.bopA n i) 27 16))).advance n 5) := by
  have hexec : exec (.cdfMove n 5 i) s = execCdfMove n 5 i s := rfl
  rw [hexec, execCdfMove]
  refine bectl_engine_done hready ?_
  rw [bopA_counted, moveState_load hstream hslot hload (by rwa [stream_counted]) (by rwa [stream_counted]) (by rwa [bopB_counted])
    hcount hfit (by rwa [bopB_counted]), mem_counted, stream_counted, bopB_counted]
  rfl

end

/-- READER_SET of a device-side decode job (R298). -/
theorem exec_readerSet {h : Option (List Byte)} (hdecode : (s.unit n).bin.encode = false) (hdevice : x.device = true)
    (horder : s.bopA n i ≤ s.bopB n i) (hend : s.bopB n i ≤ x.input.length) :
    exec (.readerSet n 5 i h) s = .next (((s.counted n 5 (.readerSet n 5 i h)).modBin n fun b => { b with
      reader :=
        { bytes := readerBytes (bit (barg i) 0) (s.bopA n i) 0 ((x.input.drop (s.bopA n i)).take (s.bopB n i - s.bopA n i))
          input := (x.input.drop (s.bopA n i)).take (s.bopB n i - s.bopA n i)
          start := s.bopA n i, stop := s.bopB n i, consumed := b.reader.consumed } }).advance n 5) := by
  have hexec : exec (.readerSet n 5 i h) s = execReaderSet n 5 i h s := rfl
  have hlen : x.inLen = x.input.length := by simp [Job.inLen, hdevice]
  have hargs : ¬(s.bopB n i < s.bopA n i ∨ x.inLen < s.bopB n i) := by omega
  rw [hexec, execReaderSet]
  refine bectl_engine_done hready ?_
  simp only [bin_counted, hdecode, bopA_counted, bopB_counted, Bool.false_eq_true, false_or, if_neg hargs, hdevice, if_true]

end

/-- Settles O42, row by row: each operation changes the engine by one function, whose effect is read off the maps it writes. -/
theorem bectlSetupRows : Obligations.BectlSetupRows := by
  unfold Obligations.BectlSetupRows
  intro n j x i s hready
  have hunits (c : Instr) (f : Bin → Bin) : UnitsOnly s (((s.counted n 5 c).modBin n f).advance n 5) :=
    ((unitsOnly_counted ..).modBin ..).advance ..
  refine ⟨exec_bectlConfig_descBase hready, exec_bectlConfig_maxBins hready, ?contexts, ?cdfs, ?moves, ?reader, ?writer⟩
  case contexts =>
    rintro c f rfl rfl hkernel hcount hfit htab
    refine ⟨_, exec_ctxInit hready hkernel hcount hfit htab, (hunits _ _).frame, fun k hk => ?_, fun k hk => ?_⟩
    · rw [bin_advance, unit_modBin, initContexts, ctx_foldl_setCtx, mgetD_writeRun_in _ _ _ hk]
    · rw [bin_advance, unit_modBin, initContexts, ctx_foldl_setCtx, mgetD_writeRun_out _ _ _ hk, bin_counted]
  case cdfs =>
    rintro c f rfl rfl hhigh hmid hcount hfit htab
    refine ⟨_, exec_cdfInit hready hhigh hmid hcount hfit htab, (hunits _ _).frame, fun k hk => ?_, fun k hk => ?_⟩
    · rw [bin_advance, unit_modBin, initCdfs, mgetD_writeRun_in _ _ _ hk]
    · rw [bin_advance, unit_modBin, initCdfs, mgetD_writeRun_out _ _ _ (by omega), bin_counted]
  case moves =>
    rintro m k c f a hstream hslot hload hpool hgo halign rfl
    refine ⟨?_, ?_⟩
    · rintro rfl rfl hcount hfit hside
      refine ⟨_, exec_ctxMove hready hstream hslot hload hpool hgo halign hcount hfit hside, (hunits _ _).frame, fun e he => ?_⟩
      rw [bin_advance, unit_modBin, ctx_loadContexts _ _ _ _ he]
    · rintro rfl rfl hcount hfit hside
      refine ⟨_, exec_cdfMove hready hstream hslot hload hpool hgo halign hcount hfit hside, (hunits _ _).frame, fun e he => ?_⟩
      rw [bin_advance, unit_modBin, cdf_loadCdfs _ _ _ _ he]
  case reader =>
    intro h hdecode hdevice horder hend
    refine ⟨_, exec_readerSet hready hdecode hdevice horder hend, (hunits _ _).frame, ?_⟩
    rw [bin_advance, unit_modBin, bin_counted]
    exact ⟨rfl, rfl, rfl, rfl, rfl⟩
  case writer => exact bectl_engine_done hready rfl

end Sys2Proof.BinEngine
end

section
/-!
PROOF. The coding words EL, TERM, SEGOPEN, SEGCLOSE, RAW and ALIGN, and the units NALB, NALE, OBUB, OBUE and OBUN (R278, R279, R287 to
R291, R300, R301).
-/
namespace Sys2Proof.BinEngine

open Sys2Proof.Machine Sys2Proof.CodingPipeline

/-! ### Raw bits of an element (R289, R291) -/

theorem msbBits_succ (m v : Nat) : msbBits (m + 1) v = bit v m :: msbBits m v := by
  simp only [msbBits, List.range_succ_eq_map, List.map_cons, List.map_map, Nat.add_sub_cancel, Nat.sub_zero]
  refine congrArg _ (List.map_congr_left fun k _ => ?_)
  simp only [Function.comp_apply]
  congr 1
  omega

theorem length_msbBits (m v : Nat) : (msbBits m v).length = m := by simp [msbBits]

/-- An engine that has counted a bin (R306, log entry 110). -/
def binCounted (coded : Bool) (b : Bin) : Bin := { b with ctuBins := b.ctuBins + 1, bins := (b.bins + b2n coded) % 2 ^ 32 }

/-- The limit of R306 does not bind an encoder. -/
theorem countBin_of_encode {b : Bin} (h : b.encode = true) (coded : Bool) : b.countBin coded = .ok ((), binCounted coded b) := by
  rw [Bin.countBin, if_neg (by simp [h])]
  rfl

/-- An engine that has coded bits outside a segment: they are written and counted against the limit (R289, R306). -/
def rawCoded (l : List Bool) (bins : Nat) (b : Bin) : Bin :=
  { b with writer := b.writer.putBits l, ctuBins := b.ctuBins + l.length, bins := bins }

theorem rawCoded_append (l l' : List Bool) (k k' : Nat) (b : Bin) :
    rawCoded l' k' (rawCoded l k b) = rawCoded (l ++ l') k' b := by
  simp [rawCoded, Writer.putBits, Nat.add_assoc]

/-- A bin outside a segment is a raw bit (R289). -/
theorem bin_raw {b : Bin} (hencode : b.encode = true) (hseg : b.seg = none) (u : EltRun) (tab : Nat → Word) (step : Nat) (v : Bool) :
    u.bin tab step v b = .ok ((v, { u with i := u.i + 1 }), rawCoded [v] (b.bins % 2 ^ 32) b) := by
  have hlimit : ¬((!b.encode) = true ∧ u.e.maxBins ≤ u.i) := by simp [hencode]
  have hseg' : (binCounted false b).seg = none := hseg
  have hraw : (binCounted false b).rawBit v = .ok (v, rawCoded [v] (b.bins % 2 ^ 32) b) := by
    rw [Bin.rawBit, if_pos (show (binCounted false b).encode = true from hencode)]
    rfl
  rw [EltRun.bin, if_neg hlimit, hseg, Option.isSome_none, countBin_of_encode hencode]
  simp only [bind, Except.bind, hseg', hraw]
  rfl

/-- The bits of a value outside a segment, most significant first (R291). -/
theorem fixed_raw (tab : Nat → Word) (val m a : Nat) (u : EltRun) {b : Bin} (hencode : b.encode = true) (hseg : b.seg = none) :
    ∃ x k, EltRun.fixed tab val m a u b = .ok (x, rawCoded (msbBits m val) k b) := by
  induction m generalizing a u b with
  | zero => exact ⟨_, b.bins, rfl⟩
  | succ m ih =>
    obtain ⟨x, k, hrest⟩ := ih (2 * a + b2n (bit val m)) { u with i := u.i + 1 }
      (b := rawCoded [bit val m] (b.bins % 2 ^ 32) b) hencode hseg
    refine ⟨x, k, ?_⟩
    rw [EltRun.fixed, bin_raw hencode hseg, msbBits_succ]
    rw [rawCoded_append] at hrest
    exact hrest

/-! ### An element of a FIXED descriptor outside a segment (R291, R292) -/

/-- The checks that an encoder makes of a value (R290). -/
theorem check_ok {e : Elt} {v : Nat} (b : Bin) (hmax : e.maxValue = 0xFFFFFF ∨ v ≤ e.maxValue) (hv : v < 2 ^ 32) :
    e.check v b = .ok () := by
  have hgood : ¬((e.maxValue ≠ 0xFFFFFF ∧ e.maxValue < v) ∨ 2 ^ 32 ≤ v) := by omega
  rw [Elt.check, if_neg (fun h => hgood h.1), if_neg hgood]

/-- FIXED codes p1 raw bits outside a segment. -/
theorem part_fixed (u : EltRun) (tab : Nat → Word) {v : Nat} {b : Bin} (hencode : b.encode = true) (hseg : b.seg = none)
    (hbin : u.e.bin = 0) (hwidth : 1 ≤ u.e.p1) (hmax : u.e.p1 ≤ 32) (hv : v < 2 ^ u.e.p1) :
    ∃ x k, u.part tab v b = .ok ({ val := x, rest := none }, rawCoded (msbBits u.e.p1 v) k b) := by
  obtain ⟨x, k, hbits⟩ := fixed_raw tab v u.e.p1 0 u hencode hseg
  refine ⟨x.1, k, ?_⟩
  have hsize : ¬(u.e.p1 = 0 ∨ 32 < u.e.p1) := by omega
  have hfits : ¬(b.encode = true ∧ 2 ^ u.e.p1 ≤ v) := by omega
  simp only [EltRun.part, hbin, if_neg hsize, if_neg hfits, hbits]
  rfl

section
variable {tab : Nat → Word} {d v : Nat} {e : Elt} {b : Bin} (hencode : b.encode = true) (hseg : b.seg = none) (hd : d < 1023)
  (hdesc : b.cfg.descBase + 4 * d + 4 ≤ 32768) (he : e = readElt tab b.cfg.descBase d) (hbin : e.bin = 0) (hwidth : 1 ≤ e.p1)
  (hp1 : e.p1 ≤ 32) (hv : v < 2 ^ e.p1) (hmax : e.maxValue = 0xFFFFFF ∨ v ≤ e.maxValue)
include hencode hseg hd hdesc he hbin hwidth hp1 hv hmax

/-- The magnitude of an element of a FIXED descriptor, outside a segment. -/
theorem codeMagnitude_fixed (xa xb fuel : Nat) :
    ∃ x k, codeMagnitude tab xa xb (fuel + 1) d 0 v b = .ok (x, rawCoded (msbBits e.p1 v) k b) := by
  obtain ⟨x, k, hpart⟩ := part_fixed { e := e, xa := xa, xb := xb, extra := 0, i := 0 } tab hencode hseg hbin hwidth hp1 hv
  refine ⟨x, k, ?_⟩
  have hin : ¬(0x3FE < d ∨ 32768 < b.cfg.descBase + 4 * d + 4) := by omega
  have hword : v < 2 ^ 32 := Nat.lt_of_lt_of_le hv (Nat.pow_le_pow_right (by decide) hp1)
  have hstill : (rawCoded (msbBits e.p1 v) k b).encode = true := hencode
  simp only [codeMagnitude, if_neg hin, ← he, hseg, hencode, if_true, check_ok b hmax hword, hpart, bind, Except.bind, pure,
    Except.pure, hstill, Bool.not_true, Bool.false_eq_true, if_false]

/-- An element of a FIXED descriptor without a sign, outside a segment. -/
theorem codeElement_fixed (xa xb : Nat) {w : Word} (hsign : e.sign = false) (hw : w.toNat = v) :
    ∃ x k, codeElement tab d xa xb w b = .ok (x, rawCoded (msbBits e.p1 v) k b) := by
  obtain ⟨x, k, hmag⟩ := codeMagnitude_fixed hencode hseg hd hdesc he hbin hwidth hp1 hv hmax xa xb 1023
  refine ⟨BitVec.ofNat 32 x, k, ?_⟩
  simp only [codeElement, ← he, hsign, Bool.false_eq_true, if_false, false_and, hw, hmag, bind, Except.bind]

end

/-! ### Units of a stream (R299 to R301) -/

theorem insertion_raw (w : Writer) (v : Byte) : (w.raw v).insertion = w.insertion := by
  unfold Writer.raw
  split <;> rfl

theorem insertion_byte (w : Writer) (v : Byte) : (w.byte v).insertion = w.insertion := by
  unfold Writer.byte
  split
  · exact insertion_raw ..
  · dsimp only
    rw [insertion_raw]
    split
    · exact insertion_raw ..
    · rfl

theorem insertion_bit (w : Writer) (v : Bool) : (w.bit v).insertion = w.insertion := by
  unfold Writer.bit
  split
  · exact insertion_byte ..
  · rfl

theorem insertion_putBits (l : List Bool) (w : Writer) : (w.putBits l).insertion = w.insertion := by
  induction l generalizing w with
  | nil => rfl
  | cons v l ih => exact (ih (w.bit v)).trans (insertion_bit w v)

theorem insertion_pad (w : Writer) : w.pad.insertion = w.insertion := by
  unfold Writer.pad
  split
  · rfl
  · exact insertion_putBits ..

/-- The bytes of an output with the size field at p filled in (R301). -/
def sizeFilled (p : Nat) (size : List Byte) (l : List Byte) : List Byte :=
  l.zipIdx.map fun v => if p ≤ v.2 ∧ v.2 < p + 4 then size.getD (v.2 - p) 0 else v.1

theorem getElem?_sizeFilled (p : Nat) (size l : List Byte) (k : Nat) :
    (sizeFilled p size l)[k]? = l[k]?.map fun v => if p ≤ k ∧ k < p + 4 then size.getD (k - p) 0 else v := by
  simp [sizeFilled, Function.comp_def]

theorem take_sizeFilled (p : Nat) (size l : List Byte) : (sizeFilled p size l).take p = l.take p := by
  refine List.ext_getElem? fun k => ?_
  rw [List.getElem?_take, List.getElem?_take]
  split
  case isTrue hk =>
    have hout : ¬(p ≤ k ∧ k < p + 4) := by omega
    simp [getElem?_sizeFilled, hout]
  case isFalse => rfl

theorem field_sizeFilled {p : Nat} {size l : List Byte} (hsize : size.length = 4) (hl : p + 4 ≤ l.length) :
    ((sizeFilled p size l).drop p).take 4 = size := by
  refine List.ext_getElem? fun k => ?_
  rw [List.getElem?_take, List.getElem?_drop]
  split
  case isTrue hk =>
    have hin : p ≤ p + k ∧ p + k < p + 4 := by omega
    rw [getElem?_sizeFilled, List.getElem?_eq_getElem (by omega), Option.map_some, if_pos hin, Nat.add_sub_cancel_left,
      List.getD_eq_getElem?_getD, List.getElem?_eq_getElem (by omega), Option.getD_some]
  case isFalse hk => exact (List.getElem?_eq_none (by omega)).symm

theorem length_obuSize (z : Nat) : (obuSize z).length = 4 := by simp [obuSize]

/-! ### The next byte of a reader (R298) -/

theorem bit_toNat {m : Nat} (v : BitVec m) (i : Nat) : bit v.toNat i = v.getLsbD i := by
  rw [bit, BitVec.getLsbD, Nat.testBit_eq_decide_div_mod_eq]
  rfl

theorem b2n_bit (v i : Nat) : b2n (bit v i) = v / 2 ^ i % 2 := by
  rcases Nat.mod_two_eq_zero_or_one (v / 2 ^ i) with h | h <;> simp [b2n, bit, h]

/-- A reader that has gone m bits on. -/
def skipped (m : Nat) (b : Bin) : Bin :=
  { b with reader := { b.reader with pos := b.reader.pos + m, consumed := b.reader.consumed + m } }

/-- A bit of the byte that the reader stands in. -/
theorem readBit_in_byte {b : Bin} {k i o : Nat} {h : Byte} (hpos : b.reader.pos = 8 * k + i) (hi : i < 8)
    (hbyte : b.reader.bytes[k]? = some (h, o)) : b.readBit = .ok (bit h.toNat (7 - i), skipped 1 b) := by
  have hdiv : b.reader.pos / 8 = k := by omega
  have hmod : b.reader.pos % 8 = i := by omega
  rw [Bin.readBit, Reader.next, hdiv, hbyte, hmod, bit_toNat]
  rfl

/-- The next m bits of the byte that the reader stands in, behind the bits read before. -/
theorem readBits_in_byte {m a : Nat} {b : Bin} {k i o : Nat} {h : Byte} (hpos : b.reader.pos = 8 * k + i) (hi : i + m ≤ 8)
    (hbyte : b.reader.bytes[k]? = some (h, o)) :
    Bin.readBits m a b = .ok (a * 2 ^ m + h.toNat / 2 ^ (8 - i - m) % 2 ^ m, skipped m b) := by
  induction m generalizing a b i with
  | zero => simp [Bin.readBits, skipped, Nat.mod_one]
  | succ m ih =>
    have hvalue : (2 * a + b2n (bit h.toNat (7 - i))) * 2 ^ m + h.toNat / 2 ^ (8 - (i + 1) - m) % 2 ^ m =
        a * 2 ^ (m + 1) + h.toNat / 2 ^ (8 - i - (m + 1)) % 2 ^ (m + 1) := by
      have hshift : 8 - (i + 1) - m = 8 - i - (m + 1) := by omega
      rw [hshift]
      have htop : h.toNat / 2 ^ (7 - i) = h.toNat / 2 ^ (8 - i - (m + 1)) / 2 ^ m := by
        rw [Nat.div_div_eq_div_mul, ← Nat.pow_add]
        congr 2
        omega
      generalize h.toNat / 2 ^ (8 - i - (m + 1)) = q at htop
      have hold : 2 * a * 2 ^ m = a * 2 ^ (m + 1) := by
        rw [Nat.pow_succ, Nat.mul_comm 2 a, Nat.mul_assoc, Nat.mul_comm 2]
      rw [b2n_bit, htop, Nat.mod_pow_succ, Nat.add_mul, hold, Nat.mul_comm (q / 2 ^ m % 2), Nat.add_assoc,
        Nat.add_comm (2 ^ m * _)]
    rw [Bin.readBits, readBit_in_byte hpos (by omega) hbyte, ← hvalue]
    have hrest := ih (a := 2 * a + b2n (bit h.toNat (7 - i))) (b := skipped 1 b) (i := i + 1) (by rw [skipped]; dsimp only; omega)
      (by omega) hbyte
    refine hrest.trans ?_
    rw [skipped, skipped, skipped]
    simp only [Nat.add_assoc, Nat.add_comm 1 m]

/-- The next byte of a reader that stands at its first bit. -/
theorem readBits_byte {b : Bin} {k o : Nat} {h : Byte} (hpos : b.reader.pos = 8 * k) (hbyte : b.reader.bytes[k]? = some (h, o)) :
    Bin.readBits 8 0 b = .ok (h.toNat, skipped 8 b) := by
  rw [readBits_in_byte (i := 0) hpos (Nat.le_refl _) hbyte, Nat.zero_mul, Nat.zero_add, Nat.sub_zero, Nat.sub_self, Nat.pow_zero, Nat.div_one,
    Nat.mod_eq_of_lt h.isLt]

/-! ### Outcomes -/

/-- The engine once OBUN has read a header without extension and size field (R301). -/
def headerRead (w : SynWord) (h : Byte) (b : Bin) : Bin :=
  let b := skipped 8 b
  let rest := b.reader.bytes.length - b.reader.pos / 8
  (Bin.setX { b with reader := { b.reader with obuEnd := some (b.reader.offset + rest) } } w.d (BitVec.ofNat 32 h.toNat)).setX
    (w.d + 1) (BitVec.ofNat 32 rest)

theorem x_headerRead (w : SynWord) (h : Byte) (b : Bin) (hd : w.d ≠ 0) : (headerRead w h b).x_ w.d = h.setWidth 32 := by
  rw [headerRead, x_setX_ne _ (Nat.succ_ne_self _).symm, x_setX_self _ hd, BitVec.ofNat_toNat]

theorem x_succ_headerRead (w : SynWord) (h : Byte) (b : Bin) :
    (headerRead w h b).x_ (w.d + 1) = BitVec.ofNat 32 (b.reader.bytes.length - (b.reader.pos + 8) / 8) := by
  rw [headerRead, x_setX_self _ (Nat.succ_ne_zero _)]
  rfl

theorem pos_headerRead (w : SynWord) (h : Byte) (b : Bin) : (headerRead w h b).reader.pos = b.reader.pos + 8 := by
  rw [headerRead, reader_setX, reader_setX]
  rfl

/-- The engine once OBUE has filled in the size field at p (R301). -/
def obuClosed (p : Nat) (b : Bin) : Bin :=
  { b with writer := { b.writer with bytes := sizeFilled p (obuSize (b.writer.total - (p + 4))) b.writer.bytes, obu := none } }

section
variable {s : State} {n : Nat} {w : SynWord} (hruns : s.wordRuns n = true)
include hruns

/-- TERM of a 0 in an encode job (R287). -/
theorem exec_term_encode {c : Coder} (hfields : fields w true true false false = true) (hseg : (s.unit n).bin.seg = some c)
    (hkernel : c.kernel < 2) (hencode : (s.unit n).bin.encode = true) (hbit : ((s.unit n).bin.x_ w.a).getLsbD 0 = false) :
    exec (.term n w) s = .next (s.wordDone n (.term n w) (fun b => Bin.renormEnc 9 { b with
      ctuBins := b.ctuBins + 1, bins := b.bins % 2 ^ 32, seg := some { c with r := c.r - 2 } }) none) := by
  have hexec : exec (.term n w) s = execTerm n w s := rfl
  have hencode' : (binCounted false (wordBin s n (.term n w))).encode = true := hencode
  have hbit' : ¬((binCounted false (wordBin s n (.term n w))).x_ w.a).getLsbD 0 = true := Bool.eq_false_iff.mp hbit
  rw [hexec, execTerm]
  refine plainWord_done hruns hfields ?_
  rw [seg_wordBin, hseg]
  dsimp only
  rw [if_neg (Nat.not_le.mpr hkernel), countBin_of_encode (b := wordBin s n (.term n w)) hencode]
  simp only [bind, Except.bind, if_pos hencode', if_neg hbit']
  rfl

/-- TERM that reads a 1 in a decode job (R287). -/
theorem exec_term_decode {c : Coder} (hfields : fields w true true false false = true) (hseg : (s.unit n).bin.seg = some c)
    (hkernel : c.kernel < 2) (hdecode : (s.unit n).bin.encode = false) (hlimit : (s.unit n).bin.ctuBins < (s.unit n).bin.cfg.maxBins)
    (hoff : c.r - 2 ≤ c.off) :
    exec (.term n w) s = .next (s.wordDone n (.term n w) (fun b => Bin.setX { b with
      ctuBins := b.ctuBins + 1, bins := b.bins % 2 ^ 32, seg := some { c with term := true } } w.d 1) none) := by
  have hexec : exec (.term n w) s = execTerm n w s := rfl
  have hdecode' : ¬(binCounted false (wordBin s n (.term n w))).encode = true := by simpa [binCounted] using hdecode
  have hseg' : (binCounted false (wordBin s n (.term n w))).seg = some c := hseg
  have hcount : (wordBin s n (.term n w)).countBin false = .ok ((), binCounted false (wordBin s n (.term n w))) := by
    rw [Bin.countBin, if_neg (by rintro ⟨-, h⟩; exact absurd hlimit (Nat.not_lt.mpr h))]
    rfl
  rw [hexec, execTerm]
  refine plainWord_done hruns hfields ?_
  rw [seg_wordBin, hseg]
  dsimp only
  rw [if_neg (Nat.not_le.mpr hkernel), hcount]
  simp only [bind, Except.bind, if_neg hdecode', if_pos hoff, Bin.terminated, hseg']
  rfl

/-- SEGOPEN in an encode job (R278). -/
theorem exec_segopen (hfields : fields w false false false true = true) (himm : w.imm < 4) (hseg : (s.unit n).bin.seg = none)
    (hencode : (s.unit n).bin.encode = true) :
    exec (.segopen n w) s = .next (s.wordDone n (.segopen n w) (fun b => { b with
      ctuBins := 0, ctuSteps := 0,
      seg := some { kernel := w.imm, r := if w.imm = 2 then 32768 else if w.imm = 3 then 255 else 510 } }) none) := by
  have hexec : exec (.segopen n w) s = execSegopen n w s := rfl
  rw [hexec, execSegopen]
  refine plainWord_done hruns (by simp only [hfields, himm, decide_true, Bool.and_true]) ?_
  rw [if_neg (by simp [hseg])]
  dsimp only
  rw [encode_wordBin, if_pos (Or.inl hencode)]
  split
  case h_1 h => simp [h]
  case h_2 h => simp [h]
  case h_3 h2 h3 => rw [if_neg h2, if_neg h3]

/-- SEGCLOSE of a flushed segment of TABLE6 or DUALRATE (R288). -/
theorem exec_segclose {c : Coder} (hfields : fields w false false false false = true) (hseg : (s.unit n).bin.seg = some c)
    (hkernel : c.kernel < 2) (hterm : c.term = true) :
    exec (.segclose n w) s = .next (s.wordDone n (.segclose n w) (fun b => { b with seg := none }) none) := by
  have hexec : exec (.segclose n w) s = execSegclose n w s := rfl
  rw [hexec, execSegclose]
  refine plainWord_done hruns hfields ?_
  simp only [seg_wordBin, hseg, if_pos hkernel, hterm, if_true]

/-- RAW outside a segment in an encode job (R289). -/
theorem exec_raw (hfields : fields w true true false true = true) (hmin : 1 ≤ w.imm) (hmax : w.imm ≤ 32)
    (hseg : (s.unit n).bin.seg = none) (hencode : (s.unit n).bin.encode = true) :
    exec (.raw n w) s = .next (s.wordDone n (.raw n w) (fun b => { b with
      writer := b.writer.putBits (msbBits w.imm (b.x_ w.a).toNat) }) none) := by
  have hexec : exec (.raw n w) s = execRaw n w s := rfl
  rw [hexec, execRaw]
  refine plainWord_done hruns (by simp only [hfields, hmin, hmax, decide_true, Bool.and_true]) ?_
  rw [if_neg (by simp [hseg]), encode_wordBin, if_pos hencode]
  rfl

/-- ALIGN in an encode job (R296). -/
theorem exec_align (hfields : fields w false false false false = true) (hencode : (s.unit n).bin.encode = true) :
    exec (.align n w) s = .next (s.wordDone n (.align n w) (fun b => { b with writer := b.writer.pad }) none) := by
  have hexec : exec (.align n w) s = execAlign n w s := rfl
  rw [hexec, execAlign]
  exact plainWord_done hruns hfields (by rw [encode_wordBin, if_pos hencode])

/-- NALB with a long start code and one header byte (R300). -/
theorem exec_nalb (hfields : fields w false true false true = true) (himm : w.imm = 1) (hencode : (s.unit n).bin.encode = true)
    (hnal : (s.unit n).bin.writer.nal = false) :
    exec (.nalb n w) s = .next (s.wordDone n (.nalb n w) (fun b => { b with
      writer := { b.writer.octets [0, 0, 0, 1, BitVec.ofNat 8 (b.x_ w.a).toNat] with nal := true, zeros := 0 } }) none) := by
  have hexec : exec (.nalb n w) s = execNalb n w s := rfl
  have hclosed : ¬(wordBin s n (.nalb n w)).writer.nal = true := Bool.eq_false_iff.mp hnal
  rw [hexec, execNalb]
  refine act_engine_word (fits := fun s => fields w false true false true && decide (w.imm < 4) && (s.unit n).bin.encode) hruns
    (by simp [hfields, himm, hencode]) ?_
  dsimp only
  rw [if_neg hclosed, himm]
  rfl

/-- NALE with a stop bit and without insertion (R300). -/
theorem exec_nale (hfields : fields w false false false true = true) (himm : w.imm = 1) (hencode : (s.unit n).bin.encode = true)
    (hnal : (s.unit n).bin.writer.nal = true) (hinsertion : (s.unit n).bin.writer.insertion = false) :
    exec (.nale n w) s = .next (s.wordDone n (.nale n w) (fun b => { b with
      writer := { (b.writer.putBits [true]).pad with nal := false, zeros := 0 } }) none) := by
  have hexec : exec (.nale n w) s = execNale n w s := rfl
  have hopen : ¬(!(wordBin s n (.nale n w)).writer.nal) = true := by simpa [writer_wordBin] using hnal
  have hplain : ¬(((wordBin s n (.nale n w)).writer.putBits [true]).pad.insertion = true ∧
      0 < ((wordBin s n (.nale n w)).writer.putBits [true]).pad.zeros) := by
    simp [insertion_pad, insertion_putBits, writer_wordBin, hinsertion]
  rw [hexec, execNale]
  refine act_engine_word (fits := fun s => fields w false false false true && decide (w.imm < 2) && (s.unit n).bin.encode) hruns
    (by simp [hfields, himm, hencode]) ?_
  dsimp only
  rw [if_neg hopen, if_pos himm, if_neg hplain]

/-- OBUB with one header byte (R301). -/
theorem exec_obub (hfields : fields w false true false true = true) (himm : w.imm = 0) (hencode : (s.unit n).bin.encode = true)
    (hobu : (s.unit n).bin.writer.obu = none) :
    exec (.obub n w) s = .next (s.wordDone n (.obub n w) (fun b => { b with
      writer := { (b.writer.octets [BitVec.ofNat 8 (b.x_ w.a).toNat]).octets [0, 0, 0, 0] with
        obu := some (b.writer.octets [BitVec.ofNat 8 (b.x_ w.a).toNat]).total } }) none) := by
  have hexec : exec (.obub n w) s = execObub n w s := rfl
  have hclosed : ¬(wordBin s n (.obub n w)).writer.obu.isSome = true := by simp [writer_wordBin, hobu]
  rw [hexec, execObub]
  refine act_engine_word (fits := fun s => fields w false true false true && decide (w.imm < 2) && (s.unit n).bin.encode) hruns
    (by simp [hfields, himm, hencode]) ?_
  dsimp only
  rw [if_neg hclosed, himm]
  rfl

/-- OBUE of an OBU whose bytes are all still held (R301). -/
theorem exec_obue {p : Nat} (hfields : fields w false false false false = true) (hencode : (s.unit n).bin.encode = true)
    (hobu : (s.unit n).bin.writer.obu = some p) (hsize : (s.unit n).bin.writer.total - (p + 4) < 2 ^ 28)
    (hheld : (s.unit n).bin.writer.bytes.length = (s.unit n).bin.writer.total) :
    exec (.obue n w) s = .next (s.wordDone n (.obue n w) (obuClosed p) none) := by
  have hexec : exec (.obue n w) s = execObue n w s := rfl
  have hopen : (wordBin s n (.obue n w)).writer.obu = some p := hobu
  have hfits : ¬2 ^ 28 ≤ (wordBin s n (.obue n w)).writer.total - (p + 4) := Nat.not_le.mpr hsize
  have hfirst : (wordBin s n (.obue n w)).writer.total - (wordBin s n (.obue n w)).writer.bytes.length = 0 := by
    rw [writer_wordBin]
    dsimp only
    omega
  rw [hexec, execObue]
  refine act_engine_word (fits := fun s => fields w false false false false && (s.unit n).bin.encode) hruns
    (by simp [hfields, hencode]) ?_
  simp only [hopen, if_neg hfits, hfirst, Nat.zero_add]
  rfl

/-- OBUN of a header without extension and size field (R301). -/
theorem exec_obun {k o : Nat} {h : Byte} (hfields : fields w true false false false = true) (hd : w.d ≤ 14)
    (hdecode : (s.unit n).bin.encode = false) (hpos : (s.unit n).bin.reader.pos = 8 * k)
    (hbyte : (s.unit n).bin.reader.bytes[k]? = some (h, o)) (hsized : h.getLsbD 1 = false) (hextended : h.getLsbD 2 = false)
    (hlen : (s.unit n).bin.reader.bytes.length < 2 ^ 32) :
    exec (.obun n w) s = .next (s.wordDone n (.obun n w) (headerRead w h) none) := by
  have hexec : exec (.obun n w) s = execObun n w s := rfl
  have hread := readBits_byte (b := wordBin s n (.obun n w)) hpos hbyte
  have hrest : ¬(2 ^ 32 ≤ (skipped 8 (wordBin s n (.obun n w))).reader.bytes.length -
        (skipped 8 (wordBin s n (.obun n w))).reader.pos / 8 ∨
      (skipped 8 (wordBin s n (.obun n w))).reader.bytes.length - (skipped 8 (wordBin s n (.obun n w))).reader.pos / 8 <
        (skipped 8 (wordBin s n (.obun n w))).reader.bytes.length - (skipped 8 (wordBin s n (.obun n w))).reader.pos / 8) := by
    have hsame : (skipped 8 (wordBin s n (.obun n w))).reader.bytes = (s.unit n).bin.reader.bytes := rfl
    rw [hsame]
    omega
  rw [hexec, execObun]
  refine act_engine_word (fits := fun s => fields w true false false false && decide (w.d ≤ 14) && !(s.unit n).bin.encode) hruns
    (by simp [hfields, hd, hdecode]) ?_
  simp only [hread, bind, Except.bind, bit_toNat, hextended, hsized, Bool.false_eq_true, if_false, pure, Except.pure, if_neg hrest]
  rfl

/-- EL of a FIXED descriptor outside a segment, in an encode job (R289, R291). -/
theorem exec_el_fixed {e : Elt} {v : Nat} (hencode : (s.unit n).bin.encode = true) (himm : w.imm < 1023)
    (hseg : (s.unit n).bin.seg = none) (hdesc : (s.unit n).bin.cfg.descBase + 4 * w.imm + 4 ≤ 32768)
    (he : e = readElt (s.tab n) (s.unit n).bin.cfg.descBase w.imm) (hbin : e.bin = 0) (hsign : e.sign = false) (hwidth : 1 ≤ e.p1)
    (hp1 : e.p1 ≤ 32) (hvalue : v = ((s.unit n).bin.x_ w.d).toNat) (hv : v < 2 ^ e.p1)
    (hmax : e.maxValue = 0xFFFFFF ∨ v ≤ e.maxValue) :
    ∃ k, exec (.el n w) s = .next (s.wordDone n (.el n w) (rawCoded (msbBits e.p1 v) k) none) := by
  have hexec : exec (.el n w) s = execEl n w s := rfl
  obtain ⟨x, k, hcode⟩ := codeElement_fixed (tab := s.tab n) (b := wordBin s n (.el n w)) hencode hseg himm hdesc he hbin
    hwidth hp1 hv hmax ((wordBin s n (.el n w)).x_ w.a).toNat ((wordBin s n (.el n w)).x_ w.b).toNat hsign hvalue.symm
  refine ⟨k, ?_⟩
  have hstill : (rawCoded (msbBits e.p1 v) k (wordBin s n (.el n w))).encode = true := hencode
  rw [hexec, execEl]
  refine act_engine_word (fits := fun _ => decide (w.imm < 1024)) hruns (decide_eq_true (by omega)) ?_
  rw [tab_wordStart, x_wordBin s n _ w.d, hcode]
  dsimp only
  rw [if_pos hstill]

end

/-- Settles O46, word by word: each word changes the engine by one function, named in its `exec_` lemma. -/
theorem syntaxCodingWords : Obligations.SyntaxCodingWords := by
  unfold Obligations.SyntaxCodingWords
  intro n w s hruns
  refine ⟨?element, fun c => exec_term_encode hruns, fun c => exec_term_decode hruns, exec_segopen hruns,
    fun c => exec_segclose hruns, exec_raw hruns, exec_align hruns, exec_nalb hruns, exec_nale hruns, exec_obub hruns, ?obue, ?obun⟩
  case element =>
    intro e v hencode himm hseg hdesc he hbin hsign hwidth hp1 hvalue hv hmax
    obtain ⟨k, hel⟩ := exec_el_fixed hruns hencode himm hseg hdesc he hbin hsign hwidth hp1 hvalue hv hmax
    refine ⟨_, hel, (unitsOnly_wordDone _ _).frame, ?_, ?_, ?_⟩
    · rw [bin_wordDone]
      rfl
    · rw [bin_wordDone]
      exact congrArg ((s.unit n).bin.ctuBins + ·) (length_msbBits ..)
    · rw [bin_wordDone]
      rfl
  case obue =>
    intro p hfields hencode hobu hroom hsize hheld
    refine ⟨_, exec_obue hruns hfields hencode hobu hsize hheld, (unitsOnly_wordDone _ _).frame, ?_, ?_, ?_⟩
    · rw [bin_wordDone]
      rfl
    · rw [bin_wordDone]
      exact field_sizeFilled (length_obuSize _) (hheld ▸ hroom)
    · rw [bin_wordDone]
      exact take_sizeFilled ..
  case obun =>
    intro k h o hfields hd0 hd hdecode hpos hbyte hsized hextended hlen
    refine ⟨_, exec_obun hruns hfields hd hdecode hpos hbyte hsized hextended hlen, (unitsOnly_wordDone _ _).frame, ?_, ?_, ?_⟩
    · rw [bin_wordDone]
      exact x_headerRead _ _ _ (by omega)
    · have hnext : ((s.unit n).bin.reader.pos + 8) / 8 = k + 1 := by omega
      rw [bin_wordDone, ← hnext]
      exact x_succ_headerRead ..
    · rw [bin_wordDone, ← hpos]
      exact pos_headerRead ..

end Sys2Proof.BinEngine
end

section
/-!
PROOF. RCRD, GRANT_READ, RCWR and FRAME_CLOSE on the frame set that the pilot's job holds (R332 to R340).
-/
namespace Sys2Proof.CodingPipeline

open Sys2Proof.Machine

theorem UnitsOnly.setS {s t : State} (h : UnitsOnly s t) (n q r : Nat) (w : Word) : UnitsOnly s (t.setS n q r w) := by
  unfold State.setS
  split
  · exact h
  · exact h.modSeq n q _

end Sys2Proof.CodingPipeline

namespace Sys2Proof.RateControl

open Sys2Proof.Machine Sys2Proof.CodingPipeline Sys2Proof.BinEngine

/-! ### Frame sets and scalar registers after writes of a core -/

section
variable (s : State) (n q k : Nat)

@[simp] theorem rcSet_modRc_self (f : RcSet → RcSet) : (s.modRc n k f).rcSet n k = f (s.rcSet n k) := by
  simp [State.rcSet, State.modRc]

@[simp] theorem seq_modRc (f : RcSet → RcSet) : (s.modRc n k f).seq n q = s.seq n q := by
  simp [State.seq, State.modRc]

@[simp] theorem rcSet_modSeq (m : Nat) (f : Seq → Seq) : (s.modSeq n q f).rcSet m k = s.rcSet m k := by
  rw [State.rcSet, State.modSeq]
  by_cases h : m = n
  · subst h
    rw [Placement.unit_modUnit_self]
    rfl
  · rw [Placement.unit_modUnit_ne _ _ h]
    rfl

@[simp] theorem rcSet_advance : (s.advance n q).rcSet n k = s.rcSet n k := rcSet_modSeq ..

@[simp] theorem rcSet_setS (r : Nat) (w : Word) : (s.setS n q r w).rcSet n k = s.rcSet n k := by
  unfold State.setS
  split
  · rfl
  · exact rcSet_modSeq ..

@[simp] theorem sreg_advance (r : Nat) : ((s.advance n q).seq n q).sreg r = (s.seq n q).sreg r := by
  simp [State.advance, Seq.sreg]

theorem sreg_setS_self {r : Nat} (hr : r ≠ 0) (w : Word) : ((s.setS n q r w).seq n q).sreg r = w := by
  simp [State.setS, Seq.sreg, hr]

end

/-! ### What a counted instruction leaves of the frame sets -/

section
variable (s : State) (n q : Nat) (c : Instr)

@[simp] theorem rcSet_counted (m k : Nat) : (s.counted n q c).rcSet m k = s.rcSet m k := by
  unfold State.counted
  split
  · rfl
  · exact rcSet_modSeq ..

@[simp] theorem ownSet_counted (m j : Nat) : (s.counted n q c).ownSet m j = s.ownSet m j := by simp [State.ownSet]

@[simp] theorem frameCount_counted (j k : Nat) : (s.counted n q c).frameCount n j k = s.frameCount n j k := by
  simp [State.frameCount]

@[simp] theorem closeAhead_counted (j : Nat) : (s.counted n q c).closeAhead j = s.closeAhead j := by
  have hjob : (s.counted n q c).job j = s.job j := by
    rw [counted_frame]
    rfl
  have hjobs : (s.counted n q c).jobs = s.jobs := by rw [counted_frame]
  simp only [State.closeAhead, hjob, hjobs, ownSet_counted, rcSet_counted]

end

/-! ### Grants of a frame set -/

theorem qp_le_max (r : RcSet) (k : Nat) (m0 m1 : Int) : r.qp k m0 m1 ≤ bits (r.at 10) 15 8 := by
  unfold RcSet.qp
  dsimp only
  split
  · exact Nat.le_refl _
  · omega

/-- A QP fits the QP field of RC.GRANT (R333). -/
theorem qp_mod (r : RcSet) (k : Nat) (m0 m1 : Int) : r.qp k m0 m1 % 256 = r.qp k m0 m1 :=
  Nat.mod_eq_of_lt (Nat.lt_of_le_of_lt (qp_le_max ..) (Nat.mod_lt _ (by decide)))

/-- A tagged address of 0 names no map, whose byte counts as 0 (R333, R339). -/
theorem mapByte_of_no_map (s : State) {r : RcSet} {lo : Nat} (hlo : r.at lo = 0) (hhi : r.at (lo + 1) = 0) (k : Nat)
    (host : Option Byte) : s.mapByte r lo k host = some 0 := by
  simp [State.mapByte, RcSet.mapBase, hlo, hhi]

/-- The QP that the next grant of a frame set without QP maps gives (R336, R338). -/
def nextQp (r : RcSet) : Nat := r.qp r.grants 0 0

/-- The word of the next grant of a frame set without QP maps, in the layout of RC.GRANT (R333). -/
def grantWord (r : RcSet) : Word :=
  BitVec.ofNat 32 (b2n (r.floors r.grants) * 2 ^ 31 + r.grants % 65536 * 256 + nextQp r)

/-- The state once a read of GRANT has given out the next CTU of frame set k. -/
def granted (s : State) (n k d : Nat) : State :=
  (s.modRc n k fun r => r.grant (s.rcSet n k).grants (nextQp (s.rcSet n k))).setS n 5 d (grantWord (s.rcSet n k))

/-- The next CTU of frame set k can be granted, and no QP map is set (R334, R339). -/
structure Grantable (r : RcSet) : Prop where
  left : r.grants < r.at 4
  coded : r.grants + 1 ≤ r.latched.length + r.at 8
  noMap : ∀ e ∈ [0x0C, 0x0D, 0x0E, 0x0F], r.at e = 0

theorem readGrant_of_grantable {s : State} {n k : Nat} (h : Grantable (s.rcSet n k)) (i : Ins) (j : Nat)
    (host : Option Byte × Option Byte) : readGrant s n 5 i j k host = .done (granted s n k i.d) := by
  have hmap0 := mapByte_of_no_map s (h.noMap 0x0C (by decide)) (h.noMap 0x0D (by decide)) (s.rcSet n k).grants host.1
  have hmap1 := mapByte_of_no_map s (h.noMap 0x0E (by decide)) (h.noMap 0x0F (by decide)) (s.rcSet n k).grants host.2
  simp only [readGrant, if_neg (Nat.not_le.mpr h.left), if_neg (Nat.not_lt.mpr h.coded), hmap0, hmap1, qp_mod, granted, grantWord,
    nextQp]

theorem rcSet_granted (s : State) (n k d : Nat) : (granted s n k d).rcSet n k =
    (s.rcSet n k).grant (s.rcSet n k).grants (nextQp (s.rcSet n k)) := by
  simp [granted]

theorem sreg_granted (s : State) (n k : Nat) {d : Nat} (hd : d ≠ 0) :
    ((granted s n k d).seq n 5).sreg d = grantWord (s.rcSet n k) := sreg_setS_self _ n 5 hd _

theorem unitsOnly_granted {s t : State} (h : UnitsOnly s t) (n k d : Nat) : UnitsOnly s (granted t n k d) :=
  (h.modRc ..).setS ..

/-! ### Frame close -/

/-- What FRAME_CLOSE at a size of z bits does to the set's registers and OVERSHOOT (R340). -/
theorem close_debt {r : RcSet} {counted z : Nat} (hz : z = r.at 2 + counted) :
    mgetD (r.close counted).regs 0x16 0 = BitVec.ofInt 32 (max (-2147483647)
      (min ((mgetD r.regs 0x16 0).toInt + (z : Int) - (r.at 1 : Int)) 2147483647)) := by
  subst hz
  simp [RcSet.close]

theorem close_overshoot {r : RcSet} {counted z : Nat} (hz : z = r.at 2 + counted) :
    (r.close counted).overshoot = (r.overshoot || decide (r.at 0 < z)) := by
  subst hz
  have hsize : ((r.at 0 : Int) < (r.at 2 : Int) + (counted : Int)) ↔ r.at 0 < r.at 2 + counted := by omega
  simp only [RcSet.close, hsize]

/-! ### Outcomes -/

/-- A pilot instruction on its job that completes and changes the cores alone (R271). -/
theorem pilotOp_done {s t : State} {n j : Nat} {i : Ins} {c : Instr} {body : State → Nat → SeqRes}
    (hguarded : s.guarded n 5 i = true) (hjob : (s.seq n 5).job = some j) (hbody : body (s.counted n 5 c) j = .done t)
    (hunits : UnitsOnly s t) : pilotOp s n 5 c i body = .next (t.advance n 5) := by
  refine act_scalar_done hguarded rfl ?_ hunits.due
  rw [job_counted, hjob]
  exact hbody

section
variable {n j k : Nat} {i : Ins} {s : State} (hguarded : s.guarded n 5 i = true) (hjob : (s.seq n 5).job = some j)
  (hset : s.ownSet n j = some k) (hown : i.c % 2 = 0)
include hguarded hjob hset hown

/-- RCRD of a register of the own set other than GRANT (R333). -/
theorem exec_rcrd_stored {w : Word} (hreg : fld i.x 7 0 ≠ 0x10) (hread : (s.rcSet n k).read (fld i.x 7 0) = some w) :
    exec (.rcrd n 5 i) s = .next (((s.counted n 5 (.rcrd n 5 i)).setS n 5 i.d w).advance n 5) := by
  have hexec : exec (.rcrd n 5 i) s = execRcrd n 5 i s := rfl
  have hplain : ¬(i.c % 2 = 0 ∧ fld i.x 7 0 = 0x10) := fun h => hreg h.2
  rw [hexec, execRcrd]
  refine pilotOp_done hguarded hjob ?_ ((unitsOnly_counted ..).setS ..)
  rw [rateRead, ownSet_counted, hset]
  dsimp only
  rw [if_neg hplain, if_pos hown, rcSet_counted, hread]

/-- A pilot instruction that reads GRANT of the own set (R334). -/
theorem pilotOp_grant {c : Instr} {host : Option Byte × Option Byte} (hreg : fld i.x 7 0 = 0x10) (h : Grantable (s.rcSet n k)) :
    pilotOp s n 5 c i (fun s j => rateRead s n 5 i j host) = .next ((granted (s.counted n 5 c) n k i.d).advance n 5) := by
  refine pilotOp_done hguarded hjob ?_ (unitsOnly_granted (unitsOnly_counted ..) ..)
  rw [rateRead, ownSet_counted, hset]
  dsimp only
  rw [if_pos ⟨hown, hreg⟩]
  exact readGrant_of_grantable (by rwa [rcSet_counted]) i j host

/-- RCRD and GRANT_READ read GRANT alike (R334). -/
theorem exec_grant {c : Instr} {host : Option Byte × Option Byte} (hc : c ∈ [Instr.rcrd n 5 i, .grantRead n 5 i host])
    (hreg : fld i.x 7 0 = 0x10) (h : Grantable (s.rcSet n k)) :
    exec c s = .next ((granted (s.counted n 5 c) n k i.d).advance n 5) := by
  simp only [List.mem_cons, List.not_mem_nil, or_false] at hc
  obtain rfl | rfl := hc
  · have hexec : exec (.rcrd n 5 i) s = execRcrd n 5 i s := rfl
    rw [hexec, execRcrd]
    exact pilotOp_grant hguarded hjob hset hown hreg h
  · have hexec : exec (.grantRead n 5 i host) s = execGrantRead n 5 i host s := rfl
    rw [hexec, execGrantRead]
    exact pilotOp_grant hguarded hjob hset hown hreg h

/-- RCWR of a register that a program may write (R333). -/
theorem exec_rcwr_store (hreg : fld i.x 7 0 ≤ 0x0F ∨ fld i.x 7 0 = 0x16 ∨ fld i.x 7 0 = 0x18) :
    exec (.rcwr n 5 i) s = .next (((s.counted n 5 (.rcwr n 5 i)).modRc n k fun r =>
      { r with regs := mset r.regs (fld i.x 7 0) ((s.seq n 5).sreg i.a) }).advance n 5) := by
  have hexec : exec (.rcwr n 5 i) s = execRcwr n 5 i s := rfl
  rw [hexec, execRcwr]
  refine pilotOp_done hguarded hjob ?_ ((unitsOnly_counted ..).modRc ..)
  rw [rateWrite, ownSet_counted, hset]
  dsimp only
  rw [if_neg (by omega), if_pos hreg, sreg_counted]

/-- FRAME_CLOSE once no frame ahead in coding order has its close before it (R340, R341). -/
theorem exec_frameClose (hreg : fld i.x 7 0 = 0x17) (hahead : s.closeAhead j = false) :
    exec (.frameClose n 5 i) s = .next (((s.counted n 5 (.frameClose n 5 i)).modRc n k fun r =>
      r.close (s.frameCount n j k)).advance n 5) := by
  have hexec : exec (.frameClose n 5 i) s = execFrameClose n 5 i s := rfl
  have hgo : ¬s.closeAhead j = true := by
    rw [hahead]
    decide
  rw [hexec, execFrameClose]
  refine pilotOp_done hguarded hjob ?_ ((unitsOnly_counted ..).modRc ..)
  rw [rateWrite, ownSet_counted, hset]
  dsimp only
  rw [if_neg (by omega), if_neg (by omega), if_pos hreg, closeAhead_counted, if_neg hgo, frameCount_counted]

end

/-- Settles O41, row by row: each row has its `exec_` lemma, which names the state that the row leaves. -/
theorem rateControlRows : Obligations.RateControlRows := by
  unfold Obligations.RateControlRows
  intro n j k i s hguarded hjob hset hown
  refine ⟨fun w => exec_rcrd_stored hguarded hjob hset hown, ?grant, ?store, ?close⟩
  case grant =>
    intro h c hc hreg hd hleft hcoded hnoMap
    refine ⟨_, nextQp (s.rcSet n k), exec_grant hguarded hjob hset hown hc hreg ⟨hleft, hcoded, hnoMap⟩,
      ((unitsOnly_granted (unitsOnly_counted ..) ..).advance ..).frame, qp_le_max .., ?_, ?_, ?_⟩
    · rw [rcSet_advance, rcSet_granted, rcSet_counted]
      rfl
    · rw [rcSet_advance, rcSet_granted, rcSet_counted]
      rfl
    · rw [sreg_advance, sreg_granted _ _ _ hd, rcSet_counted]
      rfl
  case store =>
    intro hreg
    refine ⟨_, exec_rcwr_store hguarded hjob hset hown hreg, (((unitsOnly_counted ..).modRc ..).advance ..).frame, ?_,
      fun e he => ?_⟩
    · rw [rcSet_advance, rcSet_modRc_self]
      exact mgetD_mset_self ..
    · rw [rcSet_advance, rcSet_modRc_self, rcSet_counted]
      exact mgetD_mset_ne _ _ _ he
  case close =>
    intro z hreg hahead hz
    refine ⟨_, exec_frameClose hguarded hjob hset hown hreg hahead, (((unitsOnly_counted ..).modRc ..).advance ..).frame, ?_⟩
    rw [rcSet_advance, rcSet_modRc_self, rcSet_counted]
    exact ⟨rfl, close_debt hz, close_overshoot hz⟩

end Sys2Proof.RateControl
end

section
/-!
PROOF. A step runs the head of the queue, and the state after power-on (R59, R71, R90, R546).
-/
namespace Sys2Proof.Startup

open Sys2Proof.Machine

/-- Settles O1, from the definition of a step. -/
theorem stepRunsHeadCommand : Obligations.StepRunsHeadCommand := by
  unfold Obligations.StepRunsHeadCommand
  intro c l s hqueue
  rw [step, hqueue]

/-- A part that boots serves DEVICE, BOOT, FAULT and MGMT, and the other pages show their reset values (R90). -/
theorem serving_booting {s : State} (hstop : s.faults.stop ≠ .sealed) (hboot : s.boot.state = .booting) (p : Nat) :
    s.serving p = if p = 0 ∨ p = 1 ∨ p = 3 ∨ p = 17 then .served else .resetValues := by
  have hearly : ((p = 0 ∨ p = 3) ∨ p = 1 ∨ p = 17) ↔ (p = 0 ∨ p = 1 ∨ p = 3 ∨ p = 17) := by omega
  simp only [State.serving, if_neg hstop, hboot, hearly]

/-- A page that has not left its reset state reports OFFLINE, served or not. -/
theorem pageState_of_offline {s : State} {p : Nat} (h : (s.page p).state = .offline) : s.pageState p = .offline := by
  unfold State.pageState
  split
  · exact h
  · rfl

/-- Settles O5: the fields have the values that the state's definition gives them, and R90 gives the pages that are served. -/
theorem resetStateServesOnlyBootPages : Obligations.ResetStateServesOnlyBootPages := by
  unfold Obligations.ResetStateServesOnlyBootPages
  refine ⟨rfl, rfl, rfl, rfl, rfl, rfl, rfl, rfl, fun p _ => ⟨?_, pageState_of_offline rfl⟩⟩
  rw [serving_booting (by decide) rfl]
  split <;> simp_all

end Sys2Proof.Startup
end

section
/-!
PROOF. What a part that is not live can do (R90, R543, R546): an event of its units does nothing, so that all but the rows of
the pins, the buses and the link leave it as it is, or answer a host write. A part without power answers none of them.
-/
namespace Sys2Proof.Sealed

open Sys2Proof.Machine

/-! ### Rows of the units -/

/-- The rows of pins, PCIe link, SMBus and JTAG port, sensors, and of the requests that the host makes outside a register's
command: a part that is not live may still answer them. -/
def reachesOutside : Instr → Bool
  | .powerOn | .powerRemoval | .perstNRise .. | .perstNAssert | .hotReset | .flr | .thermalTrip .. | .monitorWindow .. => true
  | .configRequest .. | .d3hotEntry | .d0Return | .bmeClear | .bmeSet | .pmeStatusClear | .vectorMask .. | .vectorUnmask .. => true
  | .bar2Read .. | .bar2Write .. | .msixTableWrite .. | .registerWrite .. | .windowAccess .. | .timeLoRead | .claim .. => true
  | .smbTemp | .smbVddCore | .smbThermState | .smbFaultState | .smbFaultUnacked | .smbFaultNewest | .smbFaultRecord .. => true
  | .smbErrPin | .smbBootState | .smbBootAttempts | .smbBootCause | .smbBootHistory => true
  | .pcieLinkDown | .pcieLinkTrained .. => true
  | _ => false

/-- The outcomes of a row of the units: nothing, an event inside the part, or a host write to a page. -/
inductive UnitRow (s : State) : Result → Prop
  | nothing : UnitRow s (.next s)
  | event (f : State → State) : UnitRow s (act s f)
  | write (p : Nat) (f : State → State) : UnitRow s (hostCmd p s f)

/-- A row of the units does nothing in a part that is not live, or is a host write. -/
theorem UnitRow.of_dead {s : State} {r : Result} (h : UnitRow s r) (hdead : s.live = false) :
    r = .next s ∨ ∃ p f, r = hostCmd p s f := by
  cases h with
  | nothing => exact .inl rfl
  | event f => exact .inl (act_dead s f hdead)
  | write p f => exact .inr ⟨p, f, rfl⟩

theorem unitRow_wqCmd (q : Nat) (s : State) (ok : Queue → Bool) (f : State → State) : UnitRow s (wqCmd q s ok f) := by
  unfold wqCmd
  split
  · exact .nothing
  · exact .write _ _

theorem unitRow_dchCmd (k : Nat) (s : State) (f : State → State) : UnitRow s (dchCmd k s f) := by
  unfold dchCmd
  split
  · exact .write _ _
  · exact .nothing

theorem unitRow_dchAct (k : Nat) (s : State) (f : State → State) : UnitRow s (dchAct k s f) := .event _

theorem unitRow_chanCmd (c : Nat) (s : State) (f : State → State) : UnitRow s (chanCmd c s f) := by
  unfold chanCmd
  split
  · exact .nothing
  · exact .write _ _

/-! The forms that the sequencers' and the bin engine's instructions share, each an event of its unit. -/

theorem unitRow_scalarOp (s : State) (n q : Nat) (c : Instr) (i : Ins) (f : Word → Word → Word) :
    UnitRow s (scalarOp s n q c i f) := .event _

theorem unitRow_predOp (s : State) (n q : Nat) (c : Instr) (i : Ins) (two : Bool)
    (f : BitVec 256 → BitVec 256 → BitVec 256) : UnitRow s (predOp s n q c i two f) := .event _

theorem unitRow_elemOp (s : State) (n q : Nat) (c : Instr) (i : Ins) (u : EUse) (extra : Bool) (f : Int → Int → Int → Int) :
    UnitRow s (elemOp s n q c i u extra f) := .event _

theorem unitRow_tableOp (s : State) (n q : Nat) (c : Instr) (i : Ins) (modes : Nat) (legal : Nat → Nat → Bool)
    (words : State → Nat → Nat → Nat) (bs : List Nat) (f : State → Nat → Nat → SeqRes) :
    UnitRow s (tableOp s n q c i modes legal words bs f) := .event _

theorem unitRow_quantOp (s : State) (n q : Nat) (c : Instr) (i : Ins) (f : State → Int → Int → Int) :
    UnitRow s (quantOp s n q c i f) := unitRow_tableOp ..

theorem unitRow_reduceOp (s : State) (n q : Nat) (c : Instr) (i : Ins) (u : EUse) (regs : Nat) (legal : Nat → Nat → Bool)
    (f : (Nat → Nat → Int × Int × Int) → Nat → Nat → List Int) : UnitRow s (reduceOp s n q c i u regs legal f) := .event _

theorem unitRow_execRsatd (n q : Nat) (i : Ins) (s : State) : UnitRow s (execRsatd n q i s) := by
  unfold execRsatd
  exact unitRow_reduceOp ..

theorem unitRow_chanOp (s : State) (n q : Nat) (c : Instr) (i : Ins) (body : State → Nat → SeqRes) :
    UnitRow s (chanOp s n q c i body) := .event _

theorem unitRow_pilotOp (s : State) (n q : Nat) (c : Instr) (i : Ins) (body : State → Nat → SeqRes) :
    UnitRow s (pilotOp s n q c i body) := .event _

theorem unitRow_bectl (s : State) (n q : Nat) (c : Instr) (i : Ins) (mayRun : Bool) (body : State → Nat → Job → SeqRes) :
    UnitRow s (bectl s n q c i mayRun body) := .event _

theorem unitRow_plainWord (s : State) (n : Nat) (c : Instr) (fits codes : Bool) (f : Bin → Except BinStop Bin) :
    UnitRow s (plainWord s n c fits codes f) := .event _

theorem unitRow_jumpWord (s : State) (n : Nat) (c : Instr) (fits : Bool) (f : Bin → Except BinStop (Bin × Option Nat)) :
    UnitRow s (jumpWord s n c fits f) := .event _

theorem unitRow_refOp (j sub : Nat) (s : State) (f : State → Job → Nat → State) : UnitRow s (refOp j sub s f) := .event _

/-- The instruction that runs again is an event of its sequencer, as it was the first time. -/
theorem unitRow_rerun (n q : Nat) (kinds : List WaitKind) (s : State) : UnitRow s (rerun n q kinds s) := by
  unfold rerun
  dsimp only
  split
  · exact .nothing
  · split
    case h_5 | h_6 => exact unitRow_chanOp ..
    case h_7 => exact .nothing
    all_goals exact .event _

/-- Every row but those that reach outside is one of the units. -/
theorem unitRow_exec (c : Instr) (s : State) (h : reachesOutside c = false) : UnitRow s (exec c s) := by
  cases c
  case wqArm | wqPause | wqResume | wqKick | wqDiscard | wqDisarm => delta exec; exact unitRow_wqCmd ..
  case srEnter | freezeAck | dchReset => delta exec; exact unitRow_dchCmd ..
  case dmaStart | dmaAppend | dmaStop | dmaTrigger => delta exec; exact unitRow_chanCmd ..
  case scoreboardWaitEnd | channelWaitEnd | sourceRowPoll => delta exec; exact unitRow_rerun ..
  case smbTimeout => delta exec; exact .nothing
  case hostGo | dormantRetryGo | comparatorArm | comparatorDisarm | go | pageUnlock | pageRelock | unitReset | unitFence |
      unitUnfence | unitDisable | unitEnable | snapTake | snapRelease | evtSetWrite | evtPendClear | cqHead | abortReq | abortAck |
      rehomeReq | modeCommit | modeDetailAck | persLoad | persUnload | clqEnable | clqDisable | clqFlush | poolEnable |
      poolDisable | poolRebuild | bpmAllocReq | bpmAllocAck | bpmRelease | intSourceSet | intPendingClear | intSourceEnable |
      eoi | flowInsert | flowDelete | flowModify | flowLookup | meterCommit | recAck | recAckAll | errPinCtrlWrite | eqEnable |
      eqDisable | psiUpdate | txstampEnable => delta exec; exact .write _ _
  case powerOn | powerRemoval | perstNRise | perstNAssert | hotReset | flr | thermalTrip | monitorWindow | configRequest |
      d3hotEntry | d0Return | bmeClear | bmeSet | pmeStatusClear | vectorMask | vectorUnmask | bar2Read | bar2Write |
      msixTableWrite | registerWrite | windowAccess | timeLoRead | claim | smbTemp | smbVddCore | smbThermState |
      smbFaultState | smbFaultUnacked | smbFaultNewest | smbFaultRecord | smbErrPin | smbBootState | smbBootAttempts |
      smbBootCause | smbBootHistory | pcieLinkDown | pcieLinkTrained => cases h
  case dchCommandSlot | agePromote | regulatorRefill | throttleEnd | refreshWindow | refresh | selfRefreshEntry |
      selfRefreshExit | wckTracking | patrolScrub | controllerFreeze => delta exec; exact unitRow_dchAct ..
  case sadd | ssub | smul | smulh | sdiv | sand | sor | sxor | sshl | sshr | ssra | smin | smax | sadds | sclz | sli =>
    delta exec; exact unitRow_scalarOp ..
  case pand | por | pxor | pnot | pany | pall => delta exec; exact unitRow_predOp ..
  case vadd | vsub | vabs | vmin | vmax | vand | vor | vxor | vshl | vshr | vmov | vsplat | vmul | vmad | vavg | vabsd | vclip |
      vclipd | vsgn => delta exec; exact unitRow_elemOp ..
  case bfir | bfly | bmat | bqcand | blast => delta exec; exact unitRow_tableOp ..
  case bquant | bdeq => delta exec; exact unitRow_quantOp ..
  case rsatd => exact unitRow_execRsatd ..
  case rsad | rsse | rsum | rmin | rargmin => delta exec; exact unitRow_reduceOp ..
  case chsend | chrecv | chpoll => delta exec; exact unitRow_chanOp ..
  case dmastart | dmawait | rcrd | rcwr | grantRead | frameClose | evraise | jget => delta exec; exact unitRow_pilotOp ..
  case bectlConfig | ctxInit | ctxMove | cdfInit | cdfMove | readerSet | writerSet | bectlRun | bectlWait | bectlStatus |
      bectlPos | findSync | unitClose | jobEnd => delta exec; exact unitRow_bectl ..
  case synEnd | term | segopen | segclose | raw | align | li | synAdd | andi | synShl | synShr | synMin | ccopy | bits =>
    delta exec; exact unitRow_plainWord ..
  case bz | bnz | blt | synJmp | synCall | synRet => delta exec; exact unitRow_jumpWord ..
  case query | invalidate | markLong | exportPic | releaseOutput => delta exec; exact unitRow_refOp ..
  all_goals delta exec; exact .event _

/-! ### A part without power -/

section
variable {s : State} (hpower : s.power.powered = false)
include hpower

theorem not_linked_of_unpowered : s.linked = false := by simp [State.linked, hpower]

theorem smbReply_unpowered (bs : List Byte) : smbReply s bs = .next s := by simp [smbReply, hpower]

/-- No configuration request is answered without power. -/
theorem cfgAccess_unpowered (f : State → State) : cfgAccess s f = .next s := by
  simp [cfgAccess, not_linked_of_unpowered hpower]

/-- Without power the link carries no request to a memory BAR. -/
theorem memRequest_unpowered (inside : Bool) (f : State → State) : memRequest s inside f = .next s.toL0 := by
  simp [memRequest, not_linked_of_unpowered hpower]

theorem barRequest_unpowered (f : State → State) : barRequest s f = .next s.toL0 := by
  simp [barRequest, not_linked_of_unpowered hpower]

theorem execRegisterWrite_unpowered (off len : Nat) (v : DWord) (h : HostAnswers) :
    execRegisterWrite off len v h s = .next s.toL0 := by
  rw [execRegisterWrite, if_pos (.inl (by simp [not_linked_of_unpowered hpower])), barRequest_unpowered hpower]

theorem execWindowAccess_unpowered (off len : Nat) (w : Option DWord) : execWindowAccess off len w s = .next s.toL0 := by
  unfold execWindowAccess
  split
  · split
    · exact execRegisterWrite_unpowered hpower ..
    · exact barRequest_unpowered hpower _
  · exact barRequest_unpowered hpower _

theorem execVectorMask_unpowered (vec : Option Nat) : execVectorMask vec s = .next s ∨ execVectorMask vec s = .next s.toL0 := by
  unfold execVectorMask
  cases vec with
  | none => exact .inl (cfgAccess_unpowered hpower _)
  | some v => exact .inr (memRequest_unpowered hpower _ _)

theorem execVectorUnmask_unpowered (vec : Option Nat) :
    execVectorUnmask vec s = .next s ∨ execVectorUnmask vec s = .next s.toL0 := by
  unfold execVectorUnmask
  cases vec with
  | none => exact .inl (cfgAccess_unpowered hpower _)
  | some v => exact .inr (memRequest_unpowered hpower _ _)

/-- A row that reaches outside, but for those of power itself, finds no link and no bus without power. -/
theorem exec_outside_unpowered {c : Instr} (h : reachesOutside c = true) (hon : c ≠ .powerOn) (hoff : c ≠ .powerRemoval) :
    exec c s = .next s ∨ exec c s = .next s.toL0 := by
  have hlinked := not_linked_of_unpowered hpower
  have hlive := State.live_of_unpowered s hpower
  cases c
  case powerOn => exact absurd rfl hon
  case powerRemoval => exact absurd rfl hoff
  case perstNRise | perstNAssert | hotReset | flr | pcieLinkDown | pcieLinkTrained | thermalTrip | monitorWindow |
      configRequest | smbFaultRecord =>
    delta exec
    left
    simp [execPerstNRise, execPerstNAssert, execHotReset, execFlr, execPcieLinkDown, execPcieLinkTrained, execThermalTrip,
      execMonitorWindow, execConfigRequest, execSmbFaultRecord, smbReply_unpowered hpower, cfgAccess_unpowered hpower, act_dead,
      hpower, hlinked, hlive]
  case d3hotEntry | d0Return | bmeClear | bmeSet | pmeStatusClear =>
    delta exec; exact .inl (cfgAccess_unpowered hpower _)
  case smbTemp | smbVddCore | smbThermState | smbFaultState | smbFaultUnacked | smbFaultNewest | smbErrPin | smbBootState |
      smbBootAttempts | smbBootCause | smbBootHistory => exact .inl (smbReply_unpowered hpower _)
  case bar2Read | bar2Write | msixTableWrite => exact .inr (memRequest_unpowered hpower _ _)
  case vectorMask vec => exact execVectorMask_unpowered hpower vec
  case vectorUnmask vec => exact execVectorUnmask_unpowered hpower vec
  case registerWrite => exact .inr (execRegisterWrite_unpowered hpower ..)
  case windowAccess => exact .inr (execWindowAccess_unpowered hpower ..)
  case timeLoRead | claim =>
    delta exec
    right
    simp [execTimeLoRead, execClaim, hlinked]
  all_goals cases h

end

/-- Settles O4: without power an event does nothing, and a request of the host at most ends L1. -/
theorem unpoweredPartDoesNothing : Obligations.UnpoweredPartDoesNothing := by
  unfold Obligations.UnpoweredPartDoesNothing
  intro c s hpower hon hoff
  have hrow : exec c s = .next s ∨ exec c s = .next s.toL0 := by
    cases houter : reachesOutside c with
    | true => exact exec_outside_unpowered hpower houter hon hoff
    | false =>
      rcases (unitRow_exec c s houter).of_dead (State.live_of_unpowered s hpower) with h | ⟨p, f, h⟩
      · exact .inl h
      · exact .inr (h.trans (hostCmd_unlinked p s f (not_linked_of_unpowered hpower)))
  rcases hrow with h | h
  · exact ⟨s, h, rfl⟩
  · exact ⟨s.toL0, h, by rw [State.toL0_eq]⟩

end Sys2Proof.Sealed
end

section
/-!
PROOF. The sealed state (R543): no command but the removal of power leaves it.
-/
namespace Sys2Proof.Sealed

open Sys2Proof.Machine Sys2Proof.SelfTimed Sys2Proof.RegisterPages Sys2Proof.HostLink

/-! ### States that differ as a sealed part may -/

/-- Nothing of t differs from s but the PCIe function and what was sent. -/
def LinkOnly (s t : State) : Prop := t = { s with pcie := t.pcie, out := t.out }

theorem LinkOnly.refl (s : State) : LinkOnly s s := rfl

theorem LinkOnly.trans {s t u : State} (h : LinkOnly s t) (k : LinkOnly t u) : LinkOnly s u := linkOnly_trans h k

theorem linkOnly_modPcie (s : State) (f : Pcie → Pcie) : LinkOnly s (s.modPcie f) := rfl

theorem linkOnly_emit (s : State) (o : Out) : LinkOnly s (s.emit o) := rfl

theorem linkOnly_toL0 (s : State) : LinkOnly s s.toL0 := by rw [State.toL0_eq]; rfl

theorem linkOnly_raisePme (s : State) : LinkOnly s s.raisePme := by
  unfold State.raisePme
  split
  · refine .trans ?_ (State.send_linkOnly _ _)
    rfl
  · exact .refl s

theorem linkOnly_flushPba (s : State) : LinkOnly s s.flushPba := by
  unfold State.flushPba
  split
  · exact .refl s
  · refine foldl_linkOnly _ (fun t v => ?_) _ s
    split
    · refine LinkOnly.trans ?_ (State.send_linkOnly _ _)
      rfl
    · rfl

theorem linkOnly_unmasked (s : State) (l : List Nat) : LinkOnly s (s.unmasked l) := by
  unfold State.unmasked
  split
  · split
    · exact linkOnly_raisePme s
    · exact .refl s
  · exact linkOnly_flushPba s

theorem isSealed_of_linkOnly {s t : State} (hsealed : s.isSealed) (h : LinkOnly s t) : t.isSealed := by
  rw [h]
  exact hsealed

theorem sealedLike_of_linkOnly {s t : State} (hsealed : s.isSealed) (h : LinkOnly s t) : s.sealedLike t := by
  rw [h]
  exact ⟨rfl, hsealed.1⟩

theorem sealedLike_trans {s t u : State} (h : s.sealedLike t) (k : t.sealedLike u) : s.sealedLike u := by
  refine ⟨?_, k.2⟩
  rw [k.1, h.1]

/-- What a sealed part may change leaves it sealed. -/
theorem isSealed_of_sealedLike {s t : State} (hsealed : s.isSealed) (h : s.sealedLike t) : t.isSealed := by
  refine ⟨h.2, ?_⟩
  rw [h.1]
  exact hsealed.2

/-- Faults that were not taken up are dropped. -/
theorem sealedLike_settle {s t : State} (hsealed : s.isSealed) (h : LinkOnly s t) : s.sealedLike t.settle := by
  rw [State.settle_sealed t (isSealed_of_linkOnly hsealed h).2, h]
  exact ⟨rfl, hsealed.1⟩

/-- The outcome is a next state that differs from s as a sealed part may. -/
def StaysSealed (s : State) (r : Result) : Prop := ∃ t, r = .next t ∧ s.sealedLike t

theorem staysSealed_of_linkOnly {s t : State} (hsealed : s.isSealed) (h : LinkOnly s t) : StaysSealed s (.next t) :=
  ⟨t, rfl, sealedLike_of_linkOnly hsealed h⟩

section
variable {s : State} (hsealed : s.isSealed)
include hsealed

theorem staysSealed_self : StaysSealed s (.next s) := staysSealed_of_linkOnly hsealed (.refl s)

theorem UnitRow.staysSealed {r : Result} (h : UnitRow s r) : StaysSealed s r := by
  rcases h.of_dead (State.live_of_sealed s hsealed.2) with rfl | ⟨p, f, rfl⟩
  · exact staysSealed_self hsealed
  · exact hostCmd_sealed p s f hsealed

/-! ### Configuration and the link -/

/-- A configuration request works, and what it does to the PCIe function is all that it does (R543). -/
theorem staysSealed_cfgAccess {f : State → State} (hf : ∀ t : State, t.isSealed → LinkOnly t (f t)) :
    StaysSealed s (cfgAccess s f) := by
  unfold cfgAccess
  split
  · have hanswered : LinkOnly s (s.toL0.modPcie fun x => { x with cfgAnswered := true }) :=
      (linkOnly_toL0 s).trans (linkOnly_modPcie _ _)
    exact ⟨_, rfl, sealedLike_settle hsealed (hanswered.trans (hf _ (isSealed_of_linkOnly hsealed hanswered)))⟩
  · exact staysSealed_self hsealed

/-- A sealed part has nothing to resume when the bus is there again. -/
theorem busResumed_sealed : s.busResumed = s := by simp [State.busResumed, State.live_of_sealed s hsealed.2]

theorem linkOnly_modPcie_busResumed (f : Pcie → Pcie) : LinkOnly s (s.modPcie f).busResumed := by
  rw [busResumed_sealed (isSealed_of_linkOnly hsealed (linkOnly_modPcie s f))]
  exact linkOnly_modPcie s f

theorem linkOnly_configure (r : CfgReq) : LinkOnly s (s.configure r) := by
  cases r
  case writeBar | setAerFatal | setTimeoutRange | setMps | setMrrs | resizeBar2 =>
    unfold State.configure
    dsimp only
    split <;> rfl
  case setMsixEnable => exact linkOnly_modPcie_busResumed hsealed _
  all_goals rfl

theorem staysSealed_configRequest (r : CfgReq) (retry : Bool) : StaysSealed s (execConfigRequest r retry s) := by
  unfold execConfigRequest
  split
  · exact ⟨_, rfl, sealedLike_settle hsealed ((linkOnly_toL0 s).trans (linkOnly_emit _ _))⟩
  · exact staysSealed_cfgAccess hsealed fun t ht => linkOnly_configure ht r

theorem staysSealed_pcieLinkDown : StaysSealed s (execPcieLinkDown s) := by
  unfold execPcieLinkDown
  split
  · exact staysSealed_self hsealed
  · exact staysSealed_of_linkOnly hsealed ((linkOnly_modPcie s _).trans (State.report_linkOnly _ _))

theorem staysSealed_pcieLinkTrained (v : Nat) (met : LinkMet) : StaysSealed s (execPcieLinkTrained v met s) := by
  unfold execPcieLinkTrained
  split
  · exact staysSealed_self hsealed
  · have hreports := (linkOnly_modPcie s fun x => { x with linkUp := true, speed := v, width := met.width, inL1 := false }).trans
      (foldl_linkOnly State.report State.report_linkOnly (met.errs.filter aerOfLink) _)
    rw [busResumed_sealed (isSealed_of_linkOnly hsealed hreports)]
    exact staysSealed_of_linkOnly hsealed hreports

/-! ### Pins, sensors and the SMBus -/

theorem staysSealed_perstNRise (x : Straps) : StaysSealed s (execPerstNRise x s) := by
  unfold execPerstNRise
  dsimp only
  rw [if_pos hsealed.2]
  split
  · exact staysSealed_self hsealed
  · exact ⟨_, rfl, rfl, hsealed.1⟩

theorem staysSealed_perstNAssert : StaysSealed s (execPerstNAssert s) := by
  unfold execPerstNAssert
  dsimp only
  rw [if_pos hsealed.2]
  split
  · exact staysSealed_self hsealed
  · exact ⟨_, rfl, rfl, hsealed.1⟩

theorem staysSealed_hotReset : StaysSealed s (execHotReset s) := by
  unfold execHotReset
  rw [if_pos hsealed.2]
  split
  · exact staysSealed_self hsealed
  · exact ⟨_, rfl, rfl, hsealed.1⟩

theorem staysSealed_flr : StaysSealed s (execFlr s) := by
  unfold execFlr
  rw [if_pos (.inr hsealed.2)]
  exact staysSealed_self hsealed

theorem staysSealed_thermalTrip (m : Nat) : StaysSealed s (execThermalTrip m s) := by
  rw [execThermalTrip, if_pos ⟨hsealed.1, hsealed.2⟩]
  exact ⟨_, rfl, rfl, hsealed.1⟩

theorem staysSealed_monitorWindow (m n : Nat) (tj : Int) : StaysSealed s (execMonitorWindow m n tj s) := by
  rw [execMonitorWindow, if_pos ⟨hsealed.1, hsealed.2⟩]
  unfold State.monitorWindow
  split
  · exact staysSealed_self hsealed
  · exact ⟨_, rfl, rfl, hsealed.1⟩

theorem staysSealed_smbReply (bs : List Byte) : StaysSealed s (smbReply s bs) := by
  rw [smbReply, if_pos hsealed.1]
  exact staysSealed_of_linkOnly hsealed (linkOnly_emit s _)

theorem staysSealed_smbFaultRecord (i : Nat) : StaysSealed s (execSmbFaultRecord i s) := by
  unfold execSmbFaultRecord
  rw [if_pos hsealed.1]
  split
  · exact staysSealed_smbReply hsealed _
  · exact ⟨_, rfl, rfl, hsealed.1⟩

/-! ### Requests of the host -/

omit hsealed in
theorem linkOnly_refused (o : Out) : LinkOnly s (s.toL0.emit o) := (linkOnly_toL0 s).trans (linkOnly_emit _ o)

theorem staysSealed_memRequest (inside : Bool) (f : State → State) : StaysSealed s (memRequest s inside f) := by
  have htraffic := linkOnly_toL0 s
  have hdead := act_dead s.toL0 f (State.live_of_sealed _ (isSealed_of_linkOnly hsealed htraffic).2)
  unfold memRequest
  dsimp only
  rw [hdead]
  split
  · exact staysSealed_of_linkOnly hsealed htraffic
  · split
    · exact staysSealed_of_linkOnly hsealed (linkOnly_refused _)
    · exact staysSealed_of_linkOnly hsealed htraffic

theorem staysSealed_barRequest {f : State → State} (hf : ∀ t : State, t.isSealed → LinkOnly t (f t)) :
    StaysSealed s (barRequest s f) := by
  have htraffic := linkOnly_toL0 s
  unfold barRequest
  dsimp only
  split
  · exact staysSealed_of_linkOnly hsealed htraffic
  · split
    · exact staysSealed_of_linkOnly hsealed (linkOnly_refused _)
    · exact staysSealed_of_linkOnly hsealed (htraffic.trans (hf _ (isSealed_of_linkOnly hsealed htraffic)))

theorem staysSealed_vectorMask (vec : Option Nat) : StaysSealed s (execVectorMask vec s) := by
  unfold execVectorMask
  cases vec with
  | none => exact staysSealed_cfgAccess hsealed fun t _ => linkOnly_modPcie t _
  | some v => exact staysSealed_memRequest hsealed _ _

theorem staysSealed_vectorUnmask (vec : Option Nat) : StaysSealed s (execVectorUnmask vec s) := by
  unfold execVectorUnmask
  cases vec with
  | none => exact staysSealed_cfgAccess hsealed fun t _ => (linkOnly_modPcie t _).trans (linkOnly_unmasked _ _)
  | some v => exact staysSealed_memRequest hsealed _ _

/-- A sealed part answers no page but DEVICE and FAULT, and those only to reads (R90). -/
theorem serving_sealed (p : Nat) : s.serving p = if p = 0 ∨ p = 3 then .readOnly else .zero := by
  simp [State.serving, hsealed.2]

theorem not_served_sealed (p : Nat) : s.serving p ≠ .served := by
  rw [serving_sealed hsealed]
  split <;> decide

theorem staysSealed_timeLoRead : StaysSealed s (execTimeLoRead s) := by
  unfold execTimeLoRead
  dsimp only
  rw [if_pos (not_served_sealed (isSealed_of_linkOnly hsealed (linkOnly_toL0 s)) 19)]
  split
  · exact staysSealed_of_linkOnly hsealed (linkOnly_toL0 s)
  · split <;> exact staysSealed_of_linkOnly hsealed (linkOnly_refused _)

theorem staysSealed_claim (g : Nat) : StaysSealed s (execClaim g s) := by
  unfold execClaim
  dsimp only
  rw [if_pos (not_served_sealed (isSealed_of_linkOnly hsealed (linkOnly_toL0 s)) 4)]
  split
  · exact staysSealed_of_linkOnly hsealed (linkOnly_toL0 s)
  · split <;> exact staysSealed_of_linkOnly hsealed (linkOnly_refused _)

theorem refusedAccess_sealed : s.refusedAccess = s := if_pos hsealed.2

theorem windowsServed_sealed : s.windowsServed = false := by simp [State.windowsServed, hsealed.2]

theorem windowWrite_sealed (off : Nat) (w : Word) : s.windowWrite off w = s := by
  simp [State.windowWrite, windowsServed_sealed hsealed]

/-- A read of a register of a sealed part is one of DEVICE or FAULT, which have no register that a read changes. -/
theorem readWord_sealed (off : Nat) : (s.readWord off).2 = s := by
  unfold State.readWord
  dsimp only
  rw [serving_sealed hsealed]
  split
  · rfl
  · next k hk =>
    by_cases hpage : off / 0x1000 = 0 ∨ off / 0x1000 = 3
    · have hkind : k = .device ∨ k = .fault := by
        rcases hpage with h | h <;> rw [h] at hk
        · exact .inl (Option.some.inj hk).symm
        · exact .inr (Option.some.inj hk).symm
      rw [if_pos hpage]
      rcases hkind with rfl | rfl <;> simp
    · rw [if_neg hpage]

theorem regRead_sealed (off len : Nat) : (s.regRead off len).2 = s := by
  unfold State.regRead
  dsimp only
  split
  · exact refusedAccess_sealed hsealed
  · rw [readWord_sealed hsealed]
    split
    · exact readWord_sealed hsealed _
    · rfl

theorem windowRead_sealed (off len : Nat) : (s.windowRead off len).2 = s := by
  unfold State.windowRead
  rw [windowsServed_sealed hsealed, refusedAccess_sealed hsealed]
  split
  · rfl
  · rfl

end

/-! ### Register writes -/

/-- A write to a register that acts is the row of its command, and each of those is a row of the units. -/
theorem unitRow_actWrite (p off : Nat) (k : PageKind) (v : Word) (h : HostAnswers) (s : State) :
    UnitRow s (actWrite p off k v h s) := by
  unfold actWrite
  cases k <;> dsimp only
  case boot | dormant | placer => exact .write _ _
  case fault =>
    split
    · exact .write _ _
    · split <;> exact .write _ _
  case intc | mode | meter => split <;> exact .write _ _
  case qmgr | flowwin | mgmt => split <;> exact .write _ _
  case nete =>
    split
    · exact .write _ _
    · split <;> exact .write _ _
  case geyser =>
    split
    · exact .write _ _
    · split
      · exact .write _ _
      · split
        · exact .write _ _
        · split
          case h_7 => exact .write _ _
          all_goals exact unitRow_wqCmd ..
  case bpm =>
    split
    · exact .write _ _
    · split
      · exact .write _ _
      · split
        · exact .write _ _
        · split <;> exact .write _ _
  case dch =>
    split
    · exact unitRow_dchCmd ..
    · split <;> exact unitRow_dchCmd ..
  case qcomp =>
    split
    · exact .write _ _
    · split <;> exact .write _ _
  all_goals
    split
    case h_5 => exact .write _ _
    all_goals exact unitRow_chanCmd ..

section
variable {s : State} (hsealed : s.isSealed)
include hsealed

/-- A host write to a page of a sealed part is discarded, whatever its effect would be (R90). -/
theorem sealedLike_hostWrite (p : Nat) (f : State → State) : s.sealedLike (hostWrite p s f) := by
  have htraffic := linkOnly_toL0 s
  have hdead := State.live_of_sealed _ (isSealed_of_linkOnly hsealed htraffic).2
  refine sealedLike_of_linkOnly hsealed ?_
  unfold hostWrite
  dsimp only
  rw [serving_sealed (isSealed_of_linkOnly hsealed htraffic), hdead, if_neg (by decide : ¬false = true)]
  split
  · exact htraffic
  · split
    · exact linkOnly_refused _
    · split
      · exact htraffic
      · by_cases hpage : p = 0 ∨ p = 3
        · rw [if_pos hpage]
          exact htraffic
        · rw [if_neg hpage]
          exact htraffic

theorem staysSealed_writeWord (off : Nat) (v : Word) (h : HostAnswers) : StaysSealed s (writeWord off v h s) := by
  unfold writeWord
  dsimp only
  split
  · exact staysSealed_barRequest hsealed fun t ht => by rw [windowWrite_sealed ht]; exact .refl t
  · split
    · exact UnitRow.staysSealed hsealed (.write _ _)
    · split
      · exact UnitRow.staysSealed hsealed (.write _ _)
      · split
        · exact UnitRow.staysSealed hsealed (.write _ _)
        · split
          · obtain ⟨t, ht, hlike⟩ := UnitRow.staysSealed hsealed (unitRow_actWrite ..)
            rw [ht]
            dsimp only
            split
            · exact ⟨t, rfl, hlike⟩
            · exact ⟨_, rfl, sealedLike_trans hlike (sealedLike_hostWrite (isSealed_of_sealedLike hsealed hlike) _ _)⟩
          · exact UnitRow.staysSealed hsealed (.write _ _)

/-- A register write of a sealed part makes its one or two word writes, each of which leaves it sealed. -/
theorem staysSealed_registerWrite (off len : Nat) (v : DWord) (h : HostAnswers) :
    StaysSealed s (execRegisterWrite off len v h s) := by
  unfold execRegisterWrite
  split
  · refine staysSealed_barRequest hsealed fun t ht => ?_
    split
    · exact linkOnly_emit t _
    · split
      · exact State.report_linkOnly t _
      · rw [refusedAccess_sealed ht]
        exact .refl t
  · split
    · next a x b y _ =>
      obtain ⟨t, ht, hlike⟩ := staysSealed_writeWord hsealed a x h
      obtain ⟨u, hu, hlike'⟩ := staysSealed_writeWord (isSealed_of_sealedLike hsealed hlike) b y h
      rw [ht]
      exact ⟨u, hu, sealedLike_trans hlike hlike'⟩
    · exact staysSealed_writeWord hsealed _ _ h
    · exact staysSealed_self hsealed

theorem staysSealed_windowAccess (off len : Nat) (w : Option DWord) : StaysSealed s (execWindowAccess off len w s) := by
  unfold execWindowAccess
  split
  · split
    · exact staysSealed_registerWrite hsealed ..
    · refine staysSealed_barRequest hsealed fun t ht => ?_
      split
      · exact linkOnly_emit t _
      · split
        · have hnone (l : List (Nat × Word)) : l.foldl (fun t w => t.windowWrite w.1 w.2) t = t := by
            induction l with
            | nil => rfl
            | cons w l ih => rw [List.foldl_cons, windowWrite_sealed ht, ih]
          rw [hnone]
          exact .refl t
        · rw [refusedAccess_sealed ht]
          exact .refl t
  · refine staysSealed_barRequest hsealed fun t ht => ?_
    split
    · exact linkOnly_emit t _
    · split
      · dsimp only
        rw [regRead_sealed ht]
        exact linkOnly_emit t _
      · dsimp only
        rw [windowRead_sealed ht]
        exact linkOnly_emit t _

/-! ### Every command -/

/-- The rows of the pins, the link and the buses leave a sealed part sealed. -/
theorem staysSealed_outside {c : Instr} (h : reachesOutside c = true) (hoff : c ≠ .powerRemoval) : StaysSealed s (exec c s) := by
  cases c
  case powerRemoval => exact absurd rfl hoff
  case powerOn =>
    have hkeeps : exec .powerOn s = .next s := by
      delta exec
      simp [execPowerOn, hsealed.1]
    rw [hkeeps]
    exact staysSealed_self hsealed
  case perstNRise x => exact staysSealed_perstNRise hsealed x
  case perstNAssert => exact staysSealed_perstNAssert hsealed
  case hotReset => exact staysSealed_hotReset hsealed
  case flr => exact staysSealed_flr hsealed
  case thermalTrip m => exact staysSealed_thermalTrip hsealed m
  case monitorWindow m n tj => exact staysSealed_monitorWindow hsealed m n tj
  case configRequest r retry => exact staysSealed_configRequest hsealed r retry
  case d3hotEntry | bmeClear | pmeStatusClear =>
    delta exec; exact staysSealed_cfgAccess hsealed fun t _ => linkOnly_modPcie t _
  case d0Return | bmeSet => delta exec; exact staysSealed_cfgAccess hsealed fun t ht => linkOnly_modPcie_busResumed ht _
  case vectorMask vec => exact staysSealed_vectorMask hsealed vec
  case vectorUnmask vec => exact staysSealed_vectorUnmask hsealed vec
  case bar2Read | bar2Write | msixTableWrite => exact staysSealed_memRequest hsealed _ _
  case registerWrite => exact staysSealed_registerWrite hsealed ..
  case windowAccess => exact staysSealed_windowAccess hsealed ..
  case timeLoRead => exact staysSealed_timeLoRead hsealed
  case claim g => exact staysSealed_claim hsealed g
  case smbTemp | smbVddCore | smbThermState | smbFaultState | smbFaultUnacked | smbFaultNewest | smbErrPin | smbBootState |
      smbBootAttempts | smbBootCause | smbBootHistory => delta exec; exact staysSealed_smbReply hsealed _
  case smbFaultRecord i => exact staysSealed_smbFaultRecord hsealed i
  case pcieLinkDown => exact staysSealed_pcieLinkDown hsealed
  case pcieLinkTrained v met => exact staysSealed_pcieLinkTrained hsealed v met
  all_goals cases h

/-- No command but the removal of power leaves the sealed state. -/
theorem staysSealed_exec {c : Instr} (hoff : c ≠ .powerRemoval) : StaysSealed s (exec c s) := by
  cases h : reachesOutside c with
  | true => exact staysSealed_outside hsealed h hoff
  | false => exact UnitRow.staysSealed hsealed (unitRow_exec c s h)

end

/-- Settles O3: an empty queue idles, and every command but the removal of power leaves the part sealed. -/
theorem onlyPowerRemovalEndsSealedState : Obligations.OnlyPowerRemovalEndsSealedState := by
  unfold Obligations.OnlyPowerRemovalEndsSealedState
  intro s hsealed hhead
  suffices h : StaysSealed { s with pending := s.pending.tail } (step s) by
    obtain ⟨t, ht, hlike⟩ := h
    exact ⟨t, ht, isSealed_of_sealedLike (s := { s with pending := s.pending.tail }) hsealed hlike, hlike⟩
  cases hqueue : s.pending with
  | nil =>
    have hidle : step s = .next { s with pending := s.pending.tail } := by
      rw [step, hqueue]
      dsimp only
      rw [State.idle, State.live_of_sealed s hsealed.2, List.tail_nil, ← hqueue]
      rfl
    rw [hqueue] at hidle
    rw [hidle]
    exact staysSealed_self hsealed
  | cons c l =>
    have hoff : c ≠ .powerRemoval := by
      rintro rfl
      exact hhead (by rw [hqueue]; rfl)
    rw [step, hqueue]
    exact staysSealed_exec (s := { s with pending := l }) hsealed hoff

end Sys2Proof.Sealed
end

section
/-!
PROOF. The queue manager: a read of a queue with nothing to give, the queue commands, and an open that a depacketizer may not have
(R421, R425, R428, R431, R433, R434).

The row of the lost open fails: a depacketized unit that is lost also counts in its flow's drop counter (R39), which the row
says nothing of and denies.
-/
namespace Sys2Proof.CalderaQueues

open Sys2Proof.Machine Sys2Proof.SelfTimed Sys2Proof.RegisterPages

/-! ### A queue after a write -/

@[simp] theorem clq_modClq_self (s : State) (q : Nat) (f : Clq → Clq) : (s.modClq q f).clq q = f (s.clq q) := mgetD_mset_self ..

@[simp] theorem toL0_clq (s : State) (q : Nat) : s.toL0.clq q = s.clq q := by rw [State.toL0_eq]; rfl

@[simp] theorem clq_raiseEvt (s : State) (p b q : Nat) : (s.raiseEvt p b).clq q = s.clq q := rfl

@[simp] theorem clq_cellEvents (s : State) (q : Nat) : s.cellEvents.clq q = s.clq q := rfl

/-- A number below 2^12 names a queue as it is. -/
theorem queue_mod {q : Nat} (h : q < 4096) : q % 4096 = q := Nat.mod_eq_of_lt h

/-! ### The wafer (R431) -/

theorem leNat_leBytes (k n : Nat) : leNat (leBytes k n) = n % 256 ^ k := by
  induction k generalizing n with
  | zero => simp [leBytes, leNat, Nat.mod_one]
  | succ k ih =>
    rw [leBytes, leNat, ih, BitVec.toNat_ofNat, Nat.pow_succ' (n := k) (m := 256), Nat.mod_mul]

/-- A read of a queue with no packet to give. -/
theorem readClq_nothing {s : State} {q : Nat} (n : Nat) (hreading : (s.clq q).reading = none)
    (hcomplete : (s.clq q).complete = []) : s.readClq q n = { s with qm := { s.qm with item := waferBytes q } } := by
  unfold State.readClq
  simp only [hreading, hcomplete]
  split
  · next h => cases h
  · rfl

theorem exec_clqRead {q : Nat} {s : State} (n : Nat) (hcalm : s.calm = true) (hq : q < 4096)
    (hdue : (s.readClq q n).due = []) : exec (.clqRead q n) s = .next (s.readClq q n) := by
  have hexec : exec (.clqRead q n) s = execClqRead q n s := rfl
  rw [hexec, execClqRead, queue_mod hq, act_quiet _ _ (live_of_calm hcalm) hdue]

/-- Settles O60: the read returns the wafer, whose number is that of the queue. -/
theorem emptyQueueReturnsTheWafer : Obligations.EmptyQueueReturnsTheWafer := by
  unfold Obligations.EmptyQueueReturnsTheWafer
  refine ⟨fun q n s hcalm hq hreading hcomplete => ?read, fun q hq => ⟨length_leBytes .., ?number⟩⟩
  case read =>
    have hread := readClq_nothing n hreading hcomplete
    rw [exec_clqRead n hcalm hq (by rw [hread]; exact due_of_calm hcalm), hread]
  case number =>
    rw [waferBytes, crustBytes, leNat_leBytes]
    simp [b2n]
    omega

/-! ### The commands of the queue manager -/

section
variable {q : Nat} {s : State} (hq : q < 4096) (hears : s.hears 8 = true)
include hq hears

theorem exec_clqEnable : exec (.clqEnable q) s = .next (if (s.clq q).enabled then s.toL0.accessBad 8
    else if (s.clq q).cfg.ok then s.toL0.modClq q fun c => { c with enabled := true, dropped := 0 }
    else s.toL0.reject 8 1 0) := by
  have hexec : exec (.clqEnable q) s = execClqEnable q s := rfl
  rw [hexec, execClqEnable, hostCmd_quiet _ _ _ hears]
  · simp only [queue_mod hq, toL0_clq]
  · dsimp only
    split
    · exact due_of_hears hears ▸ toL0_due s
    · split <;> exact due_of_hears hears ▸ toL0_due s

theorem exec_clqDisable : exec (.clqDisable q) s = .next (
    if (s.clq q).enabled ∧ (s.clq q).cells = 0 ∧ (s.clq q).opened = none ∧ !(s.clq q).flushPending then
      s.toL0.modClq q fun c => { c with enabled := false }
    else s.toL0.accessBad 8) := by
  have hexec : exec (.clqDisable q) s = execClqDisable q s := rfl
  rw [hexec, execClqDisable, hostCmd_quiet _ _ _ hears]
  · simp only [queue_mod hq, toL0_clq]
  · dsimp only
    split <;> exact due_of_hears hears ▸ toL0_due s

/-- FLUSH asks for the flush point, where the consumer is at a packet boundary at once or later (R433). -/
theorem exec_clqFlush (hquiet : (s.clq q).enabled = true →
      ((s.toL0.modClq q fun c => { c with flushPending := true }).flushPoint q).due = []) :
    exec (.clqFlush q) s = .next (if (s.clq q).enabled then
      (s.toL0.modClq q fun c => { c with flushPending := true }).flushPoint q else s.toL0.accessBad 8) := by
  have hexec : exec (.clqFlush q) s = execClqFlush q s := rfl
  rw [hexec, execClqFlush, hostCmd_quiet _ _ _ hears]
  · simp only [queue_mod hq, toL0_clq]
  · simp only [queue_mod hq, toL0_clq]
    split
    · next henabled => exact hquiet henabled
    · exact due_of_hears hears ▸ toL0_due s

end

/-- While the consumer reads, the flush point has not come. -/
theorem flushPoint_reading {s : State} {q : Nat} (h : (s.clq q).reading.isSome = true) : s.flushPoint q = s := by
  unfold State.flushPoint
  dsimp only
  rw [if_neg (fun hpoint => by simp [hpoint.2] at h)]

/-- The packets that a flush of queue c leaves: one DISCONT, which frees what all of them would have (R434, R444). -/
def flushKept (c : Clq) : List Packet :=
  ((c.complete.filter (fun p => p.crust.typ == .discont)).take 1).map fun p =>
    { p with frees := (c.complete.filter (fun p => p.crust.typ == .discont)).flatMap Packet.frees }

theorem length_flushKept_le (c : Clq) : (flushKept c).length ≤ 1 := by
  rw [flushKept, List.length_map]
  exact List.length_take_le ..

theorem discont_of_mem_flushKept {c : Clq} {p : Packet} (h : p ∈ flushKept c) : p.crust.typ = .discont := by
  obtain ⟨k, hk, rfl⟩ := List.mem_map.mp h
  simpa using (List.mem_filter.mp (List.mem_of_mem_take hk)).2

/-- Queue c after its flush point (R434). -/
def flushed (c : Clq) : Clq :=
  { c with complete := flushKept c, flushPending := false, dropped := (c.dropped + c.complete.length) % 2 ^ 32 }

/-- Packets that refer to no buffer release none when they are flushed. -/
theorem foldl_flushPacket_of_plain {s : State} {port : Nat} {l : List Packet} (h : ∀ p ∈ l, p.crust.typ ≠ .bufref) :
    l.foldl (fun t p => t.flushPacket port p) s = s := by
  induction l with
  | nil => rfl
  | cons p l ih =>
    have hplain : s.flushPacket port p = s := if_neg fun hboth => h p List.mem_cons_self hboth.1
    rw [List.foldl_cons, hplain]
    exact ih fun k hk => h k (List.mem_cons_of_mem p hk)

/-- The flush point of a queue whose packets refer to no buffer changes the queue and events of its page. -/
theorem flushPoint_plain {s : State} {q : Nat} (hpending : (s.clq q).flushPending = true) (hreading : (s.clq q).reading = none)
    (hplain : ∀ p ∈ (s.clq q).complete, p.crust.typ ≠ .bufref) :
    s.flushPoint q = { s.modClq q flushed with pages := (s.flushPoint q).pages } := by
  unfold State.flushPoint
  dsimp only
  rw [if_pos ⟨hpending, hreading⟩, foldl_flushPacket_of_plain hplain]
  split <;> rfl

/-- Settles O21: each command has its outcome, and FLUSH of a queue that is not read that of the flush point. -/
theorem calderaQueueAdministration : Obligations.CalderaQueueAdministration := by
  unfold Obligations.CalderaQueueAdministration
  intro q s hq hears
  refine ⟨?enable, ?rejected, ?again, ?disable, ?busy, ?reading, ?flush, ?refused⟩
  case enable =>
    intro henabled hok
    rw [exec_clqEnable hq hears, henabled, hok]
    rfl
  case rejected =>
    intro henabled hok
    rw [exec_clqEnable hq hears, henabled, hok]
    rfl
  case again =>
    intro henabled
    rw [exec_clqEnable hq hears, henabled]
    rfl
  case disable =>
    intro henabled hcells hopened hpending
    rw [exec_clqDisable hq hears, if_pos ⟨henabled, hcells, hopened, by simp [hpending]⟩]
  case busy =>
    intro hbusy
    rw [exec_clqDisable hq hears, if_neg]
    rintro ⟨henabled, hcells, hopened, hpending⟩
    simp_all
  case reading =>
    intro henabled hreading
    have hstays : (s.toL0.modClq q fun c => { c with flushPending := true }).flushPoint q =
        s.toL0.modClq q fun c => { c with flushPending := true } := flushPoint_reading (by simpa using hreading)
    rw [exec_clqFlush hq hears (fun _ => by rw [hstays]; simp [due_of_hears hears]), if_pos henabled, hstays]
  case flush =>
    intro henabled hreading hplain
    have hpoint := flushPoint_plain (s := s.toL0.modClq q fun c => { c with flushPending := true }) (q := q) (by simp)
      (by simpa using hreading) (by simpa using hplain)
    have hdue : ((s.toL0.modClq q fun c => { c with flushPending := true }).flushPoint q).due = [] := by
      rw [hpoint]
      simp [due_of_hears hears]
    refine ⟨_, (exec_clqFlush hq hears fun _ => hdue).trans (by rw [if_pos henabled]), ?_⟩
    have hqueue : ((s.toL0.modClq q fun c => { c with flushPending := true }).flushPoint q).clq q =
        flushed { s.clq q with flushPending := true } := by
      rw [hpoint]
      refine (clq_modClq_self _ q flushed).trans ?_
      rw [clq_modClq_self, toL0_clq]
    refine ⟨?_, by rw [hqueue]; rfl, by rw [hqueue]; exact length_flushKept_le _, fun p hp => ?_, by rw [hqueue]; rfl⟩
    · rw [hpoint]
      rfl
    · rw [hqueue] at hp
      exact discont_of_mem_flushKept hp
  case refused =>
    intro henabled
    rw [exec_clqFlush hq hears (fun h => by simp [henabled] at h), if_neg (by simp [henabled])]

/-! ### The open that a depacketizer may not have -/

/-- A part with Caldera queue 0 bound to a depacketizer, whose limit of 0 cells lets the manager grant none, and with flow 0 in
use. -/
def starvedDepack : State where
  power := { powered := true }
  qm := { queues := [(0, { enabled := true, cfg := { producer := 2 } })] }
  net := { flows := [(0, { key := [], data := [] })] }

/-- The crust of a unit of the flow. -/
def unitCrust : Crust := { typ := .data, lastRef := false, key := false, auEnd := false, auStart := false, tag := 0 }

/-- The part meets every premise of the row of the lost open. -/
theorem starvedDepack_meets_premises :
    starvedDepack.calm = true ∧ (starvedDepack.clq 0).enabled = true ∧ (starvedDepack.clq 0).cfg.producer = 2 ∧
      (starvedDepack.clq 0).opened = none ∧ (starvedDepack.clq 0).waiting = [] ∧ starvedDepack.grants 0 = false := by
  decide +kernel

/-- The open counts in the flow's drop counter, as R39 has it. -/
theorem exec_packetOpen_starvedDepack :
    ∃ t, exec (.packetOpen (.depack 0) 0 unitCrust [] none) starvedDepack = .next t ∧ (t.flow 0).map Flow.dropped = some 1 :=
  ⟨_, rfl, by decide +kernel⟩

/-- The count of the queue alone leaves the flow's drop counter. -/
theorem countDrop_starvedDepack : ((starvedDepack.countDrop 0).flow 0).map Flow.dropped = some 0 := by decide +kernel

/-- Refutes O22: the open that flow 0 may not have also counts in the flow's drop counter, where the row lets nothing change but
the queue's count. -/
theorem not_calderaPacketRows : ¬ Obligations.CalderaPacketRows := by
  unfold Obligations.CalderaPacketRows
  rintro ⟨⟨-, lostRow, -⟩, -⟩
  obtain ⟨hcalm, henabled, hproducer, hopened, hwaiting, hgrants⟩ := starvedDepack_meets_premises
  have hrow := lostRow 0 0 unitCrust [] none starvedDepack hcalm (by decide) henabled hproducer hopened hwaiting hgrants
    (by decide)
  obtain ⟨t, ht, hdropped⟩ := exec_packetOpen_starvedDepack
  obtain rfl : starvedDepack.countDrop 0 = t := Host.Outcome.next.inj (hrow.symm.trans ht)
  rw [countDrop_starvedDepack] at hdropped
  exact absurd hdropped (by decide)

end Sys2Proof.CalderaQueues
end

section
/-!
PROOF. The life of a buffer pool (R436, R437, R440).
-/
namespace Sys2Proof.BufferPools

open Sys2Proof.Machine Sys2Proof.SelfTimed Sys2Proof.RegisterPages

@[simp] theorem pool_modPool_self (s : State) (p : Nat) (f : Pool → Pool) : (s.modPool p f).pool p = f (s.pool p) :=
  mgetD_mset_self ..

@[simp] theorem pool_setCond (s : State) (k b : Nat) (v : Bool) (p : Nat) : (s.setCond k b v).pool p = s.pool p := rfl

@[simp] theorem toL0_pool (s : State) (p : Nat) : s.toL0.pool p = s.pool p := by rw [State.toL0_eq]; rfl

@[simp] theorem toL0_poolRangeOk (s : State) (p : Nat) : s.toL0.poolRangeOk p = s.poolRangeOk p := by rw [State.toL0_eq]; rfl

@[simp] theorem toL0_poolSizeFree (s : State) (p : Nat) : s.toL0.poolSizeFree p = s.poolSizeFree p := by rw [State.toL0_eq]; rfl

/-- BROKEN_ANY follows the pools after a change of pool p (R440). -/
def poolChanged (s : State) (p : Nat) (f : Pool → Pool) : State :=
  (s.modPool p f).setCond 9 0 ((List.range 16).any fun q => ((s.modPool p f).pool q).state == .broken)

section
variable {p : Nat} {s : State} (hp : p < 16) (hears : s.hears 9 = true)
include hp hears

/-- ENABLE checks a DISABLED pool, its ranges first (R436). -/
theorem exec_poolEnable (hstate : (s.pool p).state = .disabled) :
    exec (.poolEnable p) s = .next (if s.poolRangeOk p = false then s.toL0.reject 9 1 p
      else if s.poolSizeFree p = false then s.toL0.reject 9 2 p else s.toL0.modPool p fun _ => { state := .enabling }) := by
  have hexec : exec (.poolEnable p) s = execPoolEnable p s := rfl
  have hdue : s.toL0.due = [] := (toL0_due s).trans (due_of_hears hears)
  rw [hexec, execPoolEnable, hostCmd_quiet _ _ _ hears]
  · simp [Nat.mod_eq_of_lt hp, hstate]
  · simp only [Nat.mod_eq_of_lt hp, toL0_pool, hstate, ne_eq, not_true, if_false]
    split
    · exact hdue
    · split <;> exact hdue

theorem exec_poolDisable (hstate : (s.pool p).state = .enabled ∨ (s.pool p).state = .broken) (howned : (s.pool p).owned = 0) :
    exec (.poolDisable p) s = .next (poolChanged s.toL0 p fun _ => {}) := by
  have hexec : exec (.poolDisable p) s = execPoolDisable p s := rfl
  have hfree : (((s.toL0.pool p).state = .enabled ∨ (s.toL0.pool p).state = .broken) ∧ (s.toL0.pool p).owned = 0) := by
    rw [toL0_pool]
    exact ⟨hstate, howned⟩
  rw [hexec, execPoolDisable, hostCmd_heard _ _ _ hears]
  simp only [Nat.mod_eq_of_lt hp, if_pos hfree]
  exact congrArg _ (State.settle_of_due _ ((toL0_due s).trans (due_of_hears hears)))

theorem exec_poolRebuild : exec (.poolRebuild p) s = .next (if (s.pool p).state = .broken then
    poolChanged s.toL0 p fun g => { g with state := .rebuilding, cause := 0 } else s.toL0.accessBad 9) := by
  have hexec : exec (.poolRebuild p) s = execPoolRebuild p s := rfl
  rw [hexec, execPoolRebuild, hostCmd_quiet _ _ _ hears]
  · simp only [Nat.mod_eq_of_lt hp, toL0_pool]
    rfl
  · dsimp only
    split <;> exact (toL0_due s).trans (due_of_hears hears)

end

/-! ### Threading -/

/-- A write to a tagged address changes device memory, or the PCIe function and the trace. -/
theorem writeTagged_frame (s : State) (a : Nat) (l : List Byte) (c : Bool) :
    s.writeTagged a l c =
      { s with mem := (s.writeTagged a l c).mem, pcie := (s.writeTagged a l c).pcie, out := (s.writeTagged a l c).out } := by
  unfold State.writeTagged
  split
  · split <;> rfl
  · rw [State.hostPut_linkOnly]

/-- Threading writes headers, and nothing else (R436). -/
theorem due_threadList (p : Nat) (l : List Nat) (s : State) : (s.threadList p l).due = s.due := by
  induction l generalizing s with
  | nil => rfl
  | cons i l ih =>
    unfold State.threadList
    dsimp only
    rw [ih, writeTagged_frame]

/-- The last header of an ENABLE has landed (R436). -/
theorem exec_poolThreadDone_enabling {p : Nat} {s : State} (hcalm : s.calm = true) (hp : p < 16)
    (hstate : (s.pool p).state = .enabling) (htable : s.writeRun (s.poolOwner p) (8 * s.poolCount p) = true)
    (hheaders : ((List.range (s.poolCount p)).all fun i => s.headerOk (s.bufAddr p i)) = true) :
    exec (.poolThreadDone p) s = .next (((s.zeroOwners p).threadList p (List.range (s.poolCount p))).modPool p
      fun _ => { state := .enabled, head := s.bufAddr p 0, free := s.poolCount p }) := by
  have hexec : exec (.poolThreadDone p) s = execPoolThreadDone p s := rfl
  rw [hexec, execPoolThreadDone, act_live _ _ (live_of_calm hcalm)]
  simp only [Nat.mod_eq_of_lt hp, hstate, htable, hheaders, Bool.and_self, if_true]
  exact congrArg _ (State.settle_of_due _ ((due_threadList _ _ _).trans (due_of_calm (s := s) hcalm)))

/-- Settles O19: each row from its outcome. -/
theorem poolLifeRows : Obligations.PoolLifeRows := by
  unfold Obligations.PoolLifeRows
  refine ⟨?enable, ?range, ?size, ?disable, ?rebuild, ?refused, ?threaded⟩
  case enable =>
    intro p s hears hp hstate hrange hsize
    rw [exec_poolEnable hp hears hstate, if_neg (by simp [hrange]), if_neg (by simp [hsize])]
  case range =>
    intro p s hears hp hstate hrange
    rw [exec_poolEnable hp hears hstate, if_pos hrange]
  case size =>
    intro p s hears hp hstate hrange hsize
    rw [exec_poolEnable hp hears hstate, if_neg (by simp [hrange]), if_pos hsize]
  case disable =>
    intro p s hears hp hstate howned
    exact ⟨_, exec_poolDisable hp hears hstate howned, by simp [poolChanged]⟩
  case rebuild =>
    intro p s hears hp hstate
    exact ⟨_, (exec_poolRebuild hp hears).trans (by rw [if_pos hstate]), by simp [poolChanged], by simp [poolChanged]⟩
  case refused =>
    intro p s hears hp hstate
    rw [exec_poolRebuild hp hears, if_neg hstate]
  case threaded =>
    intro p s hcalm hp hstate htable hheaders
    exact ⟨_, exec_poolThreadDone_enabling hcalm hp hstate htable hheaders, pool_modPool_self ..⟩

end Sys2Proof.BufferPools
end

section
/-!
PROOF. The rows of the DMA engines (R448, R453): a descriptor read that waits for a tag of the link takes no answer.
-/
namespace Sys2Proof.DmaEngines
open Sys2Proof.Machine

/-- The bytes of a descriptor that copies one byte and ends its chain. -/
def oneByteCopy : List Byte :=
  List.replicate 16 0 ++ [1, 0, 0, 0, 0, 0, 0, 0x80] ++ List.replicate 8 0 ++ List.replicate 4 0xFF ++ List.replicate 28 0

/-- A part whose channel 0 reads its descriptor at host address 0, with that read still waiting for a tag. -/
def waitingFetch : State where
  power := { powered := true, perstHigh := true }
  pcie := { linkUp := true, bme := true, waits := [(.desc 0, 0, 64)] }
  dma := { chans := [(0, { state := .running, fetching := some 0 })] }

/-- The part and the descriptor meet every premise of the row of the accepted descriptor. -/
theorem waitingFetch_meets_premises :
    waitingFetch.calm = true ∧ (waitingFetch.chan 0).state = .running ∧ (waitingFetch.chan 0).fetching = some 0 ∧
      (waitingFetch.chan 0).refetch = false ∧ (waitingFetch.chan 0).desc = none ∧ (waitingFetch.chan 0).job = none ∧
      waitingFetch.hostReach = true ∧ waitingFetch.readTagged 0 64 (some oneByteCopy) = some oneByteCopy ∧
      waitingFetch.descFormat 0 (parseDesc 0 oneByteCopy) oneByteCopy = true ∧ (parseDesc 0 oneByteCopy).op ≤ 1 ∧
      (parseDesc 0 oneByteCopy).holds = false ∧ (parseDesc 0 oneByteCopy).handle = 0xFFFFFFFF := by
  decide +kernel

/-- The read has no tag yet, so the row leaves the channel without a descriptor. -/
theorem exec_descriptorFetch_waitingFetch :
    ∃ t, exec (.descriptorFetch 0 (some oneByteCopy)) waitingFetch = .next t ∧ (t.chan 0).desc = none :=
  ⟨_, rfl, by decide +kernel⟩

/-- Refutes O24: while the read of a descriptor in host memory waits for a tag of the link (R99), no answer of it is taken,
although the host can be reached. -/
theorem not_dmaEngineRows : ¬ Obligations.DmaEngineRows := by
  unfold Obligations.DmaEngineRows
  rintro ⟨fetched, -⟩
  obtain ⟨hcalm, hrun, hfetch, hrefetch, hdesc, hjob, hreach, hread, hformat, hop, hholds, hhandle⟩ :=
    waitingFetch_meets_premises
  obtain ⟨t, ht, -, -, hbegun, -⟩ := fetched 0 0 oneByteCopy _ waitingFetch hcalm hrun hfetch hrefetch hdesc hjob (.inr hreach)
    hread rfl hformat hop hholds hhandle
  obtain ⟨u, hu, hnone⟩ := exec_descriptorFetch_waitingFetch
  obtain rfl : u = t := Host.Outcome.next.inj (hu.symm.trans ht)
  rw [hnone] at hbegun
  cases hbegun

end Sys2Proof.DmaEngines
end

section
/-!
PROOF. The host's commands to a DMA channel (R451, R452, R454, R459, R464).
-/
namespace Sys2Proof.DmaCommands
open Sys2Proof.Machine Sys2Proof.SelfTimed Sys2Proof.RegisterPages

/-! ### Channels, and the fields that a command reads -/

@[simp] theorem chan_modChan_self (s : State) (c : Nat) (f : Channel → Channel) : (s.modChan c f).chan c = f (s.chan c) :=
  mgetD_mset_self ..

theorem chan_modChan_ne (s : State) {c e : Nat} (f : Channel → Channel) (h : e ≠ c) : (s.modChan c f).chan e = s.chan e :=
  mgetD_mset_ne _ _ _ h

@[simp] theorem toL0_chan (s : State) (c : Nat) : s.toL0.chan c = s.chan c := by rw [State.toL0_eq]; rfl

@[simp] theorem toL0_chanHost (s : State) (c : Nat) : s.toL0.chanHost c = s.chanHost c := by rw [State.toL0_eq]; rfl

@[simp] theorem toL0_chanTrig (s : State) (c : Nat) : s.toL0.chanTrig c = s.chanTrig c := by rw [State.toL0_eq]; rfl

@[simp] theorem toL0_chanStep (s : State) (c : Nat) : s.toL0.chanStep c = s.chanStep c := by rw [State.toL0_eq]; rfl

@[simp] theorem toL0_chainHead (s : State) (c : Nat) : s.toL0.chainHead c = s.chainHead c := by rw [State.toL0_eq]; rfl

@[simp] theorem toL0_startAddr (s : State) (c : Nat) : s.toL0.startAddr c = s.startAddr c := by rw [State.toL0_eq]; rfl

@[simp] theorem toL0_takes (s : State) (p : Nat) : s.toL0.takes p = s.takes p := by rw [State.toL0_eq]; rfl

/-! ### A channel that begins to fetch -/

/-- Nothing of t differs from s but the DMA channels, the PCIe function and what was sent. -/
def FetchOnly (s t : State) : Prop := t = { s with dma := t.dma, pcie := t.pcie, out := t.out }

theorem FetchOnly.trans {s t u : State} (h : FetchOnly s t) (k : FetchOnly t u) : FetchOnly s u := by
  unfold FetchOnly at *
  rw [k, h]

theorem FetchOnly.due_eq {s t : State} (h : FetchOnly s t) : t.due = s.due := by rw [h]

theorem fetchOnly_modChan (s : State) (c : Nat) (f : Channel → Channel) : FetchOnly s (s.modChan c f) := rfl

/-- The read of the link leaves or waits (R99), and the channels stand. -/
theorem fetchOnly_issueRead (s : State) (r : HostReq) (a n : Nat) : FetchOnly s (s.issueRead r a n) := by
  unfold State.issueRead
  split
  · unfold FetchOnly
    rw [State.hostAsk_linkOnly]
  · rfl

theorem chan_issueRead (s : State) (r : HostReq) (a n e : Nat) : (s.issueRead r a n).chan e = s.chan e := by
  unfold State.issueRead
  split
  · rw [State.hostAsk_linkOnly]
    rfl
  · rfl

theorem fetchOnly_fetchDesc (s : State) (c a : Nat) : FetchOnly s (s.fetchDesc c a) := by
  unfold State.fetchDesc
  split
  · exact fetchOnly_modChan s c _
  · exact FetchOnly.trans (t := s.issueRead (.desc c) a 64) (fetchOnly_issueRead ..) (fetchOnly_modChan _ c _)

theorem chan_fetchDesc_self (s : State) (c a : Nat) : (s.fetchDesc c a).chan c = { s.chan c with fetching := some a } := by
  unfold State.fetchDesc
  split
  · exact chan_modChan_self ..
  · rw [chan_modChan_self, chan_issueRead]

theorem chan_fetchDesc_ne (s : State) {c e : Nat} (a : Nat) (h : e ≠ c) : (s.fetchDesc c a).chan e = s.chan e := by
  unfold State.fetchDesc
  split
  · exact chan_modChan_ne s _ h
  · rw [chan_modChan_ne _ _ h, chan_issueRead]

/-- A channel that changes and then fetches at a. -/
theorem fetch_of_modChan (s : State) (c a : Nat) (f : Channel → Channel) :
    FetchOnly s ((s.modChan c f).fetchDesc c a) ∧
      ((s.modChan c f).fetchDesc c a).chan c = { f (s.chan c) with fetching := some a } ∧
      ∀ e, e ≠ c → ((s.modChan c f).fetchDesc c a).chan e = s.chan e :=
  ⟨(fetchOnly_modChan s c f).trans (fetchOnly_fetchDesc _ c a), by rw [chan_fetchDesc_self, chan_modChan_self],
    fun e he => by rw [chan_fetchDesc_ne _ a he, chan_modChan_ne s f he]⟩

/-- A descriptor in device memory takes no read of the link. -/
theorem fetchDesc_of_isDev (s : State) (c : Nat) {a : Nat} (h : isDev a = true) :
    s.fetchDesc c a = s.modChan c fun x => { x with fetching := some a } := by rw [State.fetchDesc, if_pos h]

/-! ### The commands -/

section
variable {c : Nat} {s : State} (hc : c < 256) (hears : s.hears (chanPage c) = true)
include hc hears

/-- A command to a channel of the host has its effect on a part that is in L0. -/
theorem chanCmd_host (hhost : s.chanHost c = true) {f : State → State} (hdue : (f s.toL0).due = []) :
    chanCmd c s f = .next (f s.toL0) := by
  rw [chanCmd, if_neg (by omega), hostCmd_quiet _ _ _ hears]
  · simp [hhost]
  · simpa [hhost] using hdue

/-- A command to a channel of the pilot is refused (R451). -/
theorem chanCmd_pilot (hhost : s.chanHost c = false) (f : State → State) :
    chanCmd c s f = .next (s.toL0.accessBad (chanPage c)) := by
  have hdue : (s.toL0.accessBad (chanPage c)).due = [] := (toL0_due s).trans (due_of_hears hears)
  rw [chanCmd, if_neg (by omega), hostCmd_quiet _ _ _ hears]
  · simp [hhost]
  · simpa [hhost] using hdue

/-- A command to a channel of the host that changes no more than a fetch does. -/
theorem chanCmd_fetch (hhost : s.chanHost c = true) {f : State → State} (hf : FetchOnly s.toL0 (f s.toL0)) :
    chanCmd c s f = .next (f s.toL0) :=
  chanCmd_host hc hears hhost (by rw [hf.due_eq, toL0_due, due_of_hears hears])

/-- START (R451). -/
theorem exec_dmaStart_run (hhost : s.chanHost c = true) (htakes : s.takes (chanPage c) = true)
    (hstate : (s.chan c).state = .idle ∨ (s.chan c).state = .armed ∨ (s.chan c).state = .ended) :
    exec (.dmaStart c) s = .next (s.toL0.chanRun c (s.startAddr c)) := by
  have hexec : exec (.dmaStart c) s = execDmaStart c s := rfl
  have honly : FetchOnly s.toL0 (s.toL0.chanRun c (s.startAddr c)) := (fetch_of_modChan s.toL0 c _ _).1
  rw [hexec, execDmaStart]
  rcases hstate with h | h | h <;> rw [chanCmd_fetch hc hears hhost] <;>
    simp only [toL0_chan, toL0_takes, toL0_startAddr, h, htakes, if_true] <;> exact honly

/-- START of a channel that runs is refused (R451). -/
theorem exec_dmaStart_busy (hhost : s.chanHost c = true) (hstate : (s.chan c).state = .running ∨ (s.chan c).state = .held) :
    exec (.dmaStart c) s = .next (s.toL0.accessBad (chanPage c)) := by
  have hexec : exec (.dmaStart c) s = execDmaStart c s := rfl
  have hdue : (s.toL0.accessBad (chanPage c)).due = [] := (toL0_due s).trans (due_of_hears hears)
  rw [hexec, execDmaStart]
  rcases hstate with h | h <;> rw [chanCmd_host hc hears hhost] <;> simp only [toL0_chan, h, hdue]

end

/-- Settles O23: each command either changes its channel alone or makes it fetch, and a channel of the pilot refuses all four. -/
theorem dmaCommandRows : Obligations.DmaCommandRows := by
  unfold Obligations.DmaCommandRows
  intro c s hc hears
  have happend : exec (.dmaAppend c) s = execDmaAppend c s := rfl
  have hstop : exec (.dmaStop c) s = execDmaStop c s := rfl
  have htrigger : exec (.dmaTrigger c) s = execDmaTrigger c s := rfl
  have hdue0 : s.toL0.due = [] := (toL0_due s).trans (due_of_hears hears)
  refine ⟨?start, exec_dmaStart_busy hc hears, ?held, ?ended, ?behindEnd, ?ignored, ?stop, ?stopped, ?run, ?count,
    fun hhost => ?pilot⟩
  case start =>
    intro hhost htakes hstate
    obtain ⟨honly, hself, hother⟩ := fetch_of_modChan s.toL0 c (s.startAddr c) fun x => { x with
      state := .running, error := 0, refetch := false, ahead := none, desc := none, endSeen := false, appendMark := false
      stopAsked := false, quiet := false, curDesc := s.startAddr c, fetching := none }
    refine ⟨_, exec_dmaStart_run hc hears hhost htakes hstate, honly, ?_, fun e he => (hother e he).trans (toL0_chan s e),
      fun hdev => ?_⟩
    · rw [State.chanRun, hself, toL0_chan]
    · rw [State.chanRun, fetchDesc_of_isDev _ c hdev]
      rfl
  case held =>
    intro hhost hstate
    obtain ⟨honly, hself, hother⟩ := fetch_of_modChan s.toL0 c (s.chan c).curDesc fun y => { y with
      state := .running, refetch := false }
    refine ⟨_, ?_, honly, by rw [hself, toL0_chan], fun e he => (hother e he).trans (toL0_chan s e)⟩
    rw [happend, execDmaAppend, chanCmd_fetch hc hears hhost] <;> simp only [toL0_chan, hstate]
    exact honly
  case ended =>
    intro hhost hstate hend herror
    obtain ⟨honly, hself, hother⟩ := fetch_of_modChan s.toL0 c (s.chan c).curDesc fun y => { y with
      state := .running, refetch := true, quiet := true, appendMark := false }
    refine ⟨_, ?_, honly, by rw [hself, toL0_chan], fun e he => (hother e he).trans (toL0_chan s e)⟩
    rw [happend, execDmaAppend, chanCmd_fetch hc hears hhost] <;> simp only [toL0_chan, hstate, hend, herror, and_self, if_true]
    exact honly
  case behindEnd =>
    intro hhost hstate hend hdesc
    rw [happend, execDmaAppend, chanCmd_fetch hc hears hhost] <;>
      simp only [toL0_chan, hstate, hend, hdesc, true_or, and_self, if_true]
    exact fetchOnly_modChan ..
  case ignored =>
    intro hhost hstate
    rw [happend, execDmaAppend]
    rcases hstate with h | h <;> rw [chanCmd_host hc hears hhost] <;> simp only [toL0_chan, h, hdue0]
  case stop =>
    intro hhost hstate
    rw [hstop, execDmaStop]
    rcases hstate with h | h <;> rw [chanCmd_fetch hc hears hhost] <;> simp only [State.chanStop, toL0_chan, h] <;>
      exact fetchOnly_modChan ..
  case stopped =>
    intro hhost hstate
    rw [hstop, execDmaStop]
    rcases hstate with h | h <;> rw [chanCmd_host hc hears hhost] <;> simp only [State.chanStop, toL0_chan, h, hdue0]
  case run =>
    intro hhost htrig htakes hstate
    obtain ⟨honly, hself, hother⟩ := fetch_of_modChan s.toL0 c
      (if s.chanStep c = true then ((s.chan c).stepNext).getD (s.chainHead c) else s.chainHead c) fun x => { x with
      state := .running, error := 0, refetch := false, ahead := none, desc := none, endSeen := false, appendMark := false
      stopAsked := false, quiet := false
      curDesc := if s.chanStep c = true then ((s.chan c).stepNext).getD (s.chainHead c) else s.chainHead c
      fetching := none }
    refine ⟨_, _, ?_, honly, by rw [hself], by rw [hself], by rw [hself], by rw [hself], rfl,
      fun e he => (hother e he).trans (toL0_chan s e)⟩
    rw [htrigger, execDmaTrigger, chanCmd_fetch hc hears hhost] <;>
      simp only [State.trigger, State.trigRun, State.chanRun, toL0_chan, toL0_chanTrig, toL0_takes, toL0_chanStep, toL0_chainHead,
        htrig, htakes, hstate, Bool.not_true, Bool.false_eq_true, if_false]
    exact honly
  case count =>
    intro hhost htrig htakes hstate hroom
    rw [htrigger, execDmaTrigger, chanCmd_fetch hc hears hhost] <;>
      simp only [State.trigger, toL0_chan, toL0_chanTrig, toL0_takes, htrig, htakes, hstate, hroom, Bool.not_true,
        Bool.false_eq_true, if_false, if_true]
    exact fetchOnly_modChan ..
  case pilot =>
    exact ⟨chanCmd_pilot hc hears hhost _, chanCmd_pilot hc hears hhost _, chanCmd_pilot hc hears hhost _,
      chanCmd_pilot hc hears hhost _⟩

end Sys2Proof.DmaCommands
end

section
/-!
PROOF. The states of a memory controller (R389, R396): the end of a region's zero fill also leaves valid check bits behind.
-/
namespace Sys2Proof.DramStates
open Sys2Proof.Machine

/-- A part whose quadrant 0 zeroes the first 8 bytes of its memory as region 0, with the check bits of these 8 bytes stored in the
carve-out of controller 0. -/
def zeroFillEnds : State where
  power := { powered := true }
  quads := [(0, { init := [(0, 0, 8)] })]
  dchs := [(0, { carve := [(0, 1)] })]

/-- The check bits of the zeroed bytes become those of 0, which the carve-out does not list. -/
theorem exec_regionInitDone_zeroFillEnds :
    ∃ t, exec (.regionInitDone 0 0) zeroFillEnds = .next t ∧ (t.dch 0).carve = [] :=
  ⟨_, rfl, by decide +kernel⟩

/-- Refutes O26: at the end of a zero fill the stored check bits of the region's bytes change with them (R389, R396), where the
statement lets only memory and the quadrants change. -/
theorem not_dramStateRows : ¬ Obligations.DramStateRows := by
  unfold Obligations.DramStateRows
  rintro ⟨-, filled⟩
  obtain ⟨t, ht, hframe, -⟩ := filled 0 0 zeroFillEnds (by decide +kernel)
  obtain ⟨u, hu, hcarve⟩ := exec_regionInitDone_zeroFillEnds
  obtain rfl : u = t := Host.Outcome.next.inj (hu.symm.trans ht)
  have hkept : (u.dch 0).carve = [(0, 1)] := by
    rw [hframe]
    rfl
  rw [hkept] at hcarve
  cases hcarve

end Sys2Proof.DramStates
end

section
/-!
PROOF. The fault unit: one fault taken up, acknowledgements, the error pin and the watchdog (R531 to R536, R542).
-/
namespace Sys2Proof.FaultRecords
open Sys2Proof.Machine Sys2Proof.SelfTimed Sys2Proof.RegisterPages Sys2Proof.HostLink

/-! ### One fault -/

/-- One hit of a known source writes its record, drives the pin, is reported and has its reaction. -/
theorem fireAll_single (s : State) (h : FaultHit) (hknown : (sourceInfo h.source).isSome = true) :
    s.fireAll [h] = (((s.record (s.hitRecord h (s.hitSeverity h) (s.reactionOf h (s.hitSeverity h)))).pulse
      (s.hitSeverity h)).correctedAer h).react h (s.reactionOf h (s.hitSeverity h)) s.faults.nextSeq := by
  simp [State.fireAll, hknown]

/-- The one fault that a command raised is taken up, when its reaction raises no other. -/
theorem settle_single {s : State} {h : FaultHit} (hdue : s.due = [h]) (hlive : s.faults.stop ≠ .sealed)
    (hquiet : (State.fireAll { s with due := [] } [h]).due = []) : s.settle = State.fireAll { s with due := [] } [h] := by
  unfold State.settle
  rw [settleFaults.eq_2, hdue]
  simp only [if_neg hlive]
  exact settleFaults_of_due 63 _ hquiet

/-- A fault that a command raises in a calm part. -/
theorem settle_fault_of_calm {s : State} (hcalm : s.calm = true) {h : FaultHit} (hquiet : (s.fireAll [h]).due = []) :
    (s.fault h.source h.inst h.job h.info).settle = s.fireAll [h] := by
  have hdue : (s.fault h.source h.inst h.job h.info).due = [h] := by simp [State.fault, due_of_calm hcalm]
  have hclear : ({ s.fault h.source h.inst h.job h.info with due := [] } : State) = s := by
    rw [← due_of_calm hcalm]
    rfl
  have hlive : s.faults.stop ≠ .sealed := not_sealed_of_live (live_of_calm hcalm)
  rw [settle_single hdue hlive (by rw [hclear, hquiet]), hclear]

theorem faults_correctedAer (s : State) (h : FaultHit) : (s.correctedAer h).faults = s.faults := by
  unfold State.correctedAer
  split
  · rw [State.report_linkOnly]
  · rfl

theorem due_correctedAer (s : State) (h : FaultHit) : (s.correctedAer h).due = s.due := by
  unfold State.correctedAer
  split
  · exact report_due _ _
  · rfl

/-! ### The fault unit after a record -/

theorem due_record (s : State) (r : FaultRec) : (s.record r).due = s.due := by rw [(faultUnitOnly_record s r).frame]

theorem due_pulse (s : State) (sev : Nat) : (s.pulse sev).due = s.due := by rw [(faultUnitOnly_pulse s sev).frame]

/-- The record goes to the slot of the slot rule (R534), with the time and the next sequence number (R533). -/
theorem slots_record {s : State} {r : FaultRec} {i : Nat} {l : Bool} (hslot : s.faults.chooseSlot r.sev = some (i, l)) :
    (s.record r).faults.slots = mset s.faults.slots i { r with seq := s.faults.nextSeq, time := s.time.ns } := by
  unfold State.record
  dsimp only
  rw [hslot]
  dsimp only
  split <;> split <;> rfl

theorem slots_pulse (s : State) (sev : Nat) : (s.pulse sev).faults.slots = s.faults.slots := by
  unfold State.pulse
  dsimp only
  split <;> rfl

section
variable {s : State} {h : FaultHit} (hknown : (sourceInfo h.source).isSome = true) (hsev : s.severity h.source = 1)
include hknown hsev

/-- A source at S1 is logged, and reported when it is one of the PCIe interface (R101, R533). -/
theorem fireAll_severityOne : s.fireAll [h] = ((s.record (s.hitRecord h 1 .logged)).pulse 1).correctedAer h := by
  have hhit : s.hitSeverity h = 1 := by simp [State.hitSeverity, hsev]
  rw [fireAll_single s h hknown, hhit, reactionOf_one]
  rfl

theorem due_fireAll_severityOne : (s.fireAll [h]).due = s.due := by
  rw [fireAll_severityOne hknown hsev, due_correctedAer, due_pulse, due_record]

/-- The one record that a source at S1 writes. -/
theorem slots_fireAll_severityOne {i : Nat} {l : Bool} (hslot : s.faults.chooseSlot 1 = some (i, l)) :
    (s.fireAll [h]).faults.slots =
      mset s.faults.slots i { s.hitRecord h 1 .logged with seq := s.faults.nextSeq, time := s.time.ns } := by
  rw [fireAll_severityOne hknown hsev, faults_correctedAer, slots_pulse]
  exact slots_record hslot

theorem nextSeq_fireAll_severityOne : (s.fireAll [h]).faults.nextSeq = nextRecSeq s.faults.nextSeq := by
  rw [fireAll_severityOne hknown hsev, faults_correctedAer, nextSeq_pulse, nextSeq_record]

/-- Beside the fault unit a source at S1 above those of the PCIe interface changes nothing. -/
theorem faultUnitOnly_fireAll_severityOne (hhigh : 10 < h.source) : FaultUnitOnly s (s.fireAll [h]) := by
  rw [fireAll_severityOne hknown hsev, State.correctedAer, if_neg (by omega)]
  exact (faultUnitOnly_record s _).trans (faultUnitOnly_pulse _ 1)

end

/-! ### The rows -/

/-- FAULT_FIRE of one source (R536). -/
theorem exec_faultFire_severityOne {s : State} {h : FaultHit} (hcalm : s.calm = true)
    (hknown : (sourceInfo h.source).isSome = true) (hsev : s.severity h.source = 1) :
    exec (.faultFire [h]) s = .next (s.fireAll [h]) := by
  have hexec : exec (.faultFire [h]) s = execFaultFire [h] s := rfl
  rw [hexec, execFaultFire, act_quiet _ _ (live_of_calm hcalm)]
  rw [due_fireAll_severityOne hknown hsev, due_of_calm hcalm]

/-- FEC_DEGRADED is a fault of the port's source (R531). -/
theorem exec_fecDegraded {s : State} {p : Nat} (hcalm : s.calm = true) (hp : p < 2) (hsev : s.severity (194 + 8 * p) = 1) :
    exec (.fecDegraded p) s = .next (s.fireAll [{ source := 194 + 8 * p, inst := p, job := none, info := 0 }]) := by
  have hexec : exec (.fecDegraded p) s = execFecDegraded p s := rfl
  have hknown : (sourceInfo (194 + 8 * p)).isSome = true := by
    have : p = 0 ∨ p = 1 := by omega
    rcases this with rfl | rfl <;> rfl
  rw [hexec, execFecDegraded, act_live _ _ (live_of_calm hcalm), if_pos hp]
  refine congrArg _ (settle_fault_of_calm (h := { source := 194 + 8 * p, inst := p, job := none, info := 0 }) hcalm ?_)
  rw [due_fireAll_severityOne hknown hsev, due_of_calm hcalm]

/-- No record stays unacknowledged that the test picks. -/
theorem unacked_ackRecs {s : State} {p : FaultRec → Bool} {r : FaultRec} (h : r ∈ (s.ackRecs p).faults.unacked) :
    p r = false := by
  simp only [FaultUnit.unacked, State.ackRecs, List.map_map, List.mem_filter, List.mem_map, Function.comp_apply] at h
  obtain ⟨⟨x, -, rfl⟩, hopen⟩ := h
  cases hp : p x.2 with
  | true => simp [hp] at hopen
  | false => simp [hp]

section
variable {s : State} (hears : s.hears 3 = true)
include hears

/-- The acknowledgement of a record that is there, or a refused write (R534). -/
theorem exec_recAck (q : Word) : exec (.recAck q) s = .next (if (s.faults.unacked.any fun r => r.seq == q.toNat) = true then
    s.toL0.ackRecs fun r => r.seq == q.toNat else s.toL0.accessBad 3) := by
  have hexec : exec (.recAck q) s = execRecAck q s := rfl
  have hfaults : s.toL0.faults = s.faults := by rw [State.toL0_eq]
  have hdue : s.toL0.due = [] := (toL0_due s).trans (due_of_hears hears)
  rw [hexec, execRecAck, hostCmd_quiet _ _ _ hears]
  · rw [hfaults]
  · split <;> exact hdue

theorem exec_recAckAll : exec (.recAckAll 1) s = .next (s.toL0.ackRecs fun _ => true) := by
  have hexec : exec (.recAckAll 1) s = execRecAckAll 1 s := rfl
  have hrow : ((s.toL0.rsv 3 1 1).ackRecs fun _ => true) = s.toL0.ackRecs fun _ => true := by
    rw [rsv_of_clear (by decide)]
  rw [hexec, execRecAckAll, hostCmd_quiet _ _ _ hears]
  · exact congrArg _ hrow
  · exact (congrArg State.due hrow).trans ((toL0_due s).trans (due_of_hears hears))

/-- ERR_PIN_CTRL takes a value whose fields lie in range and discards any other (R535). -/
theorem exec_errPinCtrlWrite (v : Word) : exec (.errPinCtrlWrite v) s = .next (
    if fld v 25 16 < 20 ∨ 1000 < fld v 25 16 ∨ 5 < fld v 2 0 then (s.toL0.rsv 3 0x83FF0007 v).accessBad 3
    else (s.toL0.rsv 3 0x83FF0007 v).setReg 3 0x400 (v &&& 0x83FF0007)) := by
  have hexec : exec (.errPinCtrlWrite v) s = execErrPinCtrlWrite v s := rfl
  have hdue : (s.toL0.rsv 3 0x83FF0007 v).due = [] := by rw [rsv_due, toL0_due, due_of_hears hears]
  rw [hexec, execErrPinCtrlWrite, hostCmd_quiet _ _ _ hears]
  dsimp only
  split <;> exact hdue

end

/-- Without jobs and queues a device stop notes its source and is reported (R542). -/
theorem deviceStop_empty {s : State} (src rec : Nat) (hboot : s.boot.running = false) (hjobs : s.jobs = [])
    (hqueues : s.qm.queues = []) :
    s.deviceStop src rec = (State.setCond { s with faults := { s.faults with stop := .stopped, stopSource := src } } 3 3
      true).report .uncorrectableInternal := by
  simp [State.deviceStop, State.stopQueues, hboot, hjobs, hqueues]

/-- The missed watchdog at S4 stops a part that holds no work. -/
theorem fireAll_watchdog {s : State} (hsev : s.severity 3 = 4) (hstop : s.faults.stop = .normal)
    (hboot : s.boot.running = false) (hjobs : s.jobs = []) (hqueues : s.qm.queues = []) :
    let t := s.fireAll [{ source := 3, inst := 0xFFFF, job := none, info := 0 }]
    t.due = s.due ∧ t.faults.stop = .stopped ∧ t.faults.stopSource = 3 := by
  set h : FaultHit := { source := 3, inst := 0xFFFF, job := none, info := 0 }
  have hhit : s.hitSeverity h = 4 := by simp [State.hitSeverity, h, hsev]
  have hreact : s.reactionOf h 4 = .deviceStop := by simp [State.reactionOf, hstop]
  have hlogged : FaultUnitOnly s ((s.record (s.hitRecord h 4 .deviceStop)).pulse 4) :=
    (faultUnitOnly_record s _).trans (faultUnitOnly_pulse _ 4)
  have hfire : s.fireAll [h] = ((s.record (s.hitRecord h 4 .deviceStop)).pulse 4).deviceStop 3 s.faults.nextSeq := by
    rw [fireAll_single s h rfl, hhit, hreact, State.correctedAer, if_neg (by simp [h])]
    rfl
  rw [hfire, deviceStop_empty _ _ (by rw [hlogged.frame]; exact hboot) (by rw [hlogged.frame]; exact hjobs)
    (by rw [hlogged.frame]; exact hqueues)]
  refine ⟨?_, ?_, ?_⟩
  · rw [report_due]
    exact (due_pulse _ _).trans (due_record _ _)
  · rw [State.report_linkOnly]
    rfl
  · rw [State.report_linkOnly]
    rfl

/-- Settles O17: one logged record per source at S1, acknowledgement by number, the error pin, and the stop by the watchdog. -/
theorem faultUnitRows : Obligations.FaultUnitRows := by
  unfold Obligations.FaultUnitRows
  refine ⟨?fire, ?fec, ?ack, ?noRecord, ?ackAll, ?pin, ?badPin, ?pulseEnd, ?watchdog⟩
  case fire =>
    intro h i l s hcalm hknown hjob hsev hslot
    exact ⟨_, _, exec_faultFire_severityOne hcalm hknown hsev,
      by rw [slots_fireAll_severityOne hknown hsev hslot, mget_mset_self], rfl, rfl, rfl, rfl, rfl, rfl, rfl,
      nextSeq_fireAll_severityOne hknown hsev⟩
  case fec =>
    intro p i l s hcalm hp hsev hslot
    have hknown : (sourceInfo (194 + 8 * p)).isSome = true := by
      have : p = 0 ∨ p = 1 := by omega
      rcases this with rfl | rfl <;> rfl
    exact ⟨_, _, exec_fecDegraded hcalm hp hsev,
      by rw [slots_fireAll_severityOne hknown hsev hslot, mget_mset_self], rfl, rfl⟩
  case ack =>
    intro q s hears hpresent
    refine ⟨_, (exec_recAck hears q).trans (by rw [if_pos hpresent]), fun r hr => ?_⟩
    simpa using unacked_ackRecs hr
  case noRecord =>
    intro q s hears habsent
    rw [exec_recAck hears q, if_neg (by simp [habsent])]
  case ackAll =>
    intro s hears
    exact ⟨_, exec_recAckAll hears, List.eq_nil_iff_forall_not_mem.2 fun r hr => by simpa using unacked_ackRecs hr⟩
  case pin =>
    intro v s hears hclear hlow hhigh hmin
    rw [exec_errPinCtrlWrite hears, if_neg (by omega), rsv_of_clear hclear, and_mask_of_clear hclear]
  case badPin =>
    intro v s hears hbad
    refine ⟨_, (exec_errPinCtrlWrite hears v).trans (by rw [if_pos hbad]), ?_, ?_⟩
    · show (s.toL0.rsv 3 0x83FF0007 v).regs = s.regs
      unfold State.rsv
      split <;> exact toL0_regs s
    · rw [State.accessBad, page_modPage_self]
  case pulseEnd =>
    intro s hcalm
    have hexec : exec .errPulseEnd s = execErrPulseEnd s := rfl
    rw [hexec, execErrPulseEnd, act_quiet _ _ (live_of_calm hcalm) (due_of_calm hcalm)]
  case watchdog =>
    intro s hcalm hsev hstop hboot hjobs hqueues
    have hexec : exec .svcWatchdog s = execSvcWatchdog s := rfl
    obtain ⟨hdue, hstopped, hsource⟩ := fireAll_watchdog hsev hstop hboot hjobs hqueues
    refine ⟨_, ?_, hstopped, hsource⟩
    rw [hexec, execSvcWatchdog, act_live _ _ (live_of_calm hcalm)]
    exact congrArg _ (settle_fault_of_calm hcalm (hdue.trans (due_of_calm hcalm)))

end Sys2Proof.FaultRecords
end

section
/-!
PROOF. The scheduling of a memory controller: the command slot, ageing, the port regulators and refresh (R398 to R411).
-/
namespace Sys2Proof.DramScheduling
open Sys2Proof.Machine Sys2Proof.SelfTimed Sys2Proof.FaultRecords

/-! ### A controller after a change -/

@[simp] theorem dch_modDch_self (s : State) (k : Nat) (f : Dch → Dch) : (s.modDch k f).dch k = f (s.dch k) := mgetD_mset_self ..

/-- Two changes of one controller are one change. -/
theorem modDch_modDch (s : State) (k : Nat) (f g : Dch → Dch) : (s.modDch k f).modDch k g = s.modDch k fun d => g (f d) := by
  simp only [State.modDch, State.dch, mset_mset, mgetD_mset_self]

/-- A page whose groups are not pending hands nothing over at a command slot (R407). -/
theorem slotBoundary_of_not_pending {s : State} {k : Nat} (h : (s.page (dchPage k)).groups = 0) : s.slotBoundary k = s := by
  have hstill : ∀ g, s.boundary (dchPage k) g = s := fun g => boundary_of_not_pending (by rw [h]; exact BitVec.getLsbD_zero)
  simp only [State.slotBoundary, hstill, ite_self]

/-- An event of a controller that raises no fault. -/
theorem dchAct_quiet {k : Nat} {s : State} {f : State → State} (hcalm : s.calm = true) (hk : k < 12) (hdue : (f s).due = []) :
    dchAct k s f = .next (f s) := by
  rw [dchAct, act_quiet _ _ (live_of_calm hcalm)] <;> simp only [if_pos hk, hdue]

/-! ### What an access changes -/

/-- From s to t controller k makes further memory commands, without touching its requests, its open rows or its error count; the
rest of the part stands, but for open values drawn. -/
structure AccessOnly (k : Nat) (s t : State) : Prop where
  frame : t = { s with dchs := t.dchs, free := t.free }
  reqs : (t.dch k).reqs = (s.dch k).reqs
  rows : (t.dch k).rows = (s.dch k).rows
  ce : (t.dch k).ce = (s.dch k).ce
  ops : ∃ l, (t.dch k).ops = (s.dch k).ops ++ l

theorem AccessOnly.refl (k : Nat) (s : State) : AccessOnly k s s := ⟨rfl, rfl, rfl, rfl, [], by simp⟩

theorem AccessOnly.trans {k : Nat} {s t u : State} (h : AccessOnly k s t) (g : AccessOnly k t u) : AccessOnly k s u := by
  obtain ⟨l, hl⟩ := h.ops
  obtain ⟨m, hm⟩ := g.ops
  exact ⟨by rw [g.frame, h.frame], g.reqs.trans h.reqs, g.rows.trans h.rows, g.ce.trans h.ce, l ++ m,
    by rw [hm, hl, List.append_assoc]⟩

theorem AccessOnly.due_eq {k : Nat} {s t : State} (h : AccessOnly k s t) : t.due = s.due := by rw [h.frame]

/-- Notes one memory command. -/
theorem accessOnly_dramOp (s : State) (k : Nat) (o : DramOp) : AccessOnly k s (s.dramOp k o) := by
  unfold State.dramOp
  exact ⟨rfl, by rw [dch_modDch_self], by rw [dch_modDch_self], by rw [dch_modDch_self], [o], by rw [dch_modDch_self]⟩

/-- Changes the tokens alone. -/
theorem accessOnly_takeTokens (s : State) (k p : Nat) : AccessOnly k s (s.takeTokens k p) := by
  unfold State.takeTokens
  split
  · exact .refl k s
  · exact ⟨rfl, by rw [dch_modDch_self], by rw [dch_modDch_self], by rw [dch_modDch_self], [], by simp⟩

/-- Changes the ECC lines and the carve-out alone. -/
theorem accessOnly_modEcc (s : State) (k : Nat) (e : Dch → Map (Map Nat)) (c : Dch → Map Nat) :
    AccessOnly k s (s.modDch k fun d => { d with ecc := e d, carve := c d }) :=
  ⟨rfl, by rw [dch_modDch_self], by rw [dch_modDch_self], by rw [dch_modDch_self], [], by simp⟩

theorem accessOnly_draw (k : Nat) (s : State) : AccessOnly k s s.draw.2 :=
  ⟨rfl, rfl, rfl, rfl, [], by simp [State.draw, State.dch]⟩

theorem accessOnly_eccEvict (s : State) (k i : Nat) : AccessOnly k s (s.eccEvict k i) := by
  unfold State.eccEvict
  split
  · exact (accessOnly_modEcc s k _ _).trans (accessOnly_dramOp _ k _)
  · exact .refl k s

theorem accessOnly_eccFetch (s : State) (k n : Nat) : AccessOnly k s (s.eccFetch k n) := by
  unfold State.eccFetch
  split
  · exact .refl k s
  · exact (((accessOnly_draw k s).trans (accessOnly_eccEvict _ k _)).trans
      (accessOnly_modEcc _ k (fun d => mset d.ecc n []) Dch.carve)).trans (accessOnly_dramOp _ k _)

/-- A request's access makes its command, and with inline ECC those of its ECC line (R398). -/
theorem accessOnly_eccAccess (s : State) (k : Nat) (r : DchReq) : AccessOnly k s (s.eccAccess k r) := by
  unfold State.eccAccess
  dsimp only
  split
  · exact accessOnly_dramOp s k _
  · have hfetched := fun o => (accessOnly_dramOp s k o).trans (accessOnly_eccFetch _ k (s.eccLine r.addr))
    split
    · exact (hfetched _).trans (accessOnly_modEcc _ k _ Dch.carve)
    · exact hfetched _

/-! ### The command slot -/

/-- Controller k after the requests a have joined its queue and r has left it (R404). -/
def issued (s : State) (k : Nat) (a : List DchReq) (r : DchReq) : State :=
  s.modDch k fun d => { d with reqs := (d.reqs ++ a).erase r, ops := [] }

/-- The choice reads neither the commands of the row before nor the order in which the state was written. -/
theorem choose_arrived (s : State) (k : Nat) (a : List DchReq) (busy : List Nat) :
    (s.modDch k fun d => { d with reqs := d.reqs ++ a, ops := [] }).choose k busy =
      (s.modDch k fun d => { d with reqs := d.reqs ++ a }).choose k busy := by
  unfold State.choose State.permits State.rowHit State.portLimit State.dch State.modDch
  simp only [mgetD_mset_self]
  rfl

theorem rowHit_arrived (s : State) (k : Nat) (a : List DchReq) (r : DchReq) :
    (s.modDch k fun d => { d with reqs := d.reqs ++ a, ops := [] }).rowHit k r = s.rowHit k r := by
  unfold State.rowHit
  rw [dch_modDch_self]
  rfl

section
variable {k : Nat} {s : State} (hcalm : s.calm = true) (hk : k < 12) (hgroups : (s.page (dchPage k)).groups = 0)
  (hup : s.dchUp k = true) (hsr : (s.dch k).sr = .active)
include hcalm hk hgroups hup hsr

/-- A slot without a request that may issue accepts what arrived. -/
theorem exec_dchCommandSlot_none {a : List DchReq} {met : SlotMet}
    (hchoose : (s.modDch k fun d => { d with reqs := d.reqs ++ a }).choose k met.busy = none) :
    exec (.dchCommandSlot k a met) s = .next (s.modDch k fun d => { d with reqs := d.reqs ++ a, ops := [] }) := by
  have hexec : exec (.dchCommandSlot k a met) s = execDchCommandSlot k a met s := rfl
  rw [hexec, execDchCommandSlot, dchAct_quiet hcalm hk] <;>
    simp only [slotBoundary_of_not_pending hgroups, hup, dch_modDch_self, hsr, choose_arrived, hchoose, ne_eq, not_true_eq_false,
      Bool.not_true, Bool.false_eq_true, if_false]
  exact due_of_calm hcalm

/-- A slot with a chosen request takes it from the queue, opens its row where it must, and makes the access. -/
theorem exec_dchCommandSlot_some {a : List DchReq} {met : SlotMet} {r : DchReq}
    (hchoose : (s.modDch k fun d => { d with reqs := d.reqs ++ a }).choose k met.busy = some r) :
    exec (.dchCommandSlot k a met) s = .next (
      ((if s.rowHit k r then (issued s k a r).takeTokens k r.port
        else ((issued s k a r).takeTokens k r.port).activateRow k (s.locate r.addr) r.port).eccAccess k r).eccFound k r.addr
          met.ecc).settle := by
  have hexec : exec (.dchCommandSlot k a met) s = execDchCommandSlot k a met s := rfl
  have hissued : (s.modDch k fun d => { d with reqs := d.reqs ++ a, ops := [] }).modDch k
      (fun d => { d with reqs := d.reqs.erase r }) = issued s k a r := modDch_modDch ..
  rw [hexec, execDchCommandSlot, dchAct, act_live _ _ (live_of_calm hcalm), if_pos hk]
  simp only [slotBoundary_of_not_pending hgroups, hup, dch_modDch_self, hsr, choose_arrived, hchoose, rowHit_arrived, hissued,
    ne_eq, not_true_eq_false, Bool.not_true, Bool.false_eq_true, if_false]
  rfl

end

/-! ### An access to an open row -/

@[simp] theorem portLimit_issued (s : State) (k p : Nat) (a : List DchReq) (r : DchReq) :
    (issued s k a r).portLimit k p = s.portLimit k p := by
  unfold State.portLimit issued
  rw [dch_modDch_self]
  rfl

theorem dchsOnly_takeTokens (s : State) (k p : Nat) : s.takeTokens k p = { s with dchs := (s.takeTokens k p).dchs } := by
  unfold State.takeTokens
  split <;> rfl

theorem ops_takeTokens (s : State) (k p : Nat) : ((s.takeTokens k p).dch k).ops = (s.dch k).ops := by
  unfold State.takeTokens
  split
  · rfl
  · rw [dch_modDch_self]

/-- One burst takes 64 tokens of a regulated port, never below minus BURST (R406). -/
theorem tokens_takeTokens (s : State) (k p : Nat) : mgetD ((s.takeTokens k p).dch k).tokens p 0 =
    if 16 ≤ p ∨ s.portLimit k p = none then mgetD (s.dch k).tokens p 0
    else max (mgetD (s.dch k).tokens p 0 - 64) (-(s.portBurst k p : Int)) := by
  unfold State.takeTokens
  split
  · rfl
  · rw [dch_modDch_self, mgetD_mset_self]

/-- The command of a request (R398). -/
def commandOf (r : DchReq) : DramOp :=
  if r.write = false then .read r.addr else if DchReq_whole r = true then .maskedWrite r.addr else .readModifyWrite r.addr

/-- Without inline ECC an access is its one command. -/
theorem eccAccess_plain {s : State} (k : Nat) (r : DchReq) (hecc : s.inlineEcc = false) :
    s.eccAccess k r = s.dramOp k (commandOf r) := by
  unfold State.eccAccess commandOf
  rw [hecc]
  cases r.write <;> rfl

/-- A corrected link error counts and raises its event (R400). -/
theorem eccFound_link {s : State} (k addr : Nat) (hlink : s.linkEcc = true) : s.eccFound k addr .link = s.countCe k :=
  if_pos hlink

/-! ### An access that opens its row -/

/-- The row opens, with its activation counted (R408). -/
def opened (s : State) (k : Nat) (l : Location) : State :=
  s.modDch k fun d => { d with
    rows := mset d.rows l.bankKey l.row
    acts := mset d.acts l.bankKey (activate (mgetD (s.dch k).acts l.bankKey []) l.row).1
    ops := d.ops ++ [.activate l.bankKey l.row] }

/-- What the access after an activation keeps of it: from s to t the row's commands may have grown, and beside the controllers,
the pages, open values and the waiting faults nothing changed. -/
structure OpenedOnly (k : Nat) (s t : State) : Prop where
  frame : t = { s with dchs := t.dchs, pages := t.pages, free := t.free, due := t.due }
  reqs : (t.dch k).reqs = (s.dch k).reqs
  rows : (t.dch k).rows = (s.dch k).rows
  ops : ∃ l, (t.dch k).ops = (s.dch k).ops ++ l

theorem OpenedOnly.trans {k : Nat} {s t u : State} (h : OpenedOnly k s t) (g : OpenedOnly k t u) : OpenedOnly k s u := by
  obtain ⟨l, hl⟩ := h.ops
  obtain ⟨m, hm⟩ := g.ops
  exact ⟨by rw [g.frame, h.frame], g.reqs.trans h.reqs, g.rows.trans h.rows, l ++ m, by rw [hm, hl, List.append_assoc]⟩

theorem AccessOnly.opened {k : Nat} {s t : State} (h : AccessOnly k s t) : OpenedOnly k s t :=
  ⟨by rw [h.frame], h.reqs, h.rows, h.ops⟩

/-- The fault of a row that is hammered (R410). -/
def hammerHit (k : Nat) : FaultHit := { source := 99 + 8 * k, inst := k, job := none, info := 0 }

/-- A change of the controller that leaves its requests, its rows and its commands. -/
theorem openedOnly_modDch (s : State) (k : Nat) (f : Dch → Dch) (hreqs : (f (s.dch k)).reqs = (s.dch k).reqs)
    (hrows : (f (s.dch k)).rows = (s.dch k).rows) (hops : (f (s.dch k)).ops = (s.dch k).ops) : OpenedOnly k s (s.modDch k f) :=
  ⟨rfl, by rw [dch_modDch_self, hreqs], by rw [dch_modDch_self, hrows], [], by rw [dch_modDch_self, hops, List.append_nil]⟩

theorem openedOnly_modPage (s : State) (k p : Nat) (f : Page → Page) : OpenedOnly k s (s.modPage p f) :=
  ⟨rfl, rfl, rfl, [], (List.append_nil _).symm⟩

theorem openedOnly_fault (s : State) (k src inst : Nat) (job : Option Nat) (info : Nat) :
    OpenedOnly k s (s.fault src inst job info) := ⟨rfl, rfl, rfl, [], (List.append_nil _).symm⟩

theorem openedOnly_hammer (s : State) (k key row port : Nat) : OpenedOnly k s (s.hammer k key row port) := by
  unfold State.hammer
  have hcounted := openedOnly_modDch s k (fun d => { d with
    rfm := min (d.rfm + 1) 65535
    acts := mmod d.acts key [] fun l => l.filter fun x => x.1 != row
    lastHammer := port
    throttled := if port < 16 ∧ !bit d.throttled port then d.throttled + 2 ^ port else d.throttled }) rfl rfl rfl
  exact (((hcounted.trans (accessOnly_dramOp _ k _).opened).trans (openedOnly_modPage _ k _ _)).trans
    (openedOnly_modPage _ k _ _)).trans (openedOnly_fault ..)

/-- An activation opens the row, and a hammered row raises its one fault. -/
theorem activateRow_opens (s : State) (k : Nat) (l : Location) (port : Nat) :
    OpenedOnly k (opened s k l) (s.activateRow k l port) ∧
      ((s.activateRow k l port).due = s.due ∨ (s.activateRow k l port).due = s.due ++ [hammerHit k]) := by
  unfold State.activateRow
  dsimp only
  split
  · exact ⟨openedOnly_hammer .., .inr rfl⟩
  · exact ⟨(AccessOnly.refl ..).opened, .inl rfl⟩

/-- The severity of a source is programmed in a register. -/
theorem severity_of_regs {s t : State} (h : t.regs = s.regs) (src : Nat) : t.severity src = s.severity src := by
  unfold State.severity State.active State.reg
  rw [h]

/-- After the access of an activated row the part keeps its memory, its jobs and the controller, whether its fault at S1 was
raised or not. -/
theorem settle_opened {s u : State} {k : Nat} (hlive : s.faults.stop ≠ .sealed) (hk : k < 12) (hsev : s.severity (99 + 8 * k) = 1)
    (honly : OpenedOnly k s u) (hdue : u.due = [] ∨ u.due = [hammerHit k]) :
    u.settle.dchs = u.dchs ∧ u.settle.mem = u.mem ∧ u.settle.jobs = u.jobs := by
  rcases hdue with hdue | hdue
  · rw [State.settle_of_due _ hdue]
    exact ⟨rfl, rfl, rfl⟩
  · have hknown : (sourceInfo (hammerHit k).source).isSome = true := by
      have hsource : ∀ j : Fin 12, (sourceInfo (99 + 8 * j)).isSome = true := by decide
      exact hsource ⟨k, hk⟩
    have hone : State.severity { u with due := [] } (hammerHit k).source = 1 :=
      (severity_of_regs (s := s) (by rw [honly.frame]) _).trans hsev
    have hstop : u.faults.stop ≠ .sealed := by rw [honly.frame]; exact hlive
    have hlogged := faultUnitOnly_fireAll_severityOne hknown hone (by show 10 < 99 + 8 * k; omega)
    rw [settle_single hdue hstop (due_fireAll_severityOne hknown hone), hlogged.frame]
    exact ⟨rfl, rfl, rfl⟩

/-! ### The port regulators -/

/-- Taking away a power of two that a number holds clears its bit and leaves the others. -/
theorem bit_sub_two_pow {n p : Nat} (h : bit n p = true) (r : Nat) : bit (n - 2 ^ p) r = (bit n r && r != p) := by
  simp only [bit, beq_iff_eq] at h
  have hsplit : n - 2 ^ p = 2 ^ (p + 1) * (n / 2 ^ (p + 1)) + n % 2 ^ p ∧
      n = 2 ^ (p + 1) * (n / 2 ^ (p + 1)) + (2 ^ p + n % 2 ^ p) := by
    have hmod := Nat.mod_pow_succ (b := 2) (k := p) (x := n)
    have hdiv := Nat.div_add_mod n (2 ^ (p + 1))
    rw [h, Nat.mul_one] at hmod
    omega
  have hlow : n % 2 ^ p < 2 ^ p := Nat.mod_lt _ (Nat.two_pow_pos p)
  have hbit : ∀ x i, bit x i = x.testBit i := fun x i => by
    rw [bit, Nat.testBit_eq_decide_div_mod_eq]
    rfl
  have hsum : 2 ^ p + n % 2 ^ p < 2 ^ (p + 1) := by omega
  rw [hbit, hbit, hsplit.1]
  conv_rhs => rw [hsplit.2]
  rw [Nat.testBit_two_pow_mul_add _ (by omega), Nat.testBit_two_pow_mul_add _ hsum]
  rcases lt_trichotomy r p with hr | rfl | hr
  · rw [if_pos (by omega), if_pos (by omega), Nat.testBit_two_pow_add_gt hr]
    simp [hr.ne]
  · simp [Nat.testBit_lt_two_pow hlow]
  · rw [if_neg (by omega), if_neg (by omega)]
    simp [hr.ne']

/-- A regulated port's bucket after a refill of 100 ns (R406). -/
def refilled (s : State) (k p : Nat) (tokens : Map Int) : Map Int :=
  match s.portLimit k p with
  | none => tokens
  | some r => mset tokens p (min (mgetD tokens p 0 + 10 * (r : Int)) (s.portBurst k p : Int))

/-- One step of the refill. -/
def refillPort (k : Nat) (t : State) (p : Nat) : State :=
  match t.portLimit k p with
  | none => t
  | some r => t.modDch k (fun d => { d with
      tokens := mset d.tokens p (min (mgetD d.tokens p 0 + 10 * (r : Int)) (t.portBurst k p : Int)) })

/-- From s to t the tokens of controller k alone may have changed. -/
def TokensOnly (k : Nat) (s t : State) : Prop :=
  t = { s with dchs := t.dchs } ∧ t.dch k = { s.dch k with tokens := (t.dch k).tokens }

theorem TokensOnly.trans {k : Nat} {s t u : State} (h : TokensOnly k s t) (g : TokensOnly k t u) : TokensOnly k s u := by
  obtain ⟨h1, h2⟩ := h
  obtain ⟨g1, g2⟩ := g
  exact ⟨by rw [g1, h1], by rw [g2, h2]⟩

theorem portLimit_of_tokensOnly {k : Nat} {s t : State} (h : TokensOnly k s t) (p : Nat) : t.portLimit k p = s.portLimit k p := by
  obtain ⟨hframe, hdch⟩ := h
  unfold State.portLimit
  rw [hdch, hframe]
  rfl

theorem portBurst_of_tokensOnly {k : Nat} {s t : State} (h : TokensOnly k s t) (p : Nat) : t.portBurst k p = s.portBurst k p := by
  rw [h.1]
  rfl

/-- One step refills the bucket of its port. -/
theorem refillPort_tokens (k : Nat) (t : State) (p : Nat) :
    TokensOnly k t (refillPort k t p) ∧ ((refillPort k t p).dch k).tokens = refilled t k p (t.dch k).tokens := by
  unfold refillPort refilled
  split
  · exact ⟨⟨rfl, rfl⟩, rfl⟩
  · exact ⟨⟨rfl, by rw [dch_modDch_self]⟩, by rw [dch_modDch_self]⟩

/-- The refill goes through the ports with the limits of the start. -/
theorem foldl_refillPort (k : Nat) (l : List Nat) (s : State) :
    TokensOnly k s (l.foldl (refillPort k) s) ∧
      ((l.foldl (refillPort k) s).dch k).tokens = l.foldl (fun m p => refilled s k p m) (s.dch k).tokens := by
  induction l generalizing s with
  | nil => exact ⟨⟨rfl, rfl⟩, rfl⟩
  | cons p l ih =>
    obtain ⟨hport, htokens⟩ := refillPort_tokens k s p
    obtain ⟨hrest, hfold⟩ := ih (refillPort k s p)
    refine ⟨hport.trans hrest, ?_⟩
    have hsame : ∀ q m, refilled (refillPort k s p) k q m = refilled s k q m := fun q m => by
      unfold refilled
      rw [portLimit_of_tokensOnly hport, portBurst_of_tokensOnly hport]
    simp only [List.foldl_cons, hfold, htokens, hsame]

theorem refilled_self (s : State) (k p : Nat) (m : Map Int) : mgetD (refilled s k p m) p 0 = (match s.portLimit k p with
    | none => mgetD m p 0
    | some r => min (mgetD m p 0 + 10 * (r : Int)) (s.portBurst k p : Int)) := by
  unfold refilled
  cases s.portLimit k p with
  | none => rfl
  | some r => exact mgetD_mset_self ..

theorem refilled_ne (s : State) (k : Nat) {p q : Nat} (m : Map Int) (h : q ≠ p) : mgetD (refilled s k p m) q 0 = mgetD m q 0 := by
  unfold refilled
  split
  · rfl
  · exact mgetD_mset_ne _ _ _ h

/-- Ports outside the list keep their bucket. -/
theorem foldl_refilled_not_mem (s : State) (k : Nat) {q : Nat} (l : List Nat) (m : Map Int) (h : q ∉ l) :
    mgetD (l.foldl (fun m p => refilled s k p m) m) q 0 = mgetD m q 0 := by
  induction l generalizing m with
  | nil => rfl
  | cons p l ih =>
    obtain ⟨hne, hnot⟩ := List.ne_and_not_mem_of_not_mem_cons h
    rw [List.foldl_cons, ih _ hnot, refilled_ne s k m hne]

/-- A port that the list names once is refilled once. -/
theorem foldl_refilled_mem (s : State) (k : Nat) {q : Nat} {l : List Nat} (m : Map Int) (hnodup : l.Nodup) (h : q ∈ l) :
    mgetD (l.foldl (fun m p => refilled s k p m) m) q 0 = mgetD (refilled s k q m) q 0 := by
  induction l generalizing m with
  | nil => cases h
  | cons p l ih =>
    obtain ⟨hnot, hrest⟩ := List.nodup_cons.1 hnodup
    rw [List.foldl_cons]
    rcases List.mem_cons.1 h with rfl | hmem
    · exact foldl_refilled_not_mem s k l _ hnot
    · have hne : q ≠ p := fun heq => hnot (heq ▸ hmem)
      rw [ih _ hrest hmem, refilled_self, refilled_self, refilled_ne s k m hne]

theorem exec_regulatorRefill {k : Nat} {s : State} (hcalm : s.calm = true) (hk : k < 12)
    (hgroups : (s.page (dchPage k)).groups = 0) :
    exec (.regulatorRefill k) s = .next ((List.range 16).foldl (refillPort k) s) := by
  have hexec : exec (.regulatorRefill k) s = execRegulatorRefill k s := rfl
  have hstill : s.boundary (dchPage k) 1 = s := boundary_of_not_pending (by rw [hgroups]; exact BitVec.getLsbD_zero)
  have hrow : (List.range 16).foldl (fun t p => match t.portLimit k p with
      | none => t
      | some r => t.modDch k (fun d => { d with
          tokens := mset d.tokens p (min (mgetD d.tokens p 0 + 10 * (r : Int)) (t.portBurst k p : Int)) })) s =
      (List.range 16).foldl (refillPort k) s := rfl
  rw [hexec, execRegulatorRefill, dchAct_quiet hcalm hk] <;> simp only [hstill]
  · exact congrArg _ hrow
  · refine (congrArg State.due hrow).trans ?_
    rw [(foldl_refillPort k _ s).1.1, due_of_calm hcalm]

/-! ### Refresh -/

theorem exec_refresh {k b : Nat} {s : State} (hcalm : s.calm = true) (hk : k < 12) (hb : b < 64) :
    exec (.refresh k b) s = .next (s.modDch k fun d => { d with
      refreshed := mset d.refreshed b s.time.ns, rows := mdel d.rows b, ops := [.refresh b] }) := by
  have hexec : exec (.refresh k b) s = execRefresh k b s := rfl
  rw [hexec, execRefresh, dchAct_quiet hcalm hk] <;> rw [Nat.mod_eq_of_lt hb]
  exact due_of_calm hcalm

/-- Settles O25: a slot's access is its command and those of its ECC line; an activation may raise one fault, which is logged. -/
theorem dramSchedulingRows : Obligations.DramSchedulingRows := by
  unfold Obligations.DramSchedulingRows
  intro k s hcalm hk
  refine ⟨?none, ?hit, ?activate, ?link, ?age, ?refill, ?throttle, ?window, ?refresh, ?closed⟩
  case none =>
    intro a b e hgroups hup hsr hchoose
    exact exec_dchCommandSlot_none hcalm hk hgroups hup hsr hchoose
  case hit =>
    intro a b r hgroups hup hsr hecc hchoose hhit
    set u := (issued s k a r).takeTokens k r.port with hu
    have htokens : AccessOnly k (issued s k a r) u := accessOnly_takeTokens ..
    have hplain : u.eccAccess k r = u.dramOp k (commandOf r) := eccAccess_plain k r (by rw [htokens.frame]; exact hecc)
    have hop : (u.dramOp k (commandOf r)).dch k = { u.dch k with ops := (u.dch k).ops ++ [commandOf r] } := dch_modDch_self ..
    have hissued : (issued s k a r).dch k = { s.dch k with reqs := ((s.dch k).reqs ++ a).erase r, ops := [] } :=
      dch_modDch_self ..
    have hdue : (u.dramOp k (commandOf r)).due = [] :=
      (htokens.trans (accessOnly_dramOp ..)).due_eq.trans (due_of_calm hcalm)
    refine ⟨u.dramOp k (commandOf r), ?_, ?_, ?_, ?_, ?_, ?_⟩
    · rw [exec_dchCommandSlot_some hcalm hk hgroups hup hsr hchoose, if_pos hhit, ← hu, hplain]
      exact congrArg _ (State.settle_of_due _ hdue)
    · rw [State.dramOp, hu, dchsOnly_takeTokens]
      rfl
    · rw [hop, htokens.reqs, hissued]
    · rw [hop, htokens.rows, hissued]
    · rw [hop, hu, ops_takeTokens, hissued]
      rfl
    · rw [hop, hu, tokens_takeTokens, portLimit_issued, hissued]
      rfl
  case activate =>
    intro a b r hgroups hup hsr hsev hchoose hmiss
    set l := s.locate r.addr
    set u := (issued s k a r).takeTokens k r.port
    have htokens : AccessOnly k (issued s k a r) u := accessOnly_takeTokens ..
    obtain ⟨hactivated, hraised⟩ := activateRow_opens u k l r.port
    have haccess := accessOnly_eccAccess (u.activateRow k l r.port) k r
    have hopened : OpenedOnly k (opened u k l) ((u.activateRow k l r.port).eccAccess k r) := hactivated.trans haccess.opened
    have hdch : (opened u k l).dch k = { u.dch k with
        rows := mset (u.dch k).rows l.bankKey l.row
        acts := mset (u.dch k).acts l.bankKey (activate (mgetD (u.dch k).acts l.bankKey []) l.row).1
        ops := (u.dch k).ops ++ [.activate l.bankKey l.row] } := dch_modDch_self ..
    have hissued : (issued s k a r).dch k = { s.dch k with reqs := ((s.dch k).reqs ++ a).erase r, ops := [] } :=
      dch_modDch_self ..
    have hdue : u.due = [] := htokens.due_eq.trans (due_of_calm hcalm)
    obtain ⟨hdchs, hmem, hjobs⟩ := settle_opened (s := opened u k l) (k := k)
      (by rw [opened, htokens.frame]; exact not_sealed_of_live (live_of_calm hcalm)) hk
      ((severity_of_regs (s := s) (by rw [opened, htokens.frame]; rfl) _).trans hsev) hopened
      (by rw [haccess.due_eq]; simpa [hdue] using hraised)
    refine ⟨_, exec_dchCommandSlot_some hcalm hk hgroups hup hsr hchoose, ?_⟩
    rw [if_neg (by simp [hmiss])]
    show (mgetD (State.settle ((u.activateRow k l r.port).eccAccess k r)).dchs k {}).reqs = _ ∧
      mget (mgetD (State.settle ((u.activateRow k l r.port).eccAccess k r)).dchs k {}).rows _ = _ ∧
      (mgetD (State.settle ((u.activateRow k l r.port).eccAccess k r)).dchs k {}).ops.head? = _ ∧
      (State.settle ((u.activateRow k l r.port).eccAccess k r)).mem = _ ∧
      (State.settle ((u.activateRow k l r.port).eccAccess k r)).jobs = _
    rw [hdchs, hmem, hjobs]
    obtain ⟨m, hops⟩ := hopened.ops
    refine ⟨?_, ?_, ?_, ?_, ?_⟩
    · refine hopened.reqs.trans ?_
      rw [hdch, htokens.reqs, hissued]
    · refine (congrArg (mget · l.bankKey) hopened.rows).trans ?_
      rw [hdch]
      exact mget_mset_self ..
    · refine (congrArg List.head? hops).trans ?_
      rw [hdch, ops_takeTokens, hissued]
      rfl
    · rw [hopened.frame, opened, htokens.frame]
      rfl
    · rw [hopened.frame, opened, htokens.frame]
      rfl
  case link =>
    intro a b r hgroups hup hsr hlink hchoose hhit
    have haccess : AccessOnly k (issued s k a r) (((issued s k a r).takeTokens k r.port).eccAccess k r) :=
      (accessOnly_takeTokens ..).trans (accessOnly_eccAccess ..)
    set u := ((issued s k a r).takeTokens k r.port).eccAccess k r
    have hfound : u.eccFound k r.addr .link = u.countCe k := eccFound_link k _ (by rw [haccess.frame]; exact hlink)
    have hdue : (u.countCe k).due = [] := haccess.due_eq.trans (due_of_calm hcalm)
    refine ⟨u.countCe k, ?_, ?_, ?_, ?_⟩
    · rw [exec_dchCommandSlot_some hcalm hk hgroups hup hsr hchoose, if_pos hhit]
      exact congrArg _ ((congrArg State.settle hfound).trans (State.settle_of_due _ hdue))
    · have hcount : (u.countCe k).dch k = { u.dch k with ce := min ((u.dch k).ce + 1) 65535 } :=
        dch_modDch_self u k fun d => { d with ce := min (d.ce + 1) 65535 }
      rw [hcount, haccess.ce, issued, dch_modDch_self]
    · exact evtPend_raiseEvt _ _ (by decide)
    · show u.mem = s.mem
      rw [haccess.frame]
      rfl
  case age =>
    have hexec : exec (.agePromote k) s = execAgePromote k s := rfl
    rw [hexec, execAgePromote, dchAct_quiet hcalm hk]
    exact due_of_calm hcalm
  case refill =>
    intro hgroups
    obtain ⟨⟨hframe, -⟩, htokens⟩ := foldl_refillPort k (List.range 16) s
    refine ⟨_, exec_regulatorRefill hcalm hk hgroups, hframe, fun p hp => ?_⟩
    rw [htokens, foldl_refilled_mem s k _ List.nodup_range (List.mem_range.2 hp)]
    exact refilled_self s k p _
  case throttle =>
    intro p hp
    have hexec : exec (.throttleEnd k p) s = execThrottleEnd k p s := rfl
    set u := s.modDch k fun d => { d with throttled := if bit d.throttled p then d.throttled - 2 ^ p else d.throttled }
    have hdch : (u.throttleCond k).dch k =
        { s.dch k with throttled := if bit (s.dch k).throttled p then (s.dch k).throttled - 2 ^ p else (s.dch k).throttled } :=
      dch_modDch_self s k fun d => { d with throttled := if bit d.throttled p then d.throttled - 2 ^ p else d.throttled }
    have hbit : ∀ r, bit ((u.throttleCond k).dch k).throttled r = (bit (s.dch k).throttled r && r != p) := fun r => by
      rw [hdch]
      dsimp only
      split
      case isTrue hset => exact bit_sub_two_pow hset r
      case isFalse hset =>
        rcases eq_or_ne r p with rfl | hr
        · simpa using hset
        · simp [hr]
    refine ⟨u.throttleCond k, ?_, rfl, by rw [hdch], by simp [hbit], fun r hr => by simp [hbit, hr], ?_⟩
    · rw [hexec, execThrottleEnd, dchAct_quiet hcalm hk]
      exact due_of_calm hcalm
    · exact evtRaw_setCond _ _ _ (by decide)
  case window =>
    intro hgroups
    have hexec : exec (.refreshWindow k) s = execRefreshWindow k s := rfl
    have hstill : s.boundary (dchPage k) 2 = s := boundary_of_not_pending (by rw [hgroups]; exact BitVec.getLsbD_zero)
    rw [hexec, execRefreshWindow, dchAct_quiet hcalm hk] <;> rw [hstill]
    exact due_of_calm hcalm
  case refresh =>
    intro b hb
    refine ⟨_, exec_refresh hcalm hk hb, rfl, ?_, fun c hc => ?_⟩
    · rw [dch_modDch_self, mgetD_mset_self]
    · rw [dch_modDch_self, mgetD_mset_ne _ _ _ hc, mget_mdel_ne _ hc]
      exact ⟨rfl, rfl⟩
  case closed =>
    intro b t hb hsorted ht
    obtain rfl := Host.Outcome.next.inj ((exec_refresh hcalm hk hb).symm.trans ht)
    rw [dch_modDch_self]
    exact mget_mdel_self _ _ hsorted

end Sys2Proof.DramScheduling
end

section
/-!
PROOF. The commands of the flow table and the commit of a meter (R490 to R501).
-/
namespace Sys2Proof.FlowTable
open Sys2Proof.Machine Sys2Proof.SelfTimed Sys2Proof.RegisterPages

/-! ### What binding changes -/

/-- From s to t the flow table, its command counter, the meters, memory and the waiting faults stand. -/
structure TableStands (s t : State) : Prop where
  flows : t.net.flows = s.net.flows
  seq : t.net.flowSeq = s.net.flowSeq
  meters : t.net.meters = s.net.meters
  mem : t.mem = s.mem
  due : t.due = s.due

theorem TableStands.refl (s : State) : TableStands s s := ⟨rfl, rfl, rfl, rfl, rfl⟩

theorem TableStands.trans {s t u : State} (h : TableStands s t) (g : TableStands t u) : TableStands s u :=
  ⟨g.flows.trans h.flows, g.seq.trans h.seq, g.meters.trans h.meters, g.mem.trans h.mem, g.due.trans h.due⟩

/-- What a merge held goes back to its queues (R497). -/
theorem tableStands_dropMerge (s : State) (g : Nat) : TableStands s (s.dropMerge g) := by
  have hcells : TableStands s ((mgetD s.net.merges g {}).held.foldl (fun (t : State) h =>
      match t.flow h.flow with
      | some f => if f.feeds then t.modClq f.clq (fun c => { c with merge := c.merge - cellsOf h.pay.length }) else t
      | none => t) s) := by
    refine List.foldlRecOn (motive := TableStands s) _ _ (.refl s) fun t ht h _ => ?_
    split
    · split
      · exact ht.trans ⟨rfl, rfl, rfl, rfl, rfl⟩
      · exact ht
    · exact ht
  exact hcells.trans ⟨rfl, rfl, rfl, rfl, rfl⟩

theorem tableStands_bindFlow (s : State) (i : Nat) (f : Flow) (desc : Option (List Byte)) :
    TableStands s (s.bindFlow i f desc) := by
  unfold State.bindFlow
  cases f.group with
  | none =>
    dsimp only
    split <;> split <;> exact ⟨rfl, rfl, rfl, rfl, rfl⟩
  | some g =>
    dsimp only
    split <;> split <;> exact (tableStands_dropMerge s g).trans ⟨rfl, rfl, rfl, rfl, rfl⟩

theorem tableStands_unbindFlow (s : State) (i : Nat) (f : Flow) : TableStands s (s.unbindFlow i f) := by
  unfold State.unbindFlow
  cases f.group with
  | none =>
    dsimp only
    split <;> split <;> exact ⟨rfl, rfl, rfl, rfl, rfl⟩
  | some g =>
    dsimp only
    split <;> split <;> exact (tableStands_dropMerge s g).trans ⟨rfl, rfl, rfl, rfl, rfl⟩

/-- A flow with new bytes is bound again, or passes its output parameters on (R494). -/
def reboundFlow (s : State) (i : Nat) (f x : Flow) (desc : Option (List Byte)) : State :=
  if f.rebinds x then (s.unbindFlow i f).bindFlow i x desc
  else if x.feeds then
    { s with
        geyser := { s.geyser with
        sources := mupd s.geyser.sources x.clq (fun c => if c.flow = i then { c with out := x.data.drop 16 } else c) } }
  else s

theorem tableStands_reboundFlow (s : State) (i : Nat) (f x : Flow) (desc : Option (List Byte)) :
    TableStands s (reboundFlow s i f x desc) := by
  unfold reboundFlow
  split
  · exact (tableStands_unbindFlow s i f).trans (tableStands_bindFlow ..)
  · split <;> exact ⟨rfl, rfl, rfl, rfl, rfl⟩

/-- The entry is stored and the command answers (R494). -/
def stored (s : State) (i : Nat) (f : Flow) : State :=
  ({ s with net := { s.net with flows := mset s.net.flows i f } }).flowDone 0x01 (some i)

theorem flow_stored_self (s : State) (i : Nat) (f : Flow) : (stored s i f).flow i = some f := mget_mset_self ..

theorem flow_stored_ne (s : State) {i e : Nat} (f : Flow) (h : e ≠ i) : (stored s i f).flow e = s.flow e := mget_mset_ne _ _ h

/-- An entry is stored after its binding. -/
theorem stored_of_tableStands {s t : State} (i : Nat) (f : Flow) (h : TableStands s t) :
    (stored t i f).flow i = some f ∧ (stored t i f).net.flowSeq = (s.net.flowSeq + 1) % 256 ∧
      (∀ e, e ≠ i → (stored t i f).flow e = s.flow e) ∧ (stored t i f).mem = s.mem ∧ (stored t i f).due = s.due := by
  refine ⟨flow_stored_self t i f, ?_, fun e he => ?_, h.mem, h.due⟩
  · exact congrArg (fun n => (n + 1) % 256) h.seq
  · rw [flow_stored_ne t f he, State.flow, h.flows, State.flow]

/-! ### The command registers after the traffic of the write -/

@[simp] theorem toL0_cmdKey (s : State) : s.toL0.cmdKey = s.cmdKey := by rw [State.toL0_eq]; rfl

@[simp] theorem toL0_cmdData (s : State) : s.toL0.cmdData = s.cmdData := by rw [State.toL0_eq]; rfl

@[simp] theorem toL0_flow (s : State) (i : Nat) : s.toL0.flow i = s.flow i := by rw [State.toL0_eq]; rfl

@[simp] theorem toL0_findFlow (s : State) (key : List Byte) : s.toL0.findFlow key = s.findFlow key := by rw [State.toL0_eq]; rfl

@[simp] theorem toL0_descWaits (s : State) (d : List Byte) : s.toL0.descWaits d = s.descWaits d := by rw [State.toL0_eq]; rfl

@[simp] theorem toL0_readDesc (s : State) (d : List Byte) (h : Option (List Byte)) : s.toL0.readDesc d h = s.readDesc d h := by
  rw [State.toL0_eq]; rfl

@[simp] theorem toL0_entryCheck (s : State) (i : Nat) (f : Flow) (desc : Option (List Byte)) (kept : Bool) :
    s.toL0.entryCheck i f desc kept = s.entryCheck i f desc kept := by rw [State.toL0_eq]; rfl

/-! ### The commands -/

section
variable {s : State} (hears : s.hears 14 = true)
include hears

/-- A command of the flow table that comes out as a known next state. -/
theorem hostCmd_flow {f : State → State} {t : State} (ht : f s.toL0 = t) (hdue : t.due = []) : hostCmd 14 s f = .next t := by
  rw [hostCmd_quiet _ _ _ hears (by rw [ht, hdue]), ht]

theorem due_flowDone (r : Nat) (i : Option Nat) : (s.toL0.flowDone r i).due = [] := (toL0_due s).trans (due_of_hears hears)

/-- FLOW_INSERT up to its checks: the key, its presence, and the entry (R490, R494, R495). -/
theorem exec_flowInsert (h : Option (List Byte)) (hwaits : s.descWaits s.cmdData = false) {t : State}
    (ht : (if !keyOk s.cmdKey then s.toL0.flowDone 0x13 none
      else if (s.findFlow s.cmdKey).isSome then s.toL0.flowDone 0x10 none
      else
        match (bucket 0 (crc32c s.cmdKey) ++ bucket 1 (crc32c s.cmdKey)).find? (fun e => (s.flow e).isNone) with
        | none => s.toL0.flowDone (if s.entryCheck 65536 { key := s.cmdKey, data := s.cmdData } (s.readDesc s.cmdData h) false = 0
            then 0x11
            else s.entryCheck 65536 { key := s.cmdKey, data := s.cmdData } (s.readDesc s.cmdData h) false) none
        | some i =>
          if s.entryCheck i { key := s.cmdKey, data := s.cmdData } (s.readDesc s.cmdData h) false ≠ 0 then
            s.toL0.flowDone (s.entryCheck i { key := s.cmdKey, data := s.cmdData } (s.readDesc s.cmdData h) false) none
          else
            stored (s.toL0.bindFlow i { key := s.cmdKey, data := s.cmdData } (s.readDesc s.cmdData h)) i
              { key := s.cmdKey, data := s.cmdData }) = t)
    (hdue : t.due = []) : exec (.flowInsert h) s = .next t := by
  have hexec : exec (.flowInsert h) s = execFlowInsert h s := rfl
  rw [hexec, execFlowInsert, hostCmd_flow hears _ hdue]
  simp only [toL0_cmdKey, toL0_cmdData, toL0_findFlow, toL0_flow, toL0_descWaits, toL0_readDesc, toL0_entryCheck, hwaits,
    Bool.false_eq_true, if_false]
  exact ht

/-- FLOW_DELETE of a key that is not canonical, or that no entry holds. -/
theorem exec_flowDelete_none (h : keyOk s.cmdKey = true → s.findFlow s.cmdKey = none) :
    exec .flowDelete s = .next (s.toL0.flowDone (if keyOk s.cmdKey then 0x12 else 0x13) none) := by
  have hexec : exec .flowDelete s = execFlowDelete s := rfl
  rw [hexec, execFlowDelete, hostCmd_flow hears _ (due_flowDone hears _ _)]
  simp only [toL0_cmdKey, toL0_findFlow]
  cases hkey : keyOk s.cmdKey with
  | false => rfl
  | true => simp [h hkey]

theorem exec_flowDelete_some {i : Nat} {f : Flow} (hkey : keyOk s.cmdKey = true) (hfind : s.findFlow s.cmdKey = some i)
    (hflow : s.flow i = some f) :
    exec .flowDelete s = .next (State.flowDone { s.toL0.unbindFlow i f with
      net := { (s.toL0.unbindFlow i f).net with flows := mdel (s.toL0.unbindFlow i f).net.flows i } } 0x01 none) := by
  have hexec : exec .flowDelete s = execFlowDelete s := rfl
  rw [hexec, execFlowDelete, hostCmd_flow hears]
  · simp only [toL0_cmdKey, toL0_findFlow, toL0_flow, hkey, hfind, hflow, Bool.not_true, Bool.false_eq_true, if_false]
  · exact (tableStands_unbindFlow ..).due.trans ((toL0_due s).trans (due_of_hears hears))

/-- FLOW_LOOKUP (R494). -/
theorem exec_flowLookup : exec .flowLookup s = .next (
    if !keyOk s.cmdKey then s.toL0.flowDone 0x13 none
    else match s.findFlow s.cmdKey with
      | none => s.toL0.flowDone 0x12 none
      | some i => s.toL0.flowDone 0x01 (some i)) := by
  have hexec : exec .flowLookup s = execFlowLookup s := rfl
  rw [hexec, execFlowLookup, hostCmd_flow hears]
  · cases hkey : keyOk s.cmdKey <;> cases hfind : s.findFlow s.cmdKey <;> simp [hkey, hfind]
  · split
    · exact due_flowDone hears _ _
    · split <;> exact due_flowDone hears _ _

/-- FLOW_MODIFY of a key that is not canonical, or that no entry holds. -/
theorem exec_flowModify_none (h : Option (List Byte)) (hwaits : s.descWaits s.cmdData = false)
    (hnone : keyOk s.cmdKey = true → s.findFlow s.cmdKey = none) :
    exec (.flowModify h) s = .next (s.toL0.flowDone (if keyOk s.cmdKey then 0x12 else 0x13) none) := by
  have hexec : exec (.flowModify h) s = execFlowModify h s := rfl
  rw [hexec, execFlowModify, hostCmd_flow hears _ (due_flowDone hears _ _)]
  simp only [toL0_cmdKey, toL0_cmdData, toL0_findFlow, toL0_descWaits, hwaits, Bool.false_eq_true, if_false]
  cases hkey : keyOk s.cmdKey with
  | false => rfl
  | true => simp [hnone hkey]

/-- FLOW_MODIFY of an entry whose new bytes pass their checks. -/
theorem exec_flowModify_some {i : Nat} {f : Flow} (h : Option (List Byte)) (hwaits : s.descWaits s.cmdData = false)
    (hkey : keyOk s.cmdKey = true) (hfind : s.findFlow s.cmdKey = some i) (hflow : s.flow i = some f)
    (hcheck : s.entryCheck i { f with data := s.cmdData } (s.readDesc s.cmdData h) (!f.rebinds { f with data := s.cmdData }) = 0) :
    exec (.flowModify h) s = .next (stored (reboundFlow s.toL0 i f { f with data := s.cmdData } (s.readDesc s.cmdData h)) i
      { f with data := s.cmdData }) := by
  have hexec : exec (.flowModify h) s = execFlowModify h s := rfl
  rw [hexec, execFlowModify, hostCmd_flow hears]
  · simp only [toL0_cmdKey, toL0_cmdData, toL0_findFlow, toL0_flow, toL0_descWaits, toL0_readDesc, toL0_entryCheck, hwaits, hkey,
      hfind, hflow, hcheck, ne_eq, not_true_eq_false, Bool.not_true, Bool.false_eq_true, if_false]
    rfl
  · exact (stored_of_tableStands _ _ (tableStands_reboundFlow ..)).2.2.2.2.trans ((toL0_due s).trans (due_of_hears hears))

end

/-- METER_COMMIT (R501). -/
theorem exec_meterCommit {m : Nat} {s : State} (hears : s.hears 15 = true) (hm : m < 4096) :
    exec (.meterCommit m) s = .next (if meterOk (s.meter m).cfg then s.toL0.modMeter m fun x => { x with
      act := x.cfg, last := s.time.ns, tc := ({ x with act := x.cfg }).field 1 3 * 65536
      te := ({ x with act := x.cfg }).field 12 3 * 65536 } else s.toL0.reject 15 1 0) := by
  have hexec : exec (.meterCommit m) s = execMeterCommit m s := rfl
  have hmeter : s.toL0.meter m = s.meter m := by rw [State.toL0_eq]; rfl
  have htime : s.toL0.time = s.time := by rw [State.toL0_eq]
  rw [hexec, execMeterCommit, hostCmd_quiet _ _ _ hears] <;> simp only [Nat.mod_eq_of_lt hm, hmeter, htime]
  split <;> exact (toL0_due s).trans (due_of_hears hears)

/-- Settles O57: each command answers in the order of its checks, and binding leaves the table itself to the command. -/
theorem flowTableRows : Obligations.FlowTableRows := by
  unfold Obligations.FlowTableRows
  refine ⟨?badKey, ?absent, ?present, ?insert, ?full, ?delete, ?modify, ?meter⟩
  case badKey =>
    intro h s hears hkey hwaits
    refine ⟨exec_flowInsert hears h hwaits (by simp [hkey]) (due_flowDone hears _ _), ?_, ?_, ?_⟩
    · rw [exec_flowDelete_none hears (by simp [hkey])]
      simp [hkey]
    · rw [exec_flowModify_none hears h hwaits (by simp [hkey])]
      simp [hkey]
    · rw [exec_flowLookup hears]
      simp [hkey]
  case absent =>
    intro h s hears hkey hwaits hfind
    refine ⟨?_, ?_, ?_⟩
    · rw [exec_flowDelete_none hears fun _ => hfind]
      simp [hkey]
    · rw [exec_flowModify_none hears h hwaits fun _ => hfind]
      simp [hkey]
    · rw [exec_flowLookup hears]
      simp [hkey, hfind]
  case present =>
    intro i h s hears hkey hwaits hfind
    refine ⟨exec_flowInsert hears h hwaits (by simp [hkey, hfind]) (due_flowDone hears _ _), fun _ => ?_⟩
    rw [exec_flowLookup hears]
    simp [hkey, hfind]
  case insert =>
    intro i h f s hears hkey hwaits hfind hf hfree hcheck
    subst hf
    obtain ⟨hself, hseq, hother, hmem, hdue⟩ := stored_of_tableStands i { key := s.cmdKey, data := s.cmdData }
      (tableStands_bindFlow s.toL0 i { key := s.cmdKey, data := s.cmdData } (s.readDesc s.cmdData h))
    refine ⟨_, exec_flowInsert hears h hwaits (by rw [hfree]; simp [hkey, hfind, hcheck])
      (hdue.trans ((toL0_due s).trans (due_of_hears hears))), hself, rfl, rfl, ?_, fun e he => ?_, ?_⟩
    · rw [hseq, State.toL0_eq]
    · rw [hother e he, toL0_flow]
    · rw [hmem, State.toL0_eq]
  case full =>
    intro h s hears hkey hwaits hfind hfree hcheck
    exact exec_flowInsert hears h hwaits (by rw [hfree]; simp [hkey, hfind, hcheck]) (due_flowDone hears _ _)
  case delete =>
    intro i f s hears hkey hfind hflow
    have hstands := tableStands_unbindFlow s.toL0 i f
    refine ⟨_, exec_flowDelete_some hears hkey hfind hflow, ?_, rfl, ?_, ?_⟩
    · refine (congrArg (mdel · i) hstands.flows).trans ?_
      rw [State.toL0_eq]
    · refine hstands.mem.trans ?_
      rw [State.toL0_eq]
    · refine hstands.meters.trans ?_
      rw [State.toL0_eq]
  case modify =>
    intro i h f s hears hkey hwaits hfind hflow hcheck
    obtain ⟨hself, -, hother, hmem, -⟩ := stored_of_tableStands i { f with data := s.cmdData }
      (tableStands_reboundFlow s.toL0 i f { f with data := s.cmdData } (s.readDesc s.cmdData h))
    refine ⟨_, exec_flowModify_some hears h hwaits hkey hfind hflow hcheck, hself, rfl, rfl, fun e he => ?_, ?_⟩
    · rw [hother e he, toL0_flow]
    · rw [hmem, State.toL0_eq]
  case meter =>
    intro m s hears hm
    refine ⟨fun hok => ?_, fun hok => ?_⟩ <;> rw [exec_meterCommit hears hm] <;> simp [hok]

end Sys2Proof.FlowTable
end

section
/-!
PROOF. The board's side: the JTAG port and the SMBus target (R545, R558, R580, R582).
-/
namespace Sys2Proof.BoardPorts
open Sys2Proof.Machine Sys2Proof.SelfTimed

/-- While no attempt is held back the TAP's instruction alone changes. -/
theorem tapTo_of_free {s : State} (i : TapInstr) (hheld : s.jtag.held = false) :
    s.tapTo i = { s with jtag := { s.jtag with instr := i } } := by
  rw [State.tapTo]
  simp [hheld]

/-- A test instruction is accepted unless SECURE_BOOT is fused and PERST_N is high (R582). -/
theorem tapTest_eq {s : State} (i : TapInstr) (hheld : s.jtag.held = false) :
    s.tapTest i = if s.fuse.secureBoot && s.power.perstHigh then s else { s with jtag := { s.jtag with instr := i } } := by
  rw [State.tapTest, tapTo_of_free i hheld]

/-- A JTAG instruction of a calm part that comes out as a known state. -/
theorem act_jtag {s t : State} {f : State → State} (hcalm : s.calm = true) (hf : f s = t) (hdue : t.due = s.due) :
    act s f = .next t := by
  rw [act_quiet _ _ (live_of_calm hcalm) (by rw [hf, hdue, due_of_calm hcalm]), hf]

theorem exec_tapTest {s : State} (hcalm : s.calm = true) (hheld : s.jtag.held = false) (i : TapInstr) :
    (act s fun s => s.tapTest i) =
      .next (if s.fuse.secureBoot && s.power.perstHigh then s else { s with jtag := { s.jtag with instr := i } }) :=
  act_jtag hcalm (tapTest_eq i hheld) (by split <;> rfl)

/-- The target answers while the part is powered (R580). -/
theorem smbReply_of_powered {s : State} (hpower : s.power.powered = true) (bs : List Byte) :
    smbReply s bs = .next (s.emit (.smb bs)) := by rw [smbReply, if_pos hpower]

theorem execSmbFaultRecord_of_powered {s : State} (hpower : s.power.powered = true) {i : Nat} (hi : i < 48) :
    execSmbFaultRecord i s = .next (s.emit (.smb (s.slotBytes32 i))) := by
  rw [execSmbFaultRecord, if_pos hi, smbReply_of_powered hpower]

/-- Settles O18: no attempt is held back, so an instruction enters the TAP alone; an SMBus read sends its bytes alone. -/
theorem jtagRowsSetTheInstruction : Obligations.JtagRowsSetTheInstruction := by
  unfold Obligations.JtagRowsSetTheInstruction
  refine ⟨fun s hcalm hheld => ?jtag, fun s hpower => ?smbus⟩
  case jtag =>
    have hextest : exec .jtagExtest s = act s fun s => s.tapTest .extest := rfl
    have hhighz : exec .jtagHighz s = act s fun s => s.tapTest .highz := rfl
    have hclamp : exec .jtagClamp s = act s fun s => s.tapTest .clamp := rfl
    have hbypass : exec .jtagBypass s = act s fun s => s.tapTo .bypass := rfl
    have hidcode : exec .jtagIdcode s = act s fun s => (s.tapTo .idcode).emit (.jtag 0x24824A1F) := rfl
    have hsample : exec .jtagSamplePreload s =
        act s fun s => ({ s with jtag := { s.jtag with sampled := s.balls }, free := s.free + 1 }).tapTo .sample := rfl
    have hreset : exec .jtagTestLogicReset s = act s fun s => s.tapTo .reset := rfl
    refine ⟨hbypass.trans (act_jtag hcalm (tapTo_of_free _ hheld) rfl),
      hidcode.trans (act_jtag hcalm (congrArg (fun t : State => t.emit (.jtag 0x24824A1F)) (tapTo_of_free _ hheld)) rfl),
      hsample.trans (act_jtag hcalm (tapTo_of_free _ hheld) rfl),
      hreset.trans (act_jtag hcalm (tapTo_of_free _ hheld) rfl), fun hopen => ?_, fun hfused hhigh => ?_⟩
    · have hno : (s.fuse.secureBoot && s.power.perstHigh) = false := by
        rcases hopen with h | h <;> simp [h]
      rw [hextest, hhighz, hclamp, exec_tapTest hcalm hheld, exec_tapTest hcalm hheld, exec_tapTest hcalm hheld, hno]
      exact ⟨rfl, rfl, rfl⟩
    · rw [hextest, hhighz, hclamp, exec_tapTest hcalm hheld, exec_tapTest hcalm hheld, exec_tapTest hcalm hheld, hfused, hhigh]
      exact ⟨rfl, rfl, rfl⟩
  case smbus =>
    delta exec
    exact ⟨smbReply_of_powered hpower _, smbReply_of_powered hpower _, smbReply_of_powered hpower _, smbReply_of_powered hpower _,
      smbReply_of_powered hpower _, smbReply_of_powered hpower _, fun i hi => execSmbFaultRecord_of_powered hpower hi,
      smbReply_of_powered hpower _, smbReply_of_powered hpower _, smbReply_of_powered hpower _, smbReply_of_powered hpower _,
      smbReply_of_powered hpower _, rfl⟩

end Sys2Proof.BoardPorts
end

section
/-!
PROOF. The interrupt controller and the MSI-X table (R97, R106, R466 to R478).
-/
namespace Sys2Proof.Interrupts
open Sys2Proof.Machine Sys2Proof.SelfTimed Sys2Proof.RegisterPages Sys2Proof.HostLink

/-! ### Sources and groups -/

/-- From s to t a message may have been owed or sent: the sources, and all beyond the controller and the PCIe function, stand. -/
structure SourcesStand (s t : State) : Prop where
  frame : t = { s with intc := t.intc, pcie := t.pcie, out := t.out }
  srcs : t.intc.srcs = s.intc.srcs

theorem SourcesStand.trans {s t u : State} (h : SourcesStand s t) (g : SourcesStand t u) : SourcesStand s u :=
  ⟨by rw [g.frame, h.frame], g.srcs.trans h.srcs⟩

theorem sourcesStand_modGrp (s : State) (g : Nat) (f : IntGroup → IntGroup) : SourcesStand s (s.modGrp g f) := ⟨rfl, rfl⟩

theorem sourcesStand_send (s : State) (o : Out) : SourcesStand s (s.send o) := by
  rw [State.send_linkOnly]
  exact ⟨rfl, rfl⟩

theorem sourcesStand_raisePme (s : State) : SourcesStand s s.raisePme := by
  unfold State.raisePme
  split
  · exact SourcesStand.trans (t := { s with pcie := { s.pcie with pmeStatus := true } }) ⟨rfl, rfl⟩ (sourcesStand_send _ _)
  · exact ⟨rfl, rfl⟩

/-- A message leaves, waits in the PBA, or raises PME (R106, R476). -/
theorem sourcesStand_issueVec (s : State) (v : Nat) : SourcesStand s (s.issueVec v) := by
  unfold State.issueVec
  dsimp only
  split
  · exact sourcesStand_send s _
  · split
    · exact SourcesStand.trans (t := { s with pcie := { s.pcie with pba := s.pcie.pba ||| (1#128 <<< v) } }) ⟨rfl, rfl⟩
        (sourcesStand_raisePme _)
    · exact ⟨rfl, rfl⟩

theorem sourcesStand_issueGrp (s : State) (g : Nat) : SourcesStand s (s.issueGrp g) := by
  unfold State.issueGrp
  dsimp only
  split
  · exact (sourcesStand_modGrp s g _).trans (sourcesStand_issueVec _ _)
  · exact ⟨rfl, rfl⟩

/-- Source n with a new value, before any message of its group. -/
def putSrc (s : State) (n : Nat) (f : IntSource → IntSource) : State :=
  { s with intc := { s.intc with srcs := mset s.intc.srcs n (f (s.src n)) } }

/-- A change of a source may owe its group a message (R474). -/
theorem sourcesStand_modSrc (s : State) (n : Nat) (f : IntSource → IntSource) : SourcesStand (putSrc s n f) (s.modSrc n f) := by
  unfold State.modSrc
  dsimp only
  split
  · exact (sourcesStand_modGrp _ _ _).trans (sourcesStand_issueGrp _ _)
  · exact ⟨rfl, rfl⟩

@[simp] theorem src_modSrc_self (s : State) (n : Nat) (f : IntSource → IntSource) : (s.modSrc n f).src n = f (s.src n) := by
  rw [State.src, (sourcesStand_modSrc s n f).srcs]
  exact mgetD_mset_self ..

@[simp] theorem modSrc_due (s : State) (n : Nat) (f : IntSource → IntSource) : (s.modSrc n f).due = s.due := by
  rw [(sourcesStand_modSrc s n f).frame]
  rfl

@[simp] theorem toL0_src (s : State) (n : Nat) : s.toL0.src n = s.src n := by rw [State.toL0_eq]; rfl

@[simp] theorem toL0_firstClaimable (s : State) (g : Nat) : s.toL0.firstClaimable g = s.firstClaimable g := by
  rw [State.toL0_eq]; rfl

theorem grp_modGrp_self (s : State) (g : Nat) (f : IntGroup → IntGroup) : (s.modGrp g f).grp g = f (s.grp g) :=
  mgetD_mset_self ..

section
variable {s : State} (hears : s.hears 4 = true)
include hears

/-- A write to the controller's page that changes one source. -/
theorem hostCmd_modSrc {f : State → State} {n : Nat} {g : IntSource → IntSource} (hf : f s.toL0 = s.toL0.modSrc n g) :
    ∃ t, hostCmd 4 s f = .next t ∧ t.src n = g (s.src n) :=
  ⟨_, hostCmd_quiet _ _ _ hears (by rw [hf, modSrc_due, toL0_due, due_of_hears hears]), by rw [hf, src_modSrc_self, toL0_src]⟩

/-- SET: an EDGE source becomes pending, a LEVEL source takes its software level (R469). -/
theorem exec_intSourceSet {n : Nat} (hreal : srcReal n = true) :
    ∃ t, exec (.intSourceSet n) s = .next t ∧
      t.src n = (if srcLevel n = true then { s.src n with soft := true } else { s.src n with pending := true }) := by
  delta exec
  cases hlevel : srcLevel n with
  | true => exact hostCmd_modSrc hears (g := fun x => { x with soft := true }) (by simp [hreal, hlevel])
  | false => exact hostCmd_modSrc hears (g := fun x => { x with pending := true }) (by simp [hreal, hlevel, State.edge])

/-- A PENDING write clears an EDGE source only (R469). -/
theorem exec_intPendingClear {n : Nat} (hreal : srcReal n = true) :
    ∃ t, exec (.intPendingClear n) s = .next t ∧
      t.src n = (if srcLevel n = true then s.src n else { s.src n with pending := false }) := by
  have hexec : exec (.intPendingClear n) s = execIntPendingClear n s := rfl
  rw [hexec]
  cases hlevel : srcLevel n with
  | true =>
    refine ⟨s.toL0, ?_, toL0_src s n⟩
    rw [execIntPendingClear, hostCmd_quiet _ _ _ hears] <;> simp [hreal, hlevel, due_of_hears hears]
  | false => exact hostCmd_modSrc hears (g := fun x => { x with pending := false }) (by simp [hreal, hlevel])

theorem exec_intSourceEnable {n : Nat} (b : Bool) (hreal : srcReal n = true) :
    ∃ t, exec (.intSourceEnable n b) s = .next t ∧ t.src n = { s.src n with enable := b } := by
  delta exec
  exact hostCmd_modSrc hears (g := fun x => { x with enable := b }) (by simp [hreal])

/-- CLAIM reaches the controller of a served page (R471). -/
theorem exec_claim {g : Nat} (hg : g < 40) : exec (.claim g) s = .next (match s.firstClaimable g with
    | none => s.toL0.emit (.claimed false 0)
    | some n => (s.toL0.claimSource n).emit (.claimed true n)) := by
  obtain ⟨hlinked, hdecodes, -, hserved⟩ := hears_parts hears
  have hexec : exec (.claim g) s = execClaim g s := rfl
  rw [hexec, execClaim]
  simp only [toL0_linked, hlinked, toL0_decodes, hdecodes, toL0_serving, hserved, toL0_firstClaimable, Bool.not_true,
    Bool.false_eq_true, ne_eq, not_true_eq_false, if_false, if_neg (show ¬40 ≤ g by omega)]
  cases s.firstClaimable g <;> rfl

/-- EOI of a source that is not in service in the group is refused (R472). -/
theorem exec_eoi_refused {g n : Nat} (hbad : 40 ≤ g ∨ n / 8 ≠ g ∨ (s.src n).inService = false) :
    exec (.eoi g n) s = .next (s.toL0.accessBad 4) := by
  have hexec : exec (.eoi g n) s = execEoi g n s := rfl
  have hno : ¬(g < 40 ∧ n / 8 = g ∧ (s.src n).inService = true) := by
    rintro ⟨hg, hgroup, hservice⟩
    rcases hbad with h | h | h
    · omega
    · exact h hgroup
    · simp [h] at hservice
  have hdue : (s.toL0.accessBad 4).due = [] := (toL0_due s).trans (due_of_hears hears)
  rw [hexec, execEoi, hostCmd_quiet _ _ _ hears] <;> simp only [toL0_src, if_neg hno]
  exact hdue

end

/-! ### The hold-off timer -/

/-- The end of a hold-off with nothing to claim leaves the group idle (R475). -/
theorem exec_holdoffExpiry_idle {g : Nat} {s : State} (hcalm : s.calm = true) (hg : g < 40) (hrun : (s.grp g).timerRun = true)
    (hleft : (s.grp g).timerLeft = 0) (hnone : s.firstClaimable g = none) :
    exec (.holdoffExpiry g) s = .next ((s.modGrp g fun y => { y with timerRun := false, timerLeft := 0 }).modGrp g
      fun y => { y with msgDue := false }) := by
  have hexec : exec (.holdoffExpiry g) s = execHoldoffExpiry g s := rfl
  have hclaim : (s.modGrp g fun y => { y with timerRun := false, timerLeft := 0 }).firstClaimable g = none := hnone
  rw [hexec, execHoldoffExpiry, act_quiet _ _ (live_of_calm hcalm)] <;>
    simp only [hg, hrun, hleft, and_self, if_true, hclaim, Option.isSome_none, Bool.false_eq_true, if_false]
  exact due_of_calm hcalm

theorem exec_holdoffExpiry_counting {g : Nat} {s : State} (hcalm : s.calm = true)
    (hcount : (s.grp g).timerRun = false ∨ (s.grp g).timerLeft ≠ 0) : exec (.holdoffExpiry g) s = .next s := by
  have hexec : exec (.holdoffExpiry g) s = execHoldoffExpiry g s := rfl
  have hno : ¬(g < 40 ∧ (s.grp g).timerRun = true ∧ (s.grp g).timerLeft = 0) := by
    rintro ⟨-, hrun, hleft⟩
    rcases hcount with h | h
    · simp [h] at hrun
    · exact h hleft
  rw [hexec, execHoldoffExpiry, act_quiet _ _ (live_of_calm hcalm)] <;> rw [if_neg hno]
  exact due_of_calm hcalm

/-! ### The MSI-X table -/

@[simp] theorem vec_modVec_self (s : State) (v : Nat) (f : MsixEntry → MsixEntry) : (s.modVec v f).vec v = f (s.vec v) :=
  mgetD_mset_self ..

theorem vec_modVec_ne (s : State) {v u : Nat} (f : MsixEntry → MsixEntry) (h : u ≠ v) : (s.modVec v f).vec u = s.vec u :=
  mgetD_mset_ne _ _ _ h

@[simp] theorem toL0_vec (s : State) (v : Nat) : s.toL0.vec v = s.vec v := by rw [State.toL0_eq]; rfl

/-- A write to an entry of the table (R97). -/
theorem bar4Write_quiet {s : State} {v : Nat} {f : State → State} (hcalm : s.calm = true) (hlinked : s.linked = true)
    (hdecodes : s.decodes = true) (hv : v < 128) (hquiet : (f s.toL0).due = []) : bar4Write v s f = .next (f s.toL0) :=
  memRequest_quiet hcalm hlinked hdecodes (by simpa using hv) hquiet

/-- One step of the walk through the PBA (R476). -/
def flushOne (t : State) (v : Nat) : State :=
  if t.pcie.pba.getLsbD v && t.vecOpen v then
    { t with pcie := { t.pcie with pba := t.pcie.pba &&& ~~~ (1#128 <<< v) } }.sendMsix v
  else t

/-- A PBA without a set bit has nothing to send. -/
theorem foldl_flushOne_of_clear (l : List Nat) {t : State} (h : t.pcie.pba = 0) : l.foldl flushOne t = t := by
  induction l with
  | nil => rfl
  | cons v l ih =>
    have hstep : flushOne t v = t := by simp [flushOne, h]
    rw [List.foldl_cons, hstep, ih]

/-- The one message that the PBA holds leaves. -/
theorem foldl_flushOne_of_one {v : Nat} (hv : v < 128) (l : List Nat) {t : State} (hpba : t.pcie.pba = 1#128 <<< v)
    (hopen : t.vecOpen v = true) (hmem : v ∈ l) :
    l.foldl flushOne t = State.sendMsix { t with pcie := { t.pcie with pba := 0 } } v := by
  have hbit : ∀ u, t.pcie.pba.getLsbD u = decide (u = v) := fun u => by
    rw [hpba, BitVec.getLsbD_shiftLeft, BitVec.getLsbD_one]
    by_cases h : u = v
    · simp [h, hv]
    · simp only [h, decide_false]
      by_cases hlt : u < v
      · simp [hlt]
      · simp [show u - v ≠ 0 by omega]
  have hsent : ∀ o : Out, (State.send { t with pcie := { t.pcie with pba := 0 } } o).pcie.pba = 0 := fun o => by
    unfold State.send State.emit State.toL0
    split <;> rfl
  induction l with
  | nil => cases hmem
  | cons u l ih =>
    rw [List.foldl_cons]
    by_cases h : u = v
    · subst h
      have hstep : flushOne t u = State.sendMsix { t with pcie := { t.pcie with pba := 0 } } u := by
        have hclear : t.pcie.pba &&& ~~~ (1#128 <<< u) = 0 := by
          rw [hpba]
          simp
        rw [flushOne, if_pos (by simp [hbit, hopen]), hclear]
      rw [hstep]
      exact foldl_flushOne_of_clear l (hsent _)
    · have hstep : flushOne t u = t := by simp [flushOne, hbit, h]
      rw [hstep]
      exact ih ((List.mem_cons.1 hmem).resolve_left fun heq => h heq.symm)

/-- With the bus open, clearing a mask sends the one message that waits (R476). -/
theorem unmasked_of_one {v : Nat} (hv : v < 128) {t : State} (l : List Nat) (hready : t.boot.state = .ready)
    (hbus : t.busOpen = true) (hpba : t.pcie.pba = 1#128 <<< v) (hopen : t.vecOpen v = true) :
    t.unmasked l = State.sendMsix { t with pcie := { t.pcie with pba := 0 } } v := by
  have hflush : t.flushPba = (List.range 128).foldl flushOne t := if_neg (by simp [hready, hbus])
  rw [State.unmasked, if_neg (by simp [hbus]), hflush, foldl_flushOne_of_one hv _ hpba hopen (List.mem_range.2 hv)]

/-- An entry as a write of one of its fields leaves it (R478). -/
def writtenEntry (f : MsixField) (w : Word) (e : MsixEntry) : MsixEntry :=
  match f with
  | .addrLo => { e with addr := e.addr / 2 ^ 32 * 2 ^ 32 + w.toNat }
  | .addrHi => { e with addr := w.toNat * 2 ^ 32 + e.addr % 2 ^ 32 }
  | .data => { e with data := w }

theorem exec_msixTableWrite {s : State} {v : Nat} (f : MsixField) (w : Word) (hcalm : s.calm = true) (hlinked : s.linked = true)
    (hdecodes : s.decodes = true) (hv : v < 128) :
    exec (.msixTableWrite v f (some w)) s = .next (s.toL0.modVec v (writtenEntry f w)) := by
  delta exec
  exact bar4Write_quiet (f := fun t => t.modVec v (writtenEntry f w)) hcalm hlinked hdecodes hv
    ((toL0_due s).trans (due_of_calm hcalm))

/-- Settles O16: a command changes its one source, group or table entry; a message of the group leaves the sources alone. -/
theorem interruptSourceRows : Obligations.InterruptSourceRows := by
  unfold Obligations.InterruptSourceRows
  refine ⟨⟨fun n s hears hreal => exec_intSourceSet hears hreal, fun n s hears hreal => exec_intPendingClear hears hreal,
    fun n b s hears hreal => exec_intSourceEnable hears b hreal, ?level, ?claim, ?noClaim, ?eoi,
    fun g n s hears hbad => exec_eoi_refused hears hbad, ?idle, fun g s hcalm hcount => exec_holdoffExpiry_counting hcalm hcount⟩,
    ?mask, ?maskAll, ?unmask, ?table⟩
  case level =>
    intro n s hcalm hlevel
    have hexec : exec (.sourceLevelChange n) s = execSourceLevelChange n s := rfl
    refine ⟨_, ?_, src_modSrc_self s n fun x => { x with level := s.unitLevel n }⟩
    rw [hexec, execSourceLevelChange, act_quiet _ _ (live_of_calm hcalm)] <;> rw [if_pos hlevel]
    rw [modSrc_due, due_of_calm hcalm]
  case claim =>
    intro g n s hears hg hfirst
    refine ⟨(s.toL0.claimSource n).emit (.claimed true n), (exec_claim hears hg).trans (by rw [hfirst]), ?_, ?_⟩
    · rw [State.claimSource, modSrc_of_inService rfl, State.toL0_eq]
      rfl
    · exact (src_modSrc_self s.toL0 n _).trans (by rw [toL0_src])
  case noClaim =>
    intro g s hears hg hfirst
    rw [exec_claim hears hg, hfirst]
  case eoi =>
    intro g n s hears hg hgroup hservice
    delta exec
    exact hostCmd_modSrc hears (g := fun x => { x with inService := false }) (by simp [hg, hgroup, hservice])
  case idle =>
    intro g s hcalm hg hrun hleft hnone
    refine ⟨_, exec_holdoffExpiry_idle hcalm hg hrun hleft hnone, ?_, ?_, rfl⟩ <;> rw [grp_modGrp_self]
    rw [grp_modGrp_self]
  case mask =>
    intro v s hcalm hlinked hdecodes hv
    delta exec
    exact bar4Write_quiet (f := fun t => t.modVec v fun e => { e with masked := true }) hcalm hlinked hdecodes hv
      ((toL0_due s).trans (due_of_calm hcalm))
  case maskAll =>
    intro s hlinked hdue
    delta exec
    exact cfgAccess_modPcie (fun x => { x with funcMask := true }) hlinked hdue
  case unmask =>
    intro v s hcalm hlinked hdecodes hv hready henable hfunc hbme hpba
    obtain ⟨-, hd0⟩ : s.pcie.mse = true ∧ s.pcie.d3hot = false := by simpa [State.decodes] using hdecodes
    set u := s.toL0.modVec v fun e => { e with masked := false } with hu
    have hpcie : u.pcie = { s.pcie with inL1 := false, msix := mset s.pcie.msix v { s.vec v with masked := false } } := by
      rw [hu, State.toL0_eq]
      rfl
    have hvec : u.vec v = { s.vec v with masked := false } := by rw [hu, vec_modVec_self, toL0_vec]
    have hsent : u.unmasked [v] = State.sendMsix { u with pcie := { u.pcie with pba := 0 } } v :=
      unmasked_of_one hv [v] (by rw [hu]; exact (congrArg Boot.state (toL0_boot s)).trans hready)
        (by rw [State.busOpen, hpcie]; simp [hbme, hd0]) (by rw [hpcie]; exact hpba)
        (by rw [State.vecOpen, hvec, hpcie]; simp [henable, hfunc])
    have hflat : State.sendMsix { u with pcie := { u.pcie with pba := 0 } } v =
        State.emit { u with pcie := { u.pcie with pba := 0 } } (.msix (u.vec v).addr (u.vec v).data) := by
      have hl0 : (State.toL0 { u with pcie := { u.pcie with pba := 0 } }) = { u with pcie := { u.pcie with pba := 0 } } :=
        if_neg (by rw [hpcie]; simp)
      exact congrArg (State.emit · _) hl0
    have hdue : (u.unmasked [v]).due = [] := by
      rw [hsent, hflat]
      exact (toL0_due s).trans (due_of_calm hcalm)
    refine ⟨u.unmasked [v], ?_, ?_, ?_, ?_⟩
    · delta exec
      exact bar4Write_quiet (f := fun t => (t.modVec v fun e => { e with masked := false }).unmasked [v]) hcalm hlinked hdecodes hv
        hdue
    · rw [hsent, hflat, hvec, hu, State.toL0_eq]
      rfl
    · rw [hsent, hflat]
      rfl
    · rw [hsent, hflat]
      exact congrArg MsixEntry.masked hvec
  case table =>
    intro v f w s hcalm hlinked hdecodes hv
    refine ⟨_, exec_msixTableWrite f w hcalm hlinked hdecodes hv, ?_, fun u hu => ?_, rfl⟩
    · rw [vec_modVec_self, toL0_vec]
      cases f <;> rfl
    · rw [vec_modVec_ne _ _ hu, toL0_vec]

end Sys2Proof.Interrupts
end

section
/-!
PROOF. Power, the resets and the boot rows (R53, R59, R92, R108, R109, R543, R546 to R561).
-/
namespace Sys2Proof.BootRows
open Sys2Proof.Machine Sys2Proof.SelfTimed Sys2Proof.RegisterPages Sys2Proof.HostLink Sys2Proof.FaultRecords

/-! ### Power and reset -/

/-- The attempt that a reset abandons is recorded; everything else that survives is as it was (R92, R108). -/
theorem resetAll_eq (s : State) :
    s.resetAll = { s.cleared with boot := { s.cleared.boot with history := s.resetAll.boot.history } } := by
  unfold State.resetAll
  split <;> rfl

/-- A live part is powered and not sealed. -/
theorem live_parts {s : State} (h : s.live = true) : s.power.powered = true ∧ s.faults.stop ≠ .sealed := by
  simpa [State.live] using h

theorem exec_perstNRise {s : State} (x : Straps) (hlive : s.live = true) (hlow : s.power.perstHigh = false)
    (htap : s.jtag.instr.holds = false) :
    exec (.perstNRise x) s = .next (State.startAttempt { s with
      power := { s.power with perstHigh := true }, boot := { s.boot with straps := x } } true true false) := by
  obtain ⟨hpower, hstop⟩ := live_parts hlive
  have hexec : exec (.perstNRise x) s = execPerstNRise x s := rfl
  rw [hexec, execPerstNRise]
  simp only [hpower, hlow, hstop, htap, Bool.not_true, Bool.false_eq_true, or_self, if_false]

theorem exec_perstNAssert {s : State} (hlive : s.live = true) (hhigh : s.power.perstHigh = true) :
    exec .perstNAssert s = .next { s.resetAll.dropLink with
      power := { s.resetAll.dropLink.power with perstHigh := false }, time := {}, jtag := { s.jtag with held := false } } := by
  obtain ⟨hpower, hstop⟩ := live_parts hlive
  have hexec : exec .perstNAssert s = execPerstNAssert s := rfl
  rw [hexec, execPerstNAssert]
  simp only [hpower, hhigh, hstop, Bool.not_true, Bool.false_eq_true, or_self, if_false]

theorem exec_hotReset {s : State} (hlive : s.live = true) (hlinked : s.linked = true) :
    exec .hotReset s = .next (State.startAttempt { s.resetAll.dropLink with jtag := s.jtag } true false false) := by
  obtain ⟨-, hstop⟩ := live_parts hlive
  have hexec : exec .hotReset s = execHotReset s := rfl
  rw [hexec, execHotReset]
  simp only [hlinked, hstop, Bool.not_true, Bool.false_eq_true, if_false]

theorem exec_flr {s : State} (hlive : s.live = true) (hlinked : s.linked = true) :
    exec .flr s = .next (State.startAttempt { s.resetAll with jtag := s.jtag } true false false) := by
  obtain ⟨-, hstop⟩ := live_parts hlive
  have hexec : exec .flr s = execFlr s := rfl
  rw [hexec, execFlr]
  simp only [hlinked, hstop, Bool.not_true, Bool.false_eq_true, or_self, if_false]

/-- Settles O6: each reset ends in the cleared state with the record of the abandoned attempt, and what its row adds. -/
theorem powerAndResetRowsRestart : Obligations.PowerAndResetRowsRestart := by
  unfold Obligations.PowerAndResetRowsRestart
  refine ⟨fun s => rfl, ?powerOn, ?rise, ?assert, ?hotReset, ?flr⟩
  case powerOn =>
    intro s hoff
    have hexec : exec .powerOn s = execPowerOn s := rfl
    rw [hexec, execPowerOn, if_neg (by simp [hoff])]
  case rise =>
    intro x s hlive hlow htap
    exact ⟨_, exec_perstNRise x hlive hlow htap, rfl, rfl, rfl, rfl, rfl, rfl, rfl, rfl⟩
  case assert =>
    intro s hlive hhigh
    refine ⟨_, exec_perstNAssert hlive hhigh, rfl, rfl, rfl, ?_⟩
    rw [resetAll_eq]
    exact ⟨rfl, rfl, rfl, rfl, rfl, rfl, rfl, rfl⟩
  case hotReset =>
    intro s hlive hlinked
    refine ⟨_, exec_hotReset hlive hlinked, ?_⟩
    rw [resetAll_eq]
    exact ⟨rfl, rfl, rfl, rfl, rfl, rfl, rfl, rfl, rfl, rfl, rfl⟩
  case flr =>
    intro s hlive hlinked
    refine ⟨_, exec_flr hlive hlinked, ?_⟩
    rw [resetAll_eq]
    exact ⟨rfl, rfl, rfl, rfl, rfl, rfl, rfl, rfl, rfl, rfl, rfl⟩

/-! ### The boot stages -/

/-- A stage 4 without a failed port goes on where a quadrant remains (R549, R556). -/
theorem exec_bootStageEnd_four {r : StageResult} {s : State} (hcalm : s.calm = true) (hstate : s.boot.state = .booting)
    (hrun : s.boot.running = true) (hstage : s.boot.stage = 4) (hfail : r.fail = none)
    (hremains : ((List.range 4).any fun q => s.remains q) = true) :
    exec (.bootStageEnd r) s = .next { s with boot := { s.boot with stage := 5 } } := by
  have hexec : exec (.bootStageEnd r) s = execBootStageEnd r s := rfl
  have hnone : s.stageFail r.fail = none := by simp [State.stageFail, hstage, hfail]
  have hunits : s.stageUnits r = [] := by simp [State.stageUnits, hstage]
  have hdone : s.stageUnitsDone r = { s with boot := { s.boot with stage := 5 } } := by
    simp [State.stageUnitsDone, hunits, hstage, hremains, State.nextStage]
  rw [hexec, execBootStageEnd, act_quiet _ _ (live_of_calm hcalm)] <;> simp only [hstate, hrun, hstage, hnone, hdone] <;> simp
  exact due_of_calm hcalm

/-- The part with its attempt recorded as FAILED, counted, and with its cause (R557). -/
def failedAttempt (s : State) (sub inst : Nat) : State :=
  { s.pushHistory 2 sub with
    boot := { (s.pushHistory 2 sub).boot with
      attempts := min (s.boot.attempts + 1) 15, cause := { stage := s.boot.stage, sub := sub, inst := inst } } }

theorem failAttempt_eq {s : State} (sub inst : Nat) (hwindow : s.boot.window = false) :
    s.failAttempt sub inst = if (failedAttempt s sub inst).boot.attempts < s.boot.retryLimit then
      (failedAttempt s sub inst).startAttempt false false false else (failedAttempt s sub inst).enterDormant 1 := by
  unfold State.failAttempt
  exact if_neg (by simp [hwindow])

/-- A failed attempt that is no retry from the window: it is recorded and counted, with its cause, and the next attempt starts or
the part goes dormant (R557, R559). -/
theorem failAttempt_record {s : State} (sub inst : Nat) (hwindow : s.boot.window = false) :
    ∃ e l, (s.failAttempt sub inst).boot.history = e :: l ∧ e.outcome = 2 ∧ e.stage = s.boot.stage ∧
      (s.failAttempt sub inst).boot.attempts = min (s.boot.attempts + 1) 15 ∧
      (s.failAttempt sub inst).boot.cause = { stage := s.boot.stage, sub := sub, inst := inst } ∧
      ((s.failAttempt sub inst).boot.state = .booting ∧ (s.failAttempt sub inst).boot.stage = 1 ∨
        (s.failAttempt sub inst).boot.state = .dormant) ∧
      (s.failAttempt sub inst).due = s.due := by
  refine ⟨{ outcome := 2, stage := s.boot.stage, sub := sub, source := if s.boot.reached6 then s.boot.source else 0,
            duration := s.attemptMs }, s.boot.history.take 3, ?_⟩
  rw [failAttempt_eq sub inst hwindow]
  split
  · exact ⟨rfl, rfl, rfl, rfl, rfl, .inl ⟨rfl, rfl⟩, rfl⟩
  · exact ⟨rfl, rfl, rfl, rfl, rfl, .inr rfl, rfl⟩

theorem exec_stageTimeout {s : State} (hcalm : s.calm = true) (hrun : s.boot.running = true) (hwindow : s.boot.window = false) :
    exec .stageTimeout s =
      .next (s.failAttempt (if s.boot.stage = 6 ∧ s.boot.hostWait then 0x63 else 0x01) 0xFFFF) := by
  have hexec : exec .stageTimeout s = execStageTimeout s := rfl
  obtain ⟨e, l, -, -, -, -, -, -, hdue⟩ :=
    failAttempt_record (s := s) (if s.boot.stage = 6 ∧ s.boot.hostWait then 0x63 else 0x01) 0xFFFF hwindow
  rw [hexec, execStageTimeout, act_quiet _ _ (live_of_calm hcalm)] <;> rw [if_neg (by simp [hrun])]
  rw [hdue, due_of_calm hcalm]

/-- An accepted HOST_GO (R550). -/
theorem exec_hostGo {s : State} (hears : s.hears 1 = true) (hstate : s.boot.state = .booting) (hwait : s.boot.hostWait = true) :
    exec (.hostGo 1) s = .next s.toL0.takeHost := by
  have hexec : exec (.hostGo 1) s = execHostGo 1 s := rfl
  have hdue : s.toL0.takeHost.due = [] := (toL0_due s).trans (due_of_hears hears)
  rw [hexec, execHostGo, hostCmd_quiet _ _ _ hears] <;>
    simp only [rsv_of_clear (show (1 : Word) &&& ~~~(1 : Word) = 0 by decide)] <;>
    simp [hstate, hwait, hdue]

/-- An accepted DORMANT_RETRY without flash programming (R561). -/
theorem exec_dormantRetryGo {s : State} (hears : s.hears 32 = true) (hok : s.boot.windowOk = true) (hbusy : s.boot.busy = false) :
    exec (.dormantRetryGo 1) s = .next (State.startAttempt { s.toL0 with
      boot := { s.toL0.boot with flash := 0, lastResult := 0 } } false false true) := by
  have hexec : exec (.dormantRetryGo 1) s = execDormantRetryGo 1 s := rfl
  have hflash : fld (1 : Word) 3 2 = 0 := by decide
  have hdue : (State.startAttempt { s.toL0 with boot := { s.toL0.boot with flash := 0, lastResult := 0 } } false false true).due =
      [] := (toL0_due s).trans (due_of_hears hears)
  have hrow : ∀ t : State, t = s.toL0 → (if !t.boot.windowOk ∨ t.boot.busy then t.accessBad 32
      else State.startAttempt { t with boot := { t.boot with flash := 0, lastResult := 0 } } false false true) =
      State.startAttempt { s.toL0 with boot := { s.toL0.boot with flash := 0, lastResult := 0 } } false false true := by
    rintro t rfl
    rw [if_neg (by simp [hok, hbusy])]
  rw [hexec, execDormantRetryGo, hostCmd_quiet _ _ _ hears] <;>
    simp only [rsv_of_clear (show (1 : Word) &&& ~~~(0xD : Word) = 0 by decide), hflash]
  · exact congrArg _ (hrow _ rfl)
  · exact (congrArg State.due (hrow _ rfl)).trans hdue

/-! ### The thermal trip -/

/-- A source at S5 seals the part, whatever its state (R533, R543). -/
theorem fireAll_seals {s : State} {h : FaultHit} (hknown : (sourceInfo h.source).isSome = true) (hsource : h.source = 0)
    (hsev : s.severity 0 = 5) :
    (s.fireAll [h]).faults.stop = .sealed ∧ (s.fireAll [h]).power.thermtrip = true ∧ (s.fireAll [h]).mem = [] ∧
      (s.fireAll [h]).due = s.due := by
  have hhit : s.hitSeverity h = 5 := by simp [State.hitSeverity, hsource, hsev]
  have hreact : s.reactionOf h 5 = .sealed := by simp [State.reactionOf]
  have hlogged : FaultUnitOnly s ((s.record (s.hitRecord h 5 .sealed)).pulse 5) :=
    (faultUnitOnly_record s _).trans (faultUnitOnly_pulse _ 5)
  have hfire : s.fireAll [h] = ((s.record (s.hitRecord h 5 .sealed)).pulse 5).seal 0 := by
    rw [fireAll_single s h hknown, hhit, hreact, State.correctedAer, if_neg (by omega), State.react, hsource]
  rw [hfire]
  refine ⟨rfl, ?_, rfl, ?_⟩
  · simp [State.seal]
  · exact (report_due _ _).trans ((due_pulse _ _).trans (due_record _ _))

/-- Settles O7: a stage goes on, an attempt fails or starts, and the trip seals the part. -/
theorem bootRowsMoveTheAttempt : Obligations.BootRowsMoveTheAttempt := by
  unfold Obligations.BootRowsMoveTheAttempt
  refine ⟨fun r s hcalm hstate hrun hstage hfail hremains => exec_bootStageEnd_four hcalm hstate hrun hstage hfail hremains,
    ?timeout, ?hostGo, ?retry, ?trip⟩
  case timeout =>
    intro s hcalm hrun hwindow
    obtain ⟨e, l, hhistory, houtcome, hstage, hattempts, hcause, hnext, -⟩ :=
      failAttempt_record (s := s) (if s.boot.stage = 6 ∧ s.boot.hostWait then 0x63 else 0x01) 0xFFFF hwindow
    exact ⟨_, e, l, exec_stageTimeout hcalm hrun hwindow, hhistory, houtcome, hstage, hattempts, by rw [hcause], by rw [hcause],
      hnext⟩
  case hostGo =>
    intro s hears hstate hwait
    refine ⟨_, exec_hostGo hears hstate hwait, rfl, rfl, ?_, ?_⟩
    · simp only [State.takeHost, toL0_reg]
    · simp only [State.takeHost, toL0_reg]
  case retry =>
    intro s hears hok hbusy
    exact ⟨_, exec_dormantRetryGo hears hok hbusy, rfl, rfl, rfl, rfl, rfl⟩
  case trip =>
    intro m s hcalm hsev
    have hexec : exec (.thermalTrip m) s = execThermalTrip m s := rfl
    have hopen : ¬(s.power.powered = true ∧ s.faults.stop = .sealed) := fun h => (live_parts (live_of_calm hcalm)).2 h.2
    obtain ⟨hstop, htrip, hmem, hdue⟩ :=
      fireAll_seals (s := s) (h := { source := 0, inst := m, job := none, info := 0 }) rfl rfl hsev
    refine ⟨_, ?_, hstop, htrip, hmem⟩
    rw [hexec, execThermalTrip, if_neg hopen, act_live _ _ (live_of_calm hcalm)]
    exact congrArg _ (settle_fault_of_calm hcalm (hdue.trans (due_of_calm hcalm)))

end Sys2Proof.BootRows
end

section
/-!
PROOF. The egress queues: their commands, the packets that they take, and the frames that depart (R511 to R530).
-/
namespace Sys2Proof.EgressQueues
open Sys2Proof.Machine Sys2Proof.SelfTimed Sys2Proof.RegisterPages Sys2Proof.CalderaQueues

/-! ### Queues and ports after a change -/

@[simp] theorem egressQ_modEq_self (s : State) (e : Nat) (f : EgressQ → EgressQ) : (s.modEq e f).egressQ e = f (s.egressQ e) :=
  mgetD_mset_self ..

theorem egressQ_modEq_ne (s : State) {e d : Nat} (f : EgressQ → EgressQ) (h : d ≠ e) : (s.modEq e f).egressQ d = s.egressQ d :=
  mgetD_mset_ne _ _ _ h

@[simp] theorem egressQ_rejoinLink (s : State) (k e : Nat) : (s.rejoinLink k).egressQ e = s.egressQ e := rfl

@[simp] theorem egressQ_eqDone (s : State) (p r q e : Nat) : (s.eqDone p r q).egressQ e = s.egressQ e := rfl

@[simp] theorem due_modEq (s : State) (e : Nat) (f : EgressQ → EgressQ) : (s.modEq e f).due = s.due := rfl

@[simp] theorem due_rejoinLink (s : State) (k : Nat) : (s.rejoinLink k).due = s.due := rfl

@[simp] theorem due_eqDone (s : State) (p r q : Nat) : (s.eqDone p r q).due = s.due := rfl

@[simp] theorem port_rejoinLink (s : State) (k p : Nat) : (s.rejoinLink k).port p = s.port p := rfl

theorem port_modPort_self (s : State) (p : Nat) (f : NetPort → NetPort) : (s.modPort p f).port p = f (s.port p) :=
  mgetD_mset_self ..

/-- The result of a command is its port's (EQ_STATUS). -/
theorem result_eqDone (s : State) (p r q : Nat) : ((s.eqDone p r q).port p).result = r :=
  congrArg NetPort.result (port_modPort_self s p fun x => { x with result := r, cmdSeq := (x.cmdSeq + 1) % 256, queue := q })

@[simp] theorem toL0_egressQ (s : State) (e : Nat) : s.toL0.egressQ e = s.egressQ e := by rw [State.toL0_eq]; rfl

@[simp] theorem toL0_hostReach (s : State) : s.toL0.hostReach = s.hostReach := by rw [State.toL0_eq]; rfl

@[simp] theorem toL0_eqLink (s : State) (x : EgressQ) : s.toL0.eqLink x = s.eqLink x := by rw [State.toL0_eq]; rfl

@[simp] theorem toL0_readTagged (s : State) (a n : Nat) (h : Option (List Byte)) : s.toL0.readTagged a n h = s.readTagged a n h := by
  rw [State.toL0_eq]; rfl

@[simp] theorem toL0_enableCheck (s : State) (p : Nat) (x : EgressQ) (psi : Option (List Byte)) :
    s.toL0.enableCheck p x psi = s.enableCheck p x psi := by rw [State.toL0_eq]; rfl

@[simp] theorem toL0_time (s : State) : s.toL0.time = s.time := by rw [State.toL0_eq]

/-- Nothing of t differs from s but the network units and the pages. -/
def NetOnly (s t : State) : Prop := t = { s with net := t.net, pages := t.pages }

theorem NetOnly.trans {s t u : State} (h : NetOnly s t) (g : NetOnly t u) : NetOnly s u := by
  unfold NetOnly at *
  rw [g, h]

theorem netOnly_modEq (s : State) (e : Nat) (f : EgressQ → EgressQ) : NetOnly s (s.modEq e f) := rfl

theorem netOnly_eqDone (s : State) (p r q : Nat) : NetOnly s (s.eqDone p r q) := rfl

theorem netOnly_rejoinLink (s : State) (k : Nat) : NetOnly s (s.rejoinLink k) := rfl

/-- A queue with a new value, the command's answer, and the scheduler that follows (R526). -/
def answered (s : State) (p q k : Nat) (f : EgressQ → EgressQ) : State := ((s.modEq q f).eqDone p 0x01 q).rejoinLink k

theorem netOnly_answered (s : State) (p q k : Nat) (f : EgressQ → EgressQ) : NetOnly s (answered s p q k f) :=
  ((netOnly_modEq s q f).trans (netOnly_eqDone _ p 0x01 q)).trans (netOnly_rejoinLink _ k)

theorem egressQ_answered (s : State) (p q k : Nat) (f : EgressQ → EgressQ) :
    (answered s p q k f).egressQ q = f (s.egressQ q) := by
  rw [answered, egressQ_rejoinLink, egressQ_eqDone, egressQ_modEq_self]

theorem result_answered (s : State) (p q k : Nat) (f : EgressQ → EgressQ) : ((answered s p q k f).port p).result = 0x01 := by
  rw [answered, port_rejoinLink, result_eqDone]

@[simp] theorem due_answered (s : State) (p q k : Nat) (f : EgressQ → EgressQ) : (answered s p q k f).due = s.due := by
  rw [netOnly_answered]

/-! ### The packetizer of a host queue -/

/-- Only a TS packetizer has work of its own. -/
theorem work_of_not_ts {x : EgressQ} (h : x.isTs = false) : x.work = x := by simp [EgressQ.work, h]

theorem isTs_of_kind_zero {x : EgressQ} (h : x.kind = 0) : x.isTs = false := by simp [EgressQ.isTs, h]

theorem isTs_of_kind_rtp {x : EgressQ} (h : 3 ≤ x.kind) : x.isTs = false := by
  simp only [EgressQ.isTs, Bool.or_eq_false_iff, beq_eq_false_iff_ne]
  omega

/-! ### Commands -/

section
variable {p q : Nat} {s : State} (hp : p < 2) (hq : q < 4096) (hears : s.hears (12 + p) = true)

include hears in
/-- A command of the NETE page that comes out as a known next state. -/
theorem hostCmd_egress {f : State → State} {t : State} (ht : f s.toL0 = t) (hdue : t.due = []) :
    hostCmd (12 + p) s f = .next t := by rw [hostCmd_quiet _ _ _ hears (by rw [ht, hdue]), ht]

include hp hq hears

/-- EQ_ENABLE in the order of its checks (R512). -/
theorem exec_eqEnable {h r : Option (List Byte)} {t : State}
    (ht : (if (s.egressQ q).port ≠ p then s.toL0.eqDone p 0x10 q
      else if (s.egressQ q).enabled then s.toL0.eqDone p 0x11 q
      else if !eqFieldsOk (s.egressQ q) then s.toL0.eqDone p 0x12 q
      else if (s.egressQ q).kind ≠ 0 ∧ ((!isDev ((s.egressQ q).at 8 8) && !s.hostReach) = true ∨
          ((s.egressQ q).isTs = true ∧ (!isDev ((s.egressQ q).at 40 8) && !s.hostReach) = true)) then s.toL0
      else
        match if (s.egressQ q).kind = 0 then some [] else s.readTagged ((s.egressQ q).at 8 8) 128 h with
        | none => s.toL0.eqDone p 0x14 q
        | some l =>
          if s.enableCheck p { s.egressQ q with hdr := l } (if (s.egressQ q).isTs then
              s.readTagged ((s.egressQ q).at 40 8) (188 * (s.egressQ q).at 34 1) r else some []) ≠ 0x01 then
            s.toL0.eqDone p (s.enableCheck p { s.egressQ q with hdr := l } (if (s.egressQ q).isTs then
              s.readTagged ((s.egressQ q).at 40 8) (188 * (s.egressQ q).at 34 1) r else some [])) q
          else answered s.toL0 p q (s.eqLink (s.egressQ q)) fun _ => enabledQ { s.egressQ q with hdr := l }
              ((if (s.egressQ q).isTs then s.readTagged ((s.egressQ q).at 40 8) (188 * (s.egressQ q).at 34 1) r
                else some []).getD []) s.time.ns) = t)
    (hdue : t.due = []) : exec (.eqEnable p q h r) s = .next t := by
  have hexec : exec (.eqEnable p q h r) s = execEqEnable p q h r s := rfl
  rw [hexec, execEqEnable, Nat.mod_eq_of_lt hp]
  refine hostCmd_egress hears ?_ hdue
  simp only [Nat.mod_eq_of_lt hq, toL0_egressQ, toL0_hostReach, toL0_readTagged, toL0_enableCheck, toL0_eqLink, toL0_time]
  exact ht

/-- ENABLE of a queue without a TS packetizer, whose template passes (R512). -/
theorem exec_eqEnable_ok {h r : Option (List Byte)} {l : List Byte} (hport : (s.egressQ q).port = p)
    (hoff : (s.egressQ q).enabled = false) (hfields : eqFieldsOk (s.egressQ q) = true) (hts : (s.egressQ q).isTs = false)
    (hreach : (s.egressQ q).kind ≠ 0 → isDev ((s.egressQ q).at 8 8) = true ∨ s.hostReach = true)
    (htemplate : (if (s.egressQ q).kind = 0 then some [] else s.readTagged ((s.egressQ q).at 8 8) 128 h) = some l)
    (hcheck : s.enableCheck p { s.egressQ q with hdr := l } (some []) = 0x01) :
    exec (.eqEnable p q h r) s = .next (answered s.toL0 p q (s.eqLink (s.egressQ q)) fun _ =>
      enabledQ { s.egressQ q with hdr := l } [] s.time.ns) := by
  have hnear : ¬((s.egressQ q).kind ≠ 0 ∧ ((!isDev ((s.egressQ q).at 8 8) && !s.hostReach) = true ∨
      ((s.egressQ q).isTs = true ∧ (!isDev ((s.egressQ q).at 40 8) && !s.hostReach) = true))) := by
    rintro ⟨hkind, hfar | ⟨htrue, -⟩⟩
    · rcases hreach hkind with hdev | hhost
      · simp [hdev] at hfar
      · simp [hhost] at hfar
    · simp [hts] at htrue
  refine exec_eqEnable hp hq hears ?_ (by simp [due_of_hears hears])
  rw [if_neg (by simp [hport]), if_neg (by simp [hoff]), if_neg (by simp [hfields]), if_neg hnear, htemplate]
  simp [hts, hcheck]

theorem exec_eqDisable_otherPort (hport : (s.egressQ q).port ≠ p) :
    exec (.eqDisable p q) s = .next (s.toL0.eqDone p 0x10 q) := by
  have hexec : exec (.eqDisable p q) s = execEqDisable p q s := rfl
  rw [hexec, execEqDisable, Nat.mod_eq_of_lt hp]
  refine hostCmd_egress hears ?_ (by simp [due_of_hears hears])
  simp only [Nat.mod_eq_of_lt hq, toL0_egressQ, if_pos hport]

/-- DISABLE of a queue in which nothing waits (R528). -/
theorem exec_eqDisable_empty (hport : (s.egressQ q).port = p) (hbuild : (s.egressQ q).build = [])
    (hready : (s.egressQ q).ready = []) (hcopies : (s.egressQ q).copies = []) (hfrees : (s.egressQ q).esFrees = []) :
    exec (.eqDisable p q) s = .next (answered s.toL0 p q (s.eqLink (s.egressQ q)) fun y =>
      { cfg := y.cfg, discarded := y.discarded, sent := y.sent, tokens := y.tokens }) := by
  have hexec : exec (.eqDisable p q) s = execEqDisable p q s := rfl
  rw [hexec, execEqDisable, Nat.mod_eq_of_lt hp]
  refine hostCmd_egress hears ?_ (by simp [due_of_hears hears])
  simp only [Nat.mod_eq_of_lt hq, toL0_egressQ, toL0_eqLink, hport, hbuild, hready, hcopies, hfrees]
  simp [State.eqRelease, State.eqDiscard, b2n, answered]

/-- PSI_UPDATE (R517). -/
theorem exec_psiUpdate : exec (.psiUpdate p q) s = .next (
    if (s.egressQ q).port ≠ p then s.toL0.eqDone p 0x10 q
    else if !(s.egressQ q).enabled ∨ !(s.egressQ q).isTs then s.toL0.eqDone p 0x11 q
    else (s.toL0.modEq q fun x => { x with psiAsked := true }).eqDone p 0x01 q) := by
  have hexec : exec (.psiUpdate p q) s = execPsiUpdate p q s := rfl
  rw [hexec, execPsiUpdate, Nat.mod_eq_of_lt hp]
  refine hostCmd_egress hears ?_ ?_
  · simp only [Nat.mod_eq_of_lt hq, toL0_egressQ]
  · split
    · simp [due_of_hears hears]
    · split <;> simp [due_of_hears hears]

omit hq in
/-- TXSTAMP_CTRL that turns stamps on (R523). -/
theorem exec_txstampEnable_on {v : Word} (hclear : v &&& ~~~0x8000000F = 0) (hlow : 4 ≤ fld v 3 0) (hhigh : fld v 3 0 ≤ 12)
    (hon : v.getLsbD 31 = true) (hoff : (s.port p).stamps.en = false) :
    exec (.txstampEnable p v) s = .next (s.toL0.modPort p fun x => { x with stamps :=
      { en := true, log2 := fld v 3 0, seq := 0
        base := ((s.reg (12 + p) 0x304).toNat * 2 ^ 32 + (s.reg (12 + p) 0x300).toNat) / 64 * 64 } }) := by
  have hexec : exec (.txstampEnable p v) s = execTxstampEnable p v s := rfl
  have hport : s.toL0.port p = s.port p := by rw [State.toL0_eq]; rfl
  rw [hexec, execTxstampEnable, Nat.mod_eq_of_lt hp]
  refine hostCmd_egress hears ?_ ((toL0_due s).trans (due_of_hears hears))
  simp only [rsv_of_clear hclear, if_neg (show ¬(fld v 3 0 < 4 ∨ 12 < fld v 3 0) by omega), hon, toL0_reg, State.modPort, hport,
    hoff, Bool.not_false, Bool.and_self, if_true]

end

/-- A word of TXSTAMP_CTRL whose RSV field is 0 (R15). -/
theorem txstamp_clear {v : Word} (h : fld v 30 4 = 0) : v &&& ~~~0x8000000F = 0 := by
  have hfield : v.toNat / 16 % 2 ^ 27 = 0 := h
  have hwidth : ∀ w : Word, w.toNat / 16 % 2 ^ 27 = (w.extractLsb' 4 27).toNat := fun w => by
    rw [BitVec.extractLsb'_toNat, Nat.shiftRight_eq_div_pow]
  have hextract : v.extractLsb' 4 27 = 0#27 := BitVec.eq_of_toNat_eq (by rw [← hwidth, hfield]; rfl)
  apply BitVec.eq_of_getLsbD_eq
  intro i hi
  have hmask : ∀ j : Fin 32, (~~~(0x8000000F : Word)).getLsbD j = (decide (4 ≤ (j : Nat)) && decide ((j : Nat) < 31)) := by decide
  have hbit : 4 ≤ i → i < 31 → v.getLsbD i = false := fun hlow hhigh => by
    have hzero : (v.extractLsb' 4 27).getLsbD (i - 4) = false := by rw [hextract]; exact BitVec.getLsbD_zero
    rw [BitVec.getLsbD_extractLsb', show 4 + (i - 4) = i by omega] at hzero
    simpa [show i - 4 < 27 by omega] using hzero
  rw [BitVec.getLsbD_and, hmask ⟨i, hi⟩]
  by_cases hlow : 4 ≤ i
  · by_cases hhigh : i < 31
    · simp [hbit hlow hhigh]
    · simp [hhigh]
  · simp [hlow]

/-! ### Repetitions -/

/-- From s to t nothing but the network's own tables changed, and of the egress queues only q. -/
def QueueOnly (q : Nat) (s t : State) : Prop := t = { s with net := t.net } ∧ ∀ e, e ≠ q → t.egressQ e = s.egressQ e

theorem queueOnly_rejoined (s : State) (q k : Nat) (f : EgressQ → EgressQ) : QueueOnly q s ((s.modEq q f).rejoinLink k) :=
  ⟨rfl, fun _ he => egressQ_modEq_ne s f he⟩

section
variable {q : Nat} {s : State} (hcalm : s.calm = true) (hq : q < 4096) (hon : (s.egressQ q).enabled = true)
  (hts : (s.egressQ q).isTs = true)
include hcalm hq hon hts

/-- A repetition while no PSI packets are asked for (R517). -/
theorem exec_psiRepeat_plain (h : Option (List Byte)) (hasked : (s.egressQ q).psiAsked = false) :
    exec (.psiRepeat q h) s = .next ((s.modEq q fun x => ({ x with psiDue := true, psiAsked := false } : EgressQ).work).rejoinLink
      (s.eqLink (s.egressQ q))) := by
  have hexec : exec (.psiRepeat q h) s = execPsiRepeat q h s := rfl
  rw [hexec, execPsiRepeat, act_quiet _ _ (live_of_calm hcalm)] <;>
    simp only [Nat.mod_eq_of_lt hq, hon, hts, hasked, Bool.not_true, Bool.false_eq_true, or_self, false_and, if_false, State.modEq,
      Bool.false_and]
  exact due_of_calm hcalm

/-- A PCR interval ends once the clock runs (R518). -/
theorem exec_pcrDue_running (hclock : (s.egressQ q).stc ≠ none) :
    exec (.pcrDue q) s = .next ((s.modEq q fun x => ({ x with pcrDue := true } : EgressQ).work).rejoinLink
      (s.eqLink (s.egressQ q))) := by
  have hexec : exec (.pcrDue q) s = execPcrDue q s := rfl
  rw [hexec, execPcrDue, act_quiet _ _ (live_of_calm hcalm)] <;>
    simp only [Nat.mod_eq_of_lt hq, hon, hts, hclock, Bool.not_true, Bool.false_eq_true, or_self, if_false]
  exact due_of_calm hcalm

end

/-! ### Departures -/

/-- A host queue after it has sent its next frame (R522, R524). -/
def afterFrame (x : EgressQ) (len : Nat) : EgressQ :=
  { x with
    tokens := x.tokens - (x.counted len * 65536 : Nat), sent := (x.sent + 1) % 2 ^ 32, ipId := (x.ipId + 1) % 65536
    rtpSeq := (x.rtpSeq + 1) % 65536, copies := x.copies.drop 1, build := x.build.drop x.perDgram, ready := x.ready.drop 1
    pcrDue := x.pcrDue && !(x.ready.take 1).any Piece.pcr }

/-- The frame of a host queue leaves as it is, and with neither a stamp nor a buffer nothing else happens (R522, R530). -/
theorem sendFrame_plain {s : State} (k t : Nat) {e : Nat} {b : Piece} {r : List Piece} (hkind : (s.egressQ e).kind = 0)
    (hcopies : (s.egressQ e).copies = []) (hready : (s.egressQ e).ready = b :: r) (hfrees : b.frees = [])
    (hstamp : b.stamp = none) :
    s.sendFrame k e t = (s.emit (.eth k b.bytes)).modEq e fun x => afterFrame (x.fill s.time.ns) b.bytes.length := by
  have hkind' : ((s.egressQ e).fill s.time.ns).kind = 0 := hkind
  have hcopies' : ((s.egressQ e).fill s.time.ns).copies = [] := hcopies
  have hready' : ((s.egressQ e).fill s.time.ns).ready = b :: r := hready
  have hpieces : ((s.egressQ e).fill s.time.ns).nextPieces = [b] := by
    simp [EgressQ.nextPieces, isTs_of_kind_zero hkind', hready']
  have hwork : (afterFrame ((s.egressQ e).fill s.time.ns) b.bytes.length).work =
      afterFrame ((s.egressQ e).fill s.time.ns) b.bytes.length := work_of_not_ts (isTs_of_kind_zero hkind)
  unfold State.sendFrame
  simp only [hkind', hcopies', hpieces, if_true, List.map_cons, List.map_nil, List.flatten_cons, List.flatten_nil, List.append_nil,
    List.head?_cons, Option.bind_some, hstamp, List.flatMap_cons, List.flatMap_nil, hfrees, true_or]
  refine Eq.trans ?_ (congrArg (fun x => (s.emit (.eth k b.bytes)).modEq e fun _ => x) hwork)
  simp only [State.eqRelease, List.foldl_nil, afterFrame, hready', hcopies', List.take_succ_cons, List.take_zero]

/-- A queue's ready frames after a departure, and what the departure leaves. -/
theorem sendFrame_plain_facts {s : State} (k t : Nat) {e : Nat} {b : Piece} {r : List Piece} (hkind : (s.egressQ e).kind = 0)
    (hcopies : (s.egressQ e).copies = []) (hready : (s.egressQ e).ready = b :: r) (hfrees : b.frees = [])
    (hstamp : b.stamp = none) :
    let u := s.sendFrame k e t
    u = { s with net := u.net, out := .eth k b.bytes :: s.out } ∧ (u.egressQ e).sent = ((s.egressQ e).sent + 1) % 2 ^ 32 ∧
      (u.egressQ e).ready = r := by
  intro u
  have hu : u = (s.emit (.eth k b.bytes)).modEq e fun x => afterFrame (x.fill s.time.ns) b.bytes.length :=
    sendFrame_plain k t hkind hcopies hready hfrees hstamp
  have hqueue : u.egressQ e = afterFrame ((s.egressQ e).fill s.time.ns) b.bytes.length := by
    rw [hu, egressQ_modEq_self]
    rfl
  refine ⟨by rw [hu]; rfl, by rw [hqueue]; rfl, ?_⟩
  rw [hqueue]
  exact congrArg (List.drop 1) hready

/-- A port whose groups are not pending hands nothing over at a departure (R525). -/
theorem departBoundary_of_not_pending {s : State} {p : Nat} (k : Nat) (h : (s.page (12 + p)).groups = 0) :
    s.departBoundary p k = s := by
  unfold State.departBoundary
  refine List.foldlRecOn (motive := fun t => t = s) _ _ rfl fun t ht g _ => ?_
  subst ht
  dsimp only
  split
  · exact boundary_of_not_pending (by rw [h]; exact BitVec.getLsbD_zero)
  · rfl

/-- Class c and its picked queue have paid n for the frame of link k (R526). -/
def paid (u : State) (k n c : Nat) (sc : Sched) (cs qs : List Member) : State :=
  { u with net := { u.net with scheds := mset u.net.scheds k { classes := pay n cs, queues := mset sc.queues c (pay n qs) } } }

/-- The decision of a link whose scheduler picks queue e (R526). -/
theorem exec_departureDecision {p l d c e : Nat} {s u : State} {sc : Sched} {cs qs : List Member}
    {picks : List (Option (Nat × List Member))} (hcalm : s.calm = true) (hlink : s.linkOk p l = true)
    (hgroups : (s.page (12 + p)).groups = 0) (hu : u = s.rejoinLink (s.linkOf p l))
    (hsc : sc = mgetD u.net.scheds (s.linkOf p l) {}) (hpicks : picks = (List.range 8).map fun c => u.pickQueue sc c)
    (hclass : pickMember (fun c => match picks.getD c none with
        | some (e, _) => u.eqNeed e
        | none => 0) (pickFuel sc.classes) sc.classes = some (c, cs)) (hqueue : picks.getD c none = some (e, qs)) :
    exec (.departureDecision p l d) s = .next (State.rejoinLink (State.sendFrame
      (paid u (s.linkOf p l) (u.eqNeed e) c sc cs qs) (s.linkOf p l) e (s.time.ns + d)) (s.linkOf p l)).settle := by
  have hexec : exec (.departureDecision p l d) s = execDepartureDecision p l d s := rfl
  subst hu hsc hpicks
  rw [hexec, execDepartureDecision, act_live _ _ (live_of_calm hcalm), if_neg (by simp [hlink])]
  simp only [departBoundary_of_not_pending _ hgroups]
  split
  · next hnone => cases hnone.symm.trans hclass
  · next c' cs' hsome =>
    obtain ⟨rfl, rfl⟩ := Prod.mk.inj (Option.some.inj (hsome.symm.trans hclass))
    rw [hqueue]
    rfl

/-! ### Packets taken -/

theorem eqRelease_nil (s : State) (e : Nat) : s.eqRelease e [] = s := rfl

/-- Queue q without its first packet, whose bytes stand in the link register. -/
def firstRead (s : State) (q : Nat) (l : List Packet) (item : List Byte) : State :=
  let t := s.modClq q fun c => { c with complete := l, reading := none }
  { t with qm := { t.qm with item := item } }

theorem clq_firstRead (s : State) (q : Nat) (l : List Packet) (item : List Byte) :
    (firstRead s q l item).clq q = { s.clq q with complete := l, reading := none } :=
  clq_modClq_self s q fun c => { c with complete := l, reading := none }

/-- The whole first packet of a queue that holds back no flush (R430). -/
theorem readClq_whole {s : State} {q : Nat} {p : Packet} {l : List Packet} (hon : (s.clq q).enabled = true)
    (hreading : (s.clq q).reading = none) (hcomplete : (s.clq q).complete = p :: l) (hflush : (s.clq q).flushPending = false) :
    s.readClq q (p.bytes q).length = (firstRead s q l (p.bytes q)).cellEvents := by
  have hall : ((p.bytes q).drop 0).take (p.bytes q).length = p.bytes q := by simp
  have hpoint : (firstRead s q l (p.bytes q)).flushPoint q = firstRead s q l (p.bytes q) := by
    unfold State.flushPoint
    exact if_neg (by rw [clq_firstRead, hflush]; simp)
  unfold State.readClq
  simp only [hon, hreading, hcomplete, hall, Nat.zero_add, Nat.le_refl, decide_true, if_true]
  exact congrArg State.cellEvents hpoint

/-- What the read leaves of the queue and of the part. -/
theorem readClq_whole_facts {s : State} {q : Nat} {p : Packet} {l : List Packet} (hon : (s.clq q).enabled = true)
    (hreading : (s.clq q).reading = none) (hcomplete : (s.clq q).complete = p :: l) (hflush : (s.clq q).flushPending = false) :
    let t := s.readClq q (p.bytes q).length
    t = { s with qm := t.qm, pages := t.pages } ∧ (t.clq q).complete = l := by
  intro t
  have ht := readClq_whole hon hreading hcomplete hflush
  refine ⟨by rw [show t = _ from ht]; rfl, ?_⟩
  rw [show t = _ from ht]
  exact congrArg Clq.complete (clq_firstRead s q l (p.bytes q))

section
variable {q e : Nat} {p : Packet} {l : List Packet} {s : State} (hcalm : s.calm = true) (hq : q < 4096)
  (hon : (s.clq q).enabled = true) (hconsumer : (s.clq q).cfg.consumer = 1) (hid : (s.clq q).cfg.consumerId = e)
  (hreading : (s.clq q).reading = none) (hcomplete : (s.clq q).complete = p :: l) (hnet : s.netUp = true)
include hcalm hq hon hconsumer hid hreading hcomplete hnet

/-- A packet for a disabled queue (R528). -/
theorem exec_egressPacketTake_disabled (h : Option (List Byte)) (hoff : (s.egressQ e).enabled = false) {t : State}
    (ht : ((s.readClq q (p.bytes q).length).eqRelease e (s.letsOf e p)).eqDiscard e 1 = t) (hdue : t.due = []) :
    exec (.egressPacketTake q h) s = .next t := by
  have hexec : exec (.egressPacketTake q h) s = execEgressPacketTake q h s := rfl
  subst ht
  rw [hexec, execEgressPacketTake, act_quiet _ _ (live_of_calm hcalm)] <;>
    simp only [Nat.mod_eq_of_lt hq, hreading, hcomplete, hon, hconsumer, hnet, hid, hoff, ne_eq, not_true_eq_false, Bool.not_true,
      Bool.not_false, Bool.false_eq_true, or_self, true_or, if_true, if_false]
  exact hdue

/-- A packet of bytes for an enabled queue that has use for it, on a link that is up (R530). -/
theorem exec_egressPacketTake_data (h : Option (List Byte)) (hopen : (s.egressQ e).enabled = true)
    (hup : (s.link (s.eqLink (s.egressQ e))).up = true) (htwin : s.isTwin e = false) (hwants : (s.egressQ e).wants = true)
    (htype : p.crust.typ = .data) {t : State}
    (ht : ((s.readClq q (p.bytes q).length).takePacket e p p.payload).rejoinLink (s.eqLink (s.egressQ e)) = t) (hdue : t.due = []) :
    exec (.egressPacketTake q h) s = .next t := by
  have hexec : exec (.egressPacketTake q h) s = execEgressPacketTake q h s := rfl
  have hdata : s.packetData p h = some p.payload := by simp [State.packetData, htype]
  subst ht
  rw [hexec, execEgressPacketTake, act_quiet _ _ (live_of_calm hcalm)] <;>
    simp only [Nat.mod_eq_of_lt hq, hreading, hcomplete, hon, hconsumer, hnet, hid, hopen, hup, htwin, hwants, htype, hdata, ne_eq,
      not_true_eq_false, Bool.not_true, Bool.false_eq_true, or_self, false_and, reduceCtorEq, if_false]
  exact hdue

end

/-- A whole host frame waits, padded to 60 bytes (R522). -/
theorem takePacket_host {s : State} {e : Nat} {p : Packet} (htype : p.crust.typ = .data) (hkind : (s.egressQ e).kind = 0)
    (hfits : p.payload.length + 4 ≤ s.maxFrame (s.egressQ e).port) (hplain : bit p.crust.tag 15 = false) :
    s.takePacket e p p.payload = s.modEq e fun x => { x with
      ready := x.ready ++ [{ bytes := p.payload ++ List.replicate (60 - p.payload.length) 0 }] } := by
  have hlets : p.lets = [] := by simp [Packet.lets, htype]
  unfold State.takePacket
  simp [htype, hkind, hplain, hlets, Nat.not_lt.2 hfits]

/-- One discard is counted (R528). -/
theorem discarded_eqDiscard (s : State) (e : Nat) : ((s.eqDiscard e 1).egressQ e).discarded =
    ((s.egressQ e).discarded + 1) % 2 ^ 32 := by
  refine (congrArg EgressQ.discarded (egressQ_modEq_self s e fun x => { x with discarded := (x.discarded + 1) % 2 ^ 32 })).trans ?_
  rfl

/-- Settles O58: the commands answer in the order of their checks, and a host frame enters and leaves its queue whole. -/
theorem egressRows : Obligations.EgressRows := by
  unfold Obligations.EgressRows
  refine ⟨fun p q h r s hp hq hears => ⟨?otherPort, ?again, ?fields, ?enable, ?template, ?disable, ?psi⟩,
    fun q h s hcalm hq hon hts => ⟨?psiRepeat, ?pcr⟩, ?depart, ?send, ?stamps,
    fun q e p l h s hcalm hq hon hconsumer hid hreading hcomplete hflush hnet htype htwin => ⟨?take, ?discard⟩⟩
  case otherPort =>
    intro hport
    refine ⟨exec_eqEnable hp hq hears (by rw [if_pos hport]) (by simp [due_of_hears hears]),
      exec_eqDisable_otherPort hp hq hears hport, ?_⟩
    rw [exec_psiUpdate hp hq hears, if_pos hport]
  case again =>
    intro hport hon
    exact exec_eqEnable hp hq hears (by rw [if_neg (by simp [hport]), if_pos hon]) (by simp [due_of_hears hears])
  case fields =>
    intro hport hoff hfields
    exact exec_eqEnable hp hq hears
      (by rw [if_neg (by simp [hport]), if_neg (by simp [hoff]), if_pos (by simp [hfields])]) (by simp [due_of_hears hears])
  case enable =>
    intro hport hoff hfields hkind htwin
    have hkind' : ({ s.egressQ q with hdr := [] } : EgressQ).kind = 0 := hkind
    have htwin' : ({ s.egressQ q with hdr := [] } : EgressQ).twinEn = false := htwin
    exact ⟨_, exec_eqEnable_ok hp hq hears hport hoff hfields (isTs_of_kind_zero hkind) (fun hne => absurd hkind hne)
      (if_pos hkind) (by simp [State.enableCheck, hkind', htwin']), netOnly_answered .., egressQ_answered .., result_answered ..⟩
  case template =>
    intro l hport hoff hfields hkind htwin hreach hread htemplate hlargest
    have hkind' : ({ s.egressQ q with hdr := l } : EgressQ).kind ≠ 0 := by
      show (s.egressQ q).kind ≠ 0
      omega
    have htwin' : ({ s.egressQ q with hdr := l } : EgressQ).twinEn = false := htwin
    have hts' : ({ s.egressQ q with hdr := l } : EgressQ).isTs = false := isTs_of_kind_rtp (x := { s.egressQ q with hdr := l }) hkind
    exact ⟨_, exec_eqEnable_ok hp hq hears hport hoff hfields (isTs_of_kind_rtp hkind) (fun _ => hreach)
      ((if_neg hkind').trans hread) (by simp [State.enableCheck, hkind', hts', htwin', htemplate, Nat.not_lt.2 hlargest]),
      netOnly_answered .., egressQ_answered .., result_answered ..⟩
  case disable =>
    intro hport hbuild hready hcopies hfrees
    refine ⟨_, exec_eqDisable_empty hp hq hears hport hbuild hready hcopies hfrees, netOnly_answered .., ?_, ?_, ?_, ?_,
      result_answered ..⟩ <;> rw [egressQ_answered] <;> simp only [toL0_egressQ]
  case psi =>
    intro hport hon hts
    rw [exec_psiUpdate hp hq hears, if_neg (by simp [hport]), if_neg (by simp [hon, hts])]
  case psiRepeat =>
    intro hasked
    obtain ⟨hframe, hother⟩ := queueOnly_rejoined s q (s.eqLink (s.egressQ q)) fun x =>
      ({ x with psiDue := true, psiAsked := false } : EgressQ).work
    refine ⟨_, exec_psiRepeat_plain hcalm hq hon hts h hasked, hframe, ?_, hother⟩
    rw [egressQ_rejoinLink, egressQ_modEq_self, ← hasked]
  case pcr =>
    intro hclock
    obtain ⟨hframe, hother⟩ := queueOnly_rejoined s q (s.eqLink (s.egressQ q)) fun x => ({ x with pcrDue := true } : EgressQ).work
    refine ⟨_, exec_pcrDue_running hcalm hq hon hts hclock, hframe, ?_, hother⟩
    rw [egressQ_rejoinLink, egressQ_modEq_self]
  case depart =>
    intro p l d k c e n u sc cs qs picks b r s hcalm hlink hk hgroups hu hsc hpicks hclass hqueue hn hkind hcopies hready hfrees
      hstamp
    subst hk hn
    have hsame : u.egressQ e = s.egressQ e := by rw [hu]; rfl
    set v : State := paid u (s.linkOf p l) (u.eqNeed e) c sc cs qs with hv
    have hqv : v.egressQ e = s.egressQ e := hsame
    obtain ⟨hframe, hsent, hrest⟩ := sendFrame_plain_facts (s := v) (s.linkOf p l) (s.time.ns + d) (by rw [hqv]; exact hkind)
      (by rw [hqv]; exact hcopies) (by rw [hqv]; exact hready) hfrees hstamp
    have hdue : (State.rejoinLink (v.sendFrame (s.linkOf p l) e (s.time.ns + d)) (s.linkOf p l)).due = [] := by
      show (v.sendFrame (s.linkOf p l) e (s.time.ns + d)).due = []
      rw [hframe, hv, hu]
      exact due_of_calm hcalm
    refine ⟨_, exec_departureDecision hcalm hlink hgroups hu hsc hpicks hclass hqueue, rfl, ?_⟩
    rw [State.settle_of_due _ hdue]
    refine ⟨?_, ?_, hrest, ?_, ?_⟩
    · show (v.sendFrame (s.linkOf p l) e (s.time.ns + d)).out = _
      rw [hframe, hv, hu]
      rfl
    · exact hsent.trans (by rw [hqv])
    · show (v.sendFrame (s.linkOf p l) e (s.time.ns + d)).mem = _
      rw [hframe, hv, hu]
      rfl
    · show (v.sendFrame (s.linkOf p l) e (s.time.ns + d)).jobs = _
      rw [hframe, hv, hu]
      rfl
  case send =>
    intro k e t s hcopies hkind hready hall
    obtain ⟨b, r, hbr⟩ := List.exists_cons_of_ne_nil hready
    obtain ⟨hfrees, hstamp⟩ := hall b (by rw [hbr]; exact List.mem_cons_self)
    obtain ⟨hframe, hsent, hrest⟩ := sendFrame_plain_facts k t hkind hcopies hbr hfrees hstamp
    refine ⟨?_, hsent, by rw [hrest, hbr]; rfl⟩
    rw [hframe, hbr]
    rfl
  case stamps =>
    intro p v s hp hears hrsv hlow hhigh hon hoff
    refine ⟨_, exec_txstampEnable_on hp hears (txstamp_clear hrsv) hlow hhigh hon hoff, rfl, ?_⟩
    rw [port_modPort_self]
  case take =>
    intro hopen hup hkind hready hfits hplain
    obtain ⟨hframe, hleft⟩ := readClq_whole_facts hon hreading hcomplete hflush
    set u := s.readClq q (p.bytes q).length
    have hqueue : u.egressQ e = s.egressQ e := by rw [hframe]; rfl
    have htaken : u.takePacket e p p.payload = u.modEq e fun x => { x with
        ready := x.ready ++ [{ bytes := p.payload ++ List.replicate (60 - p.payload.length) 0 }] } :=
      takePacket_host htype (by rw [hqueue]; exact hkind) (by rw [hqueue, hframe]; exact hfits) hplain
    have hwants : (s.egressQ e).wants = true := by simp [EgressQ.wants, isTs_of_kind_zero hkind, hready]
    have hdue : u.due = [] := by rw [hframe]; exact due_of_calm hcalm
    refine ⟨_, exec_egressPacketTake_data hcalm hq hon hconsumer hid hreading hcomplete hnet h hopen hup htwin hwants htype
      (congrArg (State.rejoinLink · _) htaken) hdue, hleft, ?_, ?_⟩
    · show u.mem = s.mem
      rw [hframe]
    · rw [egressQ_rejoinLink, egressQ_modEq_self, hqueue, hready]
      rfl
  case discard =>
    intro hoff
    obtain ⟨hframe, hleft⟩ := readClq_whole_facts hon hreading hcomplete hflush
    set u := s.readClq q (p.bytes q).length
    have hlets : s.letsOf e p = [] := by simp [State.letsOf, Packet.lets, htype]
    have hqueue : u.egressQ e = s.egressQ e := by rw [hframe]; rfl
    have hdue : u.due = [] := by rw [hframe]; exact due_of_calm hcalm
    refine ⟨u.eqDiscard e 1, exec_egressPacketTake_disabled hcalm hq hon hconsumer hid hreading hcomplete hnet h hoff
      (by rw [hlets, eqRelease_nil]) hdue, hleft, ?_, ?_⟩
    · show u.mem = s.mem
      rw [hframe]
    · rw [discarded_eqDiscard, hqueue]

end Sys2Proof.EgressQueues
end
